-- ==== Sys2Proof/Word.lean ====
section
/-! DEFINITION. The plain data types every other file uses: 64-bit words, bytes, 64-byte lines, sparse maps. -/
namespace Sys2Proof

/-- A register or general-purpose value. -/
abbrev Word := BitVec 64
/-- One byte of memory. -/
abbrev Byte := BitVec 8
/-- One 64-byte line; byte `i` is bits `8i+7 .. 8i` (little-endian, R45). -/
abbrev Line := BitVec 512

/-- A sparse map from natural numbers: keys strictly rising, and no entry equal to the default
that an unlisted key reads as (the default is the argument of `SMap.get` and `SMap.set`). -/
abbrev SMap (α : Type) := List (Nat × α)

end Sys2Proof
end

