-- ==== Sys2Proof/Syntax.lean ====
section
/-! DEFINITION. The commands of the block: one constructor of `Instr` per row of spec/opcode_table.json,
with the operands the row's event carries, and the plain types those operands use. -/
namespace Sys2Proof

/-- Privilege levels (R106), in ascending order. -/
inductive Lvl | u | k | h | m
deriving DecidableEq, Repr

/-- Number of a level (R106). -/
def Lvl.num : Lvl → Nat | .u => 0 | .k => 1 | .h => 2 | .m => 3

/-- Who makes a register access (R36, R37, R59). -/
inductive Agent
  /-- a core, at the level of the access -/
  | core (pcn : Nat) (lvl : Lvl)
  /-- the Sett, through its own stop -/
  | sett
  /-- the JTAG TAP (R493) -/
  | jtag
  /-- the twin partner, through function `fn` (0 is PF0) -/
  | partner (fn : Nat)
deriving DecidableEq, Repr

/-- How a system-register instruction combines its source with the register; `read`: csrrs or csrrc with x0, which does not write. -/
inductive CsrOp | write | set | clear | read
deriving DecidableEq, Repr

/-- What a configuration write of the twin partner sets (R423, R435). -/
inductive CfgField
  | busMaster (on : Bool)
  | d3hot (on : Bool)
  | vfEnable (on : Bool)
  | numVfs (n : Nat)
  | msixEnable (on : Bool)
  /-- Device Control: MPS and MRRS in bytes; Device Control 2: the completion timeout's encoding -/
  | mps (bytes : Nat)
  | mrrs (bytes : Nat)
  | cto (enc : Nat)
  /-- AER Uncorrectable, and Correctable Error Status, write 1 to clear -/
  | aerClear (mask : Nat)
  | corClear (mask : Nat)
deriving DecidableEq, Repr

/-- A Jexzar instruction at work: its core, its place in program order, its PC and its length in bytes. -/
structure Ins where
  pcn : Nat
  /-- place in the core's program order (the oldest unretired instruction is `Core.next`) -/
  seq : Nat
  pc : Word
  ilen : Nat
  /-- the instruction's bits, zero-extended -/
  bits : Word
deriving DecidableEq, Repr

/-- What a register write names. -/
inductive RegTarget
  /-- `size` bytes (4 or 8) at byte `off` of the on-chip register space (R32, R33) -/
  | ocr (off size : Nat)
  /-- system register `num`, by instruction `i`; `rd` receives the old value -/
  | csr (i : Ins) (num rd : Nat) (op : CsrOp)
  /-- `size` bytes at byte `off` of the PF0 registers (R443), written by the partner -/
  | pf0 (off size : Nat)
  /-- `size` bytes at byte `off` of VF page `v`, partner face (R444) -/
  | vf (v off size : Nat)
deriving DecidableEq, Repr

/-- What the training assist finds on one channel at bring-up (R549, R323). -/
structure ChanProbe where
  /-- MC.GEOM as established -/
  geom : Nat
  /-- bytes of trained capacity of the channel -/
  bytes : Nat
  /-- TIMING.RATE in force after training -/
  rate : Nat
  /-- a DIMM was left out -/
  leftOut : Bool
  /-- the channel is disabled (DIMM 0 failed, unsupported, or no trained DIMM) -/
  disabled : Bool
  /-- what training established at each rate: register offsets of timing set A and their values -/
  trained : List (Nat × List (Nat × Nat))
deriving DecidableEq, Repr

/-- What the hardware answers during one bring-up (R548 to R550). -/
structure Probe where
  chans : List ChanProbe
  /-- lanes that failed the check pattern of stage 4: stop and link of the sender, lane -/
  laneBad : List (Nat × Nat × Nat)
  /-- logical Hoard banks whose march failed in stage 5 -/
  marchFail : List Nat
  /-- a domain did not power in time -/
  domainFail : Bool
  /-- row repairs that were applied in stage 6 (index into the pending list) -/
  repaired : List Nat
deriving DecidableEq, Repr

/-- What the JTAG TAP does to the flash in BOOT (R464). -/
inductive JtagOp
  /-- erase the 64 KiB block -/
  | eraseBlock (blk : Nat)
  /-- program bytes at a flash address of a slot or of factory data -/
  | program (addr : Nat) (data : List Byte)
  /-- program a boot-select record -/
  | programBsel (blk page seq slot : Nat) (trial : Bool) (attempts : Nat)
  /-- read bytes -/
  | read (addr len : Nat)
deriving DecidableEq, Repr

/-- Where an instruction's result goes. -/
inductive Dst
  | none
  /-- integer register `n` -/
  | x (n : Nat)
  /-- floating-point register `n` -/
  | f (n : Nat)
  /-- bytes from `off` of vector register `n` -/
  | v (n off : Nat)
deriving DecidableEq, Repr

/-- A message of the coherence protocol or of a memory controller (R227, R277, R278, R304). `agent` is the
end that is not the home, numbered as Warren pointers (R256). -/
structure Msg where
  agent : Nat
  /-- PA[47:6] -/
  line : Nat
  txn : Nat := 0
  arg : Nat := 0
  data : Line := 0
  mask : BitVec 64 := 0
  lid : Nat := 0
  gen : Nat := 0
  qport : Nat := 0
  fclass : Nat := 0
  poison : Bool := false
deriving DecidableEq, Repr


/-- The commands, one constructor per row of spec/opcode_table.json, in its order. -/
inductive Instr
  /-- COLD_RESET (R542): Release of COLD_RST_N, or VIN rising above the start threshold, resets every domain; the Sett boots, replays the journal and reaches STANDBY. -/
  | coldReset (cause va vb : Nat) (tpRoot : Bool)
  /-- BRINGUP_START (R548): Leaving STANDBY, on AUTO_ON or PWR.POWER ON, runs bring-up stages 3 to 8: sparing map, main domain, marches, DRAM training, ports and payload. -/
  | bringupStart (probe : Probe)
  /-- HAND_OFF (R547): At the end of bring-up the Sett releases every hart in service at M in ascending hart ID and opens channel 0. -/
  | handOff
  /-- WARM_RST_N (R543): An asserting edge on WARM_RST_N past its filter resets the main domain and runs the WARM bring-up, unless it is ignored or merged. -/
  | warmRstN
  /-- REG_WRITE (R3): A write to an on-chip or system register that has no row of its own takes effect under its access code, lease rule and reserved-encoding rule. -/
  | regWrite (who : Agent) (t : RegTarget) (v : Word)
  /-- DOORBELL (R51): A write of SETT.DOORBELL[ch] with CHRESET = 0 makes the Sett examine the channel's request ring. -/
  | doorbell (who : Agent) (ch tag : Nat)
  /-- CHRESET (R72): A doorbell write with CHRESET = 1 withdraws unstarted commands, ends leases and the FW session, empties the rings and reopens the channel. -/
  | chreset (who : Agent) (ch : Nat)
  /-- CHANNEL_POLL (R51): Once per millisecond the Sett polls every open channel for requests and consumer progress. -/
  | channelPoll
  /-- REQUEST_ACCEPT (R52): The Sett accepts one waiting request in channel rotation, reserves a response slot and applies the ordered acceptance checks. -/
  | requestAccept
  /-- ALIVE_TOGGLE (R40): Every 500 ms while SERVING the Sett inverts the ALIVE output. -/
  | aliveToggle
  /-- LEASE_EXPIRY (R62): At a lease's expiry tick the lease ends and the Sett issues the relock write. -/
  | leaseExpiry (slot : Nat)
  /-- RELOCK (R63): The relock write takes effect at the block, after which RWL writes are ignored. -/
  | relock (inst : Nat)
  /-- MI2C_WRITE (R70): An MI2C write transaction makes its mailbox bytes visible to the Sett at its STOP. -/
  | mi2cWrite (off : Nat) (data : List Byte) (stop : Bool)
  /-- MI2C_READ (R70): An MI2C read transaction returns mailbox bytes, 0x00 at 0x2000 to 0x2002 and 0xFF above. -/
  | mi2cRead (off len : Nat)
  /-- MI2C_DOORBELL (R70): A two-byte MI2C write at offset 0x2000 rings channel 2's doorbell at its STOP. -/
  | mi2cDoorbell (tag : Nat)
  /-- MI2C_CHRESET (R70): A one-byte 0xA5 MI2C write at offset 0x2002 resets channel 2 at its STOP. -/
  | mi2cChreset
  /-- MI2C_CLOCK_LOW_TIMEOUT (R69): SCL held low for 25 ms returns the port to idle and discards the partial transaction. -/
  | mi2cClockLowTimeout
  /-- SYS_NOP (R65): Does nothing and responds. -/
  | sysNop (ch tag : Nat)
  /-- SYS_IDENT (R65): Returns identity, versions, serial number and capacity. -/
  | sysIdent (ch tag : Nat)
  /-- SYS_STATUS (R65): Returns the mode, mode flags, Owl status and time. -/
  | sysStatus (ch tag : Nat)
  /-- SYS_ABORT (R68): Withdraws an accepted, unstarted command of the channel, which responds ABORTED. -/
  | sysAbort (ch tag : Nat)
  /-- SYS_EVENT_MASK (R65): Sets the channel's event mask. -/
  | sysEventMask (ch tag : Nat)
  /-- SYS_CHAN_CTL (R579): Opens or closes channel 1 or 3. -/
  | sysChanCtl (ch tag : Nat)
  /-- EXPERT_GRANT (R61): Grants a time-limited lease on one block instance and unlocks its RWL registers. -/
  | expertGrant (ch tag : Nat)
  /-- EXPERT_RENEW (R62): Sets a held lease's expiry to now plus the new duration. -/
  | expertRenew (ch tag : Nat)
  /-- EXPERT_RELEASE (R63): Ends a held lease and relocks the instance. -/
  | expertRelease (ch tag : Nat)
  /-- FW_INFO (R67): Reports slots, versions, flags and the staging session. -/
  | fwInfo (ch tag : Nat)
  /-- FW_STAGE (R67): Erases and programs part of the inactive slot from a buffer, opening a session at offset 0. -/
  | fwStage (ch tag : Nat) (flashOk : Bool)
  /-- FW_VERIFY (R466): Tests the staged image's header, sections and signature. -/
  | fwVerify (ch tag : Nat)
  /-- FW_ACTIVATE (R468): Writes a TRIAL boot-select record for the verified slot and journals it. -/
  | fwActivate (ch tag : Nat) (flashOk : Bool)
  /-- FW_ABANDON (R67): Closes the staging session. -/
  | fwAbandon (ch tag : Nat)
  /-- LOAD (R89): A load executes: translation, forwarding or cache access, miss request, and binds its value at retirement order. -/
  | load (i : Ins) (va : Word) (size : Nat) (dst : Dst) (signed fetch : Bool)
  /-- STORE (R87): A store resolves its address and data, reads its line before retirement if missing, and retires into the store buffer. -/
  | store (i : Ins) (va : Word) (bytes : List Byte) (fwd : Bool)
  /-- STORE_COMMIT (R87): A retired store commits to the L1D in program order once its line is held in M or E. -/
  | storeCommit (pcn : Nat)
  /-- SHADOW_RELEASE (R96): A load held by QUIET leaves the speculation shadow and its held request and deferred updates proceed. -/
  | shadowRelease (pcn seq : Nat)
  /-- BRANCH (R74): A branch or jump resolves in EX; a mispredict redirects fetch with the 14-cycle penalty. -/
  | branch (i : Ins) (taken : Bool) (target : Word) (mispred call ret : Bool)
  /-- AMO (R151): An AMO executes at the ROB head, near in the L1D or far at the home as placement chooses. -/
  | amo (i : Ins) (va : Word) (op : Nat) (w64 : Bool) (src : Word) (rd : Nat)
  /-- LR (R158): LR obtains its line in M or E, binds its value and sets the reservation, opening the snoop-deferral window. -/
  | lr (i : Ins) (va : Word) (w64 : Bool) (rd : Nat)
  /-- SC (R161): SC writes and returns 0 if the reservation is valid, else returns 1; it clears the reservation. -/
  | sc (i : Ins) (va : Word) (w64 : Bool) (src : Word) (rd : Nat)
  /-- FENCE (R138): A fence holds its successor set until its predecessor set has completed. -/
  | fence (i : Ins) (prd scc : BitVec 4)
  /-- FENCE_I (R217): fence.i drains the buffers, invalidates the L1I and refetches. -/
  | fenceI (i : Ins)
  /-- PAUSE (R88): pause holds dispatch for 64 cycles or until an enabled interrupt is pending. -/
  | pause (i : Ins)
  /-- PAUSE_HOLD_END (R88): The 64-cycle hold of pause expires and dispatch resumes. -/
  | pauseHoldEnd (pcn : Nat)
  /-- CBO_CLEAN (R215): Writes back dirty copies of the line, keeping them clean. -/
  | cboClean (i : Ins) (va : Word)
  /-- CBO_FLUSH (R215): Writes back and invalidates every copy of the line. -/
  | cboFlush (i : Ins) (va : Word)
  /-- CBO_INVAL (R215): Invalidates every copy without write-back at H or M, and acts as cbo.flush at U or K. -/
  | cboInval (i : Ins) (va : Word)
  /-- CBO_ZERO (R215): Obtains ownership without data and writes 64 zero bytes. -/
  | cboZero (i : Ins) (va : Word)
  /-- PREFETCH_HINT (R105): A Zicbop hint issues a prefetch or is dropped; it never traps. -/
  | prefetchHint (i : Ins) (va : Word) (kind : Nat)
  /-- ECALL (R117): ecall raises ECALL_U, K, H or M and traps. -/
  | ecall (i : Ins)
  /-- EBREAK (R117): ebreak raises BREAKPOINT. -/
  | ebreak (i : Ins)
  /-- TRET (R123): Returns from a trap by the fast or the normal return path. -/
  | tret (i : Ins)
  /-- WAIT (R100): Drains the core and enters NAP, DOZE or PARK, or retires at once if an enabled interrupt is pending. -/
  | wait (i : Ins)
  /-- SLEEP_ENTRY_DONE (R100): The entry steps of a sleep state complete and the core records the state. -/
  | sleepEntryDone (pcn : Nat)
  /-- CORE_WAKE (R101): A core wakes on an enabled pending interrupt or a PWRC release, records WAKE_SRC and retires WAIT. -/
  | coreWake (pcn : Nat)
  /-- INTERRUPT_TAKE (R119): An interrupt that can be taken discards unretired work and traps to its level, fast-bank or normal. -/
  | interruptTake (pcn : Nat)
  /-- TIMER_COMPARE (R112): time reaching a level's TIMECMP makes TIMER pending at that level. -/
  | timerCompare (pcn : Nat) (lvl : Lvl)
  /-- CLAIM (R389): A read of KCLAIM, HCLAIM or MCLAIM returns and empties a delivery slot, or pops a doorbell at H, and raises running priority. -/
  | claim (i : Ins) (lvl : Lvl) (rd : Nat)
  /-- CPRI_WRITE (R390): A write of LCPRI updates running priority and sends it to the IDIST. -/
  | cpriWrite (i : Ins) (lvl : Lvl) (v : Word)
  /-- EOI (R391): A write of LEOI clears the active priority bit and sends the EOI to the IDIST. -/
  | eoi (i : Ins) (lvl : Lvl) (v : Word)
  /-- ATOMCTL_CLEAR (R157): Writing ATOMCTL.CLEAR clears every contention-predictor counter and probe count. -/
  | atomctlClear (i : Ins) (v : Word)
  /-- AMO_TRAINING_WINDOW_END (R156): A near AMO's 256-cycle window closes with the line held and lowers its counter. -/
  | amoTrainingWindowEnd (pcn line : Nat)
  /-- LR_WINDOW_END (R159): The 64-cycle LR window closes and deferred snoops are served. -/
  | lrWindowEnd (pcn : Nat)
  /-- WC_WINDOW_END (R145): A write-combining entry drains at the closing tick of its 1,024-cycle window. -/
  | wcWindowEnd (pcn line : Nat)
  /-- PRED_FLUSH (R103): A write of CORE.PRED_FLUSH.ALL flushes all prediction state within 64 cycles. -/
  | predFlush (who : Agent) (pcn : Nat) (v : Word)
  /-- TLBW (R127): Writes the staged entry into the L2 TLB after the checks of R175 and the guard. -/
  | tlbw (i : Ins) (slot : Option Word) (rd : Nat)
  /-- TLBR (R128): Reads one L2 TLB slot into the staging registers. -/
  | tlbr (i : Ins) (rs1 : Word) (rd : Nat)
  /-- TLBP (R128): Searches the L2 TLB for a VA and returns the slot. -/
  | tlbp (i : Ins) (rs1 rs2 : Word) (rd : Nat)
  /-- TLBINV_VA (R129): Broadcasts removal of entries of a LID covering a VA. -/
  | tlbinvVa (i : Ins) (rs1 rs2 : Word) (rd : Nat)
  /-- TLBINV_ASID (R129): Broadcasts removal of entries of a LID with an ASID. -/
  | tlbinvAsid (i : Ins) (rs1 rs2 : Word) (rd : Nat)
  /-- TLBINV_LID (R129): Broadcasts removal of all entries of a LID. -/
  | tlbinvLid (i : Ins) (rs1 rs2 : Word) (rd : Nat)
  /-- TLBINV_ALL (R129): Broadcasts removal of all entries, boot-walker entries included. -/
  | tlbinvAll (i : Ins) (rs1 rs2 : Word) (rd : Nat)
  /-- EXTINV_LID (R129): Broadcasts removal of all extents and TLB entries of a LID, ports included. -/
  | extinvLid (i : Ins) (rs1 rs2 : Word) (rd : Nat)
  /-- EXTINV_RANGE (R129): Broadcasts removal of extents and entries of a LID overlapping a range. -/
  | extinvRange (i : Ins) (rs1 rs2 : Word) (rd : Nat)
  /-- FBR (R130): Reads a fast-bank register. -/
  | fbr (i : Ins) (n rd : Nat)
  /-- FBW (R130): Writes a fast-bank register. -/
  | fbw (i : Ins) (n : Nat) (v : Word)
  /-- AD_UPDATE (R185): At the ROB head the core sends the compare-and-set that sets A or D, raising STALE or a walk fault on failure. -/
  | adUpdate (pcn : Nat)
  /-- BOOTWALK_WRITE (R201): A write of BOOTWALK removes every boot-walker entry of the core. -/
  | bootwalkWrite (i : Ins) (v : Word)
  /-- BOOT_WALK (R199): An M access missing the TLBs with the walker on walks the radix table and installs an MW entry, or faults. -/
  | bootWalk (i : Ins) (va : Word) (kind : Nat)
  /-- BCAST_ADMIT (R189): BCHUB admits a queued broadcast, at most one per 16 mesh cycles, and fans it out. -/
  | bcastAdmit
  /-- BCAST_RECEIVE (R190): A core or port receiving a broadcast removes matching entries, flushes, drains and acknowledges. -/
  | bcastReceive (agent id : Nat)
  /-- BCAST_ACK (R189): BCHUB counts an acknowledgement; the last one returns completion to the issuer. -/
  | bcastAck (agent id : Nat)
  /-- SIDEBUF_AGE_OUT (R212): A side-buffer entry is dropped at the closing tick of its age window. -/
  | sidebufAgeOut (pcn line : Nat)
  /-- L2_WAYCFG_WRITE (R223): A valid write of CORE.L2_WAYCFG changes the ways in service and sweeps a removed way. -/
  | l2WaycfgWrite (who : Agent) (pcn : Nat) (v : Word)
  /-- L2_SWEEP_END (R219): A way-disable sweep ends, marks the way failed, brings in the spare and raises the Owl event. -/
  | l2SweepEnd (pcn : Nat)
  /-- LINK_CYCLE (R237): A link direction receives one cycle of flit and sideband; a CRC failure discards it and sends NAK. -/
  | linkCycle (stop link : Nat) (eFlit : BitVec 640) (eCrc : BitVec 16) (eSeq : BitVec 5) (eFv : BitVec 1) (eAck : BitVec 5) (eNak : BitVec 1) (eCrd : BitVec 7) (eRsv : BitVec 5)
  /-- NAK (R238): A NAK makes the sender replay from ACK_SEQ + 1 and counts a failed replay. -/
  | nak (stop link ackSeq : Nat)
  /-- LANE_REPAIR_END (R239): A lane repair ends, maps failing lanes and resumes with a replay. -/
  | laneRepairEnd (stop link : Nat) (bad : List Nat × List Nat)
  /-- CREDIT_TIMEOUT (R232): A class's credit count stays 0 with a flit waiting for 2^CREDIT_TMO_LOG2 cycles, and credits count as lost. -/
  | creditTimeout (stop link cls : Nat)
  /-- LANEMAP_WRITE (R242): A write of LINK_LANEMAP takes effect only while the link is neither UP nor in REPAIR. -/
  | lanemapWrite (who : Agent) (stop link : Nat) (v : Word)
  /-- OCR_ERR_READ (R243): A read of MESH.OCR_ERR clears the stop's record and may deassert source 208. -/
  | ocrErrRead (who : Agent) (stop : Nat)
  /-- HOME_RETRY_ADMIT (R261): The slice admits its oldest queued request whose blocking conditions have cleared. -/
  | homeRetryAdmit (slice : Nat)
  /-- TRACKER_COMPLETE (R259): A back-invalidation tracker collects its responses, writes dirty data and frees. -/
  | trackerComplete (line : Nat)
  /-- FCLASS_WRITE (R251): A write of LLC.FCLASS[k] takes effect only if the mask rules hold. -/
  | fclassWrite (who : Agent) (slice k : Nat) (v : Word)
  /-- LLC_WAYCFG_WRITE (R270): A valid write of LLC.WAYCFG remaps ways and sweeps a removed way. -/
  | llcWaycfgWrite (who : Agent) (slice : Nat) (v : Word)
  /-- WARREN_WAYCFG_WRITE (R270): A valid write of WARREN.WAYCFG changes ways in service and sweeps a removed way. -/
  | warrenWaycfgWrite (who : Agent) (slice : Nat) (v : Word)
  /-- LLC_SWEEP_END (R265): An LLC way-disable sweep ends, the spare takes the logical way and the Owl event is raised. -/
  | llcSweepEnd (slice : Nat)
  /-- WARREN_SWEEP_END (R265): A Warren way-disable sweep ends, a spare joins service and the Owl event is raised. -/
  | warrenSweepEnd (slice : Nat)
  /-- WARREN_RQ_MAXWAIT_READ (R269): A read of WARREN.RQ_MAXWAIT returns and clears the longest retry-queue wait. -/
  | warrenRqMaxwaitRead (who : Agent) (slice : Nat)
  /-- MEM_FCLASS_SET (R272): Writes a fill class's masks in every slice in ascending order. -/
  | memFclassSet (ch tag : Nat)
  /-- MEM_FCLASS_GET (R271): Returns a fill class's masks. -/
  | memFclassGet (ch tag : Nat)
  /-- MEM_LLC_RANGE (R272): Cleans, flushes or invalidates every line of a range in private caches and the LLC. -/
  | memLlcRange (ch tag : Nat)
  /-- RDS (R280): A read-to-share request is admitted at the home and served from the LLC, DRAM or the owner. -/
  | rds (m : Msg)
  /-- RDX (R280): A read-for-ownership is admitted, invalidates other holders and grants E or M. -/
  | rdx (m : Msg)
  /-- UPG (R280): An upgrade invalidates other sharers and grants ownership, or is served as RdX. -/
  | upg (m : Msg)
  /-- OWN_ND (R280): An ownership request without data invalidates other holders and returns GntX. -/
  | ownNd (m : Msg)
  /-- EVC (R282): A clean eviction frees the entry or removes the pointer and is acknowledged. -/
  | evc (m : Msg)
  /-- EVD (R282): A dirty eviction writes its data to the LLC or DRAM and is acknowledged. -/
  | evd (m : Msg)
  /-- CB_CLEAN (R283): The home cleans every copy of the line to DRAM and replies Cmp. -/
  | cbClean (m : Msg)
  /-- CB_FLUSH (R283): The home flushes every copy of the line to DRAM and invalidates it. -/
  | cbFlush (m : Msg)
  /-- CB_INVAL (R283): The home invalidates every copy of the line without write-back. -/
  | cbInval (m : Msg)
  /-- FAMO (R150): The home snoops out copies, fills the line if absent and performs the AMO in the slice ALU. -/
  | famo (m : Msg)
  /-- UC_RD (R283): An uncached read is served with SnpCur from the owner, LLC or DRAM. -/
  | ucRd (m : Msg)
  /-- UC_WR (R283): An uncached write of 1 to 8 B is merged after snooping out copies. -/
  | ucWr (m : Msg)
  /-- UC_WR_M (R284): A masked line write asks for data with WrGo and merges it. -/
  | ucWrM (m : Msg)
  /-- IO_RD (R283): A port's DMA line read is served without allocation. -/
  | ioRd (m : Msg)
  /-- IO_WR (R285): A port's full-line write is performed without ownership. -/
  | ioWr (m : Msg)
  /-- IO_OWN (R285): A port takes ownership of a line without data. -/
  | ioOwn (m : Msg)
  /-- IO_OWN_D (R285): A port takes ownership of a line with its data. -/
  | ioOwnD (m : Msg)
  /-- IO_WB (R285): A port commits an owned line; the write counts as performed at its home. -/
  | ioWb (m : Msg)
  /-- SNP_S (R287): A holder keeps S and returns data if it held E or M. -/
  | snpS (m : Msg)
  /-- SNP_X (R287): A holder invalidates and returns data if it held E or M. -/
  | snpX (m : Msg)
  /-- SNP_INV (R287): A holder invalidates and returns data if it held M. -/
  | snpInv (m : Msg)
  /-- SNP_INV_ND (R287): A holder invalidates and discards its data. -/
  | snpInvNd (m : Msg)
  /-- SNP_CLEAN (R287): A holder returns data if M and moves to E. -/
  | snpClean (m : Msg)
  /-- SNP_CUR (R287): A holder returns data if M and keeps its state. -/
  | snpCur (m : Msg)
  /-- SNP_RSP (R280): A snoop response reaches the home transaction or tracker. -/
  | snpRsp (m : Msg)
  /-- CMP_ACK (R280): The requester's acknowledgement lets the home clear BUSY. -/
  | cmpAck (m : Msg)
  /-- GNT_X (R280): Ownership without data reaches the requester, which installs and acknowledges. -/
  | gntX (m : Msg)
  /-- WR_GO (R283): The requester receives WrGo and sends its write data. -/
  | wrGo (m : Msg)
  /-- CMP (R283): Completion of a home operation reaches the requester. -/
  | cmp (m : Msg)
  /-- EV_ACK (R282): The evicting cache releases its writeback-buffer entry. -/
  | evAck (m : Msg)
  /-- DATA (R280): A line with its granted state reaches the requester, which installs it and binds merged loads. -/
  | data (m : Msg)
  /-- WB_DATA (R281): A holder's data reaches the home and is used or written as R281 states. -/
  | wbData (m : Msg)
  /-- WR_DATA (R284): Write data after WrGo reaches the home and is merged. -/
  | wrData (m : Msg)
  /-- AMO_RSP (R150): The old value of a far AMO reaches the requester. -/
  | amoRsp (m : Msg)
  /-- UC_DATA (R283): Uncached read data reaches the requester. -/
  | ucData (m : Msg)
  /-- SNOOP_TIMEOUT (R289): A home's wait on a snoop response, CmpAck or WrData closes late, and the owing agent is declared dead. -/
  | snoopTimeout (line agent : Nat)
  /-- REQUESTER_TIMEOUT (R289): A miss register or port entry without reply past its window, or an unanswering controller, takes the domain down. -/
  | requesterTimeout (agent txn : Nat)
  /-- DEAD_NOTE (R290): BCHUB adds the agent to its dead set, sets RECOVERY, raises the Owl event and schedules DEAD. -/
  | deadNote (slice agent : Nat)
  /-- DEAD (R290): A stop receiving DEAD fences the agent, ends waits on it and starts its reclaim sweep. -/
  | dead (stop agent : Nat)
  /-- RECLAIM_SWEEP_END (R294): A slice ends its reclaim sweep and sends SWEEP_DONE. -/
  | reclaimSweepEnd (slice : Nat)
  /-- SWEEP_DONE (R290): BCHUB counts a SWEEP_DONE and clears RECOVERY when all 136 arrive. -/
  | sweepDone (slice agent : Nat)
  /-- DEAD_DISCARD_READ (R296): A read of WARREN.DEAD_DISCARD returns and clears the count. -/
  | deadDiscardRead (who : Agent) (slice : Nat)
  /-- MEM_COH_CFG (R300): Sets the snoop timeout in every slice and BCHUB. -/
  | memCohCfg (ch tag : Nat)
  /-- MEM_COH_STATUS (R299): Returns the recovery state and dead set. -/
  | memCohStatus (ch tag : Nat)
  /-- MRD (R305): A memory controller or Hoard stop takes a line read from a home. -/
  | mrd (m : Msg)
  /-- MWR (R305): A memory controller or Hoard stop accepts a full-line write, replacing a queued one. -/
  | mwr (m : Msg)
  /-- MCMP (R304): Write acceptance reaches the home. -/
  | mcmp (m : Msg)
  /-- MDATA (R305): Read data, poisoned if uncorrectable, reaches the home. -/
  | mdata (m : Msg)
  /-- DRAM_COMMAND_ISSUE (R310): The subchannel scheduler issues one DRAM command by the priority order. -/
  | dramCommandIssue (mc sc : Nat) (busy bad : List Nat)
  /-- URGENCY_RISE (R309): A queued read crosses an urgency window boundary and gains urgency. -/
  | urgencyRise (mc line : Nat)
  /-- REFRESH_DUE (R316): A rank's refresh interval elapses, adding a refresh owed or forcing one at its limit. -/
  | refreshDue (mc rk : Nat)
  /-- ZQ_CAL_DUE (R316): A rank's 128 ms ZQ calibration interval elapses. -/
  | zqCalDue (mc rk : Nat)
  /-- SELF_REFRESH_ENTRY (R317): A channel idle for SR_IDLE_US enters self-refresh. -/
  | selfRefreshEntry (mc : Nat)
  /-- ALERT_N (R319): ALERT_n stops issuing, precharges and replays the unconfirmed commands. -/
  | alertN (mc : Nat)
  /-- RETUNE_GO (R320): Writing MC.RETUNE.GO starts a RETUNE hold, or is refused. -/
  | retuneGo (who : Agent) (mc : Nat) (v : Word)
  /-- RETUNE_PHASE_END (R320): A RETUNE phase completes and the next applicable phase begins. -/
  | retunePhaseEnd (mc : Nat)
  /-- RETUNE_LOCK_TIMEOUT (R321): No PLL or PHY lock within 13 µs switches back to the old set and marks FAILED. -/
  | retuneLockTimeout (mc : Nat)
  /-- RETUNE_END (R321): Phase 7 releases held requests in arrival order and ends the RETUNE. -/
  | retuneEnd (mc : Nat)
  /-- TRAIN_GO (R322): Writing MC.TRAIN_CTL.GO runs one training-assist operation, or is refused. -/
  | trainGo (who : Agent) (mc : Nat) (v : Word)
  /-- TRAIN_DONE (R329): A training-assist operation completes with its mismatch map or MRR data. -/
  | trainDone (mc mismatch mrr : Nat)
  /-- RETRAIN_DUE (R323): A temperature drift or elapsed interval makes the Sett retrain a channel through RETUNE windows. -/
  | retrainDue (mc : Nat) (delays : List (Nat × Nat))
  /-- IRQ_STATUS_CLEAR (R334): Writing 1 to an MC.IRQ_STATUS bit clears the cause and its source. -/
  | irqStatusClear (who : Agent) (mc : Nat) (v : Word)
  /-- MEM_CHAN_INFO (R331): Returns a channel's state, rate, set, temperature and geometry. -/
  | memChanInfo (ch tag : Nat)
  /-- MEM_QOS_SET (R332): Sets a QoS port's target and class in every channel. -/
  | memQosSet (ch tag : Nat)
  /-- MEM_QOS_GET (R331): Returns a QoS port's target and class. -/
  | memQosGet (ch tag : Nat)
  /-- MEM_RETUNE (R332): Retunes or retrains the masked channels one at a time. -/
  | memRetune (ch tag : Nat)
  /-- MEM_RETRAIN_CFG (R332): Sets and journals the retraining thresholds. -/
  | memRetrainCfg (ch tag : Nat)
  /-- MEM_SR_CFG (R332): Sets automatic self-refresh in every channel. -/
  | memSrCfg (ch tag : Nat)
  /-- MEM_SCHED_SET (R332): Sets the scheduler limits in every channel. -/
  | memSchedSet (ch tag : Nat)
  /-- SCRUB_GO (R352): Writing MC.SCRUB_CTL.GO starts a scrub of a CA range. -/
  | scrubGo (who : Agent) (mc : Nat) (v : Word)
  /-- SCRUB_END (R343): A scrub finishes or is cut short, with its counts and failing CAs recorded. -/
  | scrubEnd (mc : Nat)
  /-- MC_ERASE_WRITE (R338): A write of MC.ERASE sets or clears a device erasure from the next decoded read. -/
  | mcEraseWrite (who : Agent) (mc rk : Nat) (v : Word)
  /-- MEM_SCRUB (R344): Scrubs a PA range on all 16 channels and returns the summary. -/
  | memScrub (ch tag : Nat)
  /-- MEM_ERRLOG_READ (R345): Copies error-log records into a buffer. -/
  | memErrlogRead (ch tag : Nat)
  /-- MEM_MAP_PA (R347): Maps a DRAM PA to rank, bank, row and column. -/
  | memMapPa (ch tag : Nat)
  /-- MEM_MAP_BANK (R347): Maps a bank row back to PA ranges. -/
  | memMapBank (ch tag : Nat)
  /-- MEM_RETIRE (R348): Journals a retired memory range. -/
  | memRetire (ch tag : Nat)
  /-- MEM_RETIRE_LIST (R348): Returns the retired ranges. -/
  | memRetireList (ch tag : Nat)
  /-- MEM_ROW_REPAIR (R349): Applies or journals an hPPR or sPPR row repair. -/
  | memRowRepair (ch tag : Nat)
  /-- ROW_REPAIR_TIMEOUT (R350): A repair sequence not complete within 2 s is ended and recorded applied or pending. -/
  | rowRepairTimeout (mc : Nat) (consumed : Bool)
  /-- MEM_ERASE (R351): Sets or clears and journals a device erasure. -/
  | memErase (ch tag : Nat)
  /-- LODGE_CREATE (R357): Takes a share of each pool, raises the generation and writes the lodge's attribute words. -/
  | lodgeCreate (ch tag : Nat)
  /-- LODGE_RESET (R369): Holds, raises the generation, resets VFs and sources, invalidates extents and releases or keeps the lodge. -/
  | lodgeReset (ch tag : Nat)
  /-- LODGE_RESET_TIMEOUT (R371): A reset step not complete in twice its bound leaves the lodge FROZEN with HOLD set and responds TIMEOUT. -/
  | lodgeResetTimeout (lid step : Nat)
  /-- LODGE_FREEZE (R372): Holds the lodge's work and waits for its DMA to drain. -/
  | lodgeFreeze (ch tag : Nat)
  /-- LODGE_DRAIN_TIMEOUT (R372): At the close of the drain window outstanding VF requests complete in error and their channels halt. -/
  | lodgeDrainTimeout (lid : Nat)
  /-- LODGE_SAVE (R374): Writes a frozen lodge's blob to a buffer. -/
  | lodgeSave (ch tag : Nat)
  /-- LODGE_RESTORE (R375): Creates a frozen lodge from a blob. -/
  | lodgeRestore (ch tag : Nat)
  /-- LODGE_RESUME (R376): Clears HOLD at the IDIST, ports and TP, releasing latched work. -/
  | lodgeResume (ch tag : Nat)
  /-- LODGE_INFO (R377): Returns a lodge's state, generation and resources. -/
  | lodgeInfo (ch tag : Nat)
  /-- LODGE_EXT_SET (R377): Sets a lodge's extent COUNT. -/
  | lodgeExtSet (ch tag : Nat)
  /-- LODGE_POOLS (R358): Reads or sets and journals the extent arena, SRCID range and Hoard mask. -/
  | lodgePools (ch tag : Nat)
  /-- MSI_MESSAGE (R381): An MSI or TP completion message reaches the IDIST and, after generation and range checks, fires its source. -/
  | msiMessage (m : Msg)
  /-- EXT_IRQ (R380): A filtered change on an EXT_IRQ pin fires or drives its source. -/
  | extIrq (pin : Nat) (high : Bool)
  /-- SOURCE_LEVEL_CHANGE (R382): A level source's input asserts or deasserts, setting or clearing PENDING. -/
  | sourceLevelChange (src : Nat) (asserted : Bool)
  /-- IPI_SEND (R399): A write of IDIST.IPI_SEND fires an inter-processor source. -/
  | ipiSend (who : Agent) (v : Word)
  /-- DELIVERY_COMMIT (R384): The IDIST commits one candidate per mesh cycle to a hart or to posting. -/
  | deliveryCommit
  /-- HOLDOFF_EXPIRY (R385): A group's hold-off window closes and its sources may commit again. -/
  | holdoffExpiry (group : Nat)
  /-- DELIVER (R387): A delivery reaches the tile stop, which fills the slot or refuses it. -/
  | deliver (pcn : Nat)
  /-- DELIVERY_REFUSED (R387): A refused delivery returns to the IDIST and is rerouted or posted. -/
  | deliveryRefused
  /-- POSTED_DOORBELL (R394): Once the posting AMOs have performed, a doorbell is queued to the DB_HART's H. -/
  | postedDoorbell (slot : Nat)
  /-- SRC_WRITE (R388): A write of IDIST.SRC changes a source's configuration; a mask applies to later commits. -/
  | srcWrite (who : Agent) (src : Nat) (v : Word)
  /-- VSLOT_RECALL (R395): Clearing VSLOT_CFG.RESIDENT sends a recall for the slot's LID to the old hart. -/
  | vslotRecall (who : Agent) (slot : Nat) (v : Word)
  /-- RECALL (R395): A recall at the core returns unclaimed K deliveries of the LID with reason 3. -/
  | recall (slot : Nat)
  /-- VSLOT_REPLAY (R395): Setting RESIDENT with REPLAY swaps the posted area and makes its sources PENDING. -/
  | vslotReplay (who : Agent) (slot : Nat) (v : Word)
  /-- IDIST_COUNTER_READ (R399): A read of an IDIST count register returns and clears it. -/
  | idistCounterRead (who : Agent) (off : Nat)
  /-- IO_IRQ_SRC_SET (R402): Writes a source's configuration. -/
  | ioIrqSrcSet (ch tag : Nat)
  /-- IO_IRQ_SRC_GET (R401): Returns a source's configuration and state. -/
  | ioIrqSrcGet (ch tag : Nat)
  /-- IO_IRQ_TSET (R402): Reads or writes a target set. -/
  | ioIrqTset (ch tag : Nat)
  /-- IO_IRQ_GROUP (R402): Reads or writes a group's hold-off. -/
  | ioIrqGroup (ch tag : Nat)
  /-- OUTBOUND_REQUEST (R405): A core access to a port's window or ECAM is translated and sent to the claiming root port, or completed as UR. -/
  | outboundRequest (pcn : Nat)
  /-- PCIE_COMPLETION (R413): A completion matching an outbound tag ends its request, or is discarded as late or unexpected. -/
  | pcieCompletion (port tag status low : Nat) (data : List Byte) (ep : Bool)
  /-- COMPLETION_TIMEOUT (R413): An outbound request reaches s + C without completion, ends in error and its tag enters quarantine. -/
  | completionTimeout (port tag : Nat)
  /-- TAG_QUARANTINE_END (R413): At s + 2C a quarantined tag is freed. -/
  | tagQuarantineEnd (port tag : Nat)
  /-- INBOUND_READ (R407): An inbound DMA read is assigned a stream, translated and served, or faults. -/
  | inboundRead (port rp rid tag addr len atype : Nat) (pasid : Bool)
  /-- INBOUND_WRITE (R410): An inbound DMA write is translated and performed in PCIe order, or faults. -/
  | inboundWrite (port rp rid addr atype : Nat) (pasid ep : Bool) (data : List Byte)
  /-- INBOUND_MSI (R409): A 4-byte write to MSI_ADDR is forwarded to the IDIST after earlier writes. -/
  | inboundMsi (port rp rid : Nat) (v : Word)
  /-- ERROR_MESSAGE (R411): An error detected or received at a root port sets AER status and may drive the Owl line. -/
  | errorMessage (port rp kind bit rid hdr : Nat)
  /-- LINK_UP (R404): A root port's link finishes training at the negotiated width and rate. -/
  | linkUp (port rp speed width : Nat)
  /-- LINK_DOWN (R414): A root port's link goes down unexpectedly and the port performs surprise removal. -/
  | linkDown (port rp : Nat)
  /-- PERST_RELEASE (R416): A port's PERST# is released when its hold has elapsed and training starts. -/
  | perstRelease (port rp : Nat)
  /-- RC_CFG_WRITE (R404): A write of RC.CFG changes BIFURC only while every root port is down in PERST. -/
  | rcCfgWrite (who : Agent) (port : Nat) (v : Word)
  /-- FAULT_LOG_READ (R418): A read of RC.FAULT_LOG or TP.FAULT_LOG removes and returns the oldest fault record. -/
  | faultLogRead (who : Agent) (port : Nat)
  /-- PORT_COUNTER_READ (R418): A read of an RC or TP count register returns and clears it. -/
  | portCounterRead (who : Agent) (port off : Nat)
  /-- IO_RC_CFG (R420): Reads or writes an RC's bifurcation and default stream. -/
  | ioRcCfg (ch tag : Nat)
  /-- IO_STREAM_SET (R420): Writes a stream entry. -/
  | ioStreamSet (ch tag : Nat)
  /-- IO_STREAM_GET (R420): Returns a stream entry and its fault count. -/
  | ioStreamGet (ch tag : Nat)
  /-- IO_PORT_RESET (R420): Asserts a root port's PERST# for the hold time. -/
  | ioPortReset (ch tag : Nat)
  /-- IO_DMA_FAULTS (R420): Removes and returns up to 12 fault records of an RC. -/
  | ioDmaFaults (ch tag : Nat)
  /-- PF0_MAILBOX_ACCESS (R424): A partner access to PF0 BAR2 reads or writes channel 3's mailbox. -/
  | pf0MailboxAccess (wr : Bool) (off len tag : Nat) (data : List Byte)
  /-- PF0_DOORBELL (R424): A partner write of PF0.DOORBELL rings channel 3's doorbell after earlier PF0 writes. -/
  | pf0Doorbell (tag : Nat)
  /-- PF0_CHRESET (R72): A PF0.DOORBELL write with CHRESET = 1 resets channel 3. -/
  | pf0Chreset
  /-- VF_WINDOW_REQUEST (R426): A partner request to a VF's BAR2 matches a window, is translated and performed, or faults. -/
  | vfWindowRequest (vf off len tag : Nat) (wr ep : Bool) (data : List Byte)
  /-- WIN_COMMIT (R427): A write of WIN_COMMIT makes staged windows live and raises their generations. -/
  | winCommit (who : Agent) (vf : Nat) (v : Word)
  /-- WIN_COMMIT_DRAIN (R427): The last request of an old window generation finishes and WIN_COMMIT.BUSY clears. -/
  | winCommitDrain (vf : Nat)
  /-- WIN_LIVE_WRITE (R428): A direct write of WIN_LIVE takes effect only while the window is disabled. -/
  | winLiveWrite (who : Agent) (vf w : Nat) (v : Word)
  /-- RING_TAIL_WRITE (R429): A write of a ring's TAIL makes new descriptors pending, or halts the ring. -/
  | ringTailWrite (who : Agent) (vf ring : Nat) (v : Word)
  /-- DESCRIPTOR_START (R431): The engine fetches and starts the next descriptor of a ring. -/
  | descriptorStart (vf ring : Nat)
  /-- DESCRIPTOR_COMPLETE (R431): A descriptor completes, HEAD advances and its interrupts fire. -/
  | descriptorComplete (vf ring idx : Nat)
  /-- VF_FLR (R436): Writing VF.CTL.FLR starts a function-level reset of the VF. -/
  | vfFlr (who : Agent) (vf : Nat) (v : Word)
  /-- PARTNER_FLR (R436): A partner's Initiate FLR, PF0 FLR or VF Enable clear resets the named functions. -/
  | partnerFlr (fn : Nat)
  /-- FLR_COMPLETE (R437): An FLR finishes, leaving the VF's rings idle. -/
  | flrComplete (vf : Nat)
  /-- PARTNER_CONFIG_WRITE (R435): A partner configuration write changes enables or power state and may hold or release rings. -/
  | partnerConfigWrite (fn : Nat) (field : CfgField)
  /-- VF_RAISE (R444): A partner write of VF.RAISE fires a lodge source after earlier VF writes. -/
  | vfRaise (vf index : Nat)
  /-- VF_COUNTER_READ (R444): A read of VF.WIN_IGNORED or VF.WIN_FAULTS returns and clears it. -/
  | vfCounterRead (who : Agent) (vf off : Nat)
  /-- HEARTBEAT_TICK (R439): At each millisecond tick while SERVING the Sett increments PF0.HEARTBEAT. -/
  | heartbeatTick
  /-- TWIN_PERST_N (R438): Assertion of TWIN_PERST_N is a partner loss that resets the port and ends HANDOVER. -/
  | twinPerstN (asserted : Bool)
  /-- TWIN_LINK_LOSS (R438): A hot reset or loss of the twin link is a partner loss. -/
  | twinLinkLoss (cause : Nat)
  /-- LINK_CHANGED_CLEAR (R442): Writing 1 to TP.LINK.CHANGED clears it. -/
  | linkChangedClear (who : Agent) (v : Word)
  /-- IO_TWIN_INFO (R445): Returns the twin port's mode, link, VFs and heartbeat. -/
  | ioTwinInfo (ch tag : Nat)
  /-- IO_TWIN_VF_RESET (R446): Applies an FLR to one bound VF. -/
  | ioTwinVfReset (ch tag : Nat)
  /-- HOARD_CLEAR_END (R454): A bank clear ends and the bank reopens, serving the requests that waited. -/
  | hoardClearEnd (bank : Nat)
  /-- MARCH_GO (R457): Writing HOARD.MARCH_CTL.GO starts a march on a bank, or is refused. -/
  | marchGo (who : Agent) (hoard : Nat) (v : Word)
  /-- MARCH_END (R458): A march ends, records any failure and spares or fails the bank. -/
  | marchEnd (hoard : Nat) (bad : Option (Nat × Nat))
  /-- HOARD_SPARE_COPY_END (R458): The copy of a failed bank to the spare ends and the spare mapping takes force. -/
  | hoardSpareCopyEnd (hoard : Nat)
  /-- OWNER_WRITE (R453): A write of HOARD.OWNER hands a bank over without clearing it. -/
  | ownerWrite (who : Agent) (bank : Nat) (v : Word)
  /-- CLOSED_ACC_READ (R462): A read of HOARD.CLOSED_ACC clears the count and deasserts the stop's source. -/
  | closedAccRead (who : Agent) (hoard : Nat)
  /-- MEM_HOARD_OWNER (R461): Reads or writes a bank's owner and may clear it. -/
  | memHoardOwner (ch tag : Nat)
  /-- MEM_HOARD_MARCH (R461): Runs a march test on a bank. -/
  | memHoardMarch (ch tag : Nat)
  /-- JOURNAL_COMMIT (R474): A record's last page is programmed and read back, and the record commits. -/
  | journalCommit (ok : Bool)
  /-- COMPACTION_START (R477): With 192 blocks in use the Sett starts writing a snapshot. -/
  | compactionStart
  /-- ERASE_COMPLETE (R477): A compaction block erase completes and the block becomes free. -/
  | eraseComplete (ok : Bool)
  /-- ERASE_RESUME (R479): A suspended erase resumes when no fetch or commit waits. -/
  | eraseResume
  /-- JTAG_FLASH_ACCESS (R464): In BOOT the JTAG TAP drives the xSPI controller directly. -/
  | jtagFlashAccess (op : JtagOp)
  /-- JRN_INFO (R480): Returns journal state. -/
  | jrnInfo (ch tag : Nat)
  /-- JRN_READ (R480): Copies journal records into a buffer. -/
  | jrnRead (ch tag : Nat)
  /-- JRN_APPEND (R481): Appends a CLIENT record, within the rate limit. -/
  | jrnAppend (ch tag : Nat)
  /-- JRN_COMPACT (R477): Starts a compaction. -/
  | jrnCompact (ch tag : Nat)
  /-- FAULT_REPORT (R488): A fault flit reaches the Owl; it updates the capture, status and severity and takes the reaction-table actions. -/
  | faultReport (inst cls sev checker line index agent synd : Nat)
  /-- DOMAIN_DOWN_LINE (R492): The domain-down line at the Owl drives SAFE directly. -/
  | domainDownLine
  /-- OWL_SELF (R491): A parity error or copy mismatch in the Owl drives SAFE directly. -/
  | owlSelf
  /-- WARM_WINDOW_EXPIRY (R490): The 3,600 s WARM-count window closes. -/
  | warmWindowExpiry
  /-- ERR_STATUS_CLEAR (R485): Writing 1 to ERR_STATUS.VALID clears the whole capture. -/
  | errStatusClear (who : Agent) (stop part : Nat)
  /-- ERR_CNT_READ (R485): A read of ERR_CNT returns and clears the report counts. -/
  | errCntRead (who : Agent) (stop part : Nat)
  /-- OWL_STATUS_CLEAR (R489): Writing 1 to an OWL_STATUS bit clears it and the class's severity. -/
  | owlStatusClear (who : Agent) (mask : Word)
  /-- INJECT_WRITE (R494): A write of INJECT arms check-bit inversion for the next checker writes. -/
  | injectWrite (who : Agent) (stop part : Nat) (v : Word)
  /-- FAULT_STATUS (R496): Returns Owl status, severities and the last report. -/
  | faultStatus (ch tag : Nat)
  /-- FAULT_CLEAR (R496): Clears classes in OWL_STATUS. -/
  | faultClear (ch tag : Nat)
  /-- FAULT_REACT (R497): Reads or writes a class's reaction bytes. -/
  | faultReact (ch tag : Nat)
  /-- FAULT_DETAIL (R497): Returns a unit's detail window, optionally clearing VALID. -/
  | faultDetail (ch tag : Nat)
  /-- FAULT_INJECT (R497): Writes a unit's INJECT register. -/
  | faultInject (ch tag : Nat)
  /-- FAULT_CTL (R496): Reads or writes WARM_MAX. -/
  | faultCtl (ch tag : Nat)
  /-- WEAR_EVALUATION (R503): On a new log record or the once-per-second sample the Sett evaluates wear thresholds and acts or advises. -/
  | wearEvaluation
  /-- CORE_INFO (R511): Returns a hart's or core's mapping and state. -/
  | coreInfo (ch tag : Nat)
  /-- CORE_RETIRE (R507): Moves a hart ID from a parked or dead core to a spare, or leaves it vacant. -/
  | coreRetire (ch tag : Nat) (spareOk : List Bool)
  /-- CORE_SPARE_STATUS (R511): Returns spare capacity across the chip. -/
  | coreSpareStatus (ch tag : Nat)
  /-- CORE_WEAR_CFG (R511): Reads or writes and journals a wear kind's thresholds. -/
  | coreWearCfg (ch tag : Nat)
  /-- POWER_FAIL_WARNING (R518): VIN falling below 8.7 V asserts PWR_FAIL_N, stops the domains and finishes the journal in hold-up. -/
  | powerFailWarning (va vb : Nat)
  /-- POWER_FAIL_END (R475): VIN back at or above 8.8 V deasserts PWR_FAIL_N and the Sett resumes from STANDBY. -/
  | powerFailEnd (va vb : Nat)
  /-- TURN_OFF (R514): VIN below 8.5 V turns every domain off and enters OFF. -/
  | turnOff (va vb : Nat)
  /-- FEED_LOST (R515): A feed falling below 8.7 V while VIN stays up clears its OK bit and is reported. -/
  | feedLost (feed v : Nat)
  /-- FEED_RESTORED (R515): A feed at or above 8.8 V for 100 ms becomes OK again. -/
  | feedRestored (feed v : Nat)
  /-- POWER_WINDOW_TICK (R516): At each 1 ms closing tick the PWRC sets the ceiling, adjusts FLIM and TLIM, and enters or leaves CAPPED. -/
  | powerWindowTick (va vb iin pchip : Nat)
  /-- CLAMP_SAMPLE (R527): The 1 µs input-current sample engages the fast clamp at IIN_LIMIT. -/
  | clampSample (iin : Nat)
  /-- TEMP_CONVERSION (R577): A sensor conversion updates temperature and acts on the HOT and TRIP thresholds. -/
  | tempConversion (kind idx : Nat) (temp : Int)
  /-- FREQ_WRITE (R526): A write of ISL.FREQ.REQ changes an island's requested frequency and grant. -/
  | freqWrite (who : Agent) (stop : Nat) (v : Word)
  /-- SSC_WRITE (R529): A write of ISL.SSC stages new spread settings and sets PENDING. -/
  | sscWrite (who : Agent) (stop : Nat) (v : Word)
  /-- SSC_APPLY (R529): Staged spread settings take effect at the next triangle period or relock. -/
  | sscApply (stop : Nat)
  /-- DEN_PHASE_B (R531): Once every core counts as parked, the chip closes channels, drops ports and domains and the Sett WAITs. -/
  | denPhaseB (upTo : Nat)
  /-- DEN_PARK_TIMEOUT (R535): The park window closes with a core not parked and Den entry aborts. -/
  | denParkTimeout
  /-- DEN_WAKE_PIN (R533): A filtered falling edge on DEN_WAKE_N wakes the chip. -/
  | denWakePin
  /-- DEN_WAKE_I2C (R533): An MI2C address match wakes the chip and stretches SCL. -/
  | denWakeI2c
  /-- MI2C_STRETCH_TIMEOUT (R533): Channel 2 not open 10 ms after a wake match releases SCL and NACKs. -/
  | mi2cStretchTimeout
  /-- DEN_WAKE_VIN (R533): VIN at or above VIN_WAKE for 100 ms wakes the chip. -/
  | denWakeVin
  /-- DEN_WAKE_TIMER (R533): The Den timer's window closes and wakes the chip. -/
  | denWakeTimer
  /-- DEN_WAKE_EXT_IRQ (R533): An armed EXT_IRQ pin at its active level wakes the chip. -/
  | denWakeExtIrq (pin : Nat)
  /-- DEN_WAKE (R534): The wake sequence restores the domains, releases parked cores and reopens channels. -/
  | denWake (upTo : Nat)
  /-- PWR_STATUS (R538): Returns mode, supply measurements and last wake. -/
  | pwrStatus (ch tag : Nat)
  /-- PWR_CONFIG (R538): Reads or writes and journals IIN_LIMIT and AUTO_ON. -/
  | pwrConfig (ch tag : Nat)
  /-- PWR_DVFS (R538): Reads or sets the requested frequency of a range of tile islands. -/
  | pwrDvfs (ch tag : Nat)
  /-- PWR_SSC (R538): Reads or writes spread-spectrum settings of islands. -/
  | pwrSsc (ch tag : Nat)
  /-- PWR_MODE_REQ (R522): Requests END_BRINGUP, entry or exit of HANDOVER, or entry or exit of DIAGNOSTIC. -/
  | pwrModeReq (ch tag : Nat)
  /-- PWR_DEN_PREPARE (R530): Arms Den entry with its settings and opens the park window. -/
  | pwrDenPrepare (ch tag : Nat)
  /-- PWR_DEN_CANCEL (R535): Cancels an armed Den entry before phase B. -/
  | pwrDenCancel (ch tag : Nat)
  /-- PWR_POWER (R538): Turns the chip off to STANDBY, on to BRINGUP, or cycles it. -/
  | pwrPower (ch tag : Nat)
  /-- POWER_CYCLE_ON (R538): One second after a CYCLE's off half, the chip is turned on. -/
  | powerCycleOn
  /-- PMOVF_CLEAR (R554): Writing 1 to a PMOVF bit clears a sticky wrap and may end PERF pending. -/
  | pmovfClear (who : Agent) (pcn i : Nat) (v : Word)
  /-- SPOOR_TAIL_WRITE (R559): A write of SPOOR_TAIL frees ring entries unless it breaks the ring rules. -/
  | spoorTailWrite (who : Agent) (pcn : Nat) (v : Word)
  /-- SPOOR_LOST_READ (R563): A read of SPOOR_LOST returns and clears the count. -/
  | spoorLostRead (who : Agent) (pcn : Nat)
  /-- BW_WINDOW_CLOSE (R561): At a bandwidth window's closing tick the instance swaps buffers, zeroes the live one and increments SEQ. -/
  | bwWindowClose (stop : Nat)
  /-- PERF_CORE_READ (R565): Copies a hart's counters and overflow bits to a buffer. -/
  | perfCoreRead (ch tag : Nat)
  /-- PERF_CORE_CFG (R565): Reads or writes a filter set or a counter's control and count. -/
  | perfCoreCfg (ch tag : Nat)
  /-- PERF_SPOOR (R565): Reads or writes a hart's Spoor settings. -/
  | perfSpoor (ch tag : Nat)
  /-- PERF_BW_CFG (R566): Reads or writes the bandwidth window in every instance. -/
  | perfBwCfg (ch tag : Nat)
  /-- PERF_BW_READ (R565): Copies an instance's bandwidth snapshot to a buffer. -/
  | perfBwRead (ch tag : Nat)
  /-- PERF_UNC_READ (R565): Copies an instance's uncore counters to a buffer. -/
  | perfUncRead (ch tag : Nat)
  /-- COLD_RST_N_ASSERTED (R543): Assertion of COLD_RST_N past its filter holds the whole chip in reset for as long as it stays asserted, overriding anything in progress. -/
  | coldRstNAsserted
  /-- TWIN_LINK_UP (R441): The twin link in endpoint mode finishes training with the partner, TP.LINK.STATE becomes UP, CHANGED sets and IO.TWIN_LINK reports it up. -/
  | twinLinkUp (speed width : Nat)
  /-- BCAST_ACK_TIMEOUT (R193): An acknowledgement BCHUB awaits for a broadcast is late at the close of its snoop-timeout window, and BCHUB declares the agent dead itself. -/
  | bcastAckTimeout (agent id : Nat)
  /-- VIOL_COUNT_READ (R41): A read of SETT.VIOL_COUNT returns and clears the count of ignored RWL writes. -/
  | violCountRead (who : Agent)
  /-- ILLEGAL_INSTRUCTION (R117): An unimplemented or unpermitted instruction or CSR access, such as wfi or a counter read without COUNTEN permission, raises ILLEGAL and traps. -/
  | illegalInstruction (i : Ins)
deriving DecidableEq, Repr

end Sys2Proof
end

