-- ==== Sys2Proof/Decode.lean ====
section
/-! DEFINITION. The commands have no encoding in words: no row of spec/opcode_table.json gives bits. -/
namespace Sys2Proof

/-- The command that a word spells by the table's bits. The table gives no row any bits, so a word spells none. -/
def decodeTableWord (_nbits _w : Nat) : Option Instr := none

end Sys2Proof
end

