-- ==== Sys2Proof/Config.lean ====
section
/-! DEFINITION. What an implementation fixes and the values the spec leaves open. Every constant here has
no body: a claim about the block holds whatever it is. -/
namespace Sys2Proof.Config

/-- A fresh value the spec leaves open; applied to the counter `State.freeIdx`. -/
opaque freeWord : Nat → Word

/-- Whether the ECDSA P-384 signature over an image's bytes verifies under the factory key (R466).
The argument is header, body and signature. -/
opaque signatureValid : List Byte → Bool

/-- The payload bytes of a journal record that is not CLIENT (R473: opaque to clients), by SEQ. -/
opaque recordPayload : Nat → List Byte

/-- Where the configuration space of a root port holds its PCI Express capability and its AER capability (R411): byte
offsets the implementation chooses. -/
opaque pcieCap : Nat
opaque aerCap : Nat

/-- Index and tag functions of the prediction structures (R76): of table `t` of the direction predictor (0 the base
table), the set of the BTB, the index of the indirect target table; and the tagged table that a misprediction allocates
in, if any. -/
opaque predIndex : Nat → Word → List Bool → Nat
opaque predTag : Nat → Word → List Bool → Nat
opaque predTable : Word → List Bool → Nat
opaque btbSet : Word → Nat
opaque indIndex : Word → List Word → Nat

/-- A read-only word of a root port's configuration space: identities, capabilities, class codes. The argument is
the byte offset. -/
opaque cfgFixed : Nat → Nat

end Sys2Proof.Config
end

