-- ==== Sys2Proof/Machine/State.lean ====
section
/-! DEFINITION. The state of the block as plain data, why a step can stop, and the state at reset. -/
namespace Sys2Proof.Machine

/-- Why the machine stops with a fault. -/
inductive Fault
  /-- Raised by the supply and temperature events when a stress beyond R569 is applied (a feed above 75 V):
  the part may be damaged and the spec gives no behaviour. Safe: the model stops where the hardware may go on. -/
  | beyondRatings
deriving DecidableEq, Repr

/-- Why the machine has no meaning for a command. -/
inductive Refusal
  /-- Raised by an arm of `exec` whose command has no meaning yet. Safe: nothing is claimed of it. -/
  | notModelled (mnemonic : String)
deriving DecidableEq, Repr

/-! ## The Sett and the Belet channels (chapter 02) -/

/-- What became of an accepted command (R51 to R55). -/
inductive CmdPhase
  /-- accepted, not started -/
  | accepted
  /-- started; a later event of the hardware completes it -/
  | running
  /-- its effect waits on the commit of its journal record -/
  | committing
deriving DecidableEq, Repr

/-- An accepted command without a written response. -/
structure Cmd where
  ch : Nat
  tag : Nat
  opcode : Nat
  flags : Nat
  lid : Nat
  gen : Nat
  len : Nat
  body : List Byte
  /-- acceptance order over all channels (R54) -/
  ord : Nat
  phase : CmdPhase
  /-- the channel was reset after the command started: its response is discarded (R72) -/
  discard : Bool
  /-- working data of a running command (what it has still to wait for) -/
  aux : List Nat
deriving DecidableEq, Repr

/-- What the Sett keeps of one channel beside SETT.CHAN_STATE (R46 to R58). -/
structure Chan where
  reqCons : Nat := 0
  /-- REQ_PROD as last examined at a doorbell or poll (R51) -/
  reqSeen : Nat := 0
  rspProd : Nat := 0
  /-- RSP_CONS as last examined -/
  rspSeen : Nat := 0
  evtProd : Nat := 0
  evtSeen : Nat := 0
  evtLost : Nat := 0
  /-- events lost since the last SYS.EVT_OVERFLOW (R58) -/
  lostNow : Nat := 0
  evtSeq : Nat := 0
  evtMask : Nat := 0xFFE
  epoch : Nat := 0
  /-- a close by SYS.CHAN_CTL waits for started commands: acceptance order of that command -/
  closing : Option Nat := none
  /-- the reset under way ends CLOSED (WARM, R72) -/
  shut : Bool := false
  /-- EXPERT.LEASE_END bodies that wait until the channel is OPEN again (R63) -/
  owedEnds : List (List Byte) := []
  /-- channel was open when the Den was entered (R71) -/
  reopen : Bool := false
deriving DecidableEq, Repr

/-- An expert lease (R59 to R62). -/
structure Lease where
  slot : Nat
  inst : Nat
  ch : Nat
  /-- expiry tick in SETT.TIME microseconds -/
  expiry : Nat
deriving DecidableEq, Repr

/-- A relock write in flight, and what EXPERT.LEASE_END will say once it has taken effect (R62 to R64); no event where
`cause` is none. -/
structure Relock where
  inst : Nat
  slot : Nat
  ch : Nat
  cause : Option Nat
deriving DecidableEq, Repr

/-- A firmware staging session (R67). -/
structure FwSession where
  ch : Nat
  staged : Nat
  verified : Bool
deriving DecidableEq, Repr

/-- The MI2C port (R69, R70, R533). -/
structure Mi2c where
  /-- 7-bit address, taken from factory data at COLD (R69) -/
  addr : Nat := 0x5C
  /-- offset and bytes of a write transaction that has not reached its STOP -/
  part : Option (Nat × List Byte) := none
  /-- bytes of the last read transaction -/
  readData : List Byte := []
  /-- the last transaction had a byte NACKed -/
  nacked : Bool := false
  /-- SCL held low by the port while the chip wakes -/
  stretching : Bool := false
deriving DecidableEq, Repr

/-- The Sett. -/
structure Sett where
  /-- SETT.TIME is `timeBase` + (tick - timeFrom) / 100 µs, or `timeBase` while it stands still (R41) -/
  timeBase : Nat := 0
  timeFrom : Nat := 0
  timeStill : Bool := false
  /-- level of the ALIVE output and the tick of its last inversion (R40) -/
  alive : Bool := false
  aliveAt : Nat := 0
  /-- tick of the last channel poll (R51) -/
  pollAt : Nat := 0
  chans : SMap Chan := []
  cmds : List Cmd := []
  nextOrd : Nat := 0
  /-- rotation pointer of R53 -/
  turn : Nat := 0
  leases : List Lease := []
  /-- instances whose RWL registers are open at the block, with the holding channel -/
  unlocked : List (Nat × Nat) := []
  /-- relock writes in flight (R62, R63) -/
  relocks : List Relock := []
  fw : Option FwSession := none
  /-- slot flags 2 and 3 of FW.INFO: slot A, slot B passed the test of R466 -/
  testedA : Bool := false
  testedB : Bool := false
  /-- a power-fail warning is in force: nothing is accepted or started (R475) -/
  holdUp : Bool := false
  /-- the power-fail hold-up work is still running until this tick (3 ms) -/
  holdUntil : Nat := 0
  mi2c : Mi2c := {}
deriving DecidableEq, Repr

/-! ## Flash and the journal (chapter 18) -/

/-- State of a physical core in the sparing map (R500). -/
inductive PcnState | inService | spare | retired | failed
deriving DecidableEq, Repr

/-- Thresholds of one wear kind (R503). -/
structure WearCfg where
  autoEn : Bool
  thresh : Nat
  windowS : Nat
deriving DecidableEq, Repr

/-- A pending or applied row repair (R349). -/
structure RowRepair where
  ch : Nat
  sc : Nat
  rank : Nat
  dev : Nat
  bankGroup : Nat
  bank : Nat
  row : Nat
  /-- hPPR; else sPPR -/
  hard : Bool
  applied : Bool
deriving DecidableEq, Repr

/-- One error-log record (R345). -/
structure ErrRec where
  kind : Nat
  time : Nat
  seq : Nat
  /-- the 64 bytes of the record -/
  bytes : List Byte
deriving DecidableEq, Repr

/-- What a journal record holds (R473). Only CLIENT payloads have a fixed byte layout. -/
inductive JPayload
  /-- hart ID to PCN (absent: vacant), and the state of every PCN that is not in service -/
  | coreMap (map : List (Nat × Option Nat)) (pcns : List (Nat × PcnState))
  /-- a register of the sparing map (way map, lane map, Hoard spare): OCR offset and value -/
  | spareReg (off : Nat) (val : Word)
  /-- thresholds of a wear kind -/
  | wear (kind : Nat) (cfg : WearCfg)
  /-- training result of one channel at one rate: the register images that MC takes -/
  | training (ch rate : Nat) (regs : List (Nat × Word)) (temp : Nat)
  | lodgePools (arena slots srcBase srcCount hoardMask : Nat)
  | fwSlot (slot : Nat)
  | memRetire (base len : Nat)
  | rowRepair (r : RowRepair)
  | dramErase (ch rank sc dev : Nat)
  | errlog (r : ErrRec)
  | retrainCfg (delta interval : Nat)
  | rcBifurc (rc : Nat) (cfg : Word)
  | flashBad (blk : Nat)
  | pwrFail
  | pwrConfig (iin : Nat) (autoOn : Bool)
  | snapEnd (c members : Nat)
  | client (ch : Nat) (bytes : List Byte)
  /-- a record of a type this firmware does not know -/
  | unknown (ty : Nat)
deriving DecidableEq, Repr

/-- A record as it stands on the flash (R471); `intact` is false for a torn record. -/
structure JRec where
  seq : Nat
  time : Nat
  snap : Bool
  payload : JPayload
  pages : Nat
  intact : Bool
deriving DecidableEq, Repr

/-- One journal block in use (R470). -/
structure JBlock where
  blk : Nat
  bseq : Nat
  hdrOk : Bool
  recs : List JRec
deriving DecidableEq, Repr

/-- A record waiting to be written, and the acceptance order of the command that waits on it. -/
structure JReq where
  payload : JPayload
  snap : Bool
  time : Nat
  owner : Option Nat
  /-- failed attempts so far (R478) -/
  tries : Nat
deriving DecidableEq, Repr

/-- One boot-select record (R468). -/
structure Bsel where
  blk : Nat
  page : Nat
  seq : Nat
  slot : Nat
  trial : Bool
  attempts : Nat
  crcOk : Bool
deriving DecidableEq, Repr

/-- Compaction in progress (R477). -/
structure Compaction where
  c : Nat
  /-- member records and SNAP_END still to be written -/
  todo : List JPayload
  /-- acceptance order of the JRN.COMPACT that waits, if one does -/
  owner : Option Nat
deriving DecidableEq, Repr

/-- An erase on the flash (R479). -/
structure FlashErase where
  blk : Nat
  suspended : Bool
  /-- tick before which a resumed erase may not be suspended again (100 µs minimum run) -/
  holdUntil : Nat
deriving DecidableEq, Repr

/-- The journalled state that replay rebuilds (R476, R500). -/
structure JState where
  coreMap : List (Nat × Option Nat) := []
  pcns : List (Nat × PcnState) := []
  spareRegs : List (Nat × Word) := []
  wear : List (Nat × WearCfg) := []
  trainings : List (Nat × Nat × List (Nat × Word) × Nat) := []
  pools : Option (Nat × Nat × Nat × Nat × Nat) := none
  fwSlot : Option Nat := none
  retired : List (Nat × Nat) := []
  rowRepairs : List RowRepair := []
  erasures : List (Nat × Nat × Nat × Nat) := []
  errlog : List ErrRec := []
  retrain : Option (Nat × Nat) := none
  rcBifurc : List (Nat × Word) := []
  flashBad : List Nat := []
  pwr : Option (Nat × Bool) := none
deriving DecidableEq, Repr

/-- What the factory data say (R20, R69, R404, R465). The spec gives their place in the flash and no layout, so they are held
as what they say; nothing writes them. -/
structure Factory where
  /-- PCNs that are spares (log entry 5) -/
  spares : List Nat := (List.range 16).map (256 + ·)
  /-- 7-bit address of MI2C -/
  mi2cAddr : Nat := 0x5C
  serial : Nat := 0
  /-- RC.CFG.BIFURC of a root complex; 0 where unlisted -/
  bifurc : List (Nat × Nat) := []
deriving DecidableEq, Repr

/-- The flash and the journal. -/
structure Flash where
  factory : Factory := {}
  /-- bytes of the firmware slots and of factory data; unlisted: erased, 0xFF -/
  bytes : SMap Byte := []
  bsel : List Bsel := []
  blocks : List JBlock := []
  /-- retired blocks (R478) -/
  bad : List Nat := []
  /-- blocks whose header is zeroed and whose erase is still to be done (R477) -/
  toErase : List Nat := []
  /-- the hardware's own spare count: blocks of the pool already used -/
  spareUsed : Nat := 0
  queue : List JReq := []
  nextSeq : Nat := 1
  compact : Option Compaction := none
  erase : Option FlashErase := none
  compactions : Nat := 0
  torn : Nat := 0
  unknownTypes : Nat := 0
  /-- JRN.APPEND commands per channel in the current second (R481): channel, second, count -/
  appends : List (Nat × Nat × Nat) := []
  /-- bytes read by the last JTAG access -/
  jtagData : List Byte := []
  /-- the journalled state as of the last committed record -/
  jst : JState := {}
deriving DecidableEq, Repr

/-! ## The Owl (chapter 19), wear (chapter 20), power (chapter 21), pins (chapter 24) -/

/-- A report on its way to the Owl (R482): a BCS fault flit. -/
structure Report where
  inst : Nat
  cls : Nat
  sev : Nat
  checker : Nat
  line : Nat
  index : Nat
  agent : Nat
  syndrome : Nat
  /-- how it was found, for the error log's KIND: 0 by demand, 1 by a scrub, 2 corrected as an erasure; 4 more if its
  write-back was dropped (R342) -/
  how : Nat := 0
deriving DecidableEq, Repr

/-- What the Owl keeps beside its registers. -/
structure OwlSt where
  /-- reports in flight -/
  flits : List Report := []
  /-- start of the WARM window in SETT.TIME µs (R490) -/
  warmFrom : Option Nat := none
  /-- the latched domain-down line -/
  domainDown : Bool := false
deriving DecidableEq, Repr

/-- What the Sett counts for wear (R503). -/
structure WearSt where
  /-- corrections: kind code, key, tick in seconds -/
  hist : List (Nat × Nat × Nat) := []
  /-- counters as last sampled: key, value -/
  sampled : List (Nat × Nat) := []
  /-- (kind, key) already advised or acted on in the current window -/
  acted : List (Nat × Nat) := []
  /-- erasures waiting for a scrub to end (R504): ch, rank, sc, dev -/
  erasePending : List (Nat × Nat × Nat × Nat) := []
  /-- rank positions and subchannels with an erasure and a second device at its threshold (R510): ch, rank, sc -/
  second : List (Nat × Nat × Nat) := []
deriving DecidableEq, Repr

/-- Den entry (R530 to R535). -/
inductive DenPhase
  | awake
  /-- park window open until this SETT.TIME µs -/
  | armed (closes : Nat)
  /-- phase B, steps done so far -/
  | phaseB (step : Nat)
  /-- all seven steps are done: asleep -/
  | den
  /-- the wake sequence has run `step` steps; phase B had reached step `from_` -/
  | waking (from_ step : Nat)
deriving DecidableEq, Repr

/-- The PWRC and the pins (beside PWRC registers). -/
structure Pwr where
  /-- domains on: main, memory interface, I/O (the Sett domain is on except in OFF) -/
  mainOn : Bool := false
  memOn : Bool := false
  ioOn : Bool := false
  /-- COLD_RST_N asserted past its filter: the whole chip is held in reset (R543) -/
  coldHeld : Bool := false
  /-- feed voltages in 10 mV units as last seen -/
  vinA : Nat := 0
  vinB : Nat := 0
  /-- a loss of the feed was reported with PWR.FEED (R515) -/
  lostA : Bool := false
  lostB : Bool := false
  /-- feeds that have been OK since COLD -/
  seenA : Bool := false
  seenB : Bool := false
  /-- tick since which VIN has stood at or above 20.5 V (R514) -/
  uncapFrom : Option Nat := none
  /-- index of the last closed measuring window (R516) -/
  window : Nat := 0
  /-- the input current stayed below 0.95 of the limit in the open window (R527) -/
  clampQuiet : Bool := true
  /-- thermal limits of tile islands in 100 MHz units (36 when unlisted) -/
  tlim : SMap Nat := []
  /-- tiles at or above HOT -/
  hot : List Nat := []
  /-- highest conversion of a tile in the open measuring window: 0.25 °C units, tile (R578) -/
  hottest : Option (Int × Nat) := none
  /-- tiles whose sensor has converted since ISL.TEMP was reset -/
  converted : List Nat := []
  /-- STANDBY was entered by PWR.POWER OFF or CYCLE: AUTO_ON does not leave it -/
  offCmd : Bool := false
  den : DenPhase := .awake
  /-- a latched wake: CAUSE, PIN, EARLY, and the tick at which it was latched (R533, R535) -/
  wake : Option (Nat × Nat × Bool × Nat) := none
  /-- tick at which step 7 of Den entry was reached -/
  denFrom : Nat := 0
  /-- ticks of 10 ns by which the timebase of the cores lags the clock, from its standstills in DEN (R133) -/
  timeLag : Nat := 0
  /-- hand-off to host firmware has happened since the main domain left reset -/
  handOff : Bool := false
  /-- the operating phase has begun (END_BRINGUP) -/
  operating : Bool := false
  /-- DIAGNOSTIC was entered from the operating phase -/
  diagFromOp : Bool := false
  /-- a WARM sequence is running -/
  warmRunning : Bool := false
  /-- acceptance of the first hand-off since COLD -/
  everHandOff : Bool := false
  /-- PWR.POWER CYCLE: tick at which the chip is turned on again -/
  cycleAt : Option Nat := none
  /-- EXT_IRQ pins that are high after their filter (pulled up) -/
  extIrq : List Nat := [0, 1, 2, 3, 4, 5, 6, 7]
  /-- pins driven by the chip -/
  pwrFailN : Bool := true
  safeN : Bool := true
  hotN : Bool := true
  thermTripN : Bool := true
  vaux : Bool := true
  /-- TP_MODE strap as sampled at COLD -/
  tpRoot : Bool := false
  /-- TWIN_PERST_N asserted (endpoint mode) -/
  twinPerst : Bool := true
  /-- no bring-up has begun since COLD -/
  fresh : Bool := true
  /-- bring-up report flags of R551 [7] -/
  reportFlags : Nat := 0
  /-- the bring-up after COLD or STANDBY has finished stage 8 -/
  broughtUp : Bool := false
  /-- a retirement that waits on its commit: hart, chosen PCN, and whether this spare and those tried after it leave reset
  (R508) -/
  retiring : Option (Nat × Nat × List Bool) := none
deriving DecidableEq, Repr

/-- Installed memory and the numbering of cores (chapter 01). -/
structure Org where
  /-- hart ID to PCN; absent entries are vacant (R18); at COLD as factory data and the journal say (R20) -/
  coreMap : List (Nat × Nat) := (List.range 256).map (fun h => (h, h))
  /-- PCNs that are not in service -/
  pcns : List (Nat × PcnState) := (List.range 16).map (fun i => (256 + i, PcnState.spare))
  /-- mapped DRAM bytes (R30); 0 until trained -/
  mapped : Nat := 0
  installed : Nat := 0
  /-- per channel: trained bytes, DIMM left out -/
  chanBytes : List Nat := []
  leftOut : List Nat := []
  /-- SEQ of the newest record replayed at COLD -/
  replayed : Nat := 0

deriving DecidableEq, Repr
/-! ## Lodges (chapter 13) -/

/-- R359. -/
inductive LodgeState | free | running | frozen
deriving DecidableEq, Repr

/-- One LID as the Sett's lodge table holds it. -/
structure LodgeSt where
  state : LodgeState := .free
  /-- generation, kept from lodge to lodge (R364) -/
  gen : Nat := 0
  /-- created by channel 3 and not yet commanded by channel 0 or 1 (R379) -/
  twin : Bool := false
  /-- left FROZEN by a RESET that failed with TIMEOUT (R371) -/
  timedOut : Bool := false
  fclass : Nat := 0
  qCpu : Nat := 0
  qIo : Nat := 0
  srcBase : Nat := 0
  log2Src : Nat := 0
  slotBase : Nat := 0
  slots : Nat := 0
  banks : List Nat := []
  vfs : List Nat := []
  /-- extent table slot and COUNT -/
  extSlot : Nat := 0
  count : Nat := 0
deriving DecidableEq, Repr

/-- Whether a channel may act on the lodge (R379). -/
def LodgeSt.ownedBy (l : LodgeSt) (ch : Nat) : Bool := if ch = 3 then l.twin else true

/-- The pools set by LODGE.POOLS (R358). -/
structure Pools where
  arena : Nat := 0
  extSlots : Nat := 0
  srcBase : Nat := 0
  srcCount : Nat := 0
  hoardMask : Nat := 0
deriving DecidableEq, Repr

/-- A lodge command at work on hardware steps (R369, R372). -/
structure LodgeWork where
  lid : Nat
  /-- acceptance order of the command -/
  ord : Nat
  /-- last step of R369 completed; 0 for a FREEZE -/
  step : Nat
  /-- tick at which the drain window closes, or by which the step must complete -/
  due : Nat
deriving DecidableEq, Repr

/-! ## IDIST (chapter 14) -/

/-- A delivery on its way, or in a slot of a tile stop (R386, R387). -/
structure Delivery where
  src : Nat
  pri : Nat
  fast : Bool
  lvl : Lvl
  hart : Nat
  pcn : Nat
  /-- LID of a VIRT delivery -/
  lid : Nat
  virt : Bool
deriving DecidableEq, Repr

/-- The IDIST's copy of a hart's state at one level (R386). -/
structure HartCopy where
  run : Nat := 0
  extEn : Bool := false
  fastEn : Bool := false
  extBusy : Bool := false
  fastBusy : Bool := false
deriving DecidableEq, Repr

/-- A posting in progress (R393): `stage` AMOs have been issued. -/
structure Posting where
  src : Nat
  slot : Nat
  lid : Nat
  gen : Nat
  index : Nat
  pri : Nat
  stage : Nat
  /-- old value of the ON word, once its AMO has performed -/
  oldOn : Option Nat
deriving DecidableEq, Repr

/-- What the IDIST and the delivery slots of the stops hold beside registers. -/
structure Idist where
  /-- last source committed at each priority (class FAST in 16 to 31) (R384) -/
  rot : SMap Nat := []
  /-- last hart chosen of each target set (R386) -/
  tset : SMap Nat := []
  /-- tick at which a group's hold-off window closes (R385) -/
  holdEnd : SMap Nat := []
  /-- level of the delivery that made a source ACTIVE (1 K, 2 H, 3 M) -/
  actLvl : SMap Nat := []
  /-- copies of harts' states: key 4·hart + level -/
  copies : SMap HartCopy := []
  /-- DELIVER messages in flight, oldest first -/
  inFlight : List Delivery := []
  /-- refused deliveries on their way back, with the reason -/
  refused : List (Delivery × Nat) := []
  /-- full slots of the tile stops -/
  slots : List Delivery := []
  postings : List Posting := []
  /-- doorbells queued at a core: PCN, posting slot, oldest first (16 per core) -/
  doorbells : List (Nat × Nat) := []
  /-- doorbells owed: posting slot, hart (R394, R397) -/
  owed : List (Nat × Nat) := []
  /-- posting slots whose outstanding doorbell is of an older generation (R396) -/
  oldBells : List Nat := []
  /-- recalls in flight: VSLOT, hart, LID -/
  recalls : List (Nat × Nat × Nat) := []
deriving DecidableEq, Repr

/-! ## A Jexzar core (chapters 03 to 07) -/

/-- Memory type of an access (R134). -/
inductive MTy | wb | wc | dev
deriving DecidableEq, Repr

/-- State of a private copy (R203). -/
inductive CSt | m | e | s
deriving DecidableEq, Repr

/-- A copy in an L1. -/
structure L1Copy where
  way : Nat
  data : Line
  /-- held in M by the L1D: newer than the L2's data -/
  m : Bool
deriving DecidableEq, Repr

/-- A line of the L2, with what the L1s hold of it (R203). -/
structure PLine where
  st : CSt
  way : Nat
  data : Line
  poison : Bool
  l1d : Option L1Copy
  l1i : Option L1Copy
deriving DecidableEq, Repr

/-- An entry of the prefetch side buffer (R212). -/
structure SideEnt where
  line : Nat
  ex : Bool
  data : Line
  poison : Bool
  /-- tick at which its age window closes -/
  due : Nat
  /-- dropped, and waiting for a writeback-buffer entry to report it (R212, R214) -/
  leaving : Bool := false
deriving DecidableEq, Repr

/-- An entry of the writeback buffer (R213). -/
structure WbEnt where
  line : Nat
  dirty : Bool
  data : Line
  poison : Bool
deriving DecidableEq, Repr

/-- What a miss register works for (R207). -/
inductive MUse
  | read | own | zero | prefetch | amo | ad | cbo | wc | ucRead | ucWrite | spoor
deriving DecidableEq, Repr

/-- A miss register (R207 to R209). -/
structure MReq where
  txn : Nat
  line : Nat
  use : MUse
  /-- it holds an L1D register, an L1I register, an L2 register -/
  l1d : Bool
  l1i : Bool
  l2 : Bool
  /-- OPCODE of the request sent, 0 while none is -/
  op : Nat
  /-- OPCODE of a request that waits for the eviction of its line to be acknowledged (R214), else 0 -/
  want : Nat := 0
  /-- places in program order that wait on it -/
  waits : List Nat
  /-- an ownership request waits for the fill (R208) -/
  thenOwn : Bool
  /-- a fill that waits for a writeback entry (R214): state, data, poison -/
  got : Option (Nat × Line × Bool)
  /-- tick at which the request was sent (R289), and SNP_TMO_LOG2 of its slice then (R298) -/
  sent : Nat
  tmo : Nat := 0
  /-- request payload -/
  data : Line
  mask : BitVec 64
  arg : Nat
deriving DecidableEq, Repr

/-- A resolved branch or jump: `call` and `ret` are the hints of the standard. -/
structure Br where
  taken : Bool
  mis : Bool
  target : Word
  call : Bool
  ret : Bool
  /-- a conditional branch; an indirect jump -/
  cond : Bool
  ind : Bool
  /-- address of the next instruction in sequence -/
  link : Word
deriving DecidableEq, Repr

/-- Reservation station clusters (R82): A and B integer, M memory, V floating point and vector. -/
inductive Cluster | a | b | m | v
deriving DecidableEq, Repr

/-- An instruction that has executed and not retired. -/
structure RobEnt where
  seq : Nat
  pc : Word
  /-- PC of the next instruction -/
  npc : Word
  /-- its value is bound, or it has nothing to wait for -/
  done : Bool
  dst : Dst
  val : Word
  isLoad : Bool
  isStore : Bool
  branch : Option Br
  /-- micro-operations (R79) -/
  uops : Nat
  signed : Bool
  va : Word
  pa : Nat
  /-- bytes of the access; a split one has `n1` bytes at `pa` and the rest at `pa2` (R91) -/
  size : Nat
  n1 : Nat
  pa2 : Nat
  ty : MTy
  lvl : Lvl
  lid : Nat
  /-- held by QUIET in the speculation shadow (R96) -/
  held : Bool
  /-- waits for overlapping stores to commit (R89) -/
  waitFwd : Bool
  /-- the store it forwarded from -/
  fwdFrom : Option Nat
  /-- its line was snooped away after the value was bound (R138, R152) -/
  snooped : Bool
  /-- the value is poisoned (R341) -/
  poisoned : Bool
  /-- data source of R558 -/
  src : Nat
  /-- L2 TLB slot of its translation, if it had one, and of its upper half's -/
  slot : Option Nat
  slot2 : Option Nat := none
  /-- what each half of a load has read: value and poison (R93) -/
  lo : Option (Nat × Bool) := none
  hi : Option (Nat × Bool) := none
  tick : Nat
  tagged : Bool
deriving DecidableEq, Repr

/-- A store in the store buffer (R85, R87). -/
structure SbEnt where
  seq : Nat
  va : Word
  pa : Nat
  bytes : List Byte
  ty : MTy
  retired : Bool
  /-- a scalar or unit-stride vector store: it may forward (R89) -/
  fwd : Bool
  /-- cbo.zero -/
  zero : Bool
  slot : Option Nat
  lid : Nat
  lvl : Lvl
  /-- sent, and not yet acknowledged (uncached and device stores) -/
  sent : Bool
  /-- the upper half of a split store (R91): it needs no entry of its own -/
  upper : Bool := false
deriving DecidableEq, Repr

/-- A write-combining entry (R144). -/
structure WcEnt where
  line : Nat
  mask : BitVec 64
  data : Line
  due : Nat
  /-- translations of the stores merged: L2 TLB slot and LID -/
  slots : List (Nat × Nat)
deriving DecidableEq, Repr

/-- A tracked near AMO (R156). -/
structure Track where
  line : Nat
  idx : Nat
  due : Nat
deriving DecidableEq, Repr

/-- An L2 TLB entry (R173). -/
structure TlbEnt where
  v : Bool := false
  size : Nat := 0
  g : Bool := false
  mw : Bool := false
  va : Nat := 0
  asid : Nat := 0
  r : Bool := false
  w : Bool := false
  x : Bool := false
  u : Bool := false
  ty : Nat := 0
  a : Bool := false
  d : Bool := false
  oa : Nat := 0
  lid : Nat := 0
  en : Bool := false
  addr : Nat := 0
  expect : Nat := 0
  abit : Nat := 0
  dbit : Nat := 0
deriving DecidableEq, Repr

/-- An L1 TLB entry: stage 1 combined with stage 2 (R183). -/
structure L1Tlb where
  slot : Nat
  va : Nat
  size : Nat
  pa : Nat
  r : Bool
  w : Bool
  x : Bool
deriving DecidableEq, Repr

/-- An extent held by an extent cache (R182). -/
structure Extent where
  lid : Nat
  gbase : Nat
  size : Nat
  pbase : Nat
  r : Bool
  w : Bool
  x : Bool
deriving DecidableEq, Repr

/-- An A/D update that the oldest instruction needs, or has sent (R184, R185). -/
structure AdPend where
  seq : Nat
  pc : Word
  slot : Nat
  va : Word
  needD : Bool
  lvl : Lvl
  sent : Bool
deriving DecidableEq, Repr

/-- A device access issued and not acknowledged (R140 to R142). -/
structure DevAcc where
  seq : Nat
  write : Bool
  pa : Nat
  size : Nat
  data : Nat
  dst : Dst
  signed : Bool
deriving DecidableEq, Repr

/-- Prediction state (R76). It affects timing only (R78). The index and tag functions are free values of Config. History
and return stack are those of the retired instructions; what the unretired ones add is read from the reorder buffer, so a
flush restores both exactly (R77). -/
structure Pred where
  /-- base table of the direction predictor: 2-bit counters by index, 8,192 -/
  base : SMap Nat := []
  /-- its six tagged tables: tag and counter by 2,048 · table + index -/
  tagged : SMap (Nat × Nat) := []
  /-- direction history of the last 192 branches, newest first -/
  hist : List Bool := []
  /-- targets of the last 16 taken branches, newest first -/
  path : List Word := []
  /-- return stack, top first, at most 64 -/
  ras : List Word := []
  /-- BTB: for each of 1,024 sets at most 12 pairs of PC and target, newest first -/
  btb : SMap (List (Word × Word)) := []
  /-- indirect target table, 4,096 entries by index -/
  ind : SMap Word := []
  /-- store-set pairs: load PC and store PC (R85) -/
  deps : List (Word × Word) := []
deriving DecidableEq, Repr

/-- Sleep (R99 to R101): state code 0 NAP, 1 DOZE, 2 PARK. -/
inductive Sleep
  | awake
  | entering (st : Nat)
  /-- a PARK entry whose L2 is being written back -/
  | parking
  | asleep (st : Nat)
deriving DecidableEq, Repr

/-- A TLBINV or EXTINV that waits for its completion: `id` names the broadcast. -/
structure BcWait where
  id : Nat
  seq : Nat
  ilen : Nat
  pc : Word
  rd : Nat
deriving DecidableEq, Repr

/-- One core. -/
structure Core where
  /-- released from reset and powered -/
  on : Bool := false
  /-- clocks stopped: fenced, dead or failed (R489, R509) -/
  dead : Bool := false
  lvl : Lvl := .m
  pc : Word := 0
  /-- place in program order of the oldest unretired instruction -/
  next : Nat := 0
  /-- x1 to x31, the fast bank x10 to x17, f0 to f31, v0 to v31; unlisted: 0 -/
  x : SMap Word := []
  fast : SMap Word := []
  f : SMap Word := []
  v : SMap (BitVec 256) := []
  /-- system registers by number; unlisted: the reset value of R110 -/
  csr : SMap Word := []
  hhart : Word := 0
  rob : List RobEnt := []
  /-- loads that retired while QUIET held them: SHADOW_RELEASE makes their deferred updates (R96) -/
  late : List RobEnt := []
  /-- micro-operations in the reservation stations: place in program order and cluster (R82) -/
  rs : List (Nat × Cluster) := []
  sb : List SbEnt := []
  wc : List WcEnt := []
  dev : Option DevAcc := none
  mrs : List MReq := []
  nextTxn : Nat := 0
  l2 : SMap PLine := []
  side : List SideEnt := []
  wbb : List WbEnt := []
  /-- tree pseudo-LRU bits by set -/
  plruI : SMap Nat := []
  plruD : SMap Nat := []
  plru2 : SMap Nat := []
  tlb : SMap TlbEnt := []
  tlbPtr : SMap Nat := []
  /-- most recently used first -/
  itlb : List L1Tlb := []
  dtlb : List L1Tlb := []
  ext : List Extent := []
  invSeq : Nat := 0
  resv : Option Nat := none
  /-- the window of R159 is open, and its closing tick -/
  lrOpen : Bool := false
  lrDue : Nat := 0
  /-- snoops deferred by an LR window: OPCODE and message -/
  deferred : List (Nat × Msg) := []
  /-- contention predictor: counter and probe count by index (R154) -/
  cpred : SMap (Nat × Nat) := []
  tracks : List Track := []
  pred : Pred := {}
  pauseUntil : Option Nat := none
  sleep : Sleep := .awake
  cycBase : Nat := 0
  cycFrom : Nat := 0
  ad : Option AdPend := none
  amoAt : Option (Ins × Dst × Nat) := none
  bc : Option BcWait := none
  /-- AMO whose placement has been chosen: place, near, probe (R155) -/
  amoChoice : Option (Nat × Bool × Bool) := none
  /-- a WAIT or a Zicbom operation that holds at the ROB head -/
  stall : Option Ins := none
  /-- physical L2 way being swept (with failure steps or not), and crossings waiting -/
  sweep : Option (Nat × Bool) := none
  sweepWait : List Nat := []
  /-- L2 corrections by way, as ticks of 1 s (R218) -/
  wayHist : List (Nat × Nat) := []
  /-- Spoor countdown, LFSR, whether the next operation of the kind is tagged -/
  spoorLeft : Nat := 0
  lfsr : Nat := 0
  spoorNext : Bool := false

  /-- stride prefetcher: load PC, last address, stride, times seen -/
  strides : List (Word × Nat × Int × Nat) := []
  /-- stream prefetcher: the last line missed, and the direction once it is known (`true`: ascending) -/
  streams : List (Nat × Option Bool) := []
deriving DecidableEq, Repr

/-! ## The home (chapters 09, 10) and the mesh (chapter 08) -/

/-- A valid LLC line (R244). -/
structure LEnt where
  /-- logical way -/
  way : Nat
  data : Line
  dirty : Bool
  poison : Bool
  /-- age: the slice's use count at the last use -/
  age : Nat
deriving DecidableEq, Repr

/-- A Warren entry (R254 to R256). -/
structure WEnt where
  way : Nat
  ex : Bool
  /-- coarse: `who` lists groups of eight PCNs; otherwise agents -/
  coarse : Bool
  who : List Nat
  age : Nat
deriving DecidableEq, Repr

/-- An open transaction, or a tracker at work (R257, R259, R280, R283). -/
structure Txn where
  /-- OPCODE of the request; 0 for a tracker -/
  op : Nat
  req : Msg
  /-- the EX holder at admission -/
  owner : Option Nat
  /-- holders whose SnpRsp is awaited -/
  snoops : List Nat
  /-- holders whose WbData is awaited, and those whose WbData came before their SnpRsp -/
  wbs : List Nat
  early : List Nat
  /-- data gathered: line, poison -/
  data : Option (Line × Bool)
  /-- a holder sent it as M -/
  dirty : Bool
  /-- it came from the LLC (Data.LLC), from a holder -/
  llc : Bool
  peer : Bool
  /-- MData is awaited -/
  reading : Bool
  /-- MCmp still awaited -/
  writes : Nat
  /-- WrData is awaited after WrGo -/
  wrData : Bool
  /-- the operation is performed; only `writes` and `ack` remain -/
  ready : Bool
  /-- CmpAck is awaited, for this grant: 1 S, 2 E, 3 M -/
  ack : Option Nat
  /-- the EX holder keeps its copy in S -/
  keep : Bool
  /-- an Upg that found its requester recorded -/
  upg : Bool
  /-- the write data will never come (R292) -/
  hurt : Bool
  /-- tick at which the last wait on an agent began, and SNP_TMO_LOG2 as it was (R289, R298) -/
  since : Nat
  tmo : Nat
deriving DecidableEq, Repr

/-- A queued request and the tick at which it was queued. -/
structure Queued where
  op : Nat
  msg : Msg
  slice : Nat
  tick : Nat
deriving DecidableEq, Repr

/-- Reclaim sweep of a slice (R293). -/
structure Reclaim where
  slice : Nat
  agent : Nat
  start : Nat
  poisoned : Nat
deriving DecidableEq, Repr

/-- A broadcast of R129, from its issue to its completion. -/
structure Bcast where
  id : Nat
  issuer : Nat
  /-- 0 TLBINV.VA, 1 .ASID, 2 .LID, 3 .ALL, 4 EXTINV.LID, 5 EXTINV.RANGE -/
  kind : Nat
  lid : Nat
  asid : Nat
  va : Nat
  size : Nat
  admitted : Bool
  /-- agents that have still to acknowledge, and those that have applied it and not been counted -/
  waits : List Nat
  acked : List Nat
  /-- of those, the cores that have acted and hold back their acknowledgement (R190, step 3) -/
  acting : List Nat := []
  lost : Nat
  /-- tick of the admission, and BCHUB's SNP_TMO_LOG2 as it was (R298) -/
  since : Nat
  tmo : Nat := 0
deriving DecidableEq, Repr

/-- BCHUB's own state beside its registers. -/
structure Hub where
  bcasts : List Bcast := []
  nextId : Nat := 0
  /-- tick of the last admission -/
  last : Option Nat := none
  /-- DEAD flits still to be received: agent and stops to go -/
  deads : List (Nat × List Nat) := []
  /-- SWEEP_DONE awaited: agent and slices -/
  sweeps : List (Nat × List Nat) := []
deriving DecidableEq, Repr

/-- A flit in a router buffer: its message, and the outputs that it has still to leave by (0 N, 1 E, 2 S, 3 W, 4 L), more than one
for a broadcast (R234). -/
structure BufEnt where
  op : Nat
  msg : Msg
  outs : List Nat
deriving DecidableEq, Repr

/-- A flit in a replay buffer (R231). -/
structure SentFlit where
  seq : Nat
  op : Nat
  msg : Msg
deriving DecidableEq, Repr

/-- A port of a router, beside its registers (R231 to R239): keyed 8·stop + port, 4 being the local port L. -/
structure LinkSt where
  /-- input buffers by class, oldest first -/
  inq : SMap (List BufEnt) := []
  /-- flits sent and not acknowledged, oldest first -/
  replay : List SentFlit := []
  /-- SEQ of the next flit sent -/
  seq : Nat := 0
  /-- SEQ of the last flit received in order on this input -/
  rxSeq : Nat := 31
  /-- discarding until the replay arrives -/
  skipping : Bool := false
  /-- a NAK is due on the sideband sent by this port -/
  nak : Bool := false
  /-- a replay is not acknowledged yet: its last SEQ -/
  replaying : Option Nat := none
  /-- SEQ of the next flit that it resends -/
  resend : Option Nat := none
  /-- class whose credits the next sideband sent reports, and credits returned per class, modulo 16 -/
  crdNext : Nat := 0
  crdOut : SMap Nat := []
  /-- credit running totals of each class as last heard -/
  crdSeen : SMap Nat := []
  /-- tick at which a class came to stand at 0 credits -/
  zeroSince : SMap Nat := []
  /-- arbitration of the output (R235): cycles a class has been eligible and refused; the next input, by class (at L by
  4·class + agent) -/
  refused : SMap Nat := []
  rot : SMap Nat := []
  /-- at L: the next agent served, by class (R236) -/
  agents : SMap Nat := []
deriving DecidableEq, Repr

/-- Homes, mesh and BCHUB. -/
structure Fabric where
  llc : SMap LEnt := []
  warren : SMap WEnt := []
  /-- use counter for ages -/
  uses : Nat := 0
  txns : SMap Txn := []
  trackers : SMap Txn := []
  queue : List Queued := []
  /-- messages in flight: OPCODE and message, oldest first; and those of them that have left their agent's stop or entered its
  router -/
  net : List (Nat × Msg) := []
  sent : List (Nat × Msg) := []
  /-- agents recorded dead per slice: key 512·slice + agent -/
  deadAt : List Nat := []
  reclaims : List Reclaim := []
  /-- reclaim sweeps that wait at a slice: slice, agent -/
  reclaimWait : List (Nat × Nat) := []
  /-- way sweeps: LLC slice (physical way, with steps 3 to 5), Warren slice; and crossings that wait; a way
  taken out by a register write waits as its number plus 100 -/
  llcSweep : SMap (Nat × Bool) := []
  llcSweepWait : List (Nat × Nat) := []
  warrenSweep : SMap (Nat × Bool) := []
  warrenSweepWait : List (Nat × Nat) := []
  /-- corrections: slice, way, second -/
  llcHist : List (Nat × Nat × Nat) := []
  warrenHist : List (Nat × Nat × Nat) := []
  /-- background steps of a slice (R263): cycles refused, and which sweep went last, 1 LLC or 2 Warren -/
  bgWait : SMap Nat := []
  bgLast : SMap Nat := []
  hub : Hub := {}
  links : SMap LinkSt := []
  /-- domain-down has been driven -/
  down : Bool := false
deriving DecidableEq, Repr
/-- Check bits stored inverted by an injection (R494): unit, checker, entry, FLIP. -/
structure Flip where
  inst : Nat
  checker : Nat
  key : Nat
  flip : Nat
deriving DecidableEq, Repr
/-! ## Ports: the root complexes and the twin port (chapters 15 and 16) -/

/-- What a piece of posted inbound work is. -/
inductive PieceKind
  /-- bytes of one line -/
  | write
  /-- an MSI or MSI-X message, or a local completion interrupt: data for the IDIST -/
  | msi (data : Nat)
  /-- a write of VF.RAISE -/
  | raise (index : Nat)
deriving DecidableEq, Repr

/-- Where a piece stands (R285). -/
inductive PieceSt
  | fresh
  /-- ownership asked for -/
  | asked
  | owned
  /-- IoWb sent -/
  | committing
  /-- IoWb sent, and the line given up to a snoop before the home took it: it follows as IoWr -/
  | lost
  /-- the line was given up to a snoop -/
  | givenUp
  /-- IoWr sent -/
  | writing
deriving DecidableEq, Repr

/-- A piece of posted inbound work of one function, not yet performed (R147, R148, R285). -/
structure Piece where
  id : Nat
  /-- PCIe function: root port and requester ID; VF number; or a ring of a VF -/
  fn : Nat
  kind : PieceKind
  st : PieceSt
  line : Nat
  mask : BitVec 64
  data : Line
  /-- received with EP = 1 -/
  ep : Bool
  poison : Bool
  lid : Nat
  gen : Nat
  qport : Nat
  fclass : Nat
  txn : Nat
  /-- tick at which its last message was sent (R289), and SNP_TMO_LOG2 of its slice then (R298) -/
  sent : Nat
  tmo : Nat := 0
  /-- window of a VF and its generation at the match (R426) -/
  win : Option (Nat × Nat × Nat)
deriving DecidableEq, Repr

/-- An inbound read at work (R407, R410). -/
structure DmaRead where
  id : Nat
  fn : Nat
  rp : Nat
  tag : Nat
  addr : Nat
  pa : Nat
  len : Nat
  lid : Nat
  gen : Nat
  /-- transactions of the lines still awaited: TXN and line -/
  waits : List (Nat × Nat)
  /-- lines that have come: line, data, poison -/
  got : List (Nat × Line × Bool)
  sent : Nat
  /-- SNP_TMO_LOG2 of each line's slice when its request was sent (R298): TXN and value -/
  tmos : List (Nat × Nat)
  /-- pieces of the function that must be performed first (R426) -/
  after : List Nat
  win : Option (Nat × Nat × Nat)
deriving DecidableEq, Repr

/-- Who issued an outbound request. -/
inductive OutBy
  | core (pcn : Nat)
  /-- a ring of a VF, and the index of the descriptor -/
  | ring (vf ring idx : Nat)
deriving DecidableEq, Repr

/-- An outbound non-posted request holding a tag, in use or quarantined (R406, R413). -/
structure OutReq where
  tag : Nat
  rp : Nat
  owner : OutBy
  addr : Nat
  size : Nat
  write : Bool
  cfg : Bool
  sent : Nat
  /-- C, the timeout -/
  wait : Nat
  quar : Bool
  lid : Nat
  gen : Nat
deriving DecidableEq, Repr

/-- An outbound request that waits for a tag, or behind one that does. -/
structure OutWait where
  rp : Nat
  owner : OutBy
  addr : Nat
  size : Nat
  write : Bool
  posted : Bool
  cfg : Bool
  data : List Byte
  lid : Nat
  gen : Nat
deriving DecidableEq, Repr

/-- A TLP that left the port. -/
inductive Tlp
  | memRd (rp tag addr len : Nat)
  | memWr (rp addr : Nat) (data : List Byte)
  | cfgRd (rp tag addr len : Nat)
  | cfgWr (rp tag addr : Nat) (data : List Byte)
  /-- a completion: status 0 SC, 1 UR; `ep` poisoned -/
  | cpl (rp tag status : Nat) (data : List Byte) (ep : Bool)
deriving DecidableEq, Repr

/-- A descriptor of a replication ring in progress (R430, R431). -/
structure Desc where
  idx : Nat
  op : Nat
  flags : Nat
  src : Nat
  len : Nat
  loc : Nat
  rem : Nat
  /-- bytes of partner reads not yet asked for: offset of the next -/
  nextRd : Nat
  /-- partner reads outstanding -/
  reads : Nat
  /-- pieces of its local writes not yet performed -/
  pieces : List Nat
  complete : Bool
deriving DecidableEq, Repr

/-- AER of a function of the twin port (R411, R423): uncorrectable and correctable status, and the first DW of the header
log. -/
structure Aer where
  unc : Nat := 0
  cor : Nat := 0
  hdr : Nat := 0
deriving DecidableEq, Repr

/-- A VF, beside its register page. -/
structure VfSt where
  /-- Bus Master Enable, and D3hot -/
  bme : Bool := false
  d3 : Bool := false
  /-- MSI-X: enable, and per vector address, data, mask, pending -/
  msixEn : Bool := false
  msix : SMap (Nat × Nat × Bool × Bool) := []
  /-- descriptors in progress of each ring, in ring order; the next to be started -/
  prog0 : List Desc := []
  prog1 : List Desc := []
  next0 : Nat := 0
  next1 : Nat := 0
  /-- an FLR is running since this tick -/
  flr : Option Nat := none
  /-- windows of the commit that BUSY waits for -/
  commit : Nat := 0
  aer : Aer := {}
deriving DecidableEq, Repr

/-- PF0 and the partner's settings of the link (R423, R443). -/
structure Pf0 where
  heartbeat : Nat := 0
  d3 : Bool := false
  bme : Bool := false
  /-- Device Control: MPS and MRRS in bytes, completion timeout encoding -/
  mps : Nat := 128
  mrrs : Nat := 512
  ctoEnc : Nat := 0
  msixEn : Bool := false
  msix : SMap (Nat × Nat × Bool × Bool) := []
  aer : Aer := {}
deriving DecidableEq, Repr

/-- A port: RC0 to RC7 are 0 to 7, the twin port is 8. -/
structure Port where
  pieces : List Piece := []
  reads : List DmaRead := []
  reqs : List OutReq := []
  wait : List OutWait := []
  /-- fault records, oldest first (at most 32) -/
  log : List Word := []
  /-- I/O extent cache, most recently used first (R182) -/
  ext : List Extent := []
  /-- configuration space of each root port: key 65536·p + register -/
  cfg : SMap Nat := []
  /-- PERST# holds: root port and the tick at which its hold has elapsed -/
  perstDue : SMap Nat := []
  next : Nat := 0
  /-- TLPs that left the port, oldest first -/
  out : List Tlp := []
  /-- broadcasts received whose inbound writes have still to be performed: broadcast, pieces -/
  drains : List (Nat × List Nat) := []
  /-- fenced by DEAD (R291) -/
  dead : Bool := false
  /-- twin port: the ring that the engine's rotation pointer names (0 is VF 1 ring 0, 125 is VF 63 ring 1), and whether the
  last injection slot went to the engine (R433) -/
  rot : Nat := 0
  lastEng : Bool := false
deriving DecidableEq, Repr
/-! ## Memory controllers (chapters 11 and 12) and the Hoard (chapter 17) -/

/-- A read in a read queue (R306); `scrub`: a scrub read (R318). -/
structure MRead where
  line : Nat
  qport : Nat
  /-- arrival -/
  tick : Nat
  /-- its target in cycles, given at its arrival (R309) -/
  tc : Nat
deriving DecidableEq, Repr

/-- A scrub at work on one channel (R343, R352). -/
structure ScrubSt where
  /-- next channel address, and lines left -/
  ca : Nat
  left : Nat
  read : Nat := 0
  ce : Nat := 0
  ue : Nat := 0
  poisoned : Nat := 0
  dropped : Nat := 0
  first : Option Nat := none
  last : Option Nat := none
  /-- per subchannel: demand reads since its last scrub read, and the tick since which a scrub read has waited -/
  demand : SMap Nat := []
  since : Nat := 0
deriving DecidableEq, Repr

/-- What the Sett has a channel do through RETUNE windows (R323, R332). -/
inductive McJob
  | idle
  /-- a window that measures candidate delays is open -/
  | measure
  /-- measured; the next window, no earlier than this tick, makes them active -/
  | ready (due : Nat)
  | final
  /-- a change of rate commanded by MEM.RETUNE -/
  | rate
deriving DecidableEq, Repr

/-- A memory controller beside its registers. -/
structure McSt where
  /-- reads queued, oldest first, and lines queued for writing, oldest first -/
  rq : List MRead := []
  wq : List Nat := []
  /-- subchannels in write drain -/
  drain : List Nat := []
  /-- open row of a bank, hits served since a miss waited, TEN activates in the window, rolling activate count -/
  rows : SMap Nat := []
  hits : SMap Nat := []
  tens : SMap Nat := []
  tenWin : SMap Nat := []
  raa : SMap Nat := []
  /-- bank pointer of a subchannel (R310) -/
  bankPtr : SMap Nat := []
  /-- refreshes owed by a rank, and pulled in ahead; ZQ calibrations owed -/
  debt : SMap Nat := []
  ahead : SMap Nat := []
  zq : SMap Nat := []
  /-- the bank that REFsb refreshes next in each group of a rank (R316) -/
  refBa : SMap Nat := []
  /-- tick at which a request last came or was last queued (R317) -/
  lastReq : Nat := 0
  /-- ALERT_n events in the open window: its first tick and their number -/
  alertFrom : Nat := 0
  alertN : Nat := 0
  /-- RETUNE: rate of the old set, and that phase 3 fell back -/
  oldRate : Nat := 0
  fellBack : Bool := false
  scrub : Option ScrubSt := none
  lastScrub : ScrubSt := ⟨0, 0, 0, 0, 0, 0, 0, none, none, [], 0⟩
  job : McJob := .idle
  /-- tick of the last training (R323) -/
  trainedAt : Nat := 0
deriving DecidableEq, Repr

/-- A Hoard stop beside its registers (chapter 17). -/
structure HoardSt where
  /-- banks being cleared, and what waits on the clear: acceptance order of a command -/
  clears : List Nat := []
  /-- a march: bank, tick of its start -/
  march : Option (Nat × Nat) := none
  /-- the bank was open before the march -/
  wasOpen : Bool := false
  /-- a copy of a failed bank to the spare -/
  copy : Option Nat := none
deriving DecidableEq, Repr

/-- The error log in the Sett's SRAM (R345). -/
structure ErrLog where
  recs : List ErrRec := []
  seq : Nat := 0
  lost : Nat := 0
deriving DecidableEq, Repr

/-- A bandwidth monitor's open window (R561, R562). -/
structure BwSt where
  live : SMap Nat := []
  /-- K of the window in progress, and whether it is the first after a change of K -/
  k : Nat := 10
  fresh : Bool := false
  /-- tick at which it opened -/
  opened : Nat := 0
deriving DecidableEq, Repr
/-! ## The whole block -/

/-- The state of the FRJ-256. -/
structure State where
  /-- commands that wait, first in first out (the row's queue) -/
  pending : List Instr := []
  /-- 10 ns counts of the timebase clock since the model's start (R133); the model's own clock -/
  tick : Nat := 0
  /-- the model's own index of the next free value (see Config.freeWord) -/
  freeIdx : Nat := 0
  /-- on-chip registers by byte offset of their start in the register space (R32);
  a register that is not listed holds its COLD reset value -/
  ocr : SMap Word := []
  /-- DRAM and the Hoard by physical address; an unlisted byte reads 0 -/
  mem : List Host.Cell := []
  /-- line numbers (PA[47:6]) whose copy in memory is poisoned (R341) -/
  poison : List Nat := []
  /-- the data a register or mailbox read returned last (the response on the issuer's port) -/
  readData : Word := 0
  org : Org := {}
  sett : Sett := {}
  flash : Flash := {}
  owl : OwlSt := {}
  wear : WearSt := {}
  pwr : Pwr := {}
  /-- MSI-X vectors of PF0 raised towards the partner: 0 response, 1 event (R55, R443) -/
  twinMsix : List Nat := []
  lodges : SMap LodgeSt := []
  pools : Pools := {}
  lodgeWork : List LodgeWork := []
  idist : Idist := {}
  /-- cores by PCN -/
  cores : SMap Core := []
  fab : Fabric := {}
  /-- entries whose stored check bits an injection inverted -/
  flips : List Flip := []
  /-- ports: RC0 to RC7, and 8 the twin port -/
  ports : SMap Port := []
  vfs : SMap VfSt := []
  pf0 : Pf0 := {}
  mcs : SMap McSt := []
  hoards : SMap HoardSt := []
  elog : ErrLog := {}
  /-- bandwidth monitors by stop -/
  bw : SMap BwSt := []
deriving DecidableEq, Repr

/-- The machine right after COLD reset is asserted and released, before the Sett boots: every register
at its COLD value, memory with nothing listed, a blank flash, no feed connected. -/
def State.reset : State := {}

end Sys2Proof.Machine
end

