-- ==== Sys2Proof/Machine/Regs.lean ====
section
/-! DEFINITION. The on-chip registers (R32): where every block's window lies, every register of the
register maps with its width, access codes, legal values and COLD reset value (R3 to R9). -/
namespace Sys2Proof.Machine

/-- Access codes of R3. -/
inductive Acc | rw | ro | wo | w1c | w1s | rc | rwl
deriving DecidableEq, Repr

/-- Values a field accepts; any other is a reserved encoding (R5). -/
inductive Legal
  | any
  | range (lo hi : Nat)
  | oneOf (l : List Nat)
  /-- lane numbers of R241: 0 to 679, or 0x3FF for none -/
  | lane
deriving DecidableEq, Repr

def Legal.ok : Legal → Nat → Bool
  | .any, _ => true
  | .range lo hi, n => decide (lo ≤ n) && decide (n ≤ hi)
  | .oneOf l, n => l.contains n
  | .lane, n => decide (n < 680) || decide (n = 1023)

/-- A field: its bits, access code and legal values. Bits outside every field are RSV (R4). -/
structure FieldDef where
  hi : Nat
  lo : Nat
  acc : Acc
  legal : Legal
deriving DecidableEq, Repr

/-- A register array: offset in its window, stride, count, width (64 or 32 bits), COLD reset value,
whether it keeps its value at WARM (a "WARM:kept" register, or a block WARM does not reach), fields. -/
structure RegDef where
  off : Nat
  stride : Nat
  count : Nat
  wide : Bool
  reset : Nat
  kept : Bool
  fields : List FieldDef
deriving DecidableEq, Repr

/-- A window of the register space (R32). -/
inductive Blk
  | mesh (stop : Nat) | isl (stop : Nat) | err (stop part : Nat)
  | core (pcn : Nat) | llc (t : Nat) | warren (t : Nat)
  | mc (n : Nat) | rc (n : Nat) | tp | vf (v : Nat) | hoard (n : Nat)
  | idist | bchub | sett | owl | pwrc
deriving DecidableEq, Repr

/-- Stop index of S(x,y) (R15). -/
def stopIdx (x y : Nat) : Nat := y * 17 + x

/-- Stop of tile `t` (R16, R17). -/
def tileStop (t : Nat) : Nat := t + 17

/-- Stop of core `pcn` (R17). -/
def coreStop (pcn : Nat) : Nat := tileStop (pcn / 2)

/-- Stops of MC0 to MC15 (R15). -/
def mcStops : List Nat := [1, 2, 4, 5, 11, 12, 14, 15, 154, 155, 157, 158, 164, 165, 167, 168]

/-- Stops of RC0 to RC7 (R15). -/
def rcStops : List Nat := [0, 3, 13, 16, 153, 156, 166, 169]

/-- Stops of HOARD0 to HOARD3 (R15). -/
def hoardStops : List Nat := [6, 10, 159, 163]

/-- Byte offset of a window's base in the register space (R32, R485, R444). -/
def Blk.base : Blk → Nat
  | .mesh st => st <<< 24
  | .isl st => (st <<< 24) + 0x100000
  | .err st p => (st <<< 24) + 0x200000 + 0x1000 * p
  | .core pcn => (coreStop pcn <<< 24) + (if pcn % 2 = 0 then 0x400000 else 0x800000)
  | .llc t => (tileStop t <<< 24) + 0xC00000
  | .warren t => (tileStop t <<< 24) + 0xE00000
  | .mc n => (mcStops.getD n 0 <<< 24) + 0x400000
  -- the twin port in root mode (R422) is kept as `rc 8`, beyond the last stop's registers
  | .rc n => (rcStops.getD n 200 <<< 24) + 0x400000
  | .tp => (7 <<< 24) + 0x400000
  | .vf v => (7 <<< 24) + 0x400000 + 0x100000 + 0x4000 * v
  | .hoard n => (hoardStops.getD n 0 <<< 24) + 0x400000
  | .idist => (8 <<< 24) + 0x400000
  | .bchub => (9 <<< 24) + 0x400000
  | .sett => (160 <<< 24) + 0x400000
  | .owl => (161 <<< 24) + 0x400000
  | .pwrc => (162 <<< 24) + 0x400000

/-- The stop a window belongs to. -/
def Blk.stop (b : Blk) : Nat := if b = .rc 8 then 7 else b.base >>> 24

/-- Whether `stop` is a tile stop. -/
def isTileStop (st : Nat) : Bool := decide (17 ≤ st) && decide (st < 153)

/-- The window at an edge stop (R15). -/
def edgeBlk (st : Nat) : Blk :=
  if st = 7 then .tp else if st = 8 then .idist else if st = 9 then .bchub
  else if st = 160 then .sett else if st = 161 then .owl else if st = 162 then .pwrc
  else if mcStops.contains st then .mc (mcStops.idxOf st)
  else if rcStops.contains st then .rc (rcStops.idxOf st)
  else .hoard (hoardStops.idxOf st)

/-- Window and offset in it of a byte of the register space; `none` in the reserved range
0x030_0000 to 0x03F_FFFF (R32, R34). The caller excludes the tail above stop 169. -/
def blkOf (off : Nat) : Option (Blk × Nat) :=
  let st := off >>> 24
  let o := off % 0x1000000
  if st = 200 then some (.rc 8, o - 0x400000)
  else if o < 0x100000 then some (.mesh st, o)
  else if o < 0x200000 then some (.isl st, o - 0x100000)
  else if o < 0x300000 then some (.err st ((o - 0x200000) / 0x1000), (o - 0x200000) % 0x1000)
  else if o < 0x400000 then none
  else if isTileStop st then
    if o < 0x800000 then some (.core (2 * (st - 17)), o - 0x400000)
    else if o < 0xC00000 then some (.core (2 * (st - 17) + 1), o - 0x800000)
    else if o < 0xE00000 then some (.llc (st - 17), o - 0xC00000)
    else some (.warren (st - 17), o - 0xE00000)
  else
    let e := o - 0x400000
    if st = 7 ∧ 0x104000 ≤ e ∧ e < 0x200000 then some (.vf ((e - 0x100000) / 0x4000), (e - 0x100000) % 0x4000)
    else some (edgeBlk st, e)

/-! Offsets of the registers from the base of their window (the register maps of spec/). -/
namespace Off
abbrev MESH_ID : Nat := 0x0
abbrev MESH_CTL : Nat := 0x8
abbrev LINK_STATE : Nat := 0x100
abbrev LINK_LANEMAP : Nat := 0x108
abbrev LINK_ERR : Nat := 0x110
abbrev LINK_CREDIT : Nat := 0x118
abbrev OCR_ERR : Nat := 0x400
abbrev ISL_ID : Nat := 0x0
abbrev ISL_PSTATE : Nat := 0x8
abbrev ISL_FREQ : Nat := 0x10
abbrev ISL_SSC : Nat := 0x18
abbrev ISL_TEMP : Nat := 0x20
abbrev ERR_STATUS : Nat := 0x0
abbrev ERR_ADDR : Nat := 0x8
abbrev ERR_INFO : Nat := 0x10
abbrev ERR_CNT : Nat := 0x18
abbrev INJECT : Nat := 0x20
abbrev PIPE_ID : Nat := 0x30000
abbrev PRED_CTL : Nat := 0x30008
abbrev PRED_FLUSH : Nat := 0x30010
abbrev WAKE_SRC : Nat := 0x30100
abbrev CACHE_ID : Nat := 0x40000
abbrev L2_WAYCFG : Nat := 0x40008
abbrev L2_WDCFG : Nat := 0x40010
abbrev L2_STATUS : Nat := 0x40018
abbrev PF_CTL : Nat := 0x40020
abbrev L2_WAYERR : Nat := 0x40100
abbrev CORE_LODGE_ATTR : Nat := 0x50000
abbrev PMC : Nat := 0x60000
abbrev PMCTL : Nat := 0x60400
abbrev PMOVF : Nat := 0x60600
abbrev PMF_CFG : Nat := 0x60800
abbrev PMF_LO : Nat := 0x60808
abbrev PMF_HI : Nat := 0x60810
abbrev SPOOR_CTL : Nat := 0x61000
abbrev SPOOR_BASE : Nat := 0x61008
abbrev SPOOR_HEAD : Nat := 0x61010
abbrev SPOOR_TAIL : Nat := 0x61018
abbrev SPOOR_LOST : Nat := 0x61020
abbrev LLC_ID : Nat := 0x0
abbrev LLC_WAYCFG : Nat := 0x8
abbrev LLC_WDCFG : Nat := 0x10
abbrev LLC_STATUS : Nat := 0x18
abbrev FCLASS : Nat := 0x100
abbrev LLC_WAYERR : Nat := 0x200
abbrev WARREN_ID : Nat := 0x0
abbrev WARREN_WAYCFG : Nat := 0x8
abbrev WARREN_WDCFG : Nat := 0x10
abbrev WARREN_STATUS : Nat := 0x18
abbrev RQ_MAXWAIT : Nat := 0x20
abbrev WARREN_COH_CFG : Nat := 0x40
abbrev RECLAIM : Nat := 0x48
abbrev DEAD_DISCARD : Nat := 0x50
abbrev WARREN_WAYERR : Nat := 0x200
abbrev BCHUB_COH_CFG : Nat := 0x1000
abbrev RECOVERY : Nat := 0x1008
abbrev DEAD_SET : Nat := 0x1100
abbrev MC_ID : Nat := 0x0
abbrev GEOM : Nat := 0x8
abbrev MC_CTL : Nat := 0x10
abbrev SCHED : Nat := 0x18
abbrev MC_STATUS : Nat := 0x20
abbrev RETUNE : Nat := 0x28
abbrev MC_TEMP : Nat := 0x30
abbrev MC_IRQ_STATUS : Nat := 0x38
abbrev MC_IRQ_EN : Nat := 0x40
abbrev QOS_TARGET : Nat := 0x100
abbrev TIMING_A : Nat := 0x1000
abbrev TIMING_B : Nat := 0x1040
abbrev MRIMG_A : Nat := 0x1100
abbrev MRIMG_B : Nat := 0x1140
abbrev DELAY_A : Nat := 0x2000
abbrev DELAY_B : Nat := 0x3000
abbrev TRAIN_CTL : Nat := 0x4000
abbrev TRAIN_ADDR : Nat := 0x4008
abbrev TRAIN_PAT : Nat := 0x4040
abbrev TRAIN_RESULT : Nat := 0x4100
abbrev SCRUB_BASE : Nat := 0x5000
abbrev SCRUB_COUNT : Nat := 0x5008
abbrev SCRUB_CTL : Nat := 0x5010
abbrev SCRUB_RESULT : Nat := 0x5018
abbrev SCRUB_FIRST : Nat := 0x5020
abbrev SCRUB_LAST : Nat := 0x5028
abbrev ERASE : Nat := 0x5040
abbrev IDIST_ID : Nat := 0x0
abbrev IDIST_LATE_DISCARD : Nat := 0x10
abbrev MSI_REJECT : Nat := 0x18
abbrev EOI_BAD : Nat := 0x20
abbrev REFUSED : Nat := 0x28
abbrev DENIED : Nat := 0x30
abbrev GROUP : Nat := 0x100
abbrev HART_MAP : Nat := 0x400
abbrev TSET : Nat := 0x1000
abbrev SRC_LID : Nat := 0x2000
abbrev IDIST_LODGE_ATTR : Nat := 0x3000
abbrev IPI_SEND : Nat := 0x10000
abbrev SRC : Nat := 0x20000
abbrev VSLOT_CFG : Nat := 0x40000
abbrev VSLOT_AREA : Nat := 0x40008
abbrev RC_ID : Nat := 0x0
abbrev RC_CFG : Nat := 0x8
abbrev OB64_BASE : Nat := 0x10
abbrev MSI_ADDR : Nat := 0x18
abbrev RC_LATE_DISCARD : Nat := 0x20
abbrev RC_UNEXP_CPL : Nat := 0x28
abbrev RC_TAGS : Nat := 0x30
abbrev RC_FAULT_LOG : Nat := 0x38
abbrev RC_FAULT_LOST : Nat := 0x40
abbrev PORT_STATE : Nat := 0x100
abbrev STREAM : Nat := 0x1000
abbrev SFAULT_CNT : Nat := 0x1800
abbrev RC_LODGE_ATTR : Nat := 0x2000
abbrev RC_LODGE_EXT : Nat := 0x3000
abbrev TP_ID : Nat := 0x0
abbrev TP_LINK : Nat := 0x8
abbrev TP_LATE_DISCARD : Nat := 0x20
abbrev TP_UNEXP_CPL : Nat := 0x28
abbrev TP_TAGS : Nat := 0x30
abbrev TP_FAULT_LOG : Nat := 0x38
abbrev TP_FAULT_LOST : Nat := 0x40
abbrev VF_BIND : Nat := 0x1000
abbrev TP_LODGE_ATTR : Nat := 0x2000
abbrev TP_LODGE_EXT : Nat := 0x3000
abbrev VF_ID : Nat := 0x0
abbrev VF_CTL : Nat := 0x8
abbrev VF_STATUS : Nat := 0x10
abbrev RING_BASE : Nat := 0x20
abbrev RING_TAIL : Nat := 0x28
abbrev RING_HEAD : Nat := 0x30
abbrev RING_ERR : Nat := 0x38
abbrev WIN_STG : Nat := 0x100
abbrev WIN_LIVE : Nat := 0x108
abbrev WIN_GEN : Nat := 0x110
abbrev WIN_COMMIT : Nat := 0x180
abbrev WIN_IGNORED : Nat := 0x188
abbrev WIN_FAULTS : Nat := 0x190
abbrev VF_RAISE : Nat := 0x200
abbrev HOARD_ID : Nat := 0x0
abbrev SPARE : Nat := 0x8
abbrev CLOSED_ACC : Nat := 0x10
abbrev OWNER : Nat := 0x100
abbrev BANK_STATE : Nat := 0x200
abbrev MARCH_CTL : Nat := 0x300
abbrev MARCH_RESULT : Nat := 0x308
abbrev SETT_ID : Nat := 0x0
abbrev SETT_STATE : Nat := 0x8
abbrev SETT_TIME : Nat := 0x10
abbrev DOORBELL : Nat := 0x100
abbrev CHAN_STATE : Nat := 0x200
abbrev LEASE_ACTIVE : Nat := 0x300
abbrev LEASE : Nat := 0x400
abbrev VIOL_COUNT : Nat := 0x600
abbrev VIOL_LAST : Nat := 0x608
abbrev OWL_ID : Nat := 0x0
abbrev OWL_STATUS : Nat := 0x8
abbrev CLASS_SEV : Nat := 0x10
abbrev OWL_CTL : Nat := 0x20
abbrev OWL_LAST : Nat := 0x28
abbrev SAFE_CAUSE : Nat := 0x30
abbrev REACT : Nat := 0x100
abbrev PWRC_ID : Nat := 0x0
abbrev PWRC_MODE : Nat := 0x8
abbrev MODE_FLAGS : Nat := 0x10
abbrev PWRC_VIN : Nat := 0x18
abbrev SUPPLY : Nat := 0x20
abbrev PWRC_CFG : Nat := 0x28
abbrev DEN_CFG : Nat := 0x30
abbrev PWRC_WAKE_SRC : Nat := 0x38
abbrev DEN_LAST : Nat := 0x40
abbrev RESET_CAUSE : Nat := 0x48
abbrev BRINGUP : Nat := 0x50
abbrev THERM : Nat := 0x58
abbrev UNC_CNT : Nat := 0x80000
abbrev UNC_OVF : Nat := 0x80080
abbrev BW_CTL : Nat := 0x90000
abbrev BW_STAT : Nat := 0x90008
abbrev BW_SNAP : Nat := 0x90100
end Off

/-- The registers of a mesh window. -/
def regs_mesh : List RegDef := [
  ⟨Off.MESH_ID, 0, 1, false, 0x0, false,
    [⟨31, 0, .ro, .any⟩]⟩,
  ⟨Off.MESH_CTL, 0, 1, false, 0x1416, true,
    [⟨4, 0, .rwl, .range 16 30⟩, ⟨11, 8, .rwl, .range 1 15⟩, ⟨12, 12, .rwl, .any⟩]⟩,
  ⟨Off.LINK_STATE, 64, 4, false, 0x0, false,
    [⟨31, 0, .ro, .any⟩]⟩,
  ⟨Off.LINK_LANEMAP, 64, 4, true, 0x3ff03ff, true,
    [⟨9, 0, .rwl, .lane⟩, ⟨25, 16, .rwl, .lane⟩]⟩,
  ⟨Off.LINK_ERR, 64, 4, true, 0x0, true,
    [⟨63, 0, .ro, .any⟩]⟩,
  ⟨Off.LINK_CREDIT, 64, 4, false, 0x0, false,
    [⟨31, 0, .ro, .any⟩]⟩,
  ⟨Off.OCR_ERR, 0, 1, true, 0x0, false,
    [⟨63, 0, .rc, .any⟩]⟩,
  ⟨Off.UNC_CNT, 8, 16, true, 0x0, false,
    [⟨63, 0, .ro, .any⟩]⟩,
  ⟨Off.UNC_OVF, 0, 1, false, 0x0, false,
    [⟨15, 0, .w1c, .any⟩]⟩]

/-- The registers of a isl window. -/
def regs_isl : List RegDef := [
  ⟨Off.ISL_ID, 0, 1, false, 0x0, false,
    [⟨31, 0, .ro, .any⟩]⟩,
  ⟨Off.ISL_PSTATE, 0, 1, false, 0x0, false,
    [⟨31, 0, .ro, .any⟩]⟩,
  ⟨Off.ISL_FREQ, 0, 1, false, 0x0, true,
    [⟨5, 0, .rwl, .any⟩]⟩,
  ⟨Off.ISL_SSC, 0, 1, false, 0x15, true,
    [⟨3, 0, .rwl, .range 0 10⟩, ⟨5, 4, .rwl, .any⟩, ⟨11, 8, .rwl, .any⟩]⟩,
  ⟨Off.ISL_TEMP, 0, 1, false, 0x0, true,
    [⟨31, 0, .ro, .any⟩]⟩]

/-- The registers of a err window. -/
def regs_err : List RegDef := [
  ⟨Off.ERR_STATUS, 0, 1, true, 0x0, true,
    [⟨0, 0, .w1c, .any⟩]⟩,
  ⟨Off.ERR_ADDR, 0, 1, true, 0x0, true,
    [⟨63, 0, .ro, .any⟩]⟩,
  ⟨Off.ERR_INFO, 0, 1, true, 0x0, true,
    [⟨63, 0, .ro, .any⟩]⟩,
  ⟨Off.ERR_CNT, 0, 1, true, 0x0, true,
    [⟨63, 0, .rc, .any⟩]⟩,
  ⟨Off.INJECT, 0, 1, false, 0x0, true,
    [⟨4, 0, .rwl, .any⟩, ⟨5, 5, .rwl, .any⟩, ⟨6, 6, .rwl, .any⟩, ⟨15, 8, .rwl, .any⟩]⟩]

/-- The registers of a core window. -/
def regs_core : List RegDef := [
  ⟨Off.PIPE_ID, 0, 1, true, 0x40300084c2030200, false,
    [⟨63, 0, .ro, .any⟩]⟩,
  ⟨Off.PRED_CTL, 0, 1, false, 0x0, false,
    [⟨3, 0, .rwl, .any⟩]⟩,
  ⟨Off.PRED_FLUSH, 0, 1, false, 0x0, false,
    [⟨0, 0, .wo, .any⟩]⟩,
  ⟨Off.WAKE_SRC, 0, 1, true, 0x0, false,
    [⟨63, 0, .ro, .any⟩]⟩,
  ⟨Off.CACHE_ID, 0, 1, true, 0x420c211b840840, false,
    [⟨63, 0, .ro, .any⟩]⟩,
  ⟨Off.L2_WAYCFG, 0, 1, true, 0xffff, true,
    [⟨16, 0, .rwl, .any⟩, ⟨48, 32, .rwl, .any⟩]⟩,
  ⟨Off.L2_WDCFG, 0, 1, true, 0x151800801, true,
    [⟨0, 0, .rwl, .any⟩, ⟨12, 8, .rwl, .range 2 16⟩, ⟨35, 16, .rwl, .range 1 1048575⟩]⟩,
  ⟨Off.L2_STATUS, 0, 1, false, 0x1000, false,
    [⟨31, 0, .ro, .any⟩]⟩,
  ⟨Off.PF_CTL, 0, 1, false, 0x4807, false,
    [⟨2, 0, .rwl, .any⟩, ⟨11, 8, .rwl, .range 1 15⟩, ⟨15, 12, .rwl, .range 0 8⟩]⟩,
  ⟨Off.L2_WAYERR, 8, 17, true, 0x0, true,
    [⟨63, 0, .ro, .any⟩]⟩,
  ⟨Off.CORE_LODGE_ATTR, 4, 512, false, 0x0, false,
    [⟨31, 0, .ro, .any⟩]⟩,
  ⟨Off.PMC, 8, 128, true, 0x0, false,
    [⟨47, 0, .rwl, .any⟩]⟩,
  ⟨Off.PMCTL, 4, 128, false, 0x0, false,
    [⟨1, 0, .rwl, .any⟩, ⟨6, 5, .rwl, .any⟩]⟩,
  ⟨Off.PMOVF, 8, 2, true, 0x0, false,
    [⟨63, 0, .w1c, .any⟩]⟩,
  ⟨Off.PMF_CFG, 32, 4, true, 0xf, false,
    [⟨26, 0, .rwl, .any⟩]⟩,
  ⟨Off.PMF_LO, 32, 4, true, 0x0, false,
    [⟨47, 6, .rwl, .any⟩]⟩,
  ⟨Off.PMF_HI, 32, 4, true, 0x0, false,
    [⟨47, 6, .rwl, .any⟩]⟩,
  ⟨Off.SPOOR_CTL, 0, 1, true, 0x0, false,
    [⟨0, 0, .rwl, .any⟩, ⟨2, 1, .rwl, .any⟩, ⟨7, 3, .rwl, .range 6 24⟩, ⟨11, 8, .rwl, .range 0 12⟩, ⟨16, 12, .rwl, .range 6 20⟩, ⟨18, 17, .rwl, .any⟩]⟩,
  ⟨Off.SPOOR_BASE, 0, 1, true, 0x0, false,
    [⟨47, 12, .rwl, .any⟩]⟩,
  ⟨Off.SPOOR_HEAD, 0, 1, false, 0x0, false,
    [⟨31, 0, .ro, .any⟩]⟩,
  ⟨Off.SPOOR_TAIL, 0, 1, false, 0x0, false,
    [⟨20, 0, .rw, .any⟩]⟩,
  ⟨Off.SPOOR_LOST, 0, 1, false, 0x0, false,
    [⟨31, 0, .rc, .any⟩]⟩]

/-- The registers of a llc window. -/
def regs_llc : List RegDef := [
  ⟨Off.LLC_ID, 0, 1, false, 0x0, false,
    [⟨31, 0, .ro, .any⟩]⟩,
  ⟨Off.LLC_WAYCFG, 0, 1, true, 0xba9876543210, true,
    [⟨47, 0, .rwl, .any⟩, ⟨60, 48, .rwl, .any⟩]⟩,
  ⟨Off.LLC_WDCFG, 0, 1, true, 0x151800801, true,
    [⟨0, 0, .rwl, .any⟩, ⟨12, 8, .rwl, .range 2 16⟩, ⟨35, 16, .rwl, .range 1 1048575⟩]⟩,
  ⟨Off.LLC_STATUS, 0, 1, false, 0xc00, true,
    [⟨31, 0, .ro, .any⟩]⟩,
  ⟨Off.FCLASS, 8, 32, true, 0x300000fff, true,
    [⟨11, 0, .rwl, .any⟩, ⟨27, 16, .rwl, .any⟩, ⟨33, 32, .rwl, .any⟩]⟩,
  ⟨Off.LLC_WAYERR, 8, 13, true, 0x0, true,
    [⟨63, 0, .ro, .any⟩]⟩,
  ⟨Off.UNC_CNT, 8, 16, true, 0x0, false,
    [⟨63, 0, .ro, .any⟩]⟩,
  ⟨Off.UNC_OVF, 0, 1, false, 0x0, false,
    [⟨15, 0, .w1c, .any⟩]⟩]

/-- The registers of a warren window. -/
def regs_warren : List RegDef := [
  ⟨Off.WARREN_ID, 0, 1, false, 0x0, false,
    [⟨31, 0, .ro, .any⟩]⟩,
  ⟨Off.WARREN_WAYCFG, 0, 1, true, 0xffffff, true,
    [⟨25, 0, .rwl, .any⟩, ⟨57, 32, .rwl, .any⟩]⟩,
  ⟨Off.WARREN_WDCFG, 0, 1, true, 0x151800801, true,
    [⟨0, 0, .rwl, .any⟩, ⟨12, 8, .rwl, .range 2 16⟩, ⟨35, 16, .rwl, .range 1 1048575⟩]⟩,
  ⟨Off.WARREN_STATUS, 0, 1, false, 0x1800, true,
    [⟨31, 0, .ro, .any⟩]⟩,
  ⟨Off.RQ_MAXWAIT, 0, 1, false, 0x0, false,
    [⟨31, 0, .rc, .any⟩]⟩,
  ⟨Off.WARREN_COH_CFG, 0, 1, false, 0x14, true,
    [⟨4, 0, .rwl, .range 14 26⟩]⟩,
  ⟨Off.RECLAIM, 0, 1, true, 0x0, false,
    [⟨63, 0, .ro, .any⟩]⟩,
  ⟨Off.DEAD_DISCARD, 0, 1, false, 0x0, false,
    [⟨31, 0, .rc, .any⟩]⟩,
  ⟨Off.WARREN_WAYERR, 8, 26, true, 0x0, true,
    [⟨63, 0, .ro, .any⟩]⟩]

/-- The registers of a bchub window. -/
def regs_bchub : List RegDef := [
  ⟨Off.BCHUB_COH_CFG, 0, 1, false, 0x14, true,
    [⟨4, 0, .rwl, .range 14 26⟩]⟩,
  ⟨Off.RECOVERY, 0, 1, false, 0x0, false,
    [⟨31, 0, .ro, .any⟩]⟩,
  ⟨Off.DEAD_SET, 8, 8, true, 0x0, false,
    [⟨63, 0, .ro, .any⟩]⟩]

/-- The registers of a mc window. -/
def regs_mc : List RegDef := [
  ⟨Off.MC_ID, 0, 1, false, 0x0, false,
    [⟨31, 0, .ro, .any⟩]⟩,
  ⟨Off.GEOM, 0, 1, false, 0x0, true,
    [⟨3, 0, .rwl, .any⟩, ⟨8, 4, .rwl, .oneOf [0, 16, 17]⟩]⟩,
  ⟨Off.MC_CTL, 0, 1, false, 0xa8, true,
    [⟨3, 0, .rwl, .any⟩, ⟨17, 4, .rwl, .range 1 10000⟩]⟩,
  ⟨Off.SCHED, 0, 1, true, 0x301010c1040, true,
    [⟨7, 0, .rwl, .range 1 255⟩, ⟨12, 8, .rwl, .range 1 31⟩, ⟨19, 14, .rwl, .range 16 63⟩, ⟨25, 20, .rwl, .any⟩, ⟨26, 26, .rwl, .any⟩, ⟨34, 27, .rwl, .any⟩, ⟨42, 35, .rwl, .any⟩]⟩,
  ⟨Off.MC_STATUS, 0, 1, true, 0x0, true,
    [⟨63, 0, .ro, .any⟩]⟩,
  ⟨Off.RETUNE, 0, 1, false, 0x0, true,
    [⟨0, 0, .rwl, .any⟩, ⟨1, 1, .rwl, .any⟩, ⟨5, 2, .rwl, .range 0 12⟩]⟩,
  ⟨Off.MC_TEMP, 0, 1, false, 0x0, true,
    [⟨15, 8, .rwl, .any⟩]⟩,
  ⟨Off.MC_IRQ_STATUS, 0, 1, false, 0x0, true,
    [⟨3, 0, .w1c, .any⟩]⟩,
  ⟨Off.MC_IRQ_EN, 0, 1, false, 0x0, true,
    [⟨3, 0, .rwl, .any⟩]⟩,
  ⟨Off.QOS_TARGET, 8, 64, false, 0x103e8, true,
    [⟨15, 0, .rwl, .range 16 65535⟩, ⟨16, 16, .rwl, .any⟩]⟩,
  ⟨Off.TIMING_A, 8, 3, true, 0x0, true,
    [⟨63, 0, .rwl, .any⟩]⟩,
  ⟨Off.TIMING_B, 8, 3, true, 0x0, true,
    [⟨63, 0, .rwl, .any⟩]⟩,
  ⟨Off.MRIMG_A, 4, 16, false, 0x0, true,
    [⟨15, 0, .rwl, .any⟩, ⟨31, 31, .rwl, .any⟩]⟩,
  ⟨Off.MRIMG_B, 4, 16, false, 0x0, true,
    [⟨15, 0, .rwl, .any⟩, ⟨31, 31, .rwl, .any⟩]⟩,
  ⟨Off.DELAY_A, 4, 512, false, 0x0, true,
    [⟨9, 0, .rwl, .any⟩, ⟨21, 12, .rwl, .any⟩, ⟨30, 24, .rwl, .range 0 100⟩]⟩,
  ⟨Off.DELAY_B, 4, 512, false, 0x0, true,
    [⟨9, 0, .rwl, .any⟩, ⟨21, 12, .rwl, .any⟩, ⟨30, 24, .rwl, .range 0 100⟩]⟩,
  ⟨Off.TRAIN_CTL, 0, 1, true, 0x0, true,
    [⟨2, 0, .rwl, .range 0 4⟩, ⟨6, 3, .rwl, .any⟩, ⟨7, 7, .rwl, .any⟩, ⟨15, 8, .rwl, .range 1 255⟩, ⟨31, 16, .rwl, .any⟩, ⟨35, 32, .rwl, .range 0 9⟩]⟩,
  ⟨Off.TRAIN_ADDR, 0, 1, true, 0x0, true,
    [⟨31, 0, .rwl, .any⟩]⟩,
  ⟨Off.TRAIN_PAT, 8, 8, true, 0x0, true,
    [⟨63, 0, .rwl, .any⟩]⟩,
  ⟨Off.TRAIN_RESULT, 0, 1, true, 0x0, true,
    [⟨63, 0, .ro, .any⟩]⟩,
  ⟨Off.SCRUB_BASE, 0, 1, true, 0x0, true,
    [⟨38, 6, .rwl, .any⟩]⟩,
  ⟨Off.SCRUB_COUNT, 0, 1, true, 0x0, true,
    [⟨31, 0, .rwl, .range 1 4294967295⟩]⟩,
  ⟨Off.SCRUB_CTL, 0, 1, false, 0x0, true,
    [⟨0, 0, .rwl, .any⟩]⟩,
  ⟨Off.SCRUB_RESULT, 0, 1, true, 0x0, true,
    [⟨63, 0, .ro, .any⟩]⟩,
  ⟨Off.SCRUB_FIRST, 0, 1, true, 0x0, true,
    [⟨63, 0, .ro, .any⟩]⟩,
  ⟨Off.SCRUB_LAST, 0, 1, true, 0x0, true,
    [⟨63, 0, .ro, .any⟩]⟩,
  ⟨Off.ERASE, 8, 4, false, 0xff, true,
    [⟨3, 0, .rwl, .oneOf [0, 1, 2, 3, 4, 5, 6, 7, 8, 9, 15]⟩, ⟨7, 4, .rwl, .oneOf [0, 1, 2, 3, 4, 5, 6, 7, 8, 9, 15]⟩]⟩,
  ⟨Off.UNC_CNT, 8, 16, true, 0x0, true,
    [⟨63, 0, .ro, .any⟩]⟩,
  ⟨Off.UNC_OVF, 0, 1, false, 0x0, true,
    [⟨15, 0, .w1c, .any⟩]⟩,
  ⟨Off.BW_CTL, 0, 1, false, 0x2a, true,
    [⟨4, 0, .rwl, .range 0 20⟩, ⟨5, 5, .rwl, .any⟩]⟩,
  ⟨Off.BW_STAT, 0, 1, true, 0x0, true,
    [⟨63, 0, .ro, .any⟩]⟩,
  ⟨Off.BW_SNAP, 8, 128, true, 0x0, true,
    [⟨63, 0, .ro, .any⟩]⟩]

/-- The registers of a idist window. -/
def regs_idist : List RegDef := [
  ⟨Off.IDIST_ID, 0, 1, false, 0x2000, false,
    [⟨31, 0, .ro, .any⟩]⟩,
  ⟨Off.IDIST_LATE_DISCARD, 0, 1, false, 0x0, false,
    [⟨31, 0, .rc, .any⟩]⟩,
  ⟨Off.MSI_REJECT, 0, 1, false, 0x0, false,
    [⟨31, 0, .rc, .any⟩]⟩,
  ⟨Off.EOI_BAD, 0, 1, false, 0x0, false,
    [⟨31, 0, .rc, .any⟩]⟩,
  ⟨Off.REFUSED, 0, 1, false, 0x0, false,
    [⟨31, 0, .rc, .any⟩]⟩,
  ⟨Off.DENIED, 0, 1, false, 0x0, false,
    [⟨31, 0, .rc, .any⟩]⟩,
  ⟨Off.GROUP, 8, 64, false, 0x0, false,
    [⟨15, 0, .rwl, .any⟩]⟩,
  ⟨Off.HART_MAP, 8, 256, false, 0x0, false,
    [⟨31, 0, .ro, .any⟩]⟩,
  ⟨Off.TSET, 8, 256, true, 0x0, false,
    [⟨63, 0, .rwl, .any⟩]⟩,
  ⟨Off.SRC_LID, 4, 512, false, 0x0, false,
    [⟨31, 0, .ro, .any⟩]⟩,
  ⟨Off.IDIST_LODGE_ATTR, 4, 512, false, 0x0, false,
    [⟨31, 0, .ro, .any⟩]⟩,
  ⟨Off.IPI_SEND, 0, 1, false, 0x0, false,
    [⟨12, 0, .wo, .any⟩]⟩,
  ⟨Off.SRC, 8, 8192, true, 0x1a0, false,
    [⟨5, 0, .rw, .any⟩, ⟨6, 6, .rw, .any⟩, ⟨8, 7, .rw, .range 1 3⟩, ⟨9, 9, .rw, .any⟩, ⟨15, 10, .rw, .any⟩, ⟨23, 16, .rw, .any⟩, ⟨24, 24, .rw, .any⟩]⟩,
  ⟨Off.VSLOT_CFG, 16, 4096, true, 0x0, false,
    [⟨0, 0, .rw, .any⟩, ⟨8, 1, .rw, .any⟩, ⟨16, 9, .rw, .any⟩, ⟨17, 17, .wo, .any⟩]⟩,
  ⟨Off.VSLOT_AREA, 16, 4096, true, 0x0, false,
    [⟨0, 0, .rw, .any⟩, ⟨47, 8, .rw, .any⟩]⟩]

/-- The registers of a rc window. -/
def regs_rc : List RegDef := [
  ⟨Off.RC_ID, 0, 1, false, 0x0, true,
    [⟨31, 0, .ro, .any⟩]⟩,
  ⟨Off.RC_CFG, 0, 1, false, 0x100, true,
    [⟨2, 0, .rwl, .range 0 4⟩, ⟨8, 8, .rwl, .any⟩]⟩,
  ⟨Off.OB64_BASE, 0, 1, true, 0x10000000000, true,
    [⟨63, 32, .rwl, .any⟩]⟩,
  ⟨Off.MSI_ADDR, 0, 1, true, 0xfee00000, true,
    [⟨63, 2, .rwl, .any⟩]⟩,
  ⟨Off.RC_LATE_DISCARD, 0, 1, false, 0x0, true,
    [⟨31, 0, .rc, .any⟩]⟩,
  ⟨Off.RC_UNEXP_CPL, 0, 1, false, 0x0, true,
    [⟨31, 0, .rc, .any⟩]⟩,
  ⟨Off.RC_TAGS, 0, 1, false, 0x0, true,
    [⟨31, 0, .ro, .any⟩]⟩,
  ⟨Off.RC_FAULT_LOG, 0, 1, true, 0x0, true,
    [⟨63, 0, .rc, .any⟩]⟩,
  ⟨Off.RC_FAULT_LOST, 0, 1, false, 0x0, true,
    [⟨31, 0, .rc, .any⟩]⟩,
  ⟨Off.PORT_STATE, 8, 4, false, 0x400, true,
    [⟨31, 0, .ro, .any⟩]⟩,
  ⟨Off.STREAM, 8, 256, true, 0x0, true,
    [⟨43, 0, .rwl, .any⟩]⟩,
  ⟨Off.SFAULT_CNT, 4, 256, false, 0x0, true,
    [⟨31, 0, .rc, .any⟩]⟩,
  ⟨Off.RC_LODGE_ATTR, 4, 512, false, 0x0, true,
    [⟨31, 0, .ro, .any⟩]⟩,
  ⟨Off.RC_LODGE_EXT, 8, 512, true, 0x0, true,
    [⟨63, 0, .ro, .any⟩]⟩,
  ⟨Off.UNC_CNT, 8, 16, true, 0x0, true,
    [⟨63, 0, .ro, .any⟩]⟩,
  ⟨Off.UNC_OVF, 0, 1, false, 0x0, true,
    [⟨15, 0, .w1c, .any⟩]⟩,
  ⟨Off.BW_CTL, 0, 1, false, 0x2a, true,
    [⟨4, 0, .rwl, .range 0 20⟩, ⟨5, 5, .rwl, .any⟩]⟩,
  ⟨Off.BW_STAT, 0, 1, true, 0x0, true,
    [⟨63, 0, .ro, .any⟩]⟩,
  ⟨Off.BW_SNAP, 8, 128, true, 0x0, true,
    [⟨63, 0, .ro, .any⟩]⟩]

/-- The registers of a tp window. -/
def regs_tp : List RegDef := [
  ⟨Off.TP_ID, 0, 1, false, 0x38, true,
    [⟨31, 0, .ro, .any⟩]⟩,
  ⟨Off.TP_LINK, 0, 1, false, 0x400, true,
    [⟨18, 18, .w1c, .any⟩]⟩,
  ⟨Off.TP_LATE_DISCARD, 0, 1, false, 0x0, true,
    [⟨31, 0, .rc, .any⟩]⟩,
  ⟨Off.TP_UNEXP_CPL, 0, 1, false, 0x0, true,
    [⟨31, 0, .rc, .any⟩]⟩,
  ⟨Off.TP_TAGS, 0, 1, false, 0x0, true,
    [⟨31, 0, .ro, .any⟩]⟩,
  ⟨Off.TP_FAULT_LOG, 0, 1, true, 0x0, true,
    [⟨63, 0, .rc, .any⟩]⟩,
  ⟨Off.TP_FAULT_LOST, 0, 1, false, 0x0, true,
    [⟨31, 0, .rc, .any⟩]⟩,
  ⟨Off.VF_BIND, 8, 64, false, 0x0, true,
    [⟨31, 0, .ro, .any⟩]⟩,
  ⟨Off.TP_LODGE_ATTR, 4, 512, false, 0x0, true,
    [⟨31, 0, .ro, .any⟩]⟩,
  ⟨Off.TP_LODGE_EXT, 8, 512, true, 0x0, true,
    [⟨63, 0, .ro, .any⟩]⟩,
  ⟨Off.UNC_CNT, 8, 16, true, 0x0, true,
    [⟨63, 0, .ro, .any⟩]⟩,
  ⟨Off.UNC_OVF, 0, 1, false, 0x0, true,
    [⟨15, 0, .w1c, .any⟩]⟩,
  ⟨Off.BW_CTL, 0, 1, false, 0x2a, true,
    [⟨4, 0, .rwl, .range 0 20⟩, ⟨5, 5, .rwl, .any⟩]⟩,
  ⟨Off.BW_STAT, 0, 1, true, 0x0, true,
    [⟨63, 0, .ro, .any⟩]⟩,
  ⟨Off.BW_SNAP, 8, 128, true, 0x0, true,
    [⟨63, 0, .ro, .any⟩]⟩]

/-- The registers of a vf window. -/
def regs_vf : List RegDef := [
  ⟨Off.VF_ID, 0, 1, false, 0x0, true,
    [⟨31, 0, .ro, .any⟩]⟩,
  ⟨Off.VF_CTL, 0, 1, false, 0x0, true,
    [⟨1, 0, .rw, .any⟩, ⟨2, 2, .w1s, .any⟩]⟩,
  ⟨Off.VF_STATUS, 0, 1, false, 0x0, true,
    [⟨31, 0, .ro, .any⟩]⟩,
  ⟨Off.RING_BASE, 32, 2, true, 0x0, true,
    [⟨3, 0, .rw, .range 4 12⟩, ⟨47, 5, .rw, .any⟩]⟩,
  ⟨Off.RING_TAIL, 32, 2, false, 0x0, true,
    [⟨12, 0, .rw, .any⟩]⟩,
  ⟨Off.RING_HEAD, 32, 2, false, 0x0, true,
    [⟨31, 0, .ro, .any⟩]⟩,
  ⟨Off.RING_ERR, 32, 2, false, 0x0, true,
    [⟨31, 0, .ro, .any⟩]⟩,
  ⟨Off.WIN_STG, 32, 4, true, 0x0, true,
    [⟨0, 0, .rw, .any⟩, ⟨6, 1, .rw, .range 12 34⟩, ⟨47, 12, .rw, .any⟩]⟩,
  ⟨Off.WIN_LIVE, 32, 4, true, 0x0, true,
    [⟨0, 0, .rw, .any⟩, ⟨6, 1, .rw, .range 12 34⟩, ⟨47, 12, .rw, .any⟩]⟩,
  ⟨Off.WIN_GEN, 32, 4, false, 0x0, true,
    [⟨31, 0, .ro, .any⟩]⟩,
  ⟨Off.WIN_COMMIT, 0, 1, false, 0x0, true,
    [⟨3, 0, .wo, .any⟩]⟩,
  ⟨Off.WIN_IGNORED, 0, 1, false, 0x0, true,
    [⟨31, 0, .rc, .any⟩]⟩,
  ⟨Off.WIN_FAULTS, 0, 1, false, 0x0, true,
    [⟨31, 0, .rc, .any⟩]⟩,
  ⟨Off.VF_RAISE, 0, 1, false, 0x0, true,
    [⟨31, 0, .ro, .any⟩]⟩]

/-- The registers of a hoard window. -/
def regs_hoard : List RegDef := [
  ⟨Off.HOARD_ID, 0, 1, false, 0x0, false,
    [⟨31, 0, .ro, .any⟩]⟩,
  ⟨Off.SPARE, 0, 1, false, 0x0, true,
    [⟨3, 0, .rwl, .any⟩, ⟨4, 4, .rwl, .any⟩, ⟨24, 8, .rwl, .any⟩]⟩,
  ⟨Off.CLOSED_ACC, 0, 1, false, 0x0, false,
    [⟨31, 0, .rc, .any⟩]⟩,
  ⟨Off.OWNER, 8, 16, false, 0x0, true,
    [⟨2, 0, .rwl, .range 0 4⟩, ⟨11, 3, .rwl, .any⟩, ⟨12, 12, .rwl, .any⟩]⟩,
  ⟨Off.BANK_STATE, 8, 16, false, 0x1, true,
    [⟨31, 0, .ro, .any⟩]⟩,
  ⟨Off.MARCH_CTL, 0, 1, false, 0x0, false,
    [⟨3, 0, .rwl, .any⟩, ⟨4, 4, .rwl, .any⟩, ⟨5, 5, .w1s, .any⟩]⟩,
  ⟨Off.MARCH_RESULT, 0, 1, false, 0x0, false,
    [⟨31, 0, .ro, .any⟩]⟩,
  ⟨Off.UNC_CNT, 8, 16, true, 0x0, false,
    [⟨63, 0, .ro, .any⟩]⟩,
  ⟨Off.UNC_OVF, 0, 1, false, 0x0, false,
    [⟨15, 0, .w1c, .any⟩]⟩]

/-- The registers of a sett window. -/
def regs_sett : List RegDef := [
  ⟨Off.SETT_ID, 0, 1, false, 0x1000256, true,
    [⟨31, 0, .ro, .any⟩]⟩,
  ⟨Off.SETT_STATE, 0, 1, false, 0x0, true,
    [⟨31, 0, .ro, .any⟩]⟩,
  ⟨Off.SETT_TIME, 0, 1, true, 0x0, true,
    [⟨63, 0, .ro, .any⟩]⟩,
  ⟨Off.DOORBELL, 8, 8, false, 0x0, true,
    [⟨15, 0, .wo, .any⟩, ⟨31, 31, .wo, .any⟩]⟩,
  ⟨Off.CHAN_STATE, 8, 8, false, 0x0, true,
    [⟨31, 0, .ro, .any⟩]⟩,
  ⟨Off.LEASE_ACTIVE, 0, 1, false, 0x0, true,
    [⟨31, 0, .ro, .any⟩]⟩,
  ⟨Off.LEASE, 8, 32, true, 0x0, true,
    [⟨63, 0, .ro, .any⟩]⟩,
  ⟨Off.VIOL_COUNT, 0, 1, false, 0x0, true,
    [⟨31, 0, .rc, .any⟩]⟩,
  ⟨Off.VIOL_LAST, 0, 1, true, 0x0, true,
    [⟨63, 0, .ro, .any⟩]⟩]

/-- The registers of a owl window. -/
def regs_owl : List RegDef := [
  ⟨Off.OWL_ID, 0, 1, false, 0x17, true,
    [⟨31, 0, .ro, .any⟩]⟩,
  ⟨Off.OWL_STATUS, 0, 1, true, 0x0, true,
    [⟨22, 0, .w1c, .any⟩]⟩,
  ⟨Off.CLASS_SEV, 8, 2, true, 0x0, true,
    [⟨63, 0, .ro, .any⟩]⟩,
  ⟨Off.OWL_CTL, 0, 1, false, 0x3, true,
    [⟨3, 0, .rwl, .range 1 15⟩]⟩,
  ⟨Off.OWL_LAST, 0, 1, true, 0x0, true,
    [⟨63, 0, .ro, .any⟩]⟩,
  ⟨Off.SAFE_CAUSE, 0, 1, true, 0x0, true,
    [⟨63, 0, .ro, .any⟩]⟩,
  ⟨Off.REACT, 8, 64, false, 0x0, true,
    [⟨7, 0, .rwl, .range 0 127⟩, ⟨15, 8, .rwl, .range 0 127⟩, ⟨23, 16, .rwl, .range 0 127⟩, ⟨31, 24, .rwl, .range 0 127⟩]⟩]

/-- The registers of a pwrc window. -/
def regs_pwrc : List RegDef := [
  ⟨Off.PWRC_ID, 0, 1, false, 0x4a2, true,
    [⟨31, 0, .ro, .any⟩]⟩,
  ⟨Off.PWRC_MODE, 0, 1, false, 0x1, true,
    [⟨31, 0, .ro, .any⟩]⟩,
  ⟨Off.MODE_FLAGS, 0, 1, false, 0x2, true,
    [⟨31, 0, .ro, .any⟩]⟩,
  ⟨Off.PWRC_VIN, 0, 1, true, 0x0, true,
    [⟨63, 0, .ro, .any⟩]⟩,
  ⟨Off.SUPPLY, 0, 1, false, 0x2302400, true,
    [⟨31, 0, .ro, .any⟩]⟩,
  ⟨Off.PWRC_CFG, 0, 1, false, 0x60, true,
    [⟨31, 0, .ro, .any⟩]⟩,
  ⟨Off.DEN_CFG, 0, 1, true, 0x0, true,
    [⟨63, 0, .ro, .any⟩]⟩,
  ⟨Off.PWRC_WAKE_SRC, 0, 1, false, 0x0, true,
    [⟨31, 0, .ro, .any⟩]⟩,
  ⟨Off.DEN_LAST, 0, 1, true, 0x0, true,
    [⟨63, 0, .ro, .any⟩]⟩,
  ⟨Off.RESET_CAUSE, 0, 1, false, 0x0, true,
    [⟨31, 0, .ro, .any⟩]⟩,
  ⟨Off.BRINGUP, 0, 1, false, 0x0, true,
    [⟨31, 0, .ro, .any⟩]⟩,
  ⟨Off.THERM, 0, 1, false, 0x0, true,
    [⟨31, 0, .ro, .any⟩]⟩]
/-- Links present at a stop, as MESH.ID.PORTS shows them (R225, R241): 0 N, 1 E, 2 S, 3 W. -/
def portsOf (st : Nat) : Nat :=
  let x := st % 17
  let y := st / 17
  (if 0 < y then 1 else 0) + (if x < 16 then 2 else 0) + (if y < 9 then 4 else 0) + (if 0 < x then 8 else 0)

/-- Parts of a stop whose unit has a detail window (R60, R485): router, island, and the blocks. -/
def errPart (st p : Nat) : Bool :=
  if isTileStop st then [0, 1, 4, 5, 6, 7].contains p else [0, 1, 4].contains p

/-- The register map of a window. -/
def regsOf : Blk → List RegDef
  | .mesh _ => regs_mesh
  | .isl st => if 160 ≤ st ∧ st ≤ 162 then regs_isl.take 2
      else if isTileStop st then regs_isl else regs_isl.take 4
  | .err st p => if errPart st p then regs_err else []
  | .core _ => regs_core
  | .llc _ => regs_llc
  | .warren _ => regs_warren
  | .mc _ => regs_mc
  | .rc _ => regs_rc
  | .tp => regs_tp
  | .vf v => if 1 ≤ v ∧ v ≤ 63 then regs_vf else []
  | .hoard _ => regs_hoard
  | .idist => regs_idist
  | .bchub => regs_bchub
  | .sett => regs_sett
  | .owl => regs_owl
  | .pwrc => regs_pwrc

/-- Whether a register array holds a register that starts at `o`. -/
def RegDef.startsAt (d : RegDef) (o : Nat) : Bool :=
  decide (d.off ≤ o) && (if d.stride = 0 then decide (o = d.off)
    else decide ((o - d.off) % d.stride = 0) && decide ((o - d.off) / d.stride < d.count))

/-- The register that starts at offset `o` of window `b`. The registers of an absent link do not
exist (R241). -/
def regAt (b : Blk) (o : Nat) : Option RegDef :=
  match b with
  | .mesh st =>
    if 0x100 ≤ o ∧ o < 0x200 ∧ (portsOf st >>> ((o - 0x100) / 0x40)) % 2 = 0 then none
    else regs_mesh.find? (fun d => d.startsAt o)
  | _ => (regsOf b).find? (fun d => d.startsAt o)

/-- Index of a register in its array. -/
def RegDef.idx (d : RegDef) (o : Nat) : Nat := if d.stride = 0 then 0 else (o - d.off) / d.stride

/-- Die of a stop (R14). -/
def dieOf (st : Nat) : Nat := let y := st / 17; if y = 0 then 0 else if y = 9 then 5 else (y + 1) / 2

/-- Island kind of a stop (R537): 0 tile, 1 mesh, 2 memory, 3 port, 4 Hoard, 5 Sett. -/
def islKind (st : Nat) : Nat :=
  if isTileStop st then 0 else if st = 8 ∨ st = 9 then 1
  else if mcStops.contains st then 2 else if rcStops.contains st ∨ st = 7 then 3
  else if hoardStops.contains st then 4 else 5

/-- COLD reset value of the register of `d` at offset `o` of window `b`: the map's Reset column,
with the values that differ by instance or index. -/
def resetVal (b : Blk) (d : RegDef) (o : Nat) : Word :=
  let i := d.idx o
  let v : Nat := match b with
    | .mesh st => if o = Off.MESH_ID then st + (portsOf st <<< 8) + (dieOf st <<< 12) else d.reset
    | .isl st =>
      if o = Off.ISL_ID then islKind st + (st <<< 3)
      else if o = Off.ISL_FREQ then
        (match islKind st with | 0 => 0x241818 | 1 => 0x241414 | 3 => 0x240A0A | 4 => 0x241010 | _ => 0x240000)
      else if o = Off.ISL_SSC then (if islKind st = 3 then 0 else 0x15 + ((st % 16) <<< 8))
      else if o = Off.ISL_PSTATE then (if islKind st = 5 then 1 else 0)
      else d.reset
    | .core _ => if o = Off.CORE_LODGE_ATTR then 0x2000000 else d.reset
    | .llc t => if o = Off.LLC_ID then t + 0xCD00 else d.reset
    | .warren t => if o = Off.WARREN_ID then t + (0x1A <<< 8) + (0xC <<< 13) else d.reset
    | .mc n => if o = Off.MC_ID then n + (mcStops.getD n 0 <<< 4)
      else if d.off = Off.QOS_TARGET ∧ i = 0 then 0x190 else d.reset
    | .rc n => if o = Off.RC_ID then (if n = 8 then 0x838 else n + (rcStops.getD n 0 <<< 3))
      else if n = 8 ∧ d.off = Off.PORT_STATE ∧ i ≠ 0 then 0x403
      else if o = Off.RC_LODGE_ATTR then 0x2000000 else d.reset
    | .tp => if o = Off.TP_LODGE_ATTR then 0x2000000 else d.reset
    | .vf v => if o = Off.VF_ID then v else d.reset
    | .hoard n => if o = Off.HOARD_ID then n + (hoardStops.getD n 0 <<< 2)
      else if n = 2 ∧ o = Off.OWNER then 1 else d.reset
    | .idist => if o = Off.IDIST_LODGE_ATTR then 0x2000000
      else if d.off = Off.SRC then
        (if i < 8 then 0x10001E0 else if 32 ≤ i ∧ i < 256 then 0x1E0 else d.reset)
      else d.reset
    | .owl => if d.off = Off.REACT then
        (if i = 2 ∨ i = 3 ∨ i = 17 ∨ i = 18 then 0x1B0B0901
         else if 4 ≤ i ∧ i ≤ 22 then 0x0B0B0901 else 0)
      else d.reset
    | _ => d.reset
  BitVec.ofNat 64 v

/-- COLD reset value of the register that starts at byte `off` of the register space. -/
def ocrReset (off : Nat) : Word :=
  match blkOf off with
  | some (b, o) => (match regAt b o with | some d => resetVal b d o | none => 0)
  | none => 0

/-- Whether a WARM leaves the register at `off` as it is (R545). -/
def warmKept (off : Nat) : Bool :=
  match blkOf off with
  | some (b, o) => (match regAt b o with | some d => d.kept | none => true)
  | none => true

end Sys2Proof.Machine
end

