-- ==== Sys2Proof/Machine/Ops.lean ====
section
/-! DEFINITION. Named operations over bits, registers, memory and time. -/
namespace Sys2Proof.Machine

/-- A meaning answers this. -/
abbrev Res := Host.Outcome State Fault Refusal

/-! ## Bits -/

/-- Bits [hi:lo] of a word. -/
def fld (w : Word) (hi lo : Nat) : Nat := (w.toNat >>> lo) % 2 ^ (hi + 1 - lo)

/-- Whether bit `i` is set. -/
def bitOf (w : Word) (i : Nat) : Bool := w.getLsbD i

/-- `w` with bits [hi:lo] replaced by `n`. -/
def setFld (w : Word) (hi lo n : Nat) : Word :=
  BitVec.ofNat 64 (w.toNat - (fld w hi lo) <<< lo + (n % 2 ^ (hi + 1 - lo)) <<< lo)

/-- Sum that saturates at `top`. -/
def satAdd (top a b : Nat) : Nat := min top (a + b)

/-- 1 for true. -/
def b2n (b : Bool) : Nat := if b then 1 else 0

/-- Number of set bits among the low `n`. -/
def popcount (n : Nat) (v : Nat) : Nat := ((List.range n).filter (fun i => v.testBit i)).length

/-- Little-endian bytes of a number. -/
def leBytes : Nat → Nat → List Byte
  | 0, _ => []
  | k + 1, v => BitVec.ofNat 8 (v % 256) :: leBytes k (v / 256)

/-- The number that little-endian bytes spell. -/
def leNat : List Byte → Nat
  | [] => 0
  | b :: l => b.toNat + 256 * leNat l

/-- Bytes [hi:lo] of a body as a number. -/
def bytesAt (l : List Byte) (hi lo : Nat) : Nat := leNat ((l.drop lo).take (hi + 1 - lo))

/-- Replace bytes from offset `lo`. -/
def putBytes (l : List Byte) (lo : Nat) (d : List Byte) : List Byte :=
  (l.take lo) ++ d ++ l.drop (lo + d.length)

/-! ## Registers -/

/-- The register that starts at byte `off` of the register space. -/
def State.rdOff (s : State) (off : Nat) : Word := smGet ocrReset s.ocr off

/-- Set it, as the hardware does (no access code applies). -/
def State.wrOff (s : State) (off : Nat) (v : Word) : State := { s with ocr := smSet ocrReset s.ocr off v }

def State.rd (s : State) (b : Blk) (o : Nat) : Word := s.rdOff (b.base + o)
def State.wr (s : State) (b : Blk) (o : Nat) (v : Word) : State := s.wrOff (b.base + o) v

/-- A field of a register. -/
def State.rf (s : State) (b : Blk) (o hi lo : Nat) : Nat := fld (s.rd b o) hi lo

/-- Set a field of a register. -/
def State.wf (s : State) (b : Blk) (o hi lo n : Nat) : State := s.wr b o (setFld (s.rd b o) hi lo n)

/-- Count up a saturating field. -/
def State.incSat (s : State) (b : Blk) (o hi lo : Nat) : State :=
  s.wf b o hi lo (satAdd (2 ^ (hi + 1 - lo) - 1) (s.rf b o hi lo) 1)

/-- Count up a wrapping field. -/
def State.incWrap (s : State) (b : Blk) (o hi lo : Nat) : State := s.wf b o hi lo (s.rf b o hi lo + 1)

/-! ## What a command leaves behind -/

/-- No part of the chip runs: OFF, or COLD_RST_N is asserted past its filter (R519, R543). -/
def State.inert (s : State) : Bool := bitOf (s.rd .pwrc Off.MODE_FLAGS) 0 || s.pwr.coldHeld

/-- The chip is in SAFE. -/
def State.inSafe (s : State) : Bool := bitOf (s.rd .pwrc Off.MODE_FLAGS) 11

/-- Only COLD leaves SAFE (R493): after any other command the mode registers still say so. -/
def keepSafe (s t : State) : State :=
  if s.inSafe && !t.inSafe then
    (t.wr .pwrc Off.PWRC_MODE (s.rd .pwrc Off.PWRC_MODE)).wr .pwrc Off.MODE_FLAGS (s.rd .pwrc Off.MODE_FLAGS)
  else t

/-- The state after a command whose own effect on `s` is `t`. The queue keeps the commands that still wait. While the chip
is off or held in reset only time passes and the board moves its pins. -/
def settle (s t : State) : State :=
  if s.inert then
    { s with tick := t.tick, pwr := { s.pwr with extIrq := t.pwr.extIrq, twinPerst := t.pwr.twinPerst } }
  else { keepSafe s t with pending := s.pending }

/-- A meaning's answer. -/
def finish (s t : State) : Res := .next (settle s t)

/-- The answer of the events that start, hold or end a COLD: nothing stands against them (R514, R543). -/
def coldFinish (s t : State) : Res := .next { t with pending := s.pending }

/-! ## Time -/

/-- SETT.TIME in microseconds (R41). -/
def State.settTime (s : State) : Nat :=
  if s.sett.timeStill then s.sett.timeBase else s.sett.timeBase + (s.tick - s.sett.timeFrom) / 100

/-- Timebase ticks of one microsecond and one millisecond. -/
abbrev us : Nat := 100
abbrev ms : Nat := 100000

/-- Advance the model's clock to `t` (a timed event happens at its closing tick, R10). -/
def State.toTick (s : State) (t : Nat) : State := { s with tick := max s.tick t }

/-- The tick at which SETT.TIME reaches `t` µs. -/
def State.tickOfTime (s : State) (t : Nat) : Nat := s.sett.timeFrom + (t - s.sett.timeBase) * 100

/-! ## The physical address map (R24 to R28) -/

/-- Where a physical address lies. -/
inductive Region
  | dram | hoard | pcieWin (port : Nat) | ecam (port : Nat) | ocr | unmapped
deriving DecidableEq, Repr

def State.region (s : State) (a : Nat) : Region :=
  if a < 0x080000000000 then (if a < s.org.mapped then .dram else .unmapped)
  else if 0x400000000000 ≤ a ∧ a < 0x640000000000 then .pcieWin ((a - 0x400000000000) / 0x40000000000)
  else if 0x7E0000000000 ≤ a ∧ a < 0x7E0090000000 then .ecam ((a - 0x7E0000000000) / 0x10000000)
  else if 0x7F0000000000 ≤ a ∧ a < 0x7F0004000000 then .hoard
  else if 0x7F8000000000 ≤ a ∧ a < 0x7F80AA000000 then .ocr
  else .unmapped

/-- Base of the register space. -/
abbrev ocrBase : Nat := 0x7F8000000000

/-- Base of the Hoard, and of bank 32 (R28, R43). -/
abbrev hoardBase : Nat := 0x7F0000000000
abbrev bank32 : Nat := 0x7F0002000000

/-- Normal memory: DRAM or the Hoard. -/
def State.isNormal (s : State) (a : Nat) : Bool :=
  match s.region a with | .dram => true | .hoard => true | _ => false

/-- DRAM or the Hoard outside bank 32, for every byte of [a, a + n) (R49). -/
def State.inBuffer (s : State) (a n : Nat) : Bool :=
  (decide (a + n ≤ s.org.mapped) && decide (a + n ≤ 0x080000000000)) ||
  (decide (hoardBase ≤ a) && decide (a + n ≤ hoardBase + 0x4000000) &&
    (decide (a + n ≤ bank32) || decide (bank32 + 0x100000 ≤ a)))

/-! ## Memory bytes (DRAM and Hoard arrays) -/

/-- The canonical form of memory: addresses strictly rising, and no entry equal to the 0 that an unlisted byte reads as. -/
def Memory.wf (m : List Host.Cell) : Bool := smWf (fun _ => (0 : Byte)) m

def State.memByte (s : State) (a : Nat) : Byte := smGet (fun _ => (0 : Byte)) s.mem a
def State.setMemByte (s : State) (a : Nat) (b : Byte) : State :=
  { s with mem := smSet (fun _ => (0 : Byte)) s.mem a b }

def State.memBytes (s : State) (a : Nat) : Nat → List Byte
  | 0 => []
  | n + 1 => s.memByte a :: s.memBytes (a + 1) n

def State.setMemBytes (s : State) (a : Nat) : List Byte → State
  | [] => s
  | b :: l => (s.setMemByte a b).setMemBytes (a + 1) l

/-- A free value of the hardware, and the state whose counter has moved on. -/
def State.fresh (s : State) : Nat × State := ((Config.freeWord s.freeIdx).toNat, { s with freeIdx := s.freeIdx + 1 })

/-- A LID's entry in the Sett's lodge table. -/
def State.lodgeSt (s : State) (l : Nat) : LodgeSt := smGet (fun _ => ({} : LodgeSt)) s.lodges l
def State.setLodge (s : State) (l : Nat) (x : LodgeSt) : State :=
  { s with lodges := smSet (fun _ => ({} : LodgeSt)) s.lodges l x }

end Sys2Proof.Machine
end

