-- ==== Sys2Proof/Machine/Ecc.lean ====
section
/-! DEFINITION. Lines and bytes, check codes and injection (R335, R339, R494), and pseudo-LRU trees. -/
namespace Sys2Proof.Machine

/-! ## Check codes and injection -/

/-- Store an entry through a checker of part `part` at stop `st`: an armed injection inverts its check bits. -/
def eccWrite (st part checker key : Nat) (s : State) : State :=
  let w := s.rd (.err st part) Off.INJECT
  let inst := st + part * 256
  let s := { s with flips := s.flips.filter (fun f => !(f.inst == inst && f.checker == checker && f.key == key)) }
  if bitOf w 6 ∧ fld w 4 0 = checker ∧ fld w 15 8 ≠ 0 then
    let s := { s with flips := s.flips ++ [⟨inst, checker, key, fld w 15 8⟩] }
    if bitOf w 5 then s else s.wf (.err st part) Off.INJECT 6 6 0
  else s

/-- Store part of an entry: an error that is pending in the rest of it stays. -/
def eccAdd (st part checker key : Nat) (s : State) : State :=
  let w := s.rd (.err st part) Off.INJECT
  if bitOf w 6 ∧ fld w 4 0 = checker ∧ fld w 15 8 ≠ 0 then eccWrite st part checker key s else s

/-- What a decoder finds. -/
inductive EccRes
  | clean
  | corrected
  | uncorr
  /-- taken as a single-bit error in another bit -/
  | wrong (bit : Nat)
deriving DecidableEq, Repr

/-- Read an entry through a SEC-DED checker (R494): one inverted check bit is corrected, two are detected, three
or more give whatever the code yields, which is free. A correction is written back. -/
def eccRead (st part checker key : Nat) (s : State) : EccRes × State :=
  let inst := st + part * 256
  match s.flips.find? (fun f => f.inst == inst && f.checker == checker && f.key == key) with
  | none => (.clean, s)
  | some f =>
    let s := { s with flips := s.flips.filter (fun f => !(f.inst == inst && f.checker == checker && f.key == key)) }
    let n := popcount 8 f.flip
    if n = 1 then (.corrected, s) else if n = 2 then (.uncorr, s)
    else
      let w := (Config.freeWord s.freeIdx).toNat
      let s := { s with freeIdx := s.freeIdx + 1 }
      (if w % 3 = 0 then .uncorr else if w % 3 = 1 then .wrong (w / 3 % 512) else .clean, s)

/-- Read an entry through a parity checker: any inversion is an error, repaired by a refetch. -/
def parityBad (st part checker key : Nat) (s : State) : Bool × State :=
  let inst := st + part * 256
  match s.flips.find? (fun f => f.inst == inst && f.checker == checker && f.key == key) with
  | none => (false, s)
  | some _ => (true, { s with flips := s.flips.filter (fun f => !(f.inst == inst && f.checker == checker && f.key == key)) })

/-- Data after a decode, and whether it is now poisoned. -/
def eccData (r : EccRes) (d : Line) (p : Bool) : Line × Bool :=
  match r with
  | .clean => (d, p)
  | .corrected => (d, p)
  | .uncorr => (d, true)
  | .wrong b => (d ^^^ ((1 : Line) <<< b), p)

/-! ## Tree pseudo-LRU (R202) -/

/-- Point every node on the way to a leaf of a tree of depth `k` away from it. -/
def plruTouch : Nat → Nat → Nat → Nat → Nat
  | 0, _, _, bits => bits
  | k + 1, node, leaf, bits =>
    let b := leaf.testBit k
    let bits := if bits.testBit node = b then bits ^^^ 2 ^ node else bits
    plruTouch k (2 * node + b2n b) leaf bits

/-- Some leaf below `base` in a subtree of depth `k` is allowed. -/
def plruAny (ok : Nat → Bool) (k base : Nat) : Bool := (List.range (2 ^ k)).any (fun i => ok (base + i))

/-- The allowed leaf that the tree points to. -/
def plruVictim (ok : Nat → Bool) : Nat → Nat → Nat → Nat → Nat
  | 0, _, base, _ => base
  | k + 1, node, base, bits =>
    let hi := if bits.testBit node then plruAny ok k (base + 2 ^ k) else !plruAny ok k base
    plruVictim ok k (2 * node + b2n hi) (if hi then base + 2 ^ k else base) bits

end Sys2Proof.Machine
end

