-- ==== Sys2Proof/Machine/Coh.lean ====
section
/-! DEFINITION. Lines, and reads and writes of memory by an agent outside the cores and ports that is coherent with
every copy (R44, R136). -/
namespace Sys2Proof.Machine

/-! ## Lines -/

/-- `n` bytes of a line from offset `o`. -/
def lineBytes (l : Line) (o n : Nat) : List Byte := (List.range n).map (fun i => (l >>> (8 * (o + i))).setWidth 8)

/-- Byte-mask as a bit mask. -/
def maskBits (m : BitVec 64) : Line :=
  (List.range 64).foldl (fun a i => if m.getLsbD i then a ||| ((0xFF : Line) <<< (8 * i)) else a) 0

/-- Bytes of `new` where the mask is set, of `old` elsewhere. -/
def lineMerge (old new : Line) (m : BitVec 64) : Line := (old &&& ~~~(maskBits m)) ||| (new &&& maskBits m)

/-- A line with bytes placed from offset `o`, and their mask. -/
def placeBytes (o : Nat) (l : List Byte) : Line := BitVec.ofNat 512 (leNat l <<< (8 * o))
def placeMask (o n : Nat) : BitVec 64 := BitVec.ofNat 64 ((2 ^ n - 1) <<< o)

/-- The number that `n` bytes of a line at offset `o` spell. -/
def lineNat (l : Line) (o n : Nat) : Nat := (l.toNat >>> (8 * o)) % 2 ^ (8 * n)

def lineOfBytes (l : List Byte) : Line := BitVec.ofNat 512 (leNat l)

/-- A line as memory holds it, and its poison. -/
def memLine (s : State) (ln : Nat) : Line := lineOfBytes (s.memBytes (ln * 64) 64)
def setPoison (ln : Nat) (b : Bool) (s : State) : State :=
  { s with poison := if b then insNat ln s.poison else s.poison.filter (· != ln) }
def setMemLine (ln : Nat) (d : Line) (p : Bool) (s : State) : State :=
  setPoison ln p (s.setMemBytes (ln * 64) (lineBytes d 0 64))

/-! ## The home of a line (R246, R247) -/

/-- The slice that homes a line. -/
def homeOf (line : Nat) : Nat :=
  let f := (line % 65536) ^^^ (line / 65536 % 65536) ^^^ (line / 2 ^ 32 % 1024)
  ((f * 0xA4C5) % 65536) * 136 / 65536

/-- SNP_TMO_LOG2 of a slice (R289, R298). -/
def snpTmo (s : State) (h : Nat) : Nat := s.rf (.warren h) Off.WARREN_COH_CFG 4 0

/-! ## Coherent accesses -/

/-- Data of a line as its core holds it (R203). -/
def PLine.cur (e : PLine) : Line := match e.l1d with | some c => if c.m then c.data else e.data | none => e.data

/-- The messages that carry a line newer than the home's: EvD, WbData that is DIRTY, Data that grants M, IoWb. -/
def carriesNewer (e : Nat × Msg) : Bool :=
  e.1 == 0x09 || e.1 == 0x1C || (e.1 == 0xC2 && e.2.arg % 2 == 1) || (e.1 == 0xC0 && e.2.arg % 4 == 3)

/-- The newest copy of a line that a core holds: in its L2 or L1D in M, in a fill that waits for room, or in its
writeback buffer. -/
def coreCopy (c : Core) (ln : Nat) : Option (Line × Bool) :=
  match smFind c.l2 ln with
  | some e => if e.st = .m then some (e.cur, e.poison) else none
  | none =>
    match c.mrs.find? (fun r => r.line == ln && (match r.got with | some (st, _, _) => st % 4 == 3 | none => false)) with
    | some r => r.got.map (fun (g : Nat × Line × Bool) => (g.2.1, g.2.2))
    | none => (c.wbb.find? (fun w => w.line == ln && w.dirty)).map (fun w => (w.data, w.poison))

/-- An array that checker `ck` guards holds a two-bit error in entry `key`: a read finds it uncorrectable (R494). -/
def State.badAt (s : State) (ck key : Nat) (inst : Nat → Bool) : Bool :=
  s.flips.any (fun f => f.checker == ck && f.key == key && inst f.inst && popcount 8 f.flip == 2)

/-- The newest copy of a line in core `p` has an uncorrectable error: in its L1D, L2 or writeback buffer. -/
def coreBad (s : State) (p ln : Nat) : Bool :=
  let mine := fun i => i == coreStop p + (4 + p % 2) * 256
  match smFind (smGet (fun _ => ({} : Core)) s.cores p).l2 ln with
  | some e => s.badAt (match e.l1d with | some k => if k.m then 4 else 6 | none => 6) ln mine
  | none => s.badAt 9 ln mine

/-- The line is recorded as held in EX by an agent that has been declared dead: a snoop finds it lost (R291, R292). -/
def deadOwner (s : State) (ln : Nat) : Bool :=
  match smFind s.fab.warren ln with
  | some e => e.ex && e.who.any (fun a => (smGet (fun _ => ({} : Core)) s.cores a).dead || (decide (480 ≤ a) && (smGet (fun _ => ({} : Port)) s.ports (a - 480)).dead))
  | none => false

/-- The line lies in a Hoard bank that is closed: without an owner, or in a march that closes it (R452, R456). Bank 32 is the
Sett's. -/
def hoardShut (s : State) (ln : Nat) : Bool :=
  decide (hoardBase ≤ ln * 64) && decide (ln * 64 < hoardBase + 2 ^ 26) &&
    (let b := (ln * 64 - hoardBase) / 0x100000
     let v := s.rf (.hoard (b / 16)) (Off.BANK_STATE + 8 * (b % 16)) 1 0
     b != 32 && (v == 1 || (v == 3 &&
       !((smGet (fun _ => ({} : HoardSt)) s.hoards (b / 16)).wasOpen && s.rf (.hoard (b / 16)) Off.MARCH_CTL 4 4 == 1))))

/-- A line's value as a coherent agent reads it, and whether the read finds it poisoned or uncorrectable. -/
def cohLine (s : State) (ln : Nat) : Line × Bool :=
  match s.cores.findSome? (fun (e : Nat × Core) => if e.2.dead then none else (coreCopy e.2 ln).map (fun r => (r.1, r.2 || coreBad s e.1 ln))) with
  | some r => r
  | none =>
  match (smFind s.fab.txns ln).bind (fun t => if t.dirty then t.data else none) with
  | some r => r
  | none =>
  match s.fab.net.find? (fun e => e.2.line == ln && carriesNewer e) with
  | some e => (e.2.data, e.2.poison)
  | none =>
  match (smFind s.fab.trackers ln).bind (fun t => if t.dirty then t.data else none) with
  | some r => r
  | none =>
  match smFind s.fab.llc ln with
  | some e => (e.data, e.poison || deadOwner s ln || s.badAt 14 ln (fun _ => true))
  | none =>
  match s.fab.net.reverse.find? (fun e => e.2.line == ln && e.1 == 0x21) with
  | some e => (e.2.data, e.2.poison)
  | none => (memLine s ln, s.poison.contains ln || hoardShut s ln || deadOwner s ln || s.badAt 19 ln (fun _ => true) || s.badAt 2 ln (fun _ => true))

/-- A tracked near AMO ends: its counter rises or falls by one (R156); below 2 the probe count is cleared (R155). -/
def trainEnd (up : Bool) (t : Track) (c : Core) : Core :=
  let (k, pr) := smGet (fun _ => ((0 : Nat), (0 : Nat))) c.cpred t.idx
  let k' := if up then min 3 (k + 1) else k - 1
  { c with
    tracks := c.tracks.filter (fun x => x.line != t.line)
    cpred := smSet (fun _ => ((0 : Nat), (0 : Nat))) c.cpred t.idx (k', if k' < 2 then 0 else pr) }

/-- A snoop takes a line out of M or E: within the window of a tracked AMO its counter rises; from the closing tick on the
window has closed with the line held (R10, R156). -/
def trainSnoop (tick ln : Nat) (c : Core) : Core :=
  match c.tracks.find? (fun t => t.line == ln) with
  | none => c
  | some t => trainEnd (decide (tick < t.due)) t c

/-- A core loses its copy to a coherent write: reservation, bound loads and copies go (R160, R287). -/
def coreLoses (tick ln : Nat) (c : Core) : Core :=
  let mine := c.resv == some ln
  let owns : Bool := match smFind c.l2 ln with | some e => decide (e.st ≠ .s) | none => false
  let c := if owns then trainSnoop tick ln c else c
  { c with
    l2 := smDel c.l2 ln
    side := c.side.filter (fun e => e.line != ln)
    resv := if mine then none else c.resv
    lrOpen := c.lrOpen && !mine
    tracks := c.tracks.filter (fun t => t.line != ln)
    rob := c.rob.map (fun e =>
      if e.isLoad && (e.done || e.lo.isSome || e.hi.isSome) && (e.pa / 64 == ln || e.pa2 / 64 == ln) then { e with snooped := true } else e) }

/-- Write a line wherever a copy of it stands while the home has it open, so that every later read sees the write. -/
def patchLine (ln : Nat) (f : Line → Line) (s : State) : State :=
  let fc := fun (c : Core) => { c with
    l2 := c.l2.map (fun e => if e.1 = ln then (e.1, { e.2 with data := f e.2.cur, l1d := e.2.l1d.map (fun k => { k with data := f e.2.cur }), l1i := e.2.l1i }) else e)
    wbb := c.wbb.map (fun w => if w.line = ln then { w with data := f w.data } else w)
    mrs := c.mrs.map (fun r => if r.line = ln then { r with got := r.got.map (fun (g : Nat × Line × Bool) => (g.1, f g.2.1, g.2.2)) } else r) }
  let fm := fun (e : Nat × Msg) => if e.2.line = ln ∧ (carriesNewer e ∨ e.1 = 0xC0 ∨ e.1 = 0xC8 ∨ e.1 = 0x21) then
    (e.1, { e.2 with data := f e.2.data }) else e
  let fl := fun (l : LinkSt) => { l with
    inq := l.inq.map (fun b => (b.1, b.2.map (fun x => { x with msg := (fm (x.op, x.msg)).2 })))
    replay := l.replay.map (fun x => { x with msg := (fm (x.op, x.msg)).2 }) }
  let ft := fun (t : Txn) => { t with data := t.data.map (fun (d : Line × Bool) => (f d.1, d.2)) }
  let s := { s with
    cores := s.cores.map (fun e => (e.1, fc e.2))
    fab := { s.fab with
      txns := s.fab.txns.map (fun e => if e.1 = ln then (e.1, ft e.2) else e)
      trackers := s.fab.trackers.map (fun e => if e.1 = ln then (e.1, ft e.2) else e)
      llc := s.fab.llc.map (fun e => if e.1 = ln then (e.1, { e.2 with data := f e.2.data, dirty := true }) else e)
      net := s.fab.net.map fm
      sent := s.fab.sent.map fm
      links := s.fab.links.map (fun e => (e.1, fl e.2)) } }
  setMemLine ln (f (memLine s ln)) (s.poison.contains ln) s

/-- The coherent domain goes down (R240, R264): the stop drives the Owl's domain-down line. -/
def driveDown (s : State) : State :=
  { s with fab := { s.fab with down := true }, owl := { s.owl with domainDown := true } }

/-- A slice reports an array of class `cls` that it can no longer trust, and the domain goes down (R264). -/
def sliceFatal (inst cls checker ln way : Nat) (s : State) : State :=
  driveDown { s with owl := { s.owl with flits := s.owl.flits ++ [⟨inst, cls, 3, checker, ln, way, 0x1FF, 0, 0⟩] } }

/-- The LLC tag that an access to the line meets, and the physical way it lies in, if it cannot be corrected. -/
def badTag (s : State) (ln : Nat) : Option Nat :=
  match smFind s.fab.llc ln with
  | some e => if s.badAt 15 ln (fun _ => true) then
      some (if 16 ≤ e.way then e.way - 16 else s.rf (.llc (homeOf ln)) Off.LLC_WAYCFG (4 * e.way + 3) (4 * e.way)) else none
  | none => none

/-- The same of its Warren entry. -/
def badEntry (s : State) (ln : Nat) : Option Nat :=
  match smFind s.fab.warren ln with
  | some e => if s.badAt 16 ln (fun _ => true) then some e.way else none
  | none => none

/-- What an access to a line meets in the arrays of its home (R264). -/
def cohTouch (ln : Nat) (s : State) : State :=
  match badTag s ln with
  | some w => sliceFatal (tileStop (homeOf ln) + 0x600) 7 15 ln w s
  | none =>
    match badEntry s ln with
    | some w => sliceFatal (tileStop (homeOf ln) + 0x700) 8 16 ln w s
    | none => s

/-- A hit in the LLC counts as use of its line (R250). -/
def cohUse (ln : Nat) (s : State) : State :=
  match smFind s.fab.llc ln with
  | some e => { s with fab := { s.fab with llc := smPut s.fab.llc ln { e with age := s.fab.uses + 1 }, uses := s.fab.uses + 1 } }
  | none => s

/-- A read of the Sett or the IDIST meets, and uses, every line of [a, a + n). -/
def cohLook (a n : Nat) (s : State) : State :=
  (List.range ((a + n + 63) / 64 - a / 64)).foldl (fun s i => cohUse (a / 64 + i) (cohTouch (a / 64 + i) s)) s

/-- The home has the line open, or something is on its way to or from it. -/
def lineInUse (s : State) (ln : Nat) : Bool :=
  (smFind s.fab.txns ln).isSome || (smFind s.fab.trackers ln).isSome || s.fab.net.any (fun e => e.2.line == ln)

/-- Memory takes a line; a closed Hoard bank discards it (R452). -/
def memPut (ln : Nat) (d : Line) (p : Bool) (s : State) : State := if hoardShut s ln then s else setMemLine ln d p s

/-- A coherent write of bytes within one line (R136, R284): every private copy is snooped out and the home merges
the bytes; all 64 bytes clear poison. -/
def cohPutLine (ln o : Nat) (l : List Byte) (s : State) : State :=
  let f := fun (d : Line) => lineMerge d (placeBytes o l) (placeMask o l.length)
  let s := cohTouch ln s
  if lineInUse s ln then patchLine ln f s else
  let (d, po) := cohLine s ln
  let po := po && l.length != 64
  let late := s.cores.flatMap (fun (e : Nat × Core) => if e.2.resv = some ln then e.2.deferred else [])
  let s := { s with
    cores := s.cores.map (fun e => (e.1, { coreLoses s.tick ln e.2 with deferred := if e.2.resv = some ln then [] else e.2.deferred }))
    ports := s.ports.map (fun (e : Nat × Port) => (e.1, { e.2 with
      pieces := e.2.pieces.map (fun x => if x.line = ln ∧ x.st = .owned then { x with st := .givenUp } else x) }))
    fab := { s.fab with warren := smDel s.fab.warren ln, net := s.fab.net ++ late } }
  match smFind s.fab.llc ln with
  | some e => { s with fab := { s.fab with
      llc := smPut s.fab.llc ln { e with data := f d, dirty := true, poison := po, age := s.fab.uses + 1 }, uses := s.fab.uses + 1 } }
  | none => memPut ln (f d) po s

/-- `n` bytes as a coherent agent reads them. -/
def cohBytes (s : State) (a : Nat) : Nat → List Byte
  | 0 => []
  | n + 1 =>
    let k := min (n + 1) (64 - a % 64)
    if k = n + 1 then lineBytes (cohLine s (a / 64)).1 (a % 64) k
    else
      let first := lineBytes (cohLine s (a / 64)).1 (a % 64) k
      let lines := (n + 1 - k + 63) / 64
      first ++ ((List.range lines).flatMap (fun i => lineBytes (cohLine s (a / 64 + 1 + i)).1 0 64)).take (n + 1 - k)

/-- Whether a line of [a, a + n) is poisoned as a coherent agent reads it. -/
def cohPoison (s : State) (a n : Nat) : Bool :=
  (List.range ((a + n + 63) / 64 - a / 64)).any (fun i => (cohLine s (a / 64 + i)).2)

/-- Bytes as a coherent agent writes them, line by line. -/
def cohPutGo : Nat → Nat → List Byte → State → State
  | 0, _, _, s => s
  | k + 1, a, l, s =>
    if l.isEmpty then s else
    let n := 64 - a % 64
    cohPutGo k (a + n) (l.drop n) (cohPutLine (a / 64) (a % 64) (l.take n) s)

def cohPut (a : Nat) (l : List Byte) (s : State) : State := cohPutGo (l.length / 64 + 2) a l s

end Sys2Proof.Machine
end

