-- ==== Sys2Proof/Machine/CmdTable.lean ====
section
/-! DEFINITION. The Belet command tables of every chapter (R65, R66 and their like): body length, listed
body fields, channels and modes. -/
namespace Sys2Proof.Machine

/-- The mode sets of R66 and R539. -/
inductive Modes
  | all
  | run
  | upd
  /-- RUN and HANDOVER -/
  | runH
  /-- RUN, HANDOVER and STANDBY -/
  | runHS
  | standby
  /-- SERVICE, CAPPED, DEGRADED -/
  | serving
  | handover
deriving DecidableEq, Repr

/-- Whether mode code `m` (R520) is in the set. -/
def Modes.has : Modes → Nat → Bool
  | .all, _ => true
  | .run, m => [2, 3, 4, 5, 6, 7, 10].contains m
  | .upd, m => [2, 3, 4, 5, 10].contains m
  | .runH, m => [2, 3, 4, 5, 6, 7, 10, 9].contains m
  | .runHS, m => [2, 3, 4, 5, 6, 7, 10, 9, 1].contains m
  | .standby, m => m == 1
  | .serving, m => [3, 4, 5].contains m
  | .handover, m => m == 9

/-- One listed field of a request body: bytes [hi:lo] and the bits that are not reserved. -/
structure BodyField where
  hi : Nat
  lo : Nat
  mask : Nat
  /-- used only by a write, in a command with a read/write selector (R52) -/
  wOnly : Bool
deriving DecidableEq, Repr

/-- One command's row. `sel` is the byte of its read/write selector; the `w…` columns hold for a write. -/
structure CmdInfo where
  op : Nat
  /-- LENGTH; `none` for 1 to 112 (JRN.APPEND) -/
  len : Option Nat
  buf : Bool
  hdrLid : Bool
  sel : Option Nat
  fields : List BodyField
  chans : List Nat
  modes : Modes
  wChans : List Nat
  wModes : Modes
deriving DecidableEq, Repr

/-- A listed field with every bit free. -/
def bf (hi lo : Nat) : BodyField := ⟨hi, lo, 2 ^ (8 * (hi + 1 - lo)) - 1, false⟩
/-- A listed field with some bits reserved. -/
def bfm (hi lo mask : Nat) : BodyField := ⟨hi, lo, mask, false⟩
/-- A field that only a write uses. -/
def bfw (hi lo : Nat) : BodyField := ⟨hi, lo, 2 ^ (8 * (hi + 1 - lo)) - 1, true⟩
def bfwm (hi lo mask : Nat) : BodyField := ⟨hi, lo, mask, true⟩
/-- A buffer descriptor, whose reserved bytes are R49's own check. -/
def bfBuf : BodyField := bf 15 0

/-- A command with no read/write selector. -/
def cmd (op len : Nat) (f : List BodyField) (ch : List Nat) (m : Modes) : CmdInfo :=
  ⟨op, some len, false, false, none, f, ch, m, ch, m⟩
/-- The same, with a buffer descriptor (BUF = 1). -/
def cmdB (op len : Nat) (f : List BodyField) (ch : List Nat) (m : Modes) : CmdInfo :=
  ⟨op, some len, true, false, none, bfBuf :: f, ch, m, ch, m⟩
/-- The same, taking its LID from the header. -/
def cmdL (op len : Nat) (buf : Bool) (f : List BodyField) (ch : List Nat) (m : Modes) : CmdInfo :=
  ⟨op, some len, buf, true, none, f, ch, m, ch, m⟩
/-- A command with a read/write selector at byte `sel`. -/
def cmdRW (op len sel : Nat) (f : List BodyField) (rc : List Nat) (rm : Modes) (wc : List Nat) (wm : Modes) : CmdInfo :=
  ⟨op, some len, false, false, some sel, f, rc, rm, wc, wm⟩

/-- SYS, EXPERT and FW (R65, R66). -/
def cmdsSys : List CmdInfo := [
  cmd 0x0101 0 [] [0, 1, 2, 3] .all,
  cmd 0x0102 0 [] [0, 1, 2, 3] .all,
  cmd 0x0103 0 [] [0, 1, 2, 3] .all,
  cmd 0x0104 2 [bf 1 0] [0, 1, 2, 3] .all,
  cmd 0x0105 4 [bf 3 0] [0, 1, 2, 3] .all,
  cmd 0x0106 2 [bf 0 0, bf 1 1] [0] .all,
  cmd 0x0B01 8 [bf 1 0, bf 7 4] [0, 1] .run,
  cmd 0x0B02 8 [bf 0 0, bf 7 4] [0, 1] .run,
  cmd 0x0B03 1 [bf 0 0] [0, 1] .all,
  cmd 0x0801 0 [] [0, 2] .all,
  cmdB 0x0802 20 [bf 19 16] [0, 2] .upd,
  cmd 0x0803 0 [] [0, 2] .upd,
  cmd 0x0804 0 [] [0, 2] .upd,
  cmd 0x0805 0 [] [0, 2] .upd]

/-- LODGE (R377, R378). LODGE.FREEZE and LODGE.SAVE on channel 3 hold in HANDOVER alone. -/
def cmdsLodge : List CmdInfo := [
  cmd 0x0201 10 [bf 1 0, bf 2 2, bf 3 3, bf 4 4, bf 5 5, bf 7 6, bf 8 8, bf 9 9] [0, 1] .run,
  cmdL 0x0202 1 false [bfm 0 0 3] [0, 1] .run,
  cmdL 0x0203 4 false [bf 3 0] [0, 1, 3] .runH,
  cmdL 0x0204 16 true [bfBuf] [0, 1, 3] .runH,
  cmdB 0x0205 21 [bf 17 16, bf 18 18, bf 19 19, bf 20 20] [0, 1, 3] .run,
  cmdL 0x0206 0 false [] [0, 1, 3] .runH,
  cmdL 0x0207 0 false [] [0, 1, 3] .all,
  cmdL 0x0208 2 false [bf 1 0] [0, 1] .run,
  cmdRW 0x0209 30 0 [bf 0 0, bfw 15 8, bfw 17 16, bfw 19 18, bfw 21 20, bfw 29 22] [0, 1] .run [0] .run]

/-- MEM (R271, R299, R331, R353, R460). -/
def cmdsMem : List CmdInfo := [
  cmd 0x0301 1 [bf 0 0] [0, 1] .all,
  cmd 0x0302 5 [bf 0 0, bf 3 2, bf 4 4] [0, 1] .run,
  cmd 0x0303 1 [bf 0 0] [0, 1] .all,
  cmd 0x0304 3 [bf 1 0, bf 2 2] [0] .run,
  cmd 0x0305 8 [bf 0 0, bf 7 4] [0] .run,
  cmd 0x0306 4 [bf 0 0, bf 3 2] [0] .run,
  cmd 0x0307 8 [bfm 7 0 0x7FFFFFFDFFF] [0] .run,
  cmd 0x0340 7 [bf 0 0, bf 3 2, bf 5 4, bfm 6 6 3] [0, 1] .run,
  cmd 0x0341 1 [bf 0 0] [0, 1] .all,
  cmd 0x0342 17 [bf 7 0, bf 15 8, bf 16 16] [0, 1] .run,
  cmd 0x0350 1 [bf 0 0] [0] .run,
  cmd 0x0351 0 [] [0, 1] .all,
  cmd 0x0360 16 [bf 7 0, bf 15 8] [0, 1] .run,
  cmdB 0x0361 24 [bf 23 16] [0, 1, 2] .all,
  cmd 0x0362 8 [bf 7 0] [0, 1, 2] .all,
  cmdB 0x0363 24 [bf 16 16, bf 17 17, bf 18 18, bf 23 20] [0, 1] .all,
  cmd 0x0364 16 [bf 7 0, bf 15 8] [0, 1] .run,
  cmdB 0x0365 16 [] [0, 1, 2] .all,
  cmd 0x0366 9 [bf 0 0, bf 1 1, bf 2 2, bf 7 4, bf 8 8] [0] .run,
  cmd 0x0367 4 [bf 0 0, bf 1 1, bf 2 2, bf 3 3] [0] .run,
  cmdRW 0x0370 6 1 [bf 0 0, bf 1 1, bfw 2 2, bfw 4 3, bfwm 5 5 3] [0, 1, 2] .all [0, 1] .run,
  cmd 0x0371 2 [bf 0 0, bf 1 1] [0] .run]

/-- CORE (R511, R512). -/
def cmdsCore : List CmdInfo := [
  cmd 0x0401 2 [bf 1 0] [0, 1] .all,
  cmd 0x0402 16 [bf 0 0, bf 15 8] [0, 1] .run,
  cmd 0x0403 0 [] [0, 1] .all,
  cmdRW 0x0404 8 1 [bf 0 0, bf 1 1, bfw 2 2, bfw 3 3, bfw 7 4] [0, 1] .all [0] .run]

/-- IO (R401, R419, R445). -/
def cmdsIo : List CmdInfo := [
  cmdRW 0x0501 4 1 [bf 0 0, bf 1 1, bfw 2 2, bfwm 3 3 1] [0] .run [0] .run,
  cmd 0x0502 16 [bf 0 0, bf 1 1, bfm 15 8 0xFFFFFFFFFFF] [0, 1] .run,
  cmd 0x0503 2 [bf 0 0, bf 1 1] [0, 1] .all,
  cmd 0x0504 4 [bf 0 0, bf 3 2] [0, 1] .run,
  cmd 0x0505 1 [bf 0 0] [0, 1] .all,
  cmd 0x0520 8 [bf 1 0, bf 7 4] [0, 1] .run,
  cmd 0x0521 2 [bf 1 0] [0, 1] .all,
  cmdRW 0x0522 40 1 [bf 0 0, bf 1 1, bfw 39 8] [0, 1] .run [0, 1] .run,
  cmdRW 0x0523 4 1 [bf 0 0, bf 1 1, bfw 3 2] [0, 1] .run [0, 1] .run,
  cmd 0x0540 0 [] [0, 1, 3] .all,
  cmd 0x0541 1 [bf 0 0] [0, 1] .run]

/-- FAULT (R496, R497). -/
def cmdsFault : List CmdInfo := [
  cmd 0x0601 0 [] [0, 1, 2, 3] .all,
  cmd 0x0602 8 [bf 7 0] [0, 1, 2] .all,
  cmdRW 0x0603 8 1 [bf 0 0, bf 1 1, bfw 7 4] [0, 1, 2] .all [0] .run,
  cmdRW 0x0604 3 2 [bf 1 0, bfm 2 2 1] [0, 1, 2, 3] .all [0, 1, 2] .all,
  cmd 0x0605 8 [bf 1 0, bfm 7 4 0xFF7F] [0] .run,
  cmdRW 0x0606 2 0 [bf 0 0, bfw 1 1] [0, 1, 2] .all [0] .run]

/-- PWR (R538, R539). -/
def cmdsPwr : List CmdInfo := [
  cmd 0x0701 0 [] [0, 1, 2] .all,
  cmdRW 0x0702 3 0 [bf 0 0, bfw 1 1, bfw 2 2] [0, 1, 2] .all [0, 2] .runHS,
  cmdRW 0x0703 4 0 [bf 0 0, bf 1 1, bf 2 2, bfw 3 3] [0, 1] .runH [0, 1] .runH,
  cmdRW 0x0704 6 2 [bf 1 0, bf 2 2, bfw 3 3, bfw 4 4, bfw 5 5] [0] .run [0] .run,
  cmd 0x0705 1 [bf 0 0] [0, 1] .runH,
  cmd 0x0706 14 [bf 0 0, bfm 1 1 15, bf 2 2, bf 5 4, bf 11 8, bf 13 12] [0] .serving,
  cmd 0x0707 0 [] [0] .serving,
  cmd 0x0708 1 [bf 0 0] [0, 2] .runHS]

/-- JRN and PERF (R480, R481, R565, R566). -/
def cmdsJrnPerf : List CmdInfo := [
  cmd 0x0901 0 [] [0, 1, 2, 3] .all,
  cmdB 0x0902 25 [bf 23 16, bf 24 24] [0, 1, 2, 3] .all,
  ⟨0x0903, none, false, false, none, [bf 111 0], [0, 1, 2], .run, [0, 1, 2], .run⟩,
  cmd 0x0904 0 [] [0] .run,
  cmdB 0x0A01 17 [bf 16 16] [0, 1, 2] .runH,
  cmdRW 0x0A02 40 1 [bf 0 0, bf 1 1, bf 2 2, bf 3 3, bfwm 4 4 1, bfw 15 8, bfw 23 16, bfw 31 24, bfw 39 32]
    [0, 1, 2] .run [0, 1] .run,
  cmdRW 0x0A03 24 1 [bf 0 0, bf 1 1, bfw 15 8, bfw 23 16] [0, 1, 2] .run [0, 1] .run,
  cmdRW 0x0A04 3 0 [bf 0 0, bfw 1 1, bfw 2 2] [0, 1, 2] .run [0] .run,
  cmdB 0x0A05 18 [bf 17 16] [0, 1, 2] .all,
  cmdB 0x0A06 18 [bf 17 16] [0, 1, 2] .runH]

/-- Every Belet command. -/
def cmdTable : List CmdInfo :=
  cmdsSys ++ cmdsLodge ++ cmdsMem ++ cmdsCore ++ cmdsIo ++ cmdsFault ++ cmdsPwr ++ cmdsJrnPerf

/-- The row of an opcode. -/
def cmdInfo (op : Nat) : Option CmdInfo := cmdTable.find? (fun c => c.op == op)

/-- Groups permitted on a channel (R42), bit g for group g. -/
def groupMask : Nat → Nat
  | 0 => 0xFFE
  | 1 => 0xEFE
  | 2 => 2 ^ 1 + 2 ^ 3 + 2 ^ 6 + 2 ^ 7 + 2 ^ 8 + 2 ^ 9 + 2 ^ 10
  | 3 => 2 ^ 1 + 2 ^ 2 + 2 ^ 5 + 2 ^ 6 + 2 ^ 9
  | _ => 0

/-- The channels a request is permitted on, read from the selector where there is one. -/
def CmdInfo.isWrite (c : CmdInfo) (body : List Byte) : Bool :=
  match c.sel with
  | none => true
  | some i => decide (bytesAt body i i ≠ 0)

/-- Channel 3 narrows LODGE.FREEZE and LODGE.SAVE to HANDOVER (R378); PWR.POWER's and
PWR.MODE_REQ's modes and channels depend on the request byte (R522, R539). -/
def CmdInfo.chanOk (c : CmdInfo) (ch : Nat) (body : List Byte) : Bool :=
  let l := if c.isWrite body then c.wChans else c.chans
  if c.op = 0x0705 then l.contains ch && (ch == 0 || bytesAt body 0 0 == 2 || bytesAt body 0 0 == 3)
  else l.contains ch

def CmdInfo.modeOk (c : CmdInfo) (ch mode : Nat) (body : List Byte) : Bool :=
  let m := if c.isWrite body then c.wModes else c.modes
  if c.op = 0x0203 ∨ c.op = 0x0204 then
    (if ch = 3 then Modes.handover.has mode else Modes.run.has mode)
  else if c.op = 0x0708 then
    (match bytesAt body 0 0 with
     | 0 => Modes.runH.has mode
     | 1 => Modes.standby.has mode
     | _ => Modes.runHS.has mode)
  else m.has mode

/-- Whether the body leaves every unlisted byte and every reserved bit zero (R52, check 6).
Bytes at LENGTH and above are not examined; in a read, fields that only a write uses are not. -/
def CmdInfo.bodyOk (c : CmdInfo) (body : List Byte) (len : Nat) : Bool :=
  let w := c.isWrite body
  (List.range len).all (fun i =>
    match c.fields.find? (fun f => decide (f.lo ≤ i) && decide (i ≤ f.hi)) with
    | none => bytesAt body i i == 0
    | some f =>
      if f.wOnly && !w then true
      else (bytesAt body i i) &&& (0xFF ^^^ ((f.mask >>> (8 * (i - f.lo))) % 256)) == 0)

end Sys2Proof.Machine
end

