-- ==== Sys2Proof/Machine/Belet.lean ====
section
/-! DEFINITION. The Belet mailbox transport (chapter 02): channels, events, leases, acceptance, the order
in which commands start, and the writing of responses. -/
namespace Sys2Proof.Machine

/-! ## Interrupt sources and reports -/

/-- Fire an edge-triggered IDIST source: PENDING sets (R382). -/
def fireEdge (id : Nat) (s : State) : State := s.wf .idist (Off.SRC + 8 * id) 32 32 1

/-- Drive a level-triggered IDIST source (R382): INPUT follows; PENDING sets with it, and clears with it
unless the source is ACTIVE. -/
def driveLevel (id : Nat) (b : Bool) (s : State) : State :=
  let s := s.wf .idist (Off.SRC + 8 * id) 34 34 (b2n b)
  if s.rf .idist (Off.SRC + 8 * id) 33 33 = 1 then s
  else s.wf .idist (Off.SRC + 8 * id) 32 32 (b2n b)

/-- Send a fault flit to the Owl (R482). -/
def reportHow (how inst cls sev checker line index agent synd : Nat) (s : State) : State :=
  { s with owl := { s.owl with flits := s.owl.flits ++ [⟨inst, cls, sev, checker, line, index, agent, synd, how⟩] } }

/-- The same, found by demand. -/
def report (inst cls sev checker line index agent synd : Nat) (s : State) : State :=
  reportHow 0 inst cls sev checker line index agent synd s

/-- Raise vector `v` of PF0's MSI-X towards the partner (R55, R443): sent, pended while masked, dropped while MSI-X is
disabled, as R432 has it for the VFs. -/
def raiseTwin (v : Nat) (s : State) : State :=
  if !s.pf0.msixEn then s
  else
    let (a, d, m, _) := smGet (fun _ => (0, 0, true, false)) s.pf0.msix v
    if m then { s with pf0 := { s.pf0 with msix := smPut s.pf0.msix v (a, d, m, true) } }
    else { s with twinMsix := s.twinMsix ++ [v] }

/-! ## Modes (R520, R521) -/

/-- Whether mode `c` applies (PWRC.MODE_FLAGS). -/
def State.modeFlag (s : State) (c : Nat) : Bool := bitOf (s.rd .pwrc Off.MODE_FLAGS) c

/-- The one mode PWRC.MODE reports for a set of flags (R521). -/
def modeOf (f : Word) : Nat :=
  if bitOf f 11 then 11 else if bitOf f 10 then 10
  else if bitOf f 1 then 1 else if bitOf f 2 then 2
  else if bitOf f 8 then 8 else if bitOf f 9 then 9 else if bitOf f 6 then 6
  else if bitOf f 7 then 7 else if bitOf f 5 then 5 else if bitOf f 4 then 4
  else if bitOf f 3 then 3 else 0

/-- The mode PWRC.MODE shows. -/
def State.mode (s : State) : Nat := s.rf .pwrc Off.PWRC_MODE 3 0

/-! ## Channels and mailboxes -/

def State.chan (s : State) (ch : Nat) : Chan := smGet (fun _ => ({} : Chan)) s.sett.chans ch
def State.setChan (s : State) (ch : Nat) (c : Chan) : State :=
  { s with sett := { s.sett with chans := smSet (fun _ => ({} : Chan)) s.sett.chans ch c } }

/-- Base of a channel's mailbox (R43). -/
def mboxBase (ch : Nat) : Nat := bank32 + ch * 0x2000

/-- SETT.CHAN_STATE[ch].STATE: 0 CLOSED, 1 OPEN, 2 RESETTING, 3 FAULTED. -/
def State.chState (s : State) (ch : Nat) : Nat := s.rf .sett (Off.CHAN_STATE + 8 * ch) 2 0

/-- The Sett's coherent accesses to memory (R44). -/
def settRd (s : State) (a n : Nat) : List Byte := cohBytes s a n
def settWr (a : Nat) (l : List Byte) (s : State) : State := cohPut a l s

/-- Write a 32-bit header field (R46). -/
def hdrPut (ch off v : Nat) (s : State) : State := settWr (mboxBase ch + off) (leBytes 4 v) s
def hdrGet (s : State) (ch off : Nat) : Nat := leNat (settRd s (mboxBase ch + off) 4)

/-- Set a channel's STATE, in the register and in the header copy. -/
def setChState (ch v : Nat) (s : State) : State :=
  hdrPut ch 0x04 v (s.wf .sett (Off.CHAN_STATE + 8 * ch) 2 0 v)

/-- Tell the client (R55, R58): sources SETT_RSP 8 + ch and SETT_EVT 10 + ch, or PF0's vectors 0 and 1. -/
def notify (ch : Nat) (evt : Bool) (s : State) : State :=
  if ch < 2 then fireEdge ((if evt then 10 else 8) + ch) s
  else if ch = 3 then raiseTwin (b2n evt) s else s

/-- An event entry (R57). -/
def evtEntry (code seq time lid gen : Nat) (body : List Byte) : List Byte :=
  leBytes 2 code ++ leBytes 2 0 ++ leBytes 4 seq ++ leBytes 8 time ++ leBytes 2 (lid % 512) ++ leBytes 1 gen ++
    leBytes 5 0 ++ (body ++ leBytes 40 0).take 40

/-- Free slots of the event ring as the Sett last examined it. -/
def evtRoom (s : State) (ch : Nat) : Bool :=
  decide (((s.chan ch).evtProd + 96 - (s.chan ch).evtSeen) % 96 < 48)

/-- Write one event entry into the ring and notify. -/
def evtPut (ch code lid gen : Nat) (body : List Byte) (s : State) : State :=
  let c := s.chan ch
  let c' := { c with evtSeq := (c.evtSeq + 1) % 2 ^ 32, evtProd := (c.evtProd + 1) % 96 }
  let s := settWr (mboxBase ch + 0x1100 + 64 * (c.evtProd % 48)) (evtEntry code c'.evtSeq s.settTime lid gen body) s
  notify ch true (hdrPut ch 0x20 c'.evtProd (s.setChan ch c'))

/-- SYS.EVT_OVERFLOW, once the ring has space again (R58). Its "events lost" (R68) are those lost since the last overflow
event; the running count EVT_LOST is not what it sends (DESIGN CHOICE, log entry 6). -/
def evtOverflow (ch : Nat) (s : State) : State :=
  if s.chState ch = 1 ∧ (s.chan ch).lostNow > 0 ∧ evtRoom s ch = true then
    let n := (s.chan ch).lostNow
    let s := s.setChan ch { s.chan ch with lostNow := 0 }
    evtPut ch 0x0180 0 0 (leBytes 4 n) s
  else s

/-- One channel's share of an event (R57, R58). -/
def emitOne (code lid gen : Nat) (body : List Byte) (ch : Nat) (s : State) : State :=
  if s.chState ch ≠ 1 then s
  else if code / 256 ≠ 1 ∧ (s.chan ch).evtMask.testBit (code / 256) = false then s
  else
    let s := evtOverflow ch s
    if (s.chan ch).lostNow > 0 ∨ evtRoom s ch = false then
      let c := s.chan ch
      let c := { c with evtSeq := (c.evtSeq + 1) % 2 ^ 32, lostNow := c.lostNow + 1,
                        evtLost := satAdd 0xFFFFFFFF c.evtLost 1 }
      hdrPut ch 0x28 c.evtLost (s.setChan ch c)
    else evtPut ch code lid gen body s

/-- An event to the listed channels. -/
def emit (chs : List Nat) (code lid gen : Nat) (body : List Byte) (s : State) : State :=
  chs.foldl (fun s ch => emitOne code lid gen body ch s) s

/-- Set PWRC.MODE_FLAGS and PWRC.MODE; a change of the reported mode is reported to the open
channels (R521, R68). -/
def setModeFlags (f : Word) (s : State) : State :=
  let old := s.mode
  let new := modeOf f
  let s := (s.wr .pwrc Off.MODE_FLAGS f).wf .pwrc Off.PWRC_MODE 3 0 new
  if new = old then s
  else emit [0, 1, 2, 3] 0x0181 0 0 (leBytes 1 old ++ leBytes 1 new ++ leBytes 2 (fld f 11 0)) s

/-- Set or clear one mode flag. -/
def setMode (c : Nat) (b : Bool) (s : State) : State :=
  setModeFlags (setFld (s.rd .pwrc Off.MODE_FLAGS) c c (b2n b)) s

/-! ## Leases (R59 to R64) -/

/-- Instance code of a window (R60). -/
def Blk.inst : Blk → Nat
  | .mesh st => st
  | .isl st => st + 0x100
  | .err st _ => st + 0x200
  | .core pcn => coreStop pcn + (if pcn % 2 = 0 then 0x400 else 0x500)
  | .llc t => tileStop t + 0x600
  | .warren t => tileStop t + 0x700
  | b => b.stop + 0x400

/-- A lease stands until its expiry tick (R62). -/
def State.leaseLive (s : State) (l : Lease) : Bool := decide (s.settTime < l.expiry)

/-- The lease on an instance, if one is active. -/
def State.leaseOn (s : State) (inst : Nat) : Option Lease := s.sett.leases.find? (fun l => l.inst == inst && s.leaseLive l)
def State.leased (s : State) (inst : Nat) : Bool := (s.leaseOn inst).isSome

/-- SETT.LEASE[i] as it reads now (R41): REMAIN_MS is rounded up. -/
def leaseReg (s : State) (i : Nat) : Word :=
  match s.sett.leases.find? (fun l => l.slot == i && s.leaseLive l) with
  | none => 0
  | some l => BitVec.ofNat 64 (l.inst + (l.ch <<< 16) + (((l.expiry - s.settTime + 999) / 1000) <<< 32))

/-- SETT.LEASE_ACTIVE as it reads now. -/
def leaseActive (s : State) : Word :=
  BitVec.ofNat 64 ((s.sett.leases.filter s.leaseLive).foldl (fun n l => n ||| 2 ^ l.slot) 0)

/-- A lease ends (R63): the slot frees and the relock write is issued. The holder is told once the relock has taken effect
(R64's example), unless the cause is WARM or SAFE (`cause` none). -/
def endLease (l : Lease) (cause : Option Nat) (s : State) : State :=
  let s := { s with sett := { s.sett with
    leases := s.sett.leases.filter (fun x => x.slot != l.slot),
    relocks := s.sett.relocks ++ [({ inst := l.inst, slot := l.slot, ch := l.ch, cause := cause } : Relock)] } }
  s.wf .sett Off.LEASE_ACTIVE l.slot l.slot 0

/-- A relock takes effect at its block: RWL writes serialised after it are ignored. EXPERT.LEASE_END follows; a channel in
RESETTING receives it once it is OPEN again. -/
def relockNow (r : Relock) (s : State) : State :=
  let s := { s with sett := { s.sett with
    relocks := s.sett.relocks.erase r,
    unlocked := s.sett.unlocked.filter (fun u => u.1 != r.inst) } }
  match r.cause with
  | none => s
  | some c =>
    let body := leBytes 1 r.slot ++ leBytes 1 c ++ leBytes 2 r.inst
    if s.chState r.ch = 2 then s.setChan r.ch { s.chan r.ch with owedEnds := (s.chan r.ch).owedEnds ++ [body] }
    else emit [r.ch] 0x0B80 0 0 body s

/-- Every relock in flight takes effect: none takes longer than 3 µs (R62). -/
def relockAll (s : State) : State := s.sett.relocks.foldl (fun s r => relockNow r s) s

def endLeases (p : Lease → Bool) (cause : Option Nat) (s : State) : State :=
  (s.sett.leases.filter p).foldl (fun s l => endLease l cause s) s

/-! ## Examining a ring (R47, R51) -/

/-- Read the client's indices; an index that breaks the ring rules faults the channel. -/
def examine (ch : Nat) (s : State) : State :=
  if s.chState ch ≠ 1 then s else
  let c := s.chan ch
  let rp := hdrGet s ch 0x10
  let rc := hdrGet s ch 0x1C
  let ec := hdrGet s ch 0x24
  if rp ≥ 32 ∨ rc ≥ 32 ∨ ec ≥ 96 ∨ (rp + 32 - c.reqCons) % 32 > 16 ∨
      (c.rspProd + 32 - rc) % 32 > (c.rspProd + 32 - c.rspSeen) % 32 ∨
      (c.evtProd + 96 - ec) % 96 > (c.evtProd + 96 - c.evtSeen) % 96 then
    setChState ch 3 s
  else
    evtOverflow ch (s.setChan ch { c with reqSeen := rp, rspSeen := rc, evtSeen := ec })

/-- Responses written and not yet consumed. -/
def unconsumed (s : State) (ch : Nat) : Nat := ((s.chan ch).rspProd + 32 - (s.chan ch).rspSeen) % 32
def State.outstanding (s : State) (ch : Nat) : Nat := s.rf .sett (Off.CHAN_STATE + 8 * ch) 15 8

/-! ## Responses (R55, R56) -/

/-- A response entry. R48 says that TAG is the request's; that OPCODE, LID and GEN are the request's too and FLAGS is 0 is
DEDUCED from the entry format (log entry 7). -/
def rspEntry (c : Cmd) (status : Nat) (rsp : List Byte) : List Byte :=
  leBytes 2 c.opcode ++ leBytes 2 c.tag ++ leBytes 2 rsp.length ++ leBytes 2 0 ++ leBytes 2 (c.lid % 512) ++
    leBytes 1 c.gen ++ leBytes 1 0 ++ leBytes 2 status ++ leBytes 2 0 ++ (rsp ++ leBytes 112 0).take 112

/-- Write a response on the channel and notify. -/
def putResponse (c : Cmd) (status : Nat) (rsp : List Byte) (s : State) : State :=
  let k := s.chan c.ch
  let p := (k.rspProd + 1) % 32
  let s := settWr (mboxBase c.ch + 0x900 + 128 * (k.rspProd % 16)) (rspEntry c status rsp) s
  notify c.ch false (hdrPut c.ch 0x18 p (s.setChan c.ch { k with rspProd := p }))

/-- Whether any accepted command of the channel is started and unfinished. -/
def hasStarted (s : State) (ch : Nat) : Bool :=
  s.sett.cmds.any (fun c => c.ch == ch && c.phase != .accepted)

/-- Steps 5 and 6 of R72, or the end of a close (R579), once no started command is left. R72 says that the rings are empty
and EVT_MASK names all groups; that every index of the header, the client's included, and EVT_LOST become 0 is the model's
(DESIGN CHOICE, log entry 6). EPOCH rises unless the channel closes by SYS.CHAN_CTL or by its mode. -/
def finishReset (ch : Nat) (open_ : Bool) (s : State) : State :=
  let c := s.chan ch
  let ep := if open_ || c.shut then (c.epoch + 1) % 2 ^ 32 else c.epoch
  let s := s.setChan ch { c with
    reqCons := 0, reqSeen := 0, rspProd := 0, rspSeen := 0, evtProd := 0, evtSeen := 0, evtLost := 0,
    lostNow := 0, evtSeq := 0, evtMask := 0xFFE, epoch := ep, closing := none, shut := false, owedEnds := [] }
  let s := s.wf .sett (Off.CHAN_STATE + 8 * ch) 15 8 0
  let s := settWr (mboxBase ch) (leBytes 4 (0x0100 + ch * 65536) ++ leBytes 4 (b2n open_) ++ leBytes 4 (groupMask ch) ++
    leBytes 4 0xFFE ++ leBytes 24 0 ++ leBytes 4 0 ++ leBytes 4 ep) s
  c.owedEnds.foldl (fun s b => emit [ch] 0x0B80 0 0 b s) (setChState ch (b2n open_) s)

/-- Open a channel: empty rings, every group, EPOCH raised (R71, R72, R579). -/
def openChan (ch : Nat) (s : State) : State := finishReset ch true s

/-- The end of a CHRESET: the channel opens, or closes, once no started command of it is left. -/
def reopenIdle (ch : Nat) (s : State) : State :=
  if hasStarted s ch ∨ s.chState ch ≠ 2 then s else finishReset ch (!(s.chan ch).shut) s

/-- A command's response slot frees, and its response is written if its channel is OPEN (R47). -/
def answer (c : Cmd) (status : Nat) (rsp : List Byte) (s : State) : State :=
  let s := s.wf .sett (Off.CHAN_STATE + 8 * c.ch) 15 8 (s.outstanding c.ch - 1)
  if s.chState c.ch = 1 then putResponse c status rsp s else s

/-- The SYS.CHAN_CTL with acceptance order `o` ends with the close it commanded; a discarded one only leaves the list. -/
def endCloser (o : Nat) (s : State) : State :=
  match s.sett.cmds.find? (fun c => c.ord == o) with
  | some c =>
    let s := { s with sett := { s.sett with cmds := s.sett.cmds.filter (fun x => x.ord != o) } }
    if c.discard then reopenIdle c.ch s else answer c 0 (leBytes 1 0) s
  | none => s

/-- After a started command of a RESETTING or closing channel has ended. -/
def settleChan (ch : Nat) (s : State) : State :=
  if hasStarted s ch then s
  else match (s.chan ch).closing with
    | some o => endCloser o (finishReset ch false s)
    | none => reopenIdle ch s

/-- A command ends: it leaves the accepted list and, unless its channel was reset, responds. -/
def respond (c : Cmd) (status : Nat) (rsp : List Byte) (s : State) : State :=
  let s := { s with sett := { s.sett with cmds := s.sett.cmds.filter (fun x => x.ord != c.ord) } }
  if c.discard then settleChan c.ch s else answer c status rsp s

/-- Steps 1 to 4 of R72 (reset) and of a close: withdraw what has not started, discard the responses of
what has, end leases and the FW session; then the rest once nothing is running. -/
def withdraw (ch : Nat) (s : State) : State :=
  let s := { s with sett := { s.sett with
    cmds := (s.sett.cmds.filter (fun c => !(c.ch == ch && c.phase == .accepted))).map
      (fun c => if c.ch = ch then { c with discard := true } else c),
    fw := match s.sett.fw with
      | some f => if f.ch = ch then none else some f
      | none => none } }
  endLeases (fun l => l.ch == ch) (some 2) s

/-- CHRESET (R72), or a close that answers the SYS.CHAN_CTL `closer` (R579). -/
def resetChan (ch : Nat) (closer : Option Nat) (s : State) : State :=
  let s := withdraw ch (setChState ch 2 s)
  settleChan ch (s.setChan ch { s.chan ch with closing := closer })

/-- The CHRESET of a WARM, which leaves the channel CLOSED (R71, R72): channel 0 opens again at hand-off. -/
def shutChan (ch : Nat) (s : State) : State :=
  if s.chState ch = 0 then s else
  let s := withdraw ch (setChState ch 2 s)
  settleChan ch (s.setChan ch { s.chan ch with shut := true })

/-- Close a channel at once, as a mode does (R71); a SYS.CHAN_CTL that was closing it is answered. -/
def closeChan (ch : Nat) (s : State) : State :=
  if s.chState ch = 0 then s else
  let by_ := (s.chan ch).closing
  let s := finishReset ch false (relockAll (withdraw ch s))
  match by_ with | some o => endCloser o s | none => s

/-- Open a channel that is FAULTED or still RESETTING: what it had is withdrawn or discarded, and it is OPEN at once
(R579; DEDUCED, log entry 6). -/
def openAnew (ch : Nat) (s : State) : State := openChan ch (withdraw ch s)

/-! ## Scopes and the order in which commands start (R54, R71) -/

/-- The scope of a command. -/
inductive Scope
  | none_ | chip | fw
  | chan (ch : Nat)
  | insts (l : List Nat)
  | lid (n : Nat)
deriving DecidableEq, Repr

def Scope.overlap : Scope → Scope → Bool
  | .none_, _ => false
  | _, .none_ => false
  | .chan a, .chan b => a == b
  | .chan _, _ => false
  | _, .chan _ => false
  | .fw, .fw => true
  | .fw, _ => false
  | _, .fw => false
  | .chip, _ => true
  | _, .chip => true
  | .insts a, .insts b => a.any (fun x => b.contains x)
  | .lid a, .lid b => a == b
  | _, _ => false

def mcInst (n : Nat) : Nat := (Blk.mc n).inst
def allMc : List Nat := (List.range 16).map mcInst
def tileIsl : List Nat := (List.range 136).map (fun t => (Blk.isl (tileStop t)).inst)

/-- PCN of a hart in service (R18). -/
def State.pcnOf (s : State) (h : Nat) : Option Nat := (s.org.coreMap.find? (fun e => e.1 == h)).map (·.2)
/-- State of a PCN in the sparing map (R500). -/
def State.pcnSt (s : State) (p : Nat) : PcnState := (smFind s.org.pcns p).getD .inService
def State.setPcn (s : State) (p : Nat) (x : PcnState) : State := { s with org := { s.org with pcns := smSet (fun _ => PcnState.inService) s.org.pcns p x } }
/-- Harts whose core is in service. -/
def State.served (s : State) : List (Nat × Nat) := s.org.coreMap.filter (fun e => s.pcnSt e.2 == .inService)
/-- The CORE_MAP record of the map as it stands. -/
def State.mapRec (s : State) : JPayload :=
  .coreMap ((List.range 256).map (fun h => (h, s.pcnOf h))) s.org.pcns
def State.hartOf (s : State) (p : Nat) : Option Nat := (s.org.coreMap.find? (fun e => e.2 == p)).map (·.1)

/-- The scope of an accepted command, by its table. -/
def scopeOf (s : State) (c : Cmd) : Scope :=
  let b := fun hi lo => bytesAt c.body hi lo
  match c.opcode with
  | 0x0101 | 0x0102 | 0x0103 => .none_
  | 0x0104 | 0x0105 => .chan c.ch
  | 0x0106 => .chan (b 0 0)
  | 0x0B01 => .insts [b 1 0]
  | 0x0B02 | 0x0B03 =>
    (match s.sett.leases.find? (fun l => l.slot == b 0 0) with | some l => .insts [l.inst] | none => .insts [])
  | 0x0801 => .none_
  | 0x0802 | 0x0803 | 0x0804 | 0x0805 => .fw
  | 0x0201 | 0x0205 | 0x0209 => .chip
  | 0x0202 | 0x0203 | 0x0204 | 0x0206 | 0x0208 => .lid (c.lid % 512)
  | 0x0207 => .none_
  | 0x0301 | 0x0303 => .none_
  | 0x0302 | 0x0306 | 0x0307 | 0x0360 => .insts allMc
  | 0x0304 => .insts (((List.range 16).filter (fun n => (b 1 0).testBit n)).map mcInst)
  | 0x0305 => .chip
  | 0x0340 | 0x0342 | 0x0350 | 0x0364 => .chip
  | 0x0341 | 0x0351 | 0x0361 | 0x0362 | 0x0363 | 0x0365 => .none_
  | 0x0366 | 0x0367 => .insts [mcInst (b 0 0)]
  | 0x0370 | 0x0371 => .insts [(Blk.hoard (b 0 0 / 16)).inst]
  | 0x0401 | 0x0403 => .none_
  | 0x0402 | 0x0404 => .chip
  | 0x0501 | 0x0502 | 0x0505 => .insts [(Blk.rc (b 0 0)).inst]
  | 0x0503 => .none_
  | 0x0504 => .insts [(Blk.rc (b 0 0 / 4)).inst]
  | 0x0520 | 0x0522 | 0x0523 => .insts [Blk.idist.inst]
  | 0x0521 | 0x0540 => .none_
  | 0x0541 => .lid (s.rf .tp (Off.VF_BIND + 8 * b 0 0) 8 0)
  | 0x0601 => .none_
  | 0x0602 | 0x0603 | 0x0606 => .insts [Blk.owl.inst]
  | 0x0604 => if b 2 2 = 0 then .none_ else .insts [b 1 0]
  | 0x0605 => .insts [b 1 0]
  | 0x0701 => .none_
  | 0x0702 | 0x0705 | 0x0706 | 0x0707 | 0x0708 => .chip
  | 0x0703 => .insts tileIsl
  | 0x0704 => .insts (if b 1 0 = 0xFFFF then tileIsl else [b 1 0])
  | 0x0901 | 0x0902 => .none_
  | 0x0903 | 0x0904 => .fw
  | 0x0A01 | 0x0A05 | 0x0A06 => .none_
  | 0x0A02 | 0x0A03 =>
    (match s.pcnOf (b 0 0) with | some p => .insts [(Blk.core p).inst] | none => .insts [])
  | 0x0A04 => .chip
  | _ => .none_

/-- Instance of a coherence agent (R256): a core, or port 480 + n. -/
def agentInst (a : Nat) : Nat :=
  if a < 272 then (Blk.core a).inst else if a = 488 then Blk.tp.inst else (Blk.rc (a - 480)).inst

/-- The scope includes one of the instances. -/
def Scope.includes (sc : Scope) (l : List Nat) : Bool :=
  match sc with
  | .chip => !l.isEmpty
  | .insts a => l.any (fun x => a.contains x)
  | _ => false

/-- Instances whose state makes a command wait (R71): the dead agent of a RECOVERY, channels in RETUNE. -/
def waitingInsts (s : State) : List Nat :=
  (if s.rf .bchub Off.RECOVERY 0 0 = 1 then [agentInst (s.rf .bchub Off.RECOVERY 9 1)] else []) ++
  ((List.range 16).filter (fun n => s.rf (.mc n) Off.MC_STATUS 2 0 == 4)).map mcInst

/-- Whether an accepted command may start now (R54, R71, R475). -/
def mayStart (s : State) (c : Cmd) : Bool :=
  !s.sett.holdUp && (s.rf .sett Off.SETT_STATE 1 0 == 1) &&
  !(s.sett.cmds.any (fun d => decide (d.ord < c.ord) &&
      ((scopeOf s d).overlap (scopeOf s c) || (c.flags.testBit 2 && d.ch == c.ch)))) &&
  !((scopeOf s c).includes (waitingInsts s)) &&
  -- A command of channel 2 or 3 whose scope lies in the main domain waits for hand-off (R544).
  !(s.pwr.warmRunning && (match scopeOf s c with | .none_ => false | .fw => false | .chan _ => false | _ => true))

/-! ## Running a command -/

/-- How the body of a command ends. -/
inductive CmdRes
  /-- it responds now -/
  | done (status : Nat) (rsp : List Byte) (s : State)
  /-- it waits for the commit of these records; its effect follows at the commit of the last -/
  | commit (recs : List JPayload) (s : State)
  /-- hardware is at work; a later event completes it. `aux` is the command's own working data -/
  | run (aux : List Nat) (s : State)

/-- Status codes (R56). -/
abbrev stOk : Nat := 0
abbrev stBadOpcode : Nat := 1
abbrev stDenied : Nat := 2
abbrev stWrongMode : Nat := 3
abbrev stBadLength : Nat := 4
abbrev stDupTag : Nat := 5
abbrev stBadField : Nat := 6
abbrev stBadLid : Nat := 7
abbrev stStaleGen : Nat := 8
abbrev stBadBuffer : Nat := 9
abbrev stBusy : Nat := 0xA
abbrev stLeaseHeld : Nat := 0xB
abbrev stNoResource : Nat := 0xC
abbrev stNoTarget : Nat := 0xD
abbrev stAborted : Nat := 0xE
abbrev stTimeout : Nat := 0xF
abbrev stHwError : Nat := 0x10
abbrev stFlashError : Nat := 0x11
abbrev stAuthFail : Nat := 0x12

/-- The command fails with a status and has no effect. -/
def CmdRes.fail (st : Nat) (s : State) : CmdRes := .done st [] s

/-- Blocks of the spare pool still unused and in service (R465, R478). -/
def spareLeft (s : State) : Nat := 240 - min 240 s.flash.spareUsed

/-- Journal blocks in use: those that hold records and are not retired (R470, R478). -/
def blocksInUse (s : State) : Nat := (s.flash.blocks.filter (fun b => !s.flash.bad.contains b.blk)).length

/-- Whether the journal can take a record (R478: with no free block, NO_RESOURCE). -/
def jrnHasRoom (s : State) : Bool :=
  decide (blocksInUse s < 256) && decide (blocksInUse s + s.flash.bad.length + s.flash.toErase.length < 496)

/-- Pages a record takes (R471); payloads that are not CLIENT have the firmware's own length. -/
def recPages (seq : Nat) : JPayload → Nat
  | .client _ b => (28 + b.length + 255) / 256
  | .pwrFail => 1
  | _ => max 1 (min 16 ((28 + (Config.recordPayload seq).length + 255) / 256))

/-- Hand a record to the journal (R474). -/
def enqueueRec (owner : Option Nat) (snap : Bool) (p : JPayload) (s : State) : State :=
  { s with flash := { s.flash with
      queue := s.flash.queue ++ [⟨p, snap, s.settTime, owner, 0⟩] } }

/-- Journal a change that no command waits on. -/
def journal (p : JPayload) (s : State) : State := enqueueRec none false p s

def setPhase (o : Nat) (p : CmdPhase) (aux : List Nat) (s : State) : State :=
  { s with sett := { s.sett with
      cmds := s.sett.cmds.map (fun c => if c.ord = o then { c with phase := p, aux := aux } else c) } }

/-- Continue a command with the result of its body. -/
def finishCmd (c : Cmd) : CmdRes → State
  | .done st rsp s => respond c st rsp s
  | .commit recs s =>
    if jrnHasRoom s then
      let s := setPhase c.ord .committing [] s
      let n := recs.length
      (recs.zipIdx).foldl (fun s e => enqueueRec (if e.2 + 1 = n then some c.ord else none) false e.1 s) s
    else respond c stNoResource [] s
  | .run aux s => setPhase c.ord .running aux s

/-- The accepted, unstarted command of a channel with a tag and opcode. -/
def findCmd (s : State) (ch tag op : Nat) : Option Cmd :=
  s.sett.cmds.find? (fun c => c.ch == ch && c.tag == tag && c.opcode == op && c.phase == .accepted)

/-- A started command waiting on hardware, by opcode. -/
def runningCmd (s : State) (op : Nat) : Option Cmd :=
  s.sett.cmds.find? (fun c => c.opcode == op && c.phase == .running)

/-- BAD_LID and STALE_GEN for a command that takes its LID from the header (R52): the lodge must exist
and belong to the requester (R379; in HANDOVER channel 3 may act on any). -/
def lidCheck (s : State) (c : Cmd) : Option Nat :=
  let l := c.lid % 512
  if c.opcode = 0x0207 then
    (if l = 0 then some stBadLid
     else if c.flags.testBit 1 ∧ c.gen ≠ (s.lodgeSt l).gen then some stStaleGen else none)
  else if l = 0 ∨ (s.lodgeSt l).state = .free ∨ !((s.lodgeSt l).ownedBy c.ch || s.modeFlag 9) then some stBadLid
  else if c.flags.testBit 1 ∧ c.gen ≠ (s.lodgeSt l).gen then some stStaleGen
  else none

/-- BAD_LID or STALE_GEN, for a command whose table says it takes its LID from the header. -/
def lidBad (s : State) (op : Nat) (c : Cmd) : Option Nat :=
  match cmdInfo op with | some i => if i.hdrLid then lidCheck s c else none | none => none

/-- A Belet command starts: the accepted command (ch, tag) of opcode `op` runs `body` if it may start. -/
def runBelet (op ch tag : Nat) (body : Cmd → State → CmdRes) (s : State) : State :=
  match findCmd s ch tag op with
  | none => s
  | some c =>
    if mayStart s c then
      match lidBad s op c with
      | some st => respond c st [] s
      | none => finishCmd c (body c s)
    else s

/-! ## Buffers (R49) -/

/-- The buffer descriptor of a body: PA and LENGTH. -/
def bufPa (c : Cmd) : Nat := bytesAt c.body 7 0
def bufLen (c : Cmd) : Nat := bytesAt c.body 11 8

/-- Whether the descriptor passes R49. -/
def bufOk (s : State) (c : Cmd) : Bool :=
  decide (bytesAt c.body 15 12 = 0) && decide (bufPa c % 64 = 0) && decide (bufLen c ≤ 0x400000) &&
    s.inBuffer (bufPa c) (bufLen c)

/-- Lines that some copy may hold poisoned or uncorrectable. -/
def poisonedLines (s : State) : List Nat :=
  s.poison ++ (s.fab.llc.filter (fun e => e.2.poison)).map (·.1) ++
    s.cores.flatMap (fun (e : Nat × Core) => (e.2.l2.filter (fun x => x.2.poison)).map (·.1)) ++
    (s.flips.filter (fun f => popcount 8 f.flip == 2)).map (·.key)

/-- The first poisoned line of [a, a + n): an uncorrectable error in a buffer (R49, HW_ERROR). -/
def bufPoisoned (s : State) (a n : Nat) : Option Nat :=
  (poisonedLines s).find? (fun l => decide (a / 64 ≤ l) && decide (l * 64 < a + n) && (cohLine s l).2)

/-- A command whose buffer is poisoned fails, and the Sett reports what it consumed (R341). -/
def poisonFail (ln : Nat) (s : State) : CmdRes := .fail stHwError (report (Blk.sett).inst 19 1 0 ln 0 0x1FF 0 s)

end Sys2Proof.Machine
end

