-- ==== Sys2Proof/Machine/Hart.lean ====
section
/-! DEFINITION. One core: its registers and counters, the mesh port, retirement, traps and returns
(chapters 03, 04 and 23). -/
namespace Sys2Proof.Machine

/-! ## Levels and registers -/

def lvlOf : Nat → Lvl | 0 => .u | 1 => .k | 2 => .h | _ => .m

def State.core (s : State) (p : Nat) : Core := smGet (fun _ => ({} : Core)) s.cores p
def State.setCore (s : State) (p : Nat) (c : Core) : State :=
  { s with cores := smSet (fun _ => ({} : Core)) s.cores p c }
def State.modCore (s : State) (p : Nat) (f : Core → Core) : State := s.setCore p (f (s.core p))

/-- The main domain is in the retention of R532. -/
def inRetention (s : State) : Bool :=
  match s.pwr.den with | .phaseB k => decide (6 ≤ k) | .den => true | .waking f k => decide (6 ≤ f) && decide (k < 2) | _ => false

/-- A core's window is off while its L2 is: in PARK, and in a spare, retired or dead core (R35). The cores in service have
power from bring-up on, before they are released. -/
def coreOff (s : State) (p : Nat) : Bool :=
  let c := s.core p
  !s.pwr.mainOn || inRetention s || c.dead || c.sleep == .asleep 2 ||
    !(c.on || (!s.pwr.handOff && s.served.any (fun e => e.2 == p)))

/-- Offset of CORE[p].LODGE_ATTR[lid], and of the IDIST's copy. -/
def coreAttrOff (lid p : Nat) : Nat := (Blk.core p).base + Off.CORE_LODGE_ATTR + 4 * lid
def idistAttrOff (lid : Nat) : Nat := Blk.idist.base + Off.IDIST_LODGE_ATTR + 4 * lid

/-- The Sett brings the window of a core that has power again up to date: the attribute words of every LID that has had a
lodge, and the journalled thresholds of its L2 (R361, R364, R503). The spec names this at a release (R507); that it also
happens at a wake from PARK, whose window drops writes (R35), is DEDUCED (log entry 10). -/
def refreshCore (p : Nat) (s : State) : State :=
  let s := s.lodges.foldl (fun (s : State) (e : Nat × LodgeSt) =>
    s.wrOff (coreAttrOff e.1 p) (setFld (s.rdOff (idistAttrOff e.1)) 27 26 0)) s
  match s.flash.jst.wear.find? (fun (e : Nat × WearCfg) => e.1 == 0) with
  | some (_, w) => s.wr (.core p) Off.L2_WDCFG (BitVec.ofNat 64 (b2n w.autoEn + w.thresh <<< 8 + w.windowS <<< 16))
  | none => s

/-- L2_STATUS.NO_SPARE and WAYS follow L2_WAYCFG (R222). -/
def l2StatusSync (p : Nat) (s : State) : State :=
  let cfg := s.rd (.core p) Off.L2_WAYCFG
  let s := s.wf (.core p) Off.L2_STATUS 6 6 (b2n (!((List.range 17).any (fun x => !bitOf cfg x && !bitOf cfg (32 + x)))))
  s.wf (.core p) Off.L2_STATUS 12 8 (popcount 17 (fld cfg 16 0))

/-- A core that can act: released, not dead, awake. -/
def State.runs (s : State) (p : Nat) : Bool :=
  (s.core p).on && !(s.core p).dead && ((s.core p).sleep == .awake) && !s.modeFlag 11

/-- Reset value of a system register (R110); registers that differ by hart are set at release. -/
def csrReset (n : Nat) : Word :=
  if n = 0x5CC ∨ n = 0x6CC ∨ n = 0x7CC then BitVec.allOnes 64
  else if n = 0xC21 then BitVec.ofNat 64 (2 ^ 63)
  else if n = 0xC22 then 0x20
  else 0

def Core.csr' (c : Core) (n : Nat) : Word := smGet csrReset c.csr n
def Core.setCsr (c : Core) (n : Nat) (v : Word) : Core := { c with csr := smSet csrReset c.csr n v }
def Core.csrF (c : Core) (n hi lo : Nat) : Nat := fld (c.csr' n) hi lo
def Core.setCsrF (c : Core) (n hi lo v : Nat) : Core := c.setCsr n (setFld (c.csr' n) hi lo v)

/-- First number of a level's registers (R110). -/
def csrBase : Lvl → Nat | .k => 0x5C0 | .h => 0x6C0 | _ => 0x7C0

abbrev HLID : Nat := 0x6D0
abbrev HBANK : Nat := 0x6D3
abbrev KASID : Nat := 0x5CA
abbrev HASID : Nat := 0x6CA
abbrev HEXTBASE : Nat := 0x6D1
abbrev ATOMCTL : Nat := 0x6D5
abbrev BOOTWALK : Nat := 0x7D1
abbrev SLEEPCFG : Nat := 0x6D4

/-- HBANK.OWNER (R120). -/
def Core.owner (c : Core) : Nat := c.csrF HBANK 1 0

/-- The fast bank is in view (R120). -/
def Core.bankInView (c : Core) : Bool :=
  (c.lvl != .u) && (c.lvl.num == c.owner) && (c.csrF (csrBase c.lvl) 5 5 == 1)

/-- Read and write integer register n: x0 reads 0 and ignores writes; x10 to x17 name the fast bank while
it is in view. -/
def Core.getX (c : Core) (n : Nat) : Word :=
  if n = 0 then 0
  else if c.bankInView ∧ 10 ≤ n ∧ n ≤ 17 then smGet (fun _ => (0 : Word)) c.fast n
  else smGet (fun _ => (0 : Word)) c.x n

def Core.putX (c : Core) (n : Nat) (v : Word) : Core :=
  if n = 0 ∨ 31 < n then c
  else if c.bankInView ∧ 10 ≤ n ∧ n ≤ 17 then { c with fast := smSet (fun _ => (0 : Word)) c.fast n v }
  else { c with x := smSet (fun _ => (0 : Word)) c.x n v }

/-- Write a result of `size` bytes to its destination. Narrow floating-point values are NaN-boxed, as the
standard defines. -/
def Core.putDst (c : Core) (d : Dst) (size : Nat) (signed : Bool) (v : Word) : Core :=
  match d with
  | .none => c
  | .x n => c.putX n (if signed ∧ size < 8 ∧ v.getLsbD (8 * size - 1) then
      v ||| (BitVec.allOnes 64 <<< (8 * size)) else v)
  | .f n =>
    let b := if size < 8 then v ||| (BitVec.allOnes 64 <<< (8 * size)) else v
    { c with f := smSet (fun _ => (0 : Word)) c.f (n % 32) b }
  | .v n off =>
    let old := smGet (fun _ => (0 : BitVec 256)) c.v (n % 32)
    let m := (BitVec.ofNat 256 (2 ^ (8 * size) - 1)) <<< (8 * (off % 32))
    { c with v := smSet (fun _ => (0 : BitVec 256)) c.v (n % 32) ((old &&& ~~~m) ||| ((v.setWidth 256 <<< (8 * (off % 32))) &&& m)) }

/-- The LID of accesses made at the current level (R107). -/
def Core.lidNow (c : Core) : Nat := if c.lvl = .u ∨ c.lvl = .k then c.csrF HLID 8 0 else 0

/-- Frequency of a tile island in 100 MHz units: the granted value, at least 1. -/
def freq100 (s : State) (p : Nat) : Nat := max 1 (s.rf (.isl (coreStop p)) Off.ISL_FREQ 13 8)

/-- CSR cycle (R110): it does not advance while the core is asleep. -/
def cycleNow (s : State) (p : Nat) : Nat :=
  let c := s.core p
  match c.sleep with
  | .asleep _ => c.cycBase
  | _ => c.cycBase + (s.tick - c.cycFrom) * freq100 s p

/-- The timebase behind `time`: 100 MHz, without its standstills in DEN (R133). -/
def timeNow (s : State) : Nat := s.tick - s.pwr.timeLag

/-- Mesh cycles in one tick of 10 ns. -/
def meshPerTick (s : State) : Nat := max 1 (s.rf (.isl 8) Off.ISL_FREQ 13 8)

/-- Ticks of `n` mesh cycles, rounded up. -/
def meshTicks (s : State) (n : Nat) : Nat := (n + meshPerTick s - 1) / meshPerTick s

/-- Ticks that `n` core cycles take, rounded up. -/
def cycTicks (s : State) (p n : Nat) : Nat := (n + freq100 s p - 1) / freq100 s p

/-! ## Counters (R553, R554, R556) -/

/-- What the filter terms see of an event. -/
structure PAcc where
  lvl : Lvl
  lid : Nat
  va : Option Nat := none
  pa : Option Nat := none
  ty : Option MTy := none
  qport : Nat := 0

def lodgeAttr (s : State) (p lid : Nat) : Word := s.rd (.core p) (Off.CORE_LODGE_ATTR + 4 * lid)

/-- An event with the core's current level and LID. -/
def pNow (s : State) (p : Nat) : PAcc := { lvl := (s.core p).lvl, lid := (s.core p).lidNow }

def filterPass (s : State) (p f : Nat) (a : PAcc) : Bool :=
  let cfg := s.rd (.core p) (Off.PMF_CFG + 32 * f)
  let lo := s.rf (.core p) (Off.PMF_LO + 32 * f) 47 6 * 64
  let hi := s.rf (.core p) (Off.PMF_HI + 32 * f) 47 6 * 64
  bitOf cfg a.lvl.num &&
  (!bitOf cfg 4 || fld cfg 13 5 == a.lid) &&
  (!bitOf cfg 14 || (match (if bitOf cfg 15 then a.pa else a.va) with
    | some x => decide (lo ≤ x) && decide (x < hi)
    | none => true)) &&
  (!bitOf cfg 16 || (match a.ty with
    | none => true
    | some t => if bitOf cfg 17 then fld cfg 26 21 == a.qport
        else bitOf cfg (18 + (match t with | .wb => 0 | .wc => 1 | .dev => 2))))

/-- Event `e` happens `n` times. -/
def bump (p e n : Nat) (a : PAcc) (s : State) : State :=
  let f := s.rf (.core p) (Off.PMCTL + 4 * e) 1 0
  if n = 0 ∨ !filterPass s p f a ∨ s.modeFlag 11 then s else
  let v := s.rf (.core p) (Off.PMC + 8 * e) 47 0 + n
  let s := s.wf (.core p) (Off.PMC + 8 * e) 47 0 v
  if v < 2 ^ 48 then s else s.wf (.core p) (Off.PMOVF + 8 * (e / 64)) (e % 64) (e % 64) 1

/-- PERF is pending at level `l` (R554). -/
def perfPending (s : State) (p l : Nat) : Bool :=
  (List.range 128).any (fun e => s.rf (.core p) (Off.PMOVF + 8 * (e / 64)) (e % 64) (e % 64) == 1 &&
    s.rf (.core p) (Off.PMCTL + 4 * e) 6 5 == l)

/-- An uncore counter counts (R560). -/
def unc (b : Blk) (i n : Nat) (s : State) : State :=
  let v := s.rf b (Off.UNC_CNT + 8 * i) 47 0 + n
  let s := s.wf b (Off.UNC_CNT + 8 * i) 47 0 v
  if v < 2 ^ 48 then s else s.wf b Off.UNC_OVF i i 1

/-! ## The mesh port and miss registers -/

/-- Put a message on the mesh. -/
def post (op : Nat) (m : Msg) (s : State) : State := { s with fab := { s.fab with net := s.fab.net ++ [(op, m)] } }

/-- A message of core `p` for a LID, tagged as R362 says. -/
def coreMsg (s : State) (p lid line : Nat) : Msg :=
  let w := lodgeAttr s p lid
  { agent := p, line := line, lid := lid, gen := fld w 7 0, qport := fld w 13 8, fclass := fld w 24 20 }

/-- Event number of a home request (R553). -/
def reqEvent (op : Nat) : Option Nat :=
  if op = 0x01 then some 91 else if op = 0x02 then some 92 else if op = 0x03 then some 93
  else if op = 0x10 then some 94 else if op = 0x14 ∨ op = 0x15 ∨ op = 0x16 then some 95 else none

/-- An L2 miss register is free; prefetches hold at most 16 (R207, R209). -/
def l2Free (c : Core) (prefetch : Bool) : Bool :=
  decide ((c.mrs.filter (·.l2)).length < 48) &&
  (!prefetch || decide ((c.mrs.filter (fun r => r.l2 && r.use == .prefetch)).length < 16))

/-- Allocate a miss register without sending anything. -/
def addMr (p : Nat) (r : MReq) (s : State) : State :=
  s.modCore p (fun c => { c with mrs := c.mrs ++ [{ r with txn := c.nextTxn }], nextTxn := (c.nextTxn + 1) % 4096 })

def newMr (use : MUse) (line : Nat) : MReq :=
  { txn := 0, line := line, use := use, l1d := false, l1i := false, l2 := true, op := 0, want := 0, waits := [], thenOwn := false,
    got := none, sent := 0, tmo := 0, data := 0, mask := 0, arg := 0 }

def setMr (p txn : Nat) (f : MReq → MReq) (s : State) : State :=
  s.modCore p (fun c => { c with mrs := updFirst (fun r => r.txn == txn) f c.mrs })

def dropMr (p txn : Nat) (s : State) : State :=
  s.modCore p (fun c => { c with mrs := delFirst (fun r => r.txn == txn) c.mrs })

/-- Send (or resend) the request of a miss register. A line in the writeback buffer is not taken back: the
request waits for the eviction's acknowledgement (R214). -/
def sendMr (p txn op lid : Nat) (s : State) : State :=
  let c := s.core p
  match c.mrs.find? (fun r => r.txn == txn) with
  | none => s
  | some r =>
    if c.wbb.any (fun w => w.line == r.line) ∧ r.use ≠ .amo ∧ r.use ≠ .ad ∧ r.use ≠ .cbo ∧ r.use ≠ .wc ∧ r.use ≠ .ucRead ∧
        r.use ≠ .ucWrite ∧ r.use ≠ .spoor then
      setMr p txn (fun r => { r with op := 0, l2 := true, want := op }) s
    else
      let m := { coreMsg s p lid r.line with txn := txn, arg := r.arg, data := r.data, mask := r.mask }
      let s := setMr p txn (fun r => { r with op := op, want := 0, l2 := true, sent := s.tick, tmo := snpTmo s (homeOf r.line) }) s
      let s := match reqEvent op with
        | some e => bump p e 1 (pNow s p) s
        | none => s
      post op m s

/-- A request that waited for an eviction goes out. -/
def resendMr (p line : Nat) (s : State) : State :=
  match (s.core p).mrs.find? (fun r => r.line == line && r.want != 0) with
  | some r => sendMr p r.txn r.want (s.core p).lidNow s
  | none => s

/-! ## Write combining (R144, R145) -/

/-- Drain one entry: one partial-line write with its mask. While no L2 miss register is free the drain waits (R209): the
entry's window is closed, and WC_WINDOW_END drains it. -/
def drainWc (p line : Nat) (s : State) : State :=
  let c := s.core p
  match c.wc.find? (fun w => w.line == line) with
  | none => s
  | some w =>
    if !l2Free c false then
      s.setCore p { c with wc := updFirst (fun x => x.line == line) (fun x => { x with due := min x.due s.tick }) c.wc }
    else
    let s := s.modCore p (fun c => { c with wc := c.wc.filter (fun x => x.line != line) })
    let t := (s.core p).nextTxn
    let s := addMr p { newMr .wc line with data := w.data, mask := w.mask } s
    bump p 77 1 (pNow s p) (sendMr p t 0x16 (s.core p).lidNow s)

def drainAllWc (p : Nat) (s : State) : State :=
  ((s.core p).wc.map (·.line)).foldl (fun s l => drainWc p l s) s

/-! ## Spoor (R557 to R559) -/

/-- Countdown value at a reload: 2^LOG2N with its low RBITS bits from the LFSR. Its polynomial is not given:
the bits are free. -/
def spoorReload (p : Nat) (s : State) : State :=
  let n := s.rf (.core p) Off.SPOOR_CTL 7 3
  let r := s.rf (.core p) Off.SPOOR_CTL 11 8
  let l := (Config.freeWord s.freeIdx).toNat % 2 ^ 32
  let s := { s with freeIdx := s.freeIdx + 1 }
  s.modCore p (fun c => { c with lfsr := l, spoorLeft := 2 ^ n + l % 2 ^ r })

/-- An operation of kind `k` (1 load, 2 store, 3 branch, 0 other) dispatches; whether it is tagged. -/
def spoorTag (p k : Nat) (a : PAcc) (s : State) : Bool × State :=
  let ctl := s.rd (.core p) Off.SPOOR_CTL
  if !bitOf ctl 0 ∨ (fld ctl 2 1 ≠ 0 ∧ fld ctl 2 1 ≠ k) ∨ !filterPass s p (fld ctl 18 17) a then (false, s)
  else
    let c := s.core p
    if c.spoorNext then (true, s.setCore p { c with spoorNext := false })
    else if c.rob.any (·.tagged) then (false, s.setCore p { c with spoorLeft := c.spoorLeft - 1 })
    else if c.spoorLeft ≤ 1 then (true, spoorReload p s)
    else (false, s.setCore p { c with spoorLeft := c.spoorLeft - 1 })

/-- The record of R558. -/
def spoorRecord (s : State) (p : Nat) (e : RobEnt) (kind flags : Nat) : Line :=
  let lat := min 0xFFFFFFFF ((s.tick - e.tick) * freq100 s p)
  let acc := kind = 0 ∨ kind = 1
  BitVec.ofNat 512 (leNat (leBytes 8 e.pc.toNat ++ leBytes 8 (if acc then e.va.toNat else 0) ++
    leBytes 8 (if acc then e.pa else 2 ^ 64 - 1) ++ leBytes 4 lat ++ leBytes 2 0 ++ leBytes 1 e.src ++ leBytes 1 flags ++
    leBytes 1 (kind + 4 * e.lvl.num) ++ leBytes 2 e.lid ++ leBytes 1 ((s.hartOf p).getD 0xFF) ++ leBytes 4 0 ++ leBytes 8 (timeNow s)))

/-- A tagged operation retires: one record goes to the ring, or is lost when it is full. -/
def spoorWrite (p : Nat) (e : RobEnt) (kind flags : Nat) (s : State) : State :=
  let n := s.rf (.core p) Off.SPOOR_CTL 16 12
  let head := s.rf (.core p) Off.SPOOR_HEAD 20 0 + ((s.core p).mrs.filter (fun r => r.use == .spoor)).length
  let tail := s.rf (.core p) Off.SPOOR_TAIL 20 0
  if (head + 2 ^ (n + 1) - tail) % 2 ^ (n + 1) ≥ 2 ^ n then s.incSat (.core p) Off.SPOOR_LOST 31 0
  else
    let a := s.rf (.core p) Off.SPOOR_BASE 47 12 * 4096 + 64 * (head % 2 ^ n)
    let t := (s.core p).nextTxn
    let s := addMr p { newMr .spoor (a / 64) with data := spoorRecord s p e kind flags, mask := BitVec.allOnes 64 } s
    -- LID 0, QPORT 0 and fill class 0
    let m : Msg := { agent := p, line := a / 64, txn := t, data := spoorRecord s p e kind flags, mask := BitVec.allOnes 64 }
    post 0x16 m (setMr p t (fun r => { r with op := 0x16, sent := s.tick, tmo := snpTmo s (homeOf (a / 64)) }) s)

/-- The write of a record has been performed: HEAD advances. -/
def spoorDone (p : Nat) (s : State) : State :=
  let n := s.rf (.core p) Off.SPOOR_CTL 16 12
  let h := (s.rf (.core p) Off.SPOOR_HEAD 20 0 + 1) % 2 ^ (n + 1)
  bump p 47 1 (pNow s p) (s.wf (.core p) Off.SPOOR_HEAD 20 0 h)

/-! ## Flushes -/

/-- A load held by QUIET: its miss register has sent nothing (R96). -/
def MReq.isHeld (r : MReq) : Bool := r.op == 0 && !r.l2

/-- Snoops deferred by the LR window are served (R159): they are delivered again. -/
def closeLr (p : Nat) (s : State) : State :=
  let d := (s.core p).deferred
  let s := s.modCore p (fun c => { c with lrOpen := false, deferred := [] })
  { s with fab := { s.fab with net := s.fab.net ++ d } }

/-- Clear the reservation (R160). -/
def clearResv (p : Nat) (s : State) : State := closeLr p (s.modCore p (fun c => { c with resv := none }))

/-- Discard every unretired instruction from place `n` on. A held load's miss register is freed with no
request sent (R96). -/
def flushFrom (p n : Nat) (s : State) : State :=
  s.modCore p (fun c =>
    let gone := c.rob.filter (fun e => decide (n ≤ e.seq))
    { c with
      rob := c.rob.filter (fun e => decide (e.seq < n)),
      rs := c.rs.filter (fun e => decide (e.1 < n)),
      spoorNext := c.spoorNext || gone.any (·.tagged),
      sb := c.sb.filter (fun b => b.retired || decide (b.seq < n)),
      mrs := (c.mrs.map (fun r => { r with waits := r.waits.filter (fun q => decide (q < n)) })).filter
        (fun r => !(r.isHeld && r.waits.isEmpty && r.use == .read)) })

/-- Flush all prediction state (R78, R103). -/
def predFlush (p : Nat) (s : State) : State := s.modCore p (fun c => { c with pred := {} })

/-- A change of level: FLUSH_LEVEL (R102). -/
def levelChanged (p : Nat) (old : Lvl) (s : State) : State :=
  if (s.core p).lvl ≠ old ∧ s.rf (.core p) Off.PRED_CTL 0 0 = 1 then predFlush p s else s

/-! ## Traps (R113 to R123) -/

/-- Offset in the vector table (R113) of an exception. -/
def vecOff (code : Nat) : Nat := if code = 0x10 then 0x080 else if 0x18 ≤ code then 0x200 else 0x000

/-- The level that takes an exception raised at `l` (R116, R117). -/
def routeOf (c : Core) (code : Nat) (l : Lvl) : Lvl :=
  if code = 0x10 then (if l = .h ∨ l = .m then .h else .k)
  else if 0x14 ≤ code ∧ code ≤ 0x17 then .h
  else if l = .m ∨ c.csrF 0x7CF code code = 0 then .m
  else if l = .h ∨ 0x18 ≤ code ∨ c.csrF 0x6CF code code = 0 then .h
  else .k

/-- A fast-bank trap takes the bank when no level holds it (R121). -/
def takesBank (c : Core) (fast : Bool) : Bool := fast && c.owner == 0

/-- The registers that entering a trap at level `t` from `pc` writes (R121, R122): `cause` without NOBANK, whether it
is a fast-bank trap. -/
def trapRegs (c : Core) (t : Lvl) (cause : Nat) (fast : Bool) (tval pc : Word) : Core :=
  let b := csrBase t
  let ie := c.csrF b 0 0
  let c' := if takesBank c fast then
      (((((c.setCsr (b + 8) pc).setCsrF b 7 7 ie).setCsrF b 0 0 0).setCsrF b 9 8 c.lvl.num).setCsrF b 5 5 1).setCsrF HBANK 1 0 t.num
    else
      (((((c.setCsr (b + 5) pc).setCsrF b 1 1 ie).setCsrF b 0 0 0).setCsrF b 3 2 c.lvl.num).setCsrF b 6 6 (c.csrF b 5 5)).setCsrF b 5 5 0
  let cv := cause + (if fast && !takesBank c fast then 2 ^ 62 else 0)
  (c'.setCsr (b + 6) (BitVec.ofNat 64 cv)).setCsr (b + 7) tval

/-- A core's first fetch in the handler at level `t`, at the offset of R113. -/
def atVector (c : Core) (t : Lvl) (off : Nat) : Core :=
  { c with
    lvl := t, pc := BitVec.ofNat 64 ((c.csr' (csrBase t + 3)).toNat / 4096 * 4096 + off)
    amoAt := none, ad := none, pauseUntil := none, stall := none, bc := none, amoChoice := none }

/-- Enter a trap at level `t`: everything unretired is discarded. -/
def enterTrap (p : Nat) (t : Lvl) (cause : Nat) (off : Nat) (fast : Bool) (tval : Word) (pc : Word) (s : State) : State :=
  let s := clearResv p (flushFrom p (s.core p).next s)
  let c := s.core p
  levelChanged p c.lvl (s.setCore p (atVector (trapRegs c t cause fast tval pc) t off))

/-! ## Interrupts (R112, R119) -/

/-- IP of a level (R112): TIMER, EXT, FAST, PERF, GUEST_DB. -/
def ipBits (s : State) (p : Nat) (l : Lvl) : Nat :=
  let c := s.core p
  let slot := fun (f : Bool) => s.idist.slots.any (fun d => d.pcn == p && d.lvl == l && d.fast == f)
  b2n (decide ((c.csr' (csrBase l + 0xC)).toNat ≤ timeNow s)) + 2 * b2n (slot false) + 4 * b2n (slot true) +
    8 * b2n (perfPending s p l.num) + 16 * b2n ((l == .h) && s.idist.doorbells.any (fun d => d.1 == p))

/-- Interrupts pending and individually enabled, in the order of R119: level and code. -/
def enabledPending (s : State) (p : Nat) : List (Lvl × Nat) :=
  let c := s.core p
  [Lvl.m, Lvl.h, Lvl.k].flatMap (fun l =>
    let v := ipBits s p l &&& (c.csr' (csrBase l + 1)).toNat
    ([2, 1, 4, 0, 3].filter (fun i => v.testBit i)).map (fun i => (l, i)))

/-- Interrupts that can be taken now (R119). -/
def takeable (s : State) (p : Nat) : List (Lvl × Nat) :=
  let c := s.core p
  (enabledPending s p).filter (fun (l, _) => decide (c.lvl.num < l.num) || ((c.lvl == l) && c.csrF (csrBase l) 0 0 == 1))

/-- A non-revocable operation of the oldest instruction is outstanding (R98): an issued device load, AMO or A/D update. A
device store is a retired one, which is not waited for. -/
def nonRevocable (c : Core) : Bool :=
  (match c.dev with | some d => !d.write | none => false) || c.amoAt.isSome || (match c.ad with | some a => a.sent | none => false)

/-- Take the first interrupt that can be taken, before the instruction at `pc`. -/
def takeIntr (p : Nat) (s : State) : State :=
  match takeable s p with
  | (l, i) :: _ =>
    let s := bump p 13 1 (pNow s p) s
    enterTrap p l (2 ^ 63 + i) (if i = 2 then 0x180 else 0x100) (i = 2) 0 (s.core p).pc s
  | [] => s

/-! ## Exceptions (R117, R118) -/

/-- An exception is taken. `gpa`: HTVAL2 for stage-2 faults. -/
def trapNow (p code : Nat) (tval : Word) (gpa : Option Nat) (pc : Word) (s : State) : State :=
  let c := s.core p
  let t := routeOf c code c.lvl
  let s := if 0x18 ≤ code then drainAllWc p s else s
  let s := match gpa with
    | some g => s.modCore p (fun c => c.setCsr 0x6C9 (BitVec.ofNat 64 g))
    | none => s
  let a := pNow s p
  let s := bump p (if code = 0x10 then 11 else 12) 1 a s
  let s := if code = 0x11 then bump p 14 1 a s else s
  let s := if 0x18 ≤ code then bump p 79 1 a s else s
  enterTrap p t code (vecOff code) (code = 0x10) tval pc s

/-- The oldest instruction raises an exception: an interrupt that can be taken goes before it (R119). -/
def takeTrap (p code : Nat) (tval : Word) (gpa : Option Nat) (pc : Word) (s : State) : State :=
  if (takeable s p).isEmpty then trapNow p code tval gpa pc s else takeIntr p s

/-- The oldest instruction consumes poison at `pa` (R117, R341): the report and the machine check. -/
def takeMcheck (p code pa : Nat) (pc : Word) (s : State) : State :=
  if (takeable s p).isEmpty then
    trapNow p code (BitVec.ofNat 64 (pa / 64 * 64)) none pc (report ((Blk.core p).inst) 2 2 12 (pa / 64) 0 p 0 s)
  else takeIntr p s

/-- REFILL (R176): the refill registers of the level load first. -/
def takeRefill (p kind : Nat) (va : Word) (upper : Bool) (pc : Word) (s : State) : State :=
  if !(takeable s p).isEmpty then takeIntr p s else
  let c := s.core p
  let v := kind + (if c.lvl = .u then 4 else 0) + 8 * b2n upper + c.invSeq <<< 16
  let c := if c.lvl = .h ∨ c.lvl = .m then
      (c.setCsr 0xEC0 va).setCsr 0xEC1 (BitVec.ofNat 64 v)
    else ((c.setCsr 0xDC0 va).setCsr 0xDC1 (BitVec.ofNat 64 v)).setCsr 0xDC2
      (BitVec.ofNat 64 (c.csrF KASID 15 0 + c.csrF HLID 8 0 <<< 16))
  trapNow p 0x10 va none pc (s.setCore p c)

/-! ## Retirement -/

/-- A conditional branch, and an indirect jump, in the encodings of R104's base and compressed sets. -/
def isCond (b : Word) : Bool := (fld b 6 0 == 0x63) || (fld b 1 0 == 1 && decide (6 ≤ fld b 15 13))
def isInd (b : Word) : Bool := (fld b 6 0 == 0x67) || (fld b 1 0 == 2 && fld b 15 13 == 4 && fld b 6 2 == 0 && fld b 11 7 != 0)

/-- What histories and return stack become past a branch (R77). A push onto a full stack overwrites the oldest entry. -/
def Pred.see (b : Br) (q : Pred) : Pred :=
  let ras := if b.ret then q.ras.tail else q.ras
  { q with
    hist := (b.taken :: q.hist).take 192
    path := if b.taken then (b.target :: q.path).take 16 else q.path
    ras := if b.call then (b.link :: ras).take 64 else ras }

/-- A saturating 2-bit counter. -/
def count2 (up : Bool) (k : Nat) : Nat := if up then min 3 (k + 1) else k - 1

/-- Training of the direction predictor by a conditional branch at `pc` (R76). The spec gives the tables; that counters move
one step towards the outcome, and that a misprediction allocates in at most one tagged table, is log entry 13. -/
def Pred.trainDir (pc : Word) (b : Br) (q : Pred) : Pred :=
  let x := Config.predIndex 0 pc q.hist % 8192
  let base := smSet (fun _ => 0) q.base x (count2 b.taken (smGet (fun _ => 0) q.base x))
  let key := fun t => 2048 * (t - 1) + Config.predIndex t pc q.hist % 2048
  let tagged := [1, 2, 3, 4, 5, 6].foldl (fun (m : SMap (Nat × Nat)) t =>
    match smFind m (key t) with
    | some (g, k) => if g = Config.predTag t pc q.hist then smPut m (key t) (g, count2 b.taken k) else m
    | none => m) q.tagged
  let t := Config.predTable pc q.hist
  { q with
    base := base
    tagged := if b.mis ∧ 1 ≤ t ∧ t ≤ 6 then smPut tagged (key t) (Config.predTag t pc q.hist, b2n b.taken) else tagged }

/-- Training at retire (R76): `indOff` is PRED_CTL.IND_OFF. A set of the BTB keeps its 12 newest entries (log entry 13). -/
def Pred.train (indOff : Bool) (pc : Word) (b : Br) (q : Pred) : Pred :=
  let set := Config.btbSet pc % 1024
  let btb := if b.taken then
      smPut q.btb set (((pc, b.target) :: (smGet (fun _ => []) q.btb set).filter (fun e => e.1 != pc)).take 12) else q.btb
  let ind := if b.ind ∧ !indOff then smPut q.ind (Config.indIndex pc q.path % 4096) b.target else q.ind
  { (if b.cond then q.trainDir pc b else q) with btb := btb, ind := ind }

/-- The BTB's target for a PC. -/
def Pred.btbAt (q : Pred) (pc : Word) : Option Word :=
  ((smGet (fun _ => []) q.btb (Config.btbSet pc % 1024)).find? (fun e => e.1 == pc)).map (·.2)

/-- The return stack as the instruction at place `n` finds it: past every older branch that has resolved (R77). -/
def specRas (c : Core) (n : Nat) : List Word :=
  ((List.range (n - c.next)).foldl (fun (q : Pred) k =>
    match (c.rob.find? (fun e => e.seq == c.next + k)).bind (·.branch) with
    | some b => q.see b
    | none => q) c.pred).ras

/-- Micro-operations of an instruction (R79): one for each register of a vector group or field of a vector segment
access, in the encodings of the vector set that R104 names; `vt` is vtype. -/
def uopsOf (bits vt : Word) : Nat :=
  let w := fld bits 14 12
  if (fld bits 6 0 = 0x07 ∨ fld bits 6 0 = 0x27) ∧ (w = 0 ∨ 5 ≤ w) then
    (if fld bits 31 29 ≠ 0 then fld bits 31 29 + 1
     else match fld vt 2 0 with | 1 => 2 | 2 => 4 | 3 => 8 | _ => 1)
  else 1

/-- A core once its oldest instruction has retired, its branch having trained the predictor (R76); `indOff` is
PRED_CTL.IND_OFF. -/
def Core.retired (indOff : Bool) (e : RobEnt) (c : Core) : Core :=
  { c with
    next := e.seq + 1
    pc := e.npc
    rob := c.rob.filter (fun x => x.seq != e.seq)
    rs := c.rs.filter (fun x => x.1 != e.seq)
    pred := match e.branch with | some b => (c.pred.train indOff e.pc b).see b | none => c.pred
    csr := smSet csrReset c.csr 0xC02 (c.csr' 0xC02 + 1) }

/-- Count a retired instruction and its micro-operations, and move on to the next. -/
def moveOn (p : Nat) (e : RobEnt) (s : State) : State :=
  let a : PAcc := {
    lvl := e.lvl, lid := e.lid,
    va := if e.isLoad then some e.va.toNat else none,
    pa := if e.isLoad then some e.pa else none,
    ty := if e.isLoad then some e.ty else none }
  let s := bump p 1 1 a (bump p 2 e.uops a s)
  s.modCore p (Core.retired (s.rf (.core p) Off.PRED_CTL 2 2 == 1) e)

/-- Account for a retired instruction: Spoor writes its record if it was tagged. -/
def retireOne (p : Nat) (e : RobEnt) (kind flags : Nat) (s : State) : State :=
  if e.tagged then spoorWrite p e kind flags (moveOn p e s) else moveOn p e s

/-- Bucket of LAT_HIST (R553). -/
def latBucket (n : Nat) : Nat := if n < 32 then 0 else min 15 (Nat.log2 n - 4)

/-- An empty entry for an instruction. -/
def robOf (i : Ins) (l : Lvl) (lid tick : Nat) : RobEnt :=
  { seq := i.seq, pc := i.pc, npc := i.pc + BitVec.ofNat 64 i.ilen, done := false, dst := .none, val := 0, isLoad := false,
    isStore := false, branch := none, uops := 1, signed := false, va := 0, pa := 0, size := 0, n1 := 0, pa2 := 0, ty := .wb, lvl := l,
    lid := lid, held := false, waitFwd := false, fwdFrom := none, snooped := false, poisoned := false, src := 0, slot := none,
    tick := tick, tagged := false }

/-- Reservation stations (R82): occupied entries of a cluster. -/
def Core.rsCount (c : Core) (k : Cluster) : Nat := (c.rs.filter (fun e => e.2 == k)).length

/-- The cluster of an integer micro-operation that both integer clusters can execute: the one with fewer occupied entries,
A where they are equal (R82). -/
def Core.intCluster (c : Core) : Cluster := if c.rsCount .b < c.rsCount .a then .b else .a

/-- A micro-operation issues at a port (R82, R83, R553). -/
def issue (p port : Nat) (s : State) : State := bump p (32 + port) 1 (pNow s p) s

/-- An instruction of kind `k` (1 load, 2 store, 3 branch, 0 other) dispatches and issues, at the lowest-numbered of the ports
that can execute it (R83; log entry 14): what the counters see, and whether Spoor tags it. -/
def dispatch (i : Ins) (k : Nat) (a : PAcc) (s : State) : Bool × State :=
  let p := i.pcn
  let s := bump p 16 (uopsOf i.bits ((s.core p).csr' 0xC21)) a s
  let s := if k = 1 then issue p 6 s else if k = 2 then issue p 9 (issue p 8 s) else if k = 3 then issue p 0 s else s
  spoorTag p k a s

/-- Physical registers of a file beyond its architectural ones (R80). -/
def spareRegs : Dst → Nat | .none => 512 | .x _ => 400 - 39 | .f _ => 256 - 32 | .v _ _ => 192 - 32
def sameFile : Dst → Dst → Bool
  | .x _, .x _ => true | .f _, .f _ => true | .v _ _, .v _ _ => true | .none, .none => true | _, _ => false

/-- A free physical register for the result (R80, R81). Dispatch is in order, so only older instructions count. -/
def pregFree (c : Core) (n : Nat) (d : Dst) : Bool :=
  decide ((c.rob.filter (fun e => decide (e.seq < n) && sameFile e.dst d)).length < spareRegs d)

/-- A load-queue entry, and a store-buffer entry (R85): counted over the older loads and stores, since dispatch is in order. -/
def lqFree (c : Core) (n : Nat) : Bool := decide ((c.rob.filter (fun e => e.isLoad && decide (e.seq < n))).length < 192)
def sbFree (c : Core) (n : Nat) : Bool := decide ((c.sb.filter (fun b => !b.upper && decide (b.seq < n))).length < 128)

/-- The core can act on an instruction: it runs, and neither pause, a WAIT, a Zicbom operation nor a broadcast holds. -/
def canAct (s : State) (p : Nat) : Bool :=
  let c := s.core p
  s.runs p && c.stall.isNone && c.pauseUntil.isNone && c.bc.isNone

/-- The instruction is the core's oldest unretired one and the core can act on it. -/
def atHead (s : State) (i : Ins) : Bool :=
  let c := s.core i.pcn
  canAct s i.pcn && (c.next == i.seq) && !(nonRevocable c) && !(c.rob.any (fun e => e.seq == i.seq))

/-- An instruction may execute ahead of its turn: it has a place among the 512 of the reorder buffer, which dispatch fills in
order (R81). -/
def mayRun (s : State) (i : Ins) : Bool :=
  let c := s.core i.pcn
  canAct s i.pcn && decide (c.next ≤ i.seq) && decide (i.seq < c.next + 512) && (c.next != i.seq || !(nonRevocable c)) &&
    !(c.rob.any (fun e => e.seq == i.seq))

/-- An instruction that must wait stands in its reservation station, if a cluster's 48 entries leave room (R81, R82). -/
def toStation (i : Ins) (k : Cluster) (s : State) : State :=
  let c := s.core i.pcn
  if mayRun s i && !(c.rs.any (fun e => e.1 == i.seq)) && decide (c.rsCount k < 48) then s.setCore i.pcn { c with rs := c.rs ++ [(i.seq, k)] }
  else s

/-- Every store older than place `n` has committed (R88). -/
def sbEmpty (c : Core) (n : Nat) : Bool := !(c.sb.any (fun b => decide (b.seq < n)))

/-- Where a poisoned load consumes: the lower half goes first (R94, R118). -/
def RobEnt.badPa (e : RobEnt) : Nat := match e.lo with | some (_, false) => if e.n1 < e.size then e.pa2 else e.pa | _ => e.pa

/-- Retire the head of the reorder buffer as long as it is done (R94, R98). A load of poisoned data takes MCHECK_LOAD instead
(R117, R341). What QUIET deferred for a load waits for SHADOW_RELEASE. -/
def retireLoop (p : Nat) : Nat → State → State
  | 0, s => s
  | n + 1, s =>
    let c := s.core p
    match c.rob.find? (fun e => e.seq == c.next && e.done) with
    | none => s
    | some e =>
      if e.poisoned then takeMcheck p 0x19 e.badPa e.pc s
      else if e.isLoad then
        let a : PAcc := { lvl := e.lvl, lid := e.lid, va := some e.va.toNat, pa := some e.pa, ty := some e.ty }
        let s := bump p 5 1 a (if e.src = 0 then s else bump p (79 + e.src) 1 a s)
        let s := if e.src = 1 ∨ e.src = 2 ∨ e.src = 0 then s
          else bump p (96 + latBucket ((s.tick - e.tick) * freq100 s p)) 1 a s
        let s := s.modCore p (fun c => { c.putDst e.dst e.size e.signed e.val with late := if e.held then c.late ++ [e] else c.late })
        retireLoop p n (retireOne p e 0 (16 * b2n e.held + 64 * b2n e.waitFwd) s)
      else if let some b := e.branch then
        let a : PAcc := { lvl := e.lvl, lid := e.lid }
        let s := bump p 3 1 a (if b.mis then bump p 4 1 a s else s)
        retireLoop p n (retireOne p e 2 (4 * b2n b.mis + 8 * b2n b.taken) s)
      else if !e.isStore then retireLoop p n (retireOne p e 3 0 s)
      else
        let a : PAcc := { lvl := e.lvl, lid := e.lid, va := some e.va.toNat, pa := some e.pa, ty := some e.ty }
        let s := bump p 6 1 a s
        let s := s.modCore p (fun c => { c with sb := c.sb.map (fun b => if b.seq = e.seq then { b with retired := true } else b) })
        retireLoop p n (retireOne p e 1 0 s)

def retireAll (p : Nat) (s : State) : State := retireLoop p ((s.core p).rob.length) s

/-- The oldest instruction completes without a place in the reorder buffer. -/
def complete (i : Ins) (kind : Nat) (s : State) : State :=
  let c := s.core i.pcn
  let (tag, s) := dispatch i kind (pNow s i.pcn) s
  let e := { robOf i c.lvl c.lidNow s.tick with tagged := tag, done := true, uops := uopsOf i.bits (c.csr' 0xC21) }
  retireAll i.pcn (retireOne i.pcn e (if kind = 0 then 3 else kind) 0 s)

/-- Re-execute loads younger than `n` that bound a value and whose line was snooped away since (R138, R149,
R152). -/
def replaySnooped (p n : Nat) (s : State) : State :=
  match ((s.core p).rob.filter (fun e => decide (n < e.seq) && e.isLoad && e.done && e.snooped)).map (·.seq) with
  | [] => s
  | q :: l => flushFrom p (l.foldl min q) s

/-! ## System registers (R109 to R115, R120, R131, R157, R173) -/

/-- Whether R110 lists a number. -/
def csrExists (n : Nat) : Bool :=
  [0x001, 0x002, 0x003, 0x008, 0x009, 0x00A, 0x00F, 0xC00, 0xC01, 0xC02, 0xC20, 0xC21, 0xC22].contains n ||
  (decide (0x5C0 ≤ n) && decide (n ≤ 0x5D3) && n != 0x5C9 && n != 0x5CF) ||
  (decide (0xDC0 ≤ n) && decide (n ≤ 0xDC4)) ||
  (decide (0x6C0 ≤ n) && decide (n ≤ 0x6D5)) || (decide (0xEC0 ≤ n) && decide (n ≤ 0xEC4)) ||
  (decide (0x7C0 ≤ n) && decide (n ≤ 0x7CF) && n != 0x7C9 && n != 0x7CA) || n == 0x7D1 || n == 0xFC0

/-- Numbers whose write raises ILLEGAL (R109). KIP, HIP and MIP are RO by R112 but stand outside this range: a write of them is
ignored (R3). -/
def csrRo (n : Nat) : Bool := n / 1024 == 3

/-- A counter read is permitted at a level (R115). -/
def counterOk (c : Core) (bit : Nat) : Bool :=
  match c.lvl with
  | .m => true
  | .h => c.csrF 0x7CB bit bit == 1
  | .k => c.csrF 0x7CB bit bit == 1 && c.csrF 0x6CB bit bit == 1
  | .u => c.csrF 0x7CB bit bit == 1 && c.csrF 0x6CB bit bit == 1 && c.csrF 0x5CB bit bit == 1

/-- Whether an access at the current level is permitted (R109). The standard's numbers 0xC00 to 0xC22 and
fcsr, vcsr have bits [9:8] = 0. -/
def csrPermitted (c : Core) (n : Nat) (write : Bool) : Bool :=
  csrExists n && decide ((n / 256) % 4 ≤ c.lvl.num) && !(write && csrRo n) &&
  (!(decide (0xC00 ≤ n) && decide (n ≤ 0xC02)) || counterOk c (n - 0xC00))

/-- The value a read returns. -/
def csrRead (s : State) (p n : Nat) : Word :=
  let c := s.core p
  if n = 0x001 then BitVec.ofNat 64 (c.csrF 0x003 4 0)
  else if n = 0x002 then BitVec.ofNat 64 (c.csrF 0x003 7 5)
  else if n = 0x009 then BitVec.ofNat 64 (c.csrF 0x00F 0 0)
  else if n = 0x00A then BitVec.ofNat 64 (c.csrF 0x00F 2 1)
  else if n = 0xC00 then BitVec.ofNat 64 (cycleNow s p)
  else if n = 0xC01 then BitVec.ofNat 64 (timeNow s)
  else if n = 0x5C2 then BitVec.ofNat 64 (ipBits s p .k)
  else if n = 0x6C2 then BitVec.ofNat 64 (ipBits s p .h)
  else if n = 0x7C2 then BitVec.ofNat 64 (ipBits s p .m)
  else if n = 0xDC3 then BitVec.ofNat 64 (c.csrF 0x6D2 15 0)
  else if n = 0xEC2 then c.hhart
  else if n = 0xEC4 then s.rd (.core p) Off.WAKE_SRC
  else if n = 0x5CE ∨ n = 0x6CE ∨ n = 0x7CE then 0
  else c.csr' n

/-- Keep the field when the new value is a reserved encoding (R5). -/
def legalF (old new : Word) (hi lo : Nat) (ok : Nat → Bool) : Word :=
  if ok (fld new hi lo) then new else setFld new hi lo (fld old hi lo)

/-- The value a write leaves, by register; bits outside the fields read 0 (R4). -/
def csrStored (c : Core) (n : Nat) (v : Word) : Word :=
  let old := c.csr' n
  let keep := fun (m : Nat) => v &&& BitVec.ofNat 64 m
  if n = 0x5C2 ∨ n = 0x6C2 ∨ n = 0x7C2 then old
  else if n = 0x003 then keep 0xFF
  else if n = 0x008 then keep 0xFF
  else if n = 0x00F then keep 0x7
  else if n = 0x5C0 ∨ n = 0x6C0 ∨ n = 0x7C0 then
    let l := (n - 0x5C0) / 256 + 1
    let m := if l = 1 then 0x7FF else if l = 2 then 0x1BFF else 0x3FF
    let v := legalF old (legalF old (keep m) 3 2 (fun x => decide (x ≤ l))) 9 8 (fun x => decide (x ≤ l))
    if c.lvl.num = l then setFld v 5 5 (fld old 5 5) else v
  else if n = 0x5C1 ∨ n = 0x7C1 then keep 0xF
  else if n = 0x6C1 then keep 0x1F
  else if n = 0x5C3 ∨ n = 0x6C3 ∨ n = 0x7C3 then keep (2 ^ 64 - 4096)
  else if n = 0x5C6 ∨ n = 0x6C6 ∨ n = 0x7C6 then keep (2 ^ 63 + 2 ^ 62 + 2 ^ 61 + 255)
  else if n = 0x5CA ∨ n = 0x6CA ∨ n = 0x6D2 then keep 0xFFFF
  else if n = 0x5CB ∨ n = 0x6CB ∨ n = 0x7CB then keep 7
  else if n = 0x6CF then keep (0xFFFFFFFF - 0x10000 - 0xF00000 - 0x7000000)
  else if n = 0x7CF then keep (0xFFFFFFFF - 0x10000 - 0xF00000)
  else if n = 0x6D0 then keep 0x1FF
  else if n = 0x6D1 then legalF old (keep 0xFFFFFFFF1FFF) 12 0 (fun x => decide (x ≤ 4096))
  else if n = 0x6D3 then
    (if c.lvl = .h ∧ (fld v 1 0 = 3 ∨ fld old 1 0 = 3) then old else keep 3)
  else if n = 0x6D4 then
    legalF old (keep 3) 1 0 (fun x => decide (x < 2) || (x == 2 && c.lvl == .m))
  else if n = 0x6D5 then legalF old (keep 7) 1 0 (fun x => decide (x < 3))
  else if n = 0x5D0 then legalF old (keep (2 ^ 64 - 1 - 0xE00)) 5 0 (fun x => decide (12 ≤ x) && decide (x ≤ 46))
  else if n = 0x5D1 then legalF old (keep 0x1FFFFFFFFFFF0FF) 5 4 (fun x => decide (x < 3))
  else if n = 0x5D2 then keep 0xFFFFFFFFFFF9
  else if n = 0x5D3 then keep 0xFFFF9F1FFFFFFFFF
  else if n = 0x7D1 then keep 0xFFFFFFFFF001
  else v

/-- Write a system register: the stored value, and what the write itself does. -/
def csrWrite (p n : Nat) (v : Word) (s : State) : State :=
  let c := s.core p
  if n = 0x001 then s.setCore p (c.setCsrF 0x003 4 0 (fld v 4 0))
  else if n = 0x002 then s.setCore p (c.setCsrF 0x003 7 5 (fld v 2 0))
  else if n = 0x009 then s.setCore p (c.setCsrF 0x00F 0 0 (fld v 0 0))
  else if n = 0x00A then s.setCore p (c.setCsrF 0x00F 2 1 (fld v 1 0))
  else
    let s' := s.setCore p (c.setCsr n (csrStored c n v))
    -- FLUSH_CTX: a change of the current ASID or LID (R102), read as a change of the registers that hold them: entering or
    -- leaving the guest by a trap or TRET is FLUSH_LEVEL's occasion (DEDUCED, log entry 12)
    if (n = KASID ∨ n = HASID ∨ n = HLID) ∧ csrStored c n v ≠ c.csr' n ∧ s.rf (.core p) Off.PRED_CTL 1 1 = 1 then predFlush p s' else s'

/-- The cause and level codes of WAKE_SRC (R132). -/
def wakeCode : Lvl × Nat → Nat × Nat
  | (l, c) => ((match c with | 0 => 1 | 1 => 2 | 2 => 3 | 3 => 4 | _ => 5), l.num)

/-- A core wakes (R101): the record, the retirement of WAIT, and the interrupt if it can be taken. -/
def wakeCore (p cause lvl st : Nat) (abandoned : Bool) (s : State) : State :=
  let n := (s.rf (.core p) Off.WAKE_SRC 31 16 + 1) % 65536
  let s := s.wr (.core p) Off.WAKE_SRC (BitVec.ofNat 64 (cause + lvl <<< 4 + st <<< 6 + (b2n abandoned) <<< 8 + n <<< 16))
  let c := s.core p
  let s := s.setCore p { c with
    sleep := .awake, cycBase := cycleNow s p, cycFrom := s.tick, stall := none }
  -- the window of a parked core was off
  let s := if st = 2 ∧ !abandoned then refreshCore p s else s
  let s := if st ≠ 0 ∧ !abandoned then predFlush p s else s
  match c.stall with
  | some i => takeIntr p (complete i 0 s)
  | none => s

/-! ## An aborted Den entry (R530, R535) -/

/-- A core counts as parked: in PARK with its lines gone, powered off, or dead. -/
def coreParked (s : State) (p : Nat) : Bool :=
  let c := s.core p
  c.dead || !c.on || (c.sleep == .asleep 2 && c.wbb.isEmpty)

/-- Every core counts as parked. -/
def allParked (s : State) : Bool := s.cores.all (fun (e : Nat × Core) => coreParked s e.1)

/-- Release every parked core as a Den exit does, in ascending PCN order (R101, CAUSE 6). -/
def releaseParked (s : State) : State :=
  (s.cores.map (·.1)).foldl (fun s p =>
    let c := s.core p
    if c.on && !c.dead && c.sleep == .asleep 2 then wakeCore p 6 0 2 false s else s) s

/-- Lowest hart ID in service whose core is not parked; 0xFFFF for none. -/
def lowestAwake (s : State) : Nat :=
  match s.org.coreMap.filter (fun (e : Nat × Nat) => !coreParked s e.2) with
  | [] => 0xFFFF
  | a :: l => l.foldl (fun m (e : Nat × Nat) => min m e.1) a.1

/-- Den entry is aborted in the park window or in phase B (R535). -/
def denAbort (cause : Nat) (s : State) : State :=
  let h := lowestAwake s
  let s := releaseParked { s with pwr := { s.pwr with den := .awake, wake := none } }
  emit [0, 1, 2] 0x0782 0 0 (leBytes 1 cause ++ leBytes 2 h) s

/-- RECOVERY begins, or RETUNE starts: an open park window is aborted. -/
def denUpset (s : State) : State := match s.pwr.den with | .armed _ => denAbort 3 s | _ => s

end Sys2Proof.Machine
end

