-- ==== Sys2Proof/Machine/PCache.lean ====
section
/-! DEFINITION. The private caches of a core (chapter 07): installs, evictions, snoops, prefetches, worn ways. -/
namespace Sys2Proof.Machine

/-! ## Agents declared dead (R290, steps 2 and 3) -/

def State.hubDead (s : State) (a : Nat) : Bool := bitOf (s.rd .bchub (Off.DEAD_SET + 8 * (a / 64))) (a % 64)

/-- Broadcasts that await the agent count its acknowledgement as lost (R164). -/
def loseAcks (a : Nat) (s : State) : State :=
  { s with fab := { s.fab with hub := { s.fab.hub with
      bcasts := s.fab.hub.bcasts.map (fun b =>
        if b.admitted && (b.waits.contains a || b.acked.contains a) then
          { b with waits := b.waits.filter (· != a), acked := b.acked.filter (· != a), lost := b.lost + 1 } else b) } } }

/-- BCHUB takes a declaration, which checker `ck` led to: the dead set, RECOVERY, the Owl event, and DEAD to every stop. -/
def hubDeclareBy (ck a : Nat) (s : State) : State :=
  if s.hubDead a then s else
  let s := s.wf .bchub (Off.DEAD_SET + 8 * (a / 64)) (a % 64) (a % 64) 1
  let s := ((s.wf .bchub Off.RECOVERY 0 0 1).wf .bchub Off.RECOVERY 9 1 a).wf .bchub Off.RECOVERY 17 10
    (min 136 (s.rf .bchub Off.RECOVERY 17 10 + 136))
  let s := denUpset (setMode 6 true s)
  let s := { s with fab := { s.fab with hub := { s.fab.hub with
      deads := s.fab.hub.deads ++ [(a, List.range 170)],
      sweeps := s.fab.hub.sweeps ++ [(a, List.range 136)] } } }
  -- DEFERRED (DEDUCED from R484): poison is created and capacity is lost, nothing is consumed yet
  loseAcks a (report ((Blk.bchub).inst) 10 1 ck 0 0 a 0 s)

/-- A declaration after a timeout (R289). -/
def hubDeclare (a : Nat) (s : State) : State := hubDeclareBy 22 a s

/-! ## Looking lines up -/

def corePart (p : Nat) : Nat := 4 + p % 2
def repCore (p cls sev checker line index : Nat) (s : State) : State :=
  report ((Blk.core p).inst) cls sev checker line index p 0 s

def l2Set (ln : Nat) : Nat := ln % 2048
def l1Set (ln : Nat) : Nat := ln % 128

/-- Ways of the L2 in service (L2_WAYCFG.INSERV), and those that take fills. -/
def l2Ways (s : State) (p : Nat) : List Nat := (List.range 17).filter (fun w => bitOf (s.rd (.core p) Off.L2_WAYCFG) w)
def l2FillWays (s : State) (p : Nat) : List Nat :=
  (l2Ways s p).filter (fun w => match (s.core p).sweep with | some (x, _) => w != x | none => true)

/-! ## Worn ways (R218 to R220) -/

/-- WAYERR of a way after one more correction at second `sec`, with `n` in its window. -/
def wayErrWord (w : Word) (n sec : Nat) : Word :=
  setFld (setFld (setFld w 4 0 (min 16 n)) 31 8 (min 0xFFFFFF (fld w 31 8 + 1))) 63 32 sec

def l2SweepStart (p w : Nat) (steps : Bool) (s : State) : State :=
  let s := s.modCore p (fun c => { c with sweep := some (w, steps) })
  (s.wf (.core p) Off.L2_STATUS 0 0 1).wf (.core p) Off.L2_STATUS 5 1 w

/-- A crossing of THRESH: a disable, its turn behind a running sweep, or a refusal at the floor of 12 ways. -/
def l2Crossing (p w : Nat) (s : State) : State :=
  if (l2Ways s p).length ≤ 12 then repCore p 4 1 23 0 w (s.wf (.core p) Off.L2_STATUS 7 7 1)
  else if (s.core p).sweep.isSome then s.modCore p (fun c => { c with sweepWait := c.sweepWait ++ [w] })
  else l2SweepStart p w true s

/-- A correction in way `w` of the L2. -/
def l2Correct (p w : Nat) (s : State) : State :=
  let sec := s.settTime / 1000000
  let win := s.rf (.core p) Off.L2_WDCFG 35 16
  let c := s.core p
  let h := c.wayHist.filter (fun e => decide (sec < e.2 + win)) ++ [(w, sec)]
  let n := (h.filter (fun e => e.1 == w)).length
  let s := s.setCore p { c with wayHist := h }
  let s := s.wr (.core p) (Off.L2_WAYERR + 8 * w) (wayErrWord (s.rd (.core p) (Off.L2_WAYERR + 8 * w)) n sec)
  let s := bump p 63 1 (pNow s p) s
  if n = s.rf (.core p) Off.L2_WDCFG 12 8 ∧ s.rf (.core p) Off.L2_WDCFG 0 0 = 1 ∧ (l2Ways s p).contains w then l2Crossing p w s else s

/-! ## Check codes of the L2 and L1D (R204, R335) -/

/-- Read a line of the L2 through its checkers. A tag error that cannot be corrected makes the core dead. -/
def l2Check (p ln : Nat) (s : State) : State :=
  match smFind (s.core p).l2 ln with
  | none => s
  | some e =>
    let st := coreStop p
    let (rt, s) := eccRead st (corePart p) 7 ln s
    let s := match rt with
      | .clean => s
      | .uncorr => hubDeclareBy 0 p (repCore p 3 3 7 ln e.way s)
      | _ => l2Correct p e.way (repCore p 3 0 7 ln e.way s)
    let (r, s) := eccRead st (corePart p) 6 ln s
    if r = .clean then s else
    let (d, po) := eccData r e.data e.poison
    let s := s.modCore p (fun c => { c with l2 := smPut c.l2 ln { e with data := d, poison := po } })
    if r = .uncorr then repCore p 3 1 6 ln e.way s else l2Correct p e.way (repCore p 3 0 6 ln e.way s)

/-- Read a line of the L1D through its checkers. -/
def l1dCheck (p ln : Nat) (s : State) : State :=
  match smFind (s.core p).l2 ln with
  | none => s
  | some e =>
    let st := coreStop p
    let (rt, s) := eccRead st (corePart p) 5 ln s
    let s := match rt with
      | .clean => s
      | .uncorr => hubDeclareBy 0 p (repCore p 3 3 5 ln e.way s)
      | _ => repCore p 3 0 5 ln e.way s
    let (r, s) := eccRead st (corePart p) 4 ln s
    if r = .clean then s else
    let (d, po) := eccData r e.cur e.poison
    let s := s.modCore p (fun c => { c with l2 := smPut c.l2 ln { e with
      l1d := e.l1d.map (fun k => { k with data := d }), poison := po } })
    repCore p 3 (if r = .uncorr then 1 else 0) 4 ln e.way s

/-! ## Evictions (R205, R213) -/

/-- A tracked near AMO's line leaves by capacity: its entry ends without training (R156). -/
def untrack (p ln : Nat) (s : State) : State :=
  s.modCore p (fun c => { c with tracks := c.tracks.filter (fun t => t.line != ln) })

/-- The reserved line leaves the L1D (R160). -/
def leaveL1d (p ln : Nat) (s : State) : State := if (s.core p).resv = some ln then clearResv p s else s

/-- Put an evicted line into the writeback buffer and tell the home (EvD or EvC). -/
def toWbb (p ln : Nat) (dirty : Bool) (d : Line) (po : Bool) (s : State) : State :=
  let st := coreStop p
  let s := eccWrite st (corePart p) 9 ln s
  -- the buffer is read as its data leaves
  let (r, s) := if dirty then eccRead st (corePart p) 9 ln s else (.clean, s)
  let (d, po) := eccData r d po
  let s := if r = .clean then s else repCore p 3 (if r = .uncorr then 1 else 0) 9 ln 0 s
  let s := s.modCore p (fun c => { c with wbb := c.wbb ++ [⟨ln, dirty, d, po⟩] })
  let s := bump p (if dirty then 57 else 56) 1 (pNow s p) s
  let m := coreMsg s p (s.core p).lidNow ln
  post (if dirty then 0x09 else 0x08) (if dirty then { m with data := d, poison := po } else m) s

/-- A line is read in the L1D, if it holds the newest data, or in the L2, through its checkers (R204). -/
def lineCheck (p ln : Nat) (s : State) : State :=
  match smFind (s.core p).l2 ln with
  | some e => (match e.l1d with | some k => if k.m then l1dCheck p ln s else l2Check p ln s | none => l2Check p ln s)
  | none => s

/-- The writeback buffer has a free entry (R214). -/
def wbbRoom (c : Core) : Bool := decide (c.wbb.length < 16)

/-- Evict a line of the L2: both L1s lose it first, and the L1D's data goes with it. Precondition: the writeback buffer has a
free entry. -/
def evictL2 (p ln : Nat) (s : State) : State :=
  let s := lineCheck p ln s
  let c := s.core p
  match smFind c.l2 ln with
  | none => s
  | some e =>
    let s := leaveL1d p ln (untrack p ln s)
    let s := s.modCore p (fun c => { c with l2 := smDel c.l2 ln })
    toWbb p ln (e.st == .m) e.cur e.poison s

/-- Remove the copy from the L1D: its data joins the L2's. -/
def dropL1d (p ln : Nat) (s : State) : State :=
  let s := match (smFind (s.core p).l2 ln).bind (·.l1d) with | some k => if k.m then l1dCheck p ln s else s | none => s
  let c := s.core p
  match smFind c.l2 ln with
  | none => s
  | some e => leaveL1d p ln (s.setCore p { c with l2 := smPut c.l2 ln { e with data := e.cur, l1d := none } })

def dropL1i (p ln : Nat) (s : State) : State :=
  s.modCore p (fun c => match smFind c.l2 ln with
    | none => c
    | some e => { c with l2 := smPut c.l2 ln { e with l1i := none } })

/-- Lines of an L1 set with their ways. -/
def l1dHeld (c : Core) (set : Nat) : List (Nat × Nat) :=
  (c.l2.filter (fun e => l1Set e.1 == set)).filterMap (fun e => e.2.l1d.map (fun k => (e.1, k.way)))
def l1iHeld (c : Core) (set : Nat) : List (Nat × Nat) :=
  (c.l2.filter (fun e => l1Set e.1 == set)).filterMap (fun e => e.2.l1i.map (fun k => (e.1, k.way)))

def touchD (p ln way : Nat) (s : State) : State :=
  s.modCore p (fun c => { c with plruD := smSet (fun _ => 0) c.plruD (l1Set ln) (plruTouch 3 1 way (smGet (fun _ => 0) c.plruD (l1Set ln))) })
def touchI (p ln way : Nat) (s : State) : State :=
  s.modCore p (fun c => { c with plruI := smSet (fun _ => 0) c.plruI (l1Set ln) (plruTouch 3 1 way (smGet (fun _ => 0) c.plruI (l1Set ln))) })
/-- The L2's tree has a leaf for each way in service, in order of its number. -/
def touch2 (p ln way : Nat) (s : State) : State :=
  let leaf := (l2Ways s p).idxOf way
  s.modCore p (fun c => { c with plru2 := smSet (fun _ => 0) c.plru2 (l2Set ln) (plruTouch 4 1 leaf (smGet (fun _ => 0) c.plru2 (l2Set ln))) })

/-- Fill the L1D from the L2. -/
def fillL1d (p ln : Nat) (s : State) : State :=
  let held := l1dHeld (s.core p) (l1Set ln)
  if held.any (fun h => h.1 == ln) then s else
  let way := match (List.range 8).find? (fun w => !(held.any (fun h => h.2 == w))) with
    | some w => w
    | none => plruVictim (fun _ => true) 3 1 0 (smGet (fun _ => 0) (s.core p).plruD (l1Set ln))
  let s := match held.find? (fun h => h.2 == way) with | some h => dropL1d p h.1 s | none => s
  let s := eccWrite (coreStop p) (corePart p) 5 ln (eccWrite (coreStop p) (corePart p) 4 ln (l2Check p ln s))
  let c := s.core p
  match smFind c.l2 ln with
  | some e => touchD p ln way (s.setCore p { c with l2 := smPut c.l2 ln { e with l1d := some ⟨way, e.data, false⟩ } })
  | none => s

/-- Fill the L1I from the L2, which takes the L1D's data for a line held there in M (R217). -/
def fillL1i (p ln : Nat) (s : State) : State :=
  let held := l1iHeld (s.core p) (l1Set ln)
  if held.any (fun h => h.1 == ln) then s else
  let way := match (List.range 8).find? (fun w => !(held.any (fun h => h.2 == w))) with
    | some w => w
    | none => plruVictim (fun _ => true) 3 1 0 (smGet (fun _ => 0) (s.core p).plruI (l1Set ln))
  let s := match held.find? (fun h => h.2 == way) with | some h => dropL1i p h.1 s | none => s
  let s := eccWrite (coreStop p) (corePart p) 3 ln (lineCheck p ln s)
  let c := s.core p
  match smFind c.l2 ln with
  | some e => touchI p ln way (s.setCore p { c with l2 := smPut c.l2 ln { e with l1i := some ⟨way, e.cur, false⟩ } })
  | none => s

/-- The way of the L2 that a fill takes: the lowest empty one, else the tree's victim. -/
def l2Way (s : State) (p ln : Nat) : Nat × Option Nat :=
  let ways := l2FillWays s p
  let c := s.core p
  let held := (c.l2.filter (fun e => l2Set e.1 == l2Set ln)).map (fun e => (e.1, e.2.way))
  match ways.find? (fun w => !(held.any (fun h => h.2 == w))) with
  | some w => (w, none)
  | none =>
    let all := l2Ways s p
    let leaf := plruVictim (fun i => match all[i]? with | some w => ways.contains w | none => false) 4 1 0
      (smGet (fun _ => 0) c.plru2 (l2Set ln))
    let w := all.getD leaf 0
    (w, (held.find? (fun h => h.2 == w)).map (·.1))

/-- Whether the L2 can take a line now: no victim is needed, or the writeback buffer has room (R214). -/
def l2Room (s : State) (p ln : Nat) : Bool := ((l2Way s p ln).2.isNone || wbbRoom (s.core p)) && !(l2FillWays s p).isEmpty

/-- Install a line in the L2. -/
def installL2 (p ln : Nat) (st : CSt) (d : Line) (po : Bool) (s : State) : State :=
  let (w, v) := l2Way s p ln
  let s := match v with | some x => evictL2 p x s | none => s
  let s := eccWrite (coreStop p) (corePart p) 6 ln s
  let s := eccWrite (coreStop p) (corePart p) 7 ln s
  touch2 p ln w (s.modCore p (fun c => { c with l2 := smPut c.l2 ln ⟨st, w, d, po, none, none⟩ }))

/-! ## Binding loads (R85, R89, R93) -/

/-- Lines that [a, a + n) touches. -/
def linesOf (a n : Nat) : List Nat := (List.range ((a + (max n 1) - 1) / 64 - a / 64 + 1)).map (fun i => a / 64 + i)

/-- The pieces of an access, one for each line it touches. -/
def RobEnt.pieces (e : RobEnt) : List (Nat × Nat) :=
  if e.n1 < e.size then [(e.pa, e.n1), (e.pa2, e.size - e.n1)] else [(e.pa, e.size)]
def RobEnt.lines (e : RobEnt) : List Nat := e.pieces.flatMap (fun x => linesOf x.1 x.2)

/-- Two accesses share a byte. -/
def overlaps (a b : List (Nat × Nat)) : Bool :=
  a.any (fun x => b.any (fun y => decide (x.1 < y.1 + y.2) && decide (y.1 < x.1 + x.2)))

/-- Stores older than `seq` still in the store buffer that share a byte with an access. -/
def olderOverlap (c : Core) (seq : Nat) (ps : List (Nat × Nat)) : List SbEnt :=
  c.sb.filter (fun b => decide (b.seq < seq) && overlaps [(b.pa, b.bytes.length)] ps)

/-- The store buffer entry a load takes its data from (R89). -/
def forwardFrom (c : Core) (e : RobEnt) : Option SbEnt :=
  match (olderOverlap c e.seq e.pieces).getLast? with
  | some b => if b.fwd && decide (e.n1 = e.size) && decide (b.pa ≤ e.pa) && decide (e.pa + e.size ≤ b.pa + b.bytes.length) then some b else none
  | none => none

/-- A load with its data from an older store in the buffer. -/
def RobEnt.forwarded (e : RobEnt) (b : SbEnt) : RobEnt :=
  { e with done := true, val := BitVec.ofNat 64 (leNat ((b.bytes.drop (e.pa - b.pa)).take e.size)), src := 2, fwdFrom := some b.seq }

/-- What one half of a load reads in the cache: its value and poison, if the core holds the line. -/
def readHalf (c : Core) (a n : Nat) : Option (Nat × Bool) := (smFind c.l2 (a / 64)).map (fun e => (lineNat e.cur (a % 64) n, e.poison))

/-- A load with what its halves can read now; each half reads its line once (R93). `src`: the data source of R558. -/
def RobEnt.bound (c : Core) (src : Nat) (e : RobEnt) : RobEnt :=
  let lo := e.lo.orElse (fun _ => readHalf c e.pa e.n1)
  let hi := if e.n1 < e.size then e.hi.orElse (fun _ => readHalf c e.pa2 (e.size - e.n1)) else some (0, false)
  match lo, hi with
  | some (v, x), some (w, y) =>
    { e with lo := lo, hi := hi, done := true, val := BitVec.ofNat 64 (v + w <<< (8 * e.n1)), poisoned := x || y, src := if x || y then 11 else src }
  | _, _ => { e with lo := lo, hi := hi }

/-- The dependants of a load that missed or waited issue again (R84). How many had issued the rows do not show: the count is
free, at most the entries of four clusters. -/
def reissued (p : Nat) (s : State) : State :=
  { s with ocr := (bump p 20 ((Config.freeWord s.freeIdx).toNat % 193) (pNow s p) s).ocr, freeIdx := s.freeIdx + 1 }

/-- A waiting load looks again: it takes a store's data, waits for stores that overlap it, or reads the lines the core
holds. -/
def tryBind (p seq src : Nat) (s : State) : State :=
  let c := s.core p
  match c.rob.find? (fun e => e.seq == seq && e.isLoad && !e.done) with
  | none => s
  | some e =>
    let e' := if (olderOverlap c seq e.pieces).isEmpty then e.bound c src
      else match forwardFrom c e with | some b => e.forwarded b | none => { e with waitFwd := true }
    let s := s.setCore p { c with rob := updFirst (fun x => x.seq == seq) (fun _ => e') c.rob }
    if !e'.done then s else
    let s := if src = 1 ∧ !e.waitFwd then s else reissued p s
    -- a younger load of the same bytes that bound before and was snooped away is re-executed (R85)
    match (c.rob.filter (fun y => decide (seq < y.seq) && y.isLoad && y.done && y.snooped && overlaps y.pieces e.pieces)).map (·.seq) with
    | [] => s
    | q :: r => bump p 18 1 (pNow s p) (flushFrom p (r.foldl min q) s)

/-! ## Prefetching (R211) -/

/-- Issue a prefetch of a line: read, or ownership for prefetch.w. -/
def issuePrefetch (p ln : Nat) (own : Bool) (s : State) : State :=
  let c := s.core p
  if (smFind c.l2 ln).isSome ∨ c.side.any (fun e => e.line == ln) ∨ c.wbb.any (fun e => e.line == ln) ∨
      c.mrs.any (fun r => r.line == ln) ∨ s.isNormal (ln * 64) = false then s
  else if l2Free c true then
    let t := c.nextTxn
    bump p 53 1 (pNow s p) (sendMr p t (if own then 0x02 else 0x01) c.lidNow (addMr p (newMr .prefetch ln) s))
  else bump p 54 1 (pNow s p) s

def samePage (a b : Nat) : Bool := a / 4096 == b / 4096

/-- The stride prefetcher sees a load at `pc` of address `a`. That the 64 entries are fully associative by the full PC, the least
recently used one leaving, and that "one line ahead of the stride" is the line of the address plus one stride, are the model's
choice (log entry 15). -/
def strideSee (p : Nat) (pc : Word) (a : Nat) (s : State) : State :=
  if s.rf (.core p) Off.PF_CTL 0 0 = 0 then s else
  let c := s.core p
  match c.strides.find? (fun e => e.1 == pc) with
  | none => s.setCore p { c with strides := ((pc, a, (0 : Int), 0) :: c.strides).take 64 }
  | some (_, last, st, n) =>
    let d : Int := (a : Int) - (last : Int)
    let k := if d = st ∧ d ≠ 0 then n + 1 else if d = 0 then 0 else 1
    let s := s.setCore p { c with strides := ((pc, a, d, k) :: c.strides.filter (fun e => e.1 != pc)).take 64 }
    let t := (a : Int) + d
    if 2 ≤ k ∧ 0 ≤ t ∧ samePage t.toNat a then issuePrefetch p (t.toNat / 64) false s else s

/-- The stream prefetcher sees an L2 miss of a line: the next line up or down of a tracked stream advances it, and any other
starts a stream whose direction its next miss gives. Up to DIST lines ahead are asked for. What starts and advances one of the 16
streams, and that the least recently advanced one goes, is log entry 15. -/
def streamSee (p ln : Nat) (s : State) : State :=
  if s.rf (.core p) Off.PF_CTL 1 1 = 0 then s else
  let c := s.core p
  let up := fun (e : Nat × Option Bool) => e.1 + 1 == ln && e.2 != some false
  let down := fun (e : Nat × Option Bool) => e.1 == ln + 1 && e.2 != some true
  match c.streams.find? (fun e => up e || down e) with
  | none => if c.streams.any (fun e => e.1 == ln) then s else s.setCore p { c with streams := ((ln, none) :: c.streams).take 16 }
  | some e =>
    let s := s.setCore p { c with streams := (ln, some (up e)) :: delFirst (· == e) c.streams }
    (List.range (s.rf (.core p) Off.PF_CTL 11 8)).foldl (fun s i =>
      let t := if up e then ln + 1 + i else ln - 1 - i
      if samePage (t * 64) (ln * 64) then issuePrefetch p t false s else s) s

/-- An entry of the side buffer that is in use. -/
def Core.sideAt (c : Core) (ln : Nat) : Option SideEnt := c.side.find? (fun e => e.line == ln && !e.leaving)

/-- A side-buffer entry is dropped: reported as a clean eviction (R212). While the writeback buffer is full the report waits. -/
def dropSide (p ln : Nat) (s : State) : State :=
  let c := s.core p
  match c.sideAt ln with
  | none => s
  | some e =>
    if wbbRoom c then toWbb p ln false e.data e.poison (s.setCore p { c with side := c.side.filter (fun x => x.line != ln) })
    else s.setCore p { c with side := c.side.map (fun x => if x.line = ln then { x with leaving := true } else x) }

/-- An entry whose age window has closed is used no more (R10, R212). -/
def ageSide (p ln : Nat) (s : State) : State :=
  match (s.core p).sideAt ln with
  | some e => if e.due ≤ s.tick then dropSide p ln (bump p 55 1 (pNow s p) s) else s
  | none => s

/-- A prefetch fill finds room: a free entry, or the writeback buffer can take the one that goes. -/
def sideRoom (c : Core) : Bool := decide (c.side.length < 32) || wbbRoom c

/-- Put a prefetch fill into the side buffer; when full, the oldest unused entry goes. -/
def fillSide (p ln : Nat) (ex : Bool) (d : Line) (po : Bool) (s : State) : State :=
  let s := match (s.core p).side.find? (fun e => !e.leaving) with
    | some e => if 32 ≤ (s.core p).side.length then dropSide p e.line s else s
    | none => s
  let due := s.tick + cycTicks s p (2 ^ (s.rf (.core p) Off.PF_CTL 15 12 + 8))
  let s := eccWrite (coreStop p) (corePart p) 8 ln s
  s.modCore p (fun c => { c with side := c.side ++ [{ line := ln, ex := ex, data := d, poison := po, due := due }] })

/-- First use of a side-buffer entry: it moves into the L2. -/
def useSide (p ln : Nat) (s : State) : State :=
  match (s.core p).sideAt ln with
  | none => s
  | some e =>
    let (r, s) := eccRead (coreStop p) (corePart p) 8 ln s
    let (d, po) := eccData r e.data e.poison
    let s := if r = .clean then s else repCore p 3 (if r = .uncorr then 1 else 0) 8 ln 0 s
    let s := s.modCore p (fun c => { c with side := c.side.filter (fun x => x.line != ln) })
    bump p 52 1 (pNow s p) (installL2 p ln (if e.ex then .e else .s) d po s)

/-! ## One cacheable read by a load (R205, R207 to R209) -/

/-- What a lookup of one line for the L1D or L1I comes to. -/
inductive Look
  | hit (src : Nat)
  | miss
  | wait
deriving DecidableEq, Repr

/-- A register that works for a line on behalf of loads, fetches or stores, and has sent its request or will. -/
def MReq.serves (r : MReq) (ln : Nat) : Bool :=
  (r.line == ln) && (r.use == .read || r.use == .prefetch || r.use == .own || r.use == .zero) && !r.isHeld

/-- An L1D or L1I miss register is free (R207): an ownership request holds none. -/
def l1Free (c : Core) (fetch : Bool) : Bool :=
  if fetch then decide ((c.mrs.filter (·.l1i)).length < 4) else decide ((c.mrs.filter (·.l1d)).length < 16)

/-- A line that the L1 holds is read: `none` if an L1I parity error makes it a miss (R204). -/
def hitL1 (p ln : Nat) (fetch quiet : Bool) (s : State) : Bool × State :=
  if fetch then
    let (bad, s) := parityBad (coreStop p) (corePart p) 3 ln s
    if bad then (true, fillL1i p ln (dropL1i p ln (repCore p 3 0 3 ln 0 s)))
    else (false, match (smFind (s.core p).l2 ln).bind (·.l1i) with | some k => touchI p ln k.way s | none => s)
  else
    let s := l1dCheck p ln s
    (false, match (smFind (s.core p).l2 ln).bind (·.l1d) with | some k => if quiet then s else touchD p ln k.way s | none => s)

/-- An L1 miss goes to the L2: its lines, the side buffer, or a request to the home. `ws`: loads that wait for the line. -/
def missL1 (p ln : Nat) (fetch : Bool) (ws : List Nat) (s : State) : Look × State :=
  let a := pNow s p
  let s := bump p 50 1 a s
  let fill := fun (s : State) => if fetch then fillL1i p ln s else fillL1d p ln s
  if (smFind (s.core p).l2 ln).isSome then
    let s := l2Check p ln s
    let s := match smFind (s.core p).l2 ln with | some e => touch2 p ln e.way s | none => s
    (.hit 4, fill s)
  else if ((s.core p).sideAt ln).isSome then
    (if l2Room s p ln then (.hit 3, fill (useSide p ln s)) else (.wait, s))
  else if !l2Free (s.core p) false ∨ !l1Free (s.core p) fetch then (.wait, s)
  else
    let s := bump p 51 1 a s
    let t := (s.core p).nextTxn
    let s := addMr p { newMr .read ln with l1d := !fetch, l1i := fetch, waits := ws, arg := b2n fetch } s
    (.miss, streamSee p ln (sendMr p t 0x01 (s.core p).lidNow s))

/-- Bring a line into the L1D (or L1I), or ask for it on behalf of instruction `seq`. `quiet`: the load is held in the shadow
(R96): it allocates its L1D register and sends nothing. A request for a line that such a register waits for takes its loads
along. -/
def lookLine (p ln seq : Nat) (fetch quiet : Bool) (s : State) : Look × State :=
  let s := ageSide p ln s
  let c := s.core p
  if (match smFind c.l2 ln with | some e => if fetch then e.l1i.isSome else e.l1d.isSome | none => false) then
    let (bad, s) := hitL1 p ln fetch quiet s
    (.hit (if bad then 4 else 1), s)
  else
    let a := pNow s p
    let s := bump p (if fetch then 48 else 49) 1 a s
    match c.mrs.find? (fun r => r.serves ln && (!quiet || r.l1d)) with
    | some r =>
      if (if fetch then !r.l1i else !r.l1d) ∧ !l1Free c fetch then (.wait, s) else
      (.miss, streamSee p ln (setMr p r.txn (fun r => { r with
        waits := if fetch then r.waits else insNat seq r.waits,
        use := if r.use = .prefetch then .read else r.use,
        l1d := r.l1d || !fetch, l1i := r.l1i || fetch }) s))
    | none =>
      if quiet then
        match c.mrs.find? (fun r => r.line == ln && r.isHeld) with
        | some r => (.miss, setMr p r.txn (fun r => { r with waits := insNat seq r.waits }) s)
        | none =>
          if l1Free c false then
            (.miss, addMr p { newMr .read ln with l2 := false, l1d := true, waits := [seq] } (bump p 21 1 a s))
          else (.wait, s)
      else if fetch then missL1 p ln true [] s
      else
        let held := (c.mrs.filter (fun r => r.line == ln && r.isHeld)).flatMap (·.waits)
        let s := s.modCore p (fun c => { c with mrs := c.mrs.filter (fun r => !(r.line == ln && r.isHeld)) })
        missL1 p ln false (insNat seq held) s

/-- Ask for ownership of a line (R87, R208), unless it is on its way. -/
def askOwn (p ln : Nat) (zero : Bool) (s : State) : State :=
  let s := ageSide p ln s
  let c := s.core p
  match c.mrs.find? (fun r => r.serves ln) with
  | some r => if r.use = .own ∨ r.use = .zero then s else setMr p r.txn (fun r => { r with thenOwn := true, use := .read }) s
  | none =>
    let useS := (smFind c.l2 ln).isNone && (c.sideAt ln).isSome
    let s := if useS && l2Room s p ln then fillL1d p ln (useSide p ln s) else s
    match smFind (s.core p).l2 ln with
    | some e =>
      if e.st ≠ .s then (if e.l1d.isSome then s else fillL1d p ln s)
      else if l2Free c false then sendMr p c.nextTxn 0x03 c.lidNow (addMr p (newMr .own ln) s) else s
    | none =>
      if useS ∨ !l2Free c false then s else
      streamSee p ln (sendMr p c.nextTxn (if zero then 0x04 else 0x02) c.lidNow (addMr p (newMr (if zero then .zero else .own) ln) s))

/-- A line as the core's L2 reads it for its own table reads (R181, R199): the line and its poison, or `none` while it is on its
way or nothing may be sent (`quiet`). -/
def l2Read (p ln : Nat) (quiet : Bool) (s : State) : Option (Line × Bool) × State :=
  let s := ageSide p ln s
  let s := if (smFind (s.core p).l2 ln).isNone && ((s.core p).sideAt ln).isSome && l2Room s p ln then useSide p ln s else s
  match smFind (s.core p).l2 ln with
  | some e =>
    let s := touch2 p ln e.way (lineCheck p ln s)
    ((smFind (s.core p).l2 ln).map (fun e => (e.cur, e.poison)), s)
  | none =>
    let c := s.core p
    match c.mrs.find? (fun r => r.serves ln) with
    | some r => (none, setMr p r.txn (fun r => { r with use := if r.use = .prefetch then .read else r.use }) s)
    | none =>
      if quiet ∨ (c.sideAt ln).isSome ∨ !l2Free c false then (none, s)
      else (none, streamSee p ln (sendMr p c.nextTxn 0x01 c.lidNow (addMr p (newMr .read ln) s)))

/-- The line is in the L1D in M or E, so a store or an AMO may act on it. -/
def ownedL1d (c : Core) (ln : Nat) : Bool :=
  match smFind c.l2 ln with | some e => e.st != .s && e.l1d.isSome | none => false

/-- Write bytes into an owned line of the L1D: it becomes M. A write of all 64 bytes clears its poison
(R339). The L1I's copy stays (R203). -/
def writeL1d (p ln o : Nat) (l : List Byte) (s : State) : State :=
  let c := s.core p
  match smFind c.l2 ln with
  | none => s
  | some e =>
    match e.l1d with
    | none => s
    | some k =>
      let d := lineMerge e.cur (placeBytes o l) (placeMask o l.length)
      let s := (if l.length = 64 then eccWrite else eccAdd) (coreStop p) (corePart p) 4 ln s
      s.setCore p { c with l2 := smPut c.l2 ln { e with
        st := .m, poison := e.poison && l.length != 64, l1d := some { k with data := d, m := true } } }

/-! ## Snoops (R276, R281, R287) -/

/-- Near-AMO training: a snoop takes a tracked line out of M or E (R156). -/
def trainUp (p ln : Nat) (s : State) : State := s.modCore p (trainSnoop s.tick ln)

/-- Bound, unretired loads of the line have been overtaken. -/
def markSnooped (p ln : Nat) (s : State) : State :=
  s.modCore p (fun c => { c with rob := c.rob.map (fun e =>
    if e.isLoad && (e.done || e.lo.isSome || e.hi.isSome) && e.lines.contains ln then { e with snooped := true } else e) })

/-- A snoop response, with its data if there is any. -/
def snpReply (m : Msg) (held data dirty wbb lost : Bool) (d : Line) (po : Bool) (s : State) : State :=
  let s := if data then post 0xC2 { m with arg := b2n dirty, data := d, poison := po, mask := 0 } s else s
  post 0x80 { m with arg := b2n held + 2 * b2n data + 4 * b2n dirty + 8 * b2n wbb + 16 * b2n lost, data := 0, poison := false, mask := 0 } s

/-- Whether a core that holds the line in state `e.st` sends its data. OPCODEs: 0x40 SnpS, 0x41 SnpX, 0x42 SnpInv,
0x43 SnpInvNd, 0x44 SnpClean, 0x45 SnpCur. -/
def snoopSends (op : Nat) (e : PLine) : Bool :=
  if op = 0x40 ∨ op = 0x41 then decide (e.st ≠ .s) else if op = 0x43 then false else decide (e.st = .m)

/-- A snoop that takes the line away. -/
def snoopTakes (op : Nat) : Bool := op == 0x41 || op == 0x42 || op == 0x43

/-- What the snoop leaves of a line of the L2: nothing, a copy in S (SnpS), or a clean copy (SnpClean). -/
def afterSnoop (op p ln : Nat) (e : PLine) (s : State) : State :=
  let d := e.cur
  let copy := e.l1d.map (fun k => { k with m := false, data := d })
  let s := if op ≠ 0x44 ∧ op ≠ 0x45 ∧ e.st ≠ .s then trainUp p ln s else s
  if snoopTakes op then
    let s := leaveL1d p ln (markSnooped p ln s)
    s.modCore p (fun c => { c with l2 := smDel c.l2 ln })
  else if op = 0x40 then s.modCore p (fun c => { c with l2 := smPut c.l2 ln { e with st := .s, data := d, l1d := copy } })
  else if op = 0x44 ∧ e.st = .m then s.modCore p (fun c => { c with l2 := smPut c.l2 ln { e with st := .e, data := d, l1d := copy } })
  else s

/-- Counts a snoop at the core, and one that was answered with data. -/
def sawSnoop (p : Nat) (s : State) : State := bump p 58 1 (pNow s p) s
def sentSnoop (p : Nat) (data : Bool) (s : State) : State := if data then bump p 59 1 (pNow s p) s else s

/-- The writeback buffer's copy, once its data has gone to the home. -/
def cleanWbb (p ln : Nat) (s : State) : State :=
  s.modCore p (fun c => { c with wbb := c.wbb.map (fun x => if x.line = ln then { x with dirty := false } else x) })

/-- The core as a snoop of `ln` finds it: a side-buffer line or an LR window whose closing tick has come is past (R10). -/
def snoopAt (p ln : Nat) (s : State) : State :=
  let s := ageSide p ln (sawSnoop p s)
  if (s.core p).lrOpen ∧ (s.core p).lrDue ≤ s.tick then closeLr p s else s

/-- A core answers a snoop. -/
def coreSnoop (op : Nat) (m : Msg) (s : State) : State :=
  let p := m.agent
  let ln := m.line
  let s := snoopAt p ln s
  let c := s.core p
  if c.lrOpen ∧ c.resv = some ln then
    s.setCore p { c with deferred := c.deferred ++ [(op, m)] }
  else match smFind c.l2 ln with
  | some _ =>
    let s := l2Check p ln (l1dCheck p ln s)
    (match smFind (s.core p).l2 ln with
    | none => snpReply m false false false false false 0 false s
    | some e =>
      let data := snoopSends op e
      snpReply m true data (data && decide (e.st = .m)) false false e.cur e.poison (afterSnoop op p ln e (sentSnoop p data s)))
  | none =>
    match c.sideAt ln with
    | some _ =>
      let s := if snoopTakes op then dropSide p ln s
        else if op = 0x40 then s.setCore p { c with side := c.side.map (fun e => if e.line = ln then { e with ex := false } else e) } else s
      snpReply m true false false false false 0 false s
    | none =>
      match c.wbb.find? (fun e => e.line == ln) with
      | some w =>
        let data := w.dirty && op != 0x43
        let s := sentSnoop p data s
        let s := if op = 0x44 ∨ op = 0x45 then s else cleanWbb p ln s
        snpReply m true data (data && w.dirty) true false w.data w.poison s
      | none => snpReply m false false false false false 0 false s

/-! ## Fills (R208, R212, R214) -/

/-- Data source code of R558 of a fill of core `p`: 5 or 6 from the LLC, 7 from an owner, 8 DRAM, 9 Hoard. -/
def fillSrc (p : Nat) (m : Msg) (home : Nat) : Nat :=
  if m.arg / 4 % 2 = 1 then (if coreStop p = tileStop home then 5 else 6)
  else if m.mask = 1 then 7
  else if hoardBase ≤ m.line * 64 then 9 else 8

/-- Install a fill for its miss register and serve what waits on it. Precondition: there is room. -/
def serveFill (p : Nat) (r : MReq) (st : Nat) (d : Line) (po : Bool) (src : Nat) (s : State) : State :=
  let ln := r.line
  let cs := if st = 3 then CSt.m else if st = 2 then CSt.e else CSt.s
  if r.use = .prefetch then fillSide p ln (st != 1) d po (dropMr p r.txn s)
  else
    let s := if (smFind (s.core p).l2 ln).isSome then
        s.modCore p (fun c => { c with l2 := match smFind c.l2 ln with
          | some e => smPut c.l2 ln { e with st := cs, data := d, poison := po, l1d := none }
          | none => c.l2 })
      else installL2 p ln cs d po s
    let s := if r.l1i then fillL1i p ln s else s
    let s := if r.l1d ∨ r.use = .own ∨ r.use = .zero then fillL1d p ln s else s
    let s := r.waits.foldl (fun s q => tryBind p q src s) s
    let s := dropMr p r.txn s
    let s := if r.thenOwn ∧ st = 1 then askOwn p ln false s else s
    retireAll p s

/-- A fill can be installed now (R212, R214). -/
def fillRoom (s : State) (p : Nat) (r : MReq) : Bool :=
  if r.use = .prefetch then sideRoom (s.core p) else (smFind (s.core p).l2 r.line).isSome || l2Room s p r.line

/-- Dropped side-buffer entries that wait for the writeback buffer are reported. -/
def reportSide (p : Nat) (s : State) : State :=
  ((s.core p).side.filter (·.leaving)).foldl (fun s e =>
    if wbbRoom (s.core p) then
      toWbb p e.line false e.data e.poison (s.modCore p (fun c => { c with side := delFirst (fun x => x.line == e.line && x.leaving) c.side }))
    else s) s

/-- Fills that waited for the writeback buffer, oldest first, as far as there is room (R214). -/
def serveWaiting (p : Nat) (s : State) : State :=
  ((s.core p).mrs.filter (fun r => r.got.isSome)).foldl (fun s r =>
    match r.got with
    | some (st, d, po) => if fillRoom s p r then serveFill p r (st % 4) d po (st / 4) s else s
    | none => s) (reportSide p s)

end Sys2Proof.Machine
end

