-- ==== Sys2Proof/Machine/Router.lean ====
section
/-! DEFINITION. Flits and routers (chapter 08): headers, X-then-Y routes, input buffers, arbitration, ejection. -/
namespace Sys2Proof.Machine



/-! ## Agents and routes (R225, R227, R256) -/

/-- Stop of a coherence agent (R256). -/
def agentStop (a : Nat) : Nat := if a < 272 then coreStop a else if a = 488 then 7 else rcStops.getD (a - 480) 0

/-- Class of an OPCODE (R277): 0 REQ, 1 FWD, 2 RSP, 3 DAT, 4 BCS. -/
def classOf (op : Nat) : Nat := if op < 0x40 then 0 else if op < 0x80 then 1 else if op < 0xC0 then 2 else if op < 0xE0 then 3 else 4

/-- OPCODE of a broadcast's flit; the spec gives the values of R129's and R373's messages nowhere (log entry 19). -/
abbrev opBcast : Nat := 0xE5

/-- Stop and agent code of one end (R227): a slice, and the agent at the other end of a coherence message. -/
def sliceEnd (ln : Nat) : Nat × Nat := (tileStop (homeOf ln), 2)
def agentEnd (a : Nat) : Nat × Nat := (agentStop a, if a < 272 then a % 2 else 3)

/-- Messages that go to a home, and those between a home and a memory controller or Hoard stop (R304). -/
def toHome (op : Nat) : Bool := [0x80, 0x81, 0xC2, 0xC3, 0xC8, 0x88].contains op || decide (op < 0x20)
def isMemOp (op : Nat) : Bool := op == 0x20 || op == 0x21 || op == 0xC8 || op == 0x88

/-- The two ends of a message: where it starts, and where it goes. -/
def ends (op : Nat) (m : Msg) : (Nat × Nat) × (Nat × Nat) :=
  if op = 0xE0 ∨ op = 0xE2 then ((tileStop m.line, 2), (9, 3))
  else if op = 0xE4 then (agentEnd m.agent, (8, 3))
  else
    let other := if isMemOp op then (m.agent, 3) else agentEnd m.agent
    if toHome op then (other, sliceEnd m.line) else (sliceEnd m.line, other)

/-- Output port towards stop `d`: along the row, then along the column (R225). -/
def routeOut (st d : Nat) : Nat :=
  if st % 17 < d % 17 then 1 else if d % 17 < st % 17 then 3 else if st / 17 < d / 17 then 2 else if d / 17 < st / 17 then 0 else 4

/-- The link is present at the stop (R241). -/
def linkPresent (st p : Nat) : Bool := decide (st < 170) && decide (p < 4) && (portsOf st).testBit p

/-- Copies of a broadcast at a router (R234), by the input it arrives on. -/
def bcastOuts (st inp : Nat) : List Nat :=
  let y := st / 17
  let go := if st = 9 ∧ inp = 4 then [1, 3, 2]
    else if y = 0 then (if inp = 1 then [3, 2, 4] else if inp = 3 then [1, 2, 4] else [])
    else if inp = 0 then (if y = 9 then [4] else [2, 4]) else []
  go.filter (fun p => p == 4 || linkPresent st p)

/-- The outputs that a flit leaves a router by. -/
def flitOuts (st inp op : Nat) (m : Msg) : List Nat := if op = opBcast then bcastOuts st inp else [routeOut st (ends op m).2.1]

/-! ## Flits as bits (R227) -/

/-- Messages with a line or operands in their payload (R277). -/
def hasPayload (op : Nat) : Bool := [0x09, 0x10, 0x15, 0x16, 0x19, 0x1C, 0x21].contains op || classOf op == 3

def flitDest (op : Nat) (m : Msg) : Nat × Nat := if op = opBcast then (0xFF, 0) else (ends op m).2
def flitSrc (op : Nat) (m : Msg) : Nat × Nat := if op = opBcast then (9, 3) else (ends op m).1

/-- Header bits [127:0]. -/
def hdrBits (op : Nat) (m : Msg) : BitVec 128 :=
  let d := flitDest op m
  let r := flitSrc op m
  BitVec.ofNat 128 (classOf op + (b2n m.poison) <<< 3 + (d.1 % 256) <<< 4 + (d.2 % 4) <<< 12 + (r.1 % 256) <<< 14 + (r.2 % 4) <<< 22 +
    (op % 256) <<< 24 + (m.txn % 4096) <<< 32 + (m.line % 2 ^ 42) <<< 44 + (m.lid % 512) <<< 86 + (m.gen % 256) <<< 95 + (m.qport % 64) <<< 103 +
    (m.fclass % 32) <<< 109 + (m.arg % 2 ^ 14) <<< 114)

/-- Payload bits: UcWrM carries its byte mask, any other message its line or operands. -/
def payBits (op : Nat) (m : Msg) : BitVec 512 := if op = 0x16 then m.mask.setWidth 512 else if hasPayload op then m.data else 0

/-- The flit of a message. -/
def flitOf (op : Nat) (m : Msg) : BitVec 640 := payBits op m ++ hdrBits op m

/-- A field of a flit's header. -/
def hdrFld (f : BitVec 640) (hi lo : Nat) : Nat := f.toNat / 2 ^ lo % 2 ^ (hi + 1 - lo)

/-- The agent that a stop and an agent code name. -/
def agentAt (st code : Nat) : Nat :=
  if code < 2 then 2 * (st - 17) + code else if st = 7 then 488 else if rcStops.contains st then 480 + rcStops.idxOf st else st

/-- The message that a flit spells. -/
def msgOf (f : BitVec 640) : Nat × Msg :=
  let op := hdrFld f 31 24
  let other := if toHome op ∨ op = 0xE4 then agentAt (hdrFld f 21 14) (hdrFld f 23 22) else agentAt (hdrFld f 11 4) (hdrFld f 13 12)
  (op, { agent := other, line := hdrFld f 85 44, txn := hdrFld f 43 32, arg := hdrFld f 127 114, lid := hdrFld f 94 86,
         gen := hdrFld f 102 95, qport := hdrFld f 108 103, fclass := hdrFld f 113 109, poison := hdrFld f 3 3 == 1,
         data := (f >>> 128).setWidth 512, mask := if op = 0x16 then (f >>> 128).setWidth 64 else 0 })

/-- A tile stop accepts agents 0 to 2, an edge stop only 3. -/
def accepts (st code : Nat) : Bool := if 17 ≤ st ∧ st < 153 then decide (code < 3) else code == 3

/-- OPCODEs of a class (R277, R304); BCS carries those of other chapters too. -/
def opListed (cls op : Nat) : Bool :=
  (classOf op == cls) && (cls == 4 || [0x01, 0x02, 0x03, 0x04, 0x08, 0x09, 0x0C, 0x0D, 0x0E, 0x10, 0x14, 0x15, 0x16, 0x18, 0x19, 0x1A,
    0x1B, 0x1C, 0x20, 0x21, 0x40, 0x41, 0x42, 0x43, 0x44, 0x45, 0x80, 0x81, 0x82, 0x83, 0x84, 0x85, 0x88, 0xC0, 0xC2, 0xC3, 0xC4, 0xC5,
    0xC8].contains op)

/-- A header without a reserved CLASS, DEST or OPCODE, for an agent that its stop accepts (R227, R279). -/
def hdrGood (f : BitVec 640) : Bool :=
  let c := hdrFld f 2 0
  let d := hdrFld f 11 4
  decide (c < 5) && opListed c (hdrFld f 31 24) &&
    (if d = 0xFF then c == 4 else decide (d < 170) && accepts d (hdrFld f 13 12))

/-! ## Buffers -/

def State.link (s : State) (st p : Nat) : LinkSt := smGet (fun _ => ({} : LinkSt)) s.fab.links (8 * st + p)
def State.setLink (s : State) (st p : Nat) (l : LinkSt) : State :=
  { s with fab := { s.fab with links := smSet (fun _ => ({} : LinkSt)) s.fab.links (8 * st + p) l } }

/-- The input buffer of a class at port `p` of a stop. -/
def inBuf (s : State) (st p c : Nat) : List BufEnt := smGet (fun _ => []) (s.link st p).inq c
def setInBuf (st p c : Nat) (b : List BufEnt) (s : State) : State :=
  s.setLink st p { s.link st p with inq := smSet (fun _ => []) (s.link st p).inq c b }

/-- A copy of the oldest flit of a buffer leaves by `out`; with the last one the entry is free and its credit is returned
(R231, R234). -/
def popBuf (st p c out : Nat) (s : State) : State :=
  match inBuf s st p c with
  | [] => s
  | e :: b =>
    let left := e.outs.filter (· != out)
    if !left.isEmpty then setInBuf st p c ({ e with outs := left } :: b) s
    else
      let s := setInBuf st p c b s
      if 4 ≤ p then s
      else
        let l := s.link st p
        s.setLink st p { l with crdOut := smSet (fun _ => 0) l.crdOut c ((smGet (fun _ => 0) l.crdOut c + 1) % 16) }

/-! ## Arbitration (R235, R236) -/

/-- The first of a list from place `k` on, going round, that passes. -/
def rotFind (ok : Nat → Bool) (l : List Nat) (k : Nat) : Option Nat := ((l.drop k ++ l.take k)).find? ok

/-- Inputs in their rotating order: N, S, E, W, L. -/
def inputs : List Nat := [0, 2, 1, 3, 4]

/-- The messages of an agent that have not entered its router, oldest first. -/
def unsent (s : State) (st code c : Nat) : Option (Nat × Msg) :=
  s.fab.net.find? (fun e => classOf e.1 == c && (ends e.1 e.2).1 == (st, code) && !s.fab.sent.contains e)

/-- What the local input offers in a class: a broadcast of BCHUB, or the message of the agent whose turn it is (R236). -/
def localOffer (s : State) (st c : Nat) : Option (Nat × Msg × List Nat) :=
  match inBuf s st 4 c with
  | e :: _ => some (e.op, e.msg, e.outs)
  | [] =>
    let turn := smGet (fun _ => 0) (s.link st 4).agents c
    match rotFind (fun a => (unsent s st a c).isSome) [0, 1, 2, 3] turn with
    | some a => (unsent s st a c).map (fun e => (e.1, e.2, flitOuts st 4 e.1 e.2))
    | none => none

/-- What an input offers in a class. -/
def offer (s : State) (st inp c : Nat) : Option (Nat × Msg × List Nat) :=
  if inp = 4 then localOffer s st c else (inBuf s st inp c).head?.map (fun e => (e.op, e.msg, e.outs))

/-- An input offers a flit of the class for an output. -/
def offers (s : State) (st out c inp : Nat) : Bool := match offer s st inp c with | some x => x.2.2.contains out | none => false

/-- A flit of the class waits for an output. -/
def waitsFor (s : State) (st out c : Nat) : Bool := inputs.any (offers s st out c)

/-- Credits held for a class at an output (R231). -/
def credits (s : State) (st p c : Nat) : Nat := s.rf (.mesh st) (Off.LINK_CREDIT + 0x40 * p) (4 * c + 3) (4 * c)

/-- The class that an output sends next: a class refused for 15 cycles first, else by preference. -/
def pickClass (s : State) (st out : Nat) : Option Nat :=
  let ok := fun c => decide (0 < credits s st out c) && waitsFor s st out c
  let old := fun c => decide (15 ≤ smGet (fun _ => 0) (s.link st out).refused c)
  match [4, 3, 2, 1, 0].find? (fun c => ok c && old c) with
  | some c => some c
  | none => [4, 3, 2, 1, 0].find? ok

/-- The counts of refusals after a cycle in which `c` was sent. -/
def refusals (s : State) (st out c : Nat) : SMap Nat :=
  [0, 1, 2, 3, 4].foldl (fun m k =>
    smSet (fun _ => 0) m k (if k ≠ c ∧ 0 < credits s st out k ∧ waitsFor s st out k then smGet (fun _ => 0) m k + 1 else 0)) (s.link st out).refused

/-- The flit that an input offers leaves by `out`: it has left its buffer, or its agent. -/
def takeOffer (st inp c out : Nat) (s : State) : State :=
  if inp ≠ 4 ∨ !(inBuf s st 4 c).isEmpty then popBuf st inp c out s
  else match offer s st 4 c with
    | none => s
    | some (op, m, _) =>
      let l := s.link st 4
      let s := s.setLink st 4 { l with agents := smSet (fun _ => 0) l.agents c (((ends op m).1.2 + 1) % 4) }
      { s with fab := { s.fab with sent := s.fab.sent ++ [(op, m)] } }

/-- One cycle of an output's arbitration (R235): the class and the message granted. -/
def arbitrate (st out : Nat) (s : State) : Option (Nat × Nat × Msg) × State :=
  match pickClass s st out with
  | none => (none, s)
  | some c =>
    let l := s.link st out
    match rotFind (offers s st out c) inputs (smGet (fun _ => 0) l.rot c) with
    | none => (none, s)
    | some inp =>
      let g := (offer s st inp c).map (fun x => (c, x.1, x.2.1))
      let s := s.setLink st out { l with
        refused := refusals s st out c
        rot := smSet (fun _ => 0) l.rot c ((inputs.idxOf inp + 1) % 5) }
      (g, takeOffer st inp c out s)

/-! ## Ejection -/

/-- The input that the ejection port of a class and local agent grants next. -/
def ejectInput (s : State) (st code c : Nat) : Option Nat :=
  let mine := fun inp => match inBuf s st inp c with | e :: _ => e.outs.contains 4 && (ends e.op e.msg).2.2 == code | [] => false
  rotFind mine [0, 2, 1, 3] (smGet (fun _ => 0) (s.link st 4).rot (4 * c + code))

/-- The message at the head of an ejection port. -/
def ejectHead (s : State) (st code c : Nat) : Option (Nat × Msg) :=
  match ejectInput s st code c with
  | some inp => (inBuf s st inp c).head?.map (fun e => (e.op, e.msg))
  | none => none

/-- The message cannot act yet: its flit is still on its way, or another is ahead of it at the ejection port. A message whose flit no
LINK_CYCLE has moved is taken to have come unobserved (log entry 20). -/
def inTransit (s : State) (op : Nat) (m : Msg) : Bool :=
  let d := (ends op m).2
  s.fab.sent.contains (op, m) && ejectHead s d.1 d.2 (classOf op) != some (op, m)

/-- The message leaves the mesh. -/
def takeNet (op : Nat) (m : Msg) (s : State) : State :=
  let d := (ends op m).2
  let c := classOf op
  let s := { s with fab := { s.fab with net := s.fab.net.erase (op, m) } }
  if !s.fab.sent.contains (op, m) then s else
  let s := { s with fab := { s.fab with sent := s.fab.sent.erase (op, m) } }
  match ejectInput s d.1 d.2 c with
  | none => s
  | some inp =>
    let l := s.link d.1 4
    popBuf d.1 inp c 4 (s.setLink d.1 4 { l with rot := smSet (fun _ => 0) l.rot (4 * c + d.2) (([0, 2, 1, 3].idxOf inp + 1) % 4) })

/-- A message arrives: `k` is what it does. -/
def arrive (op : Nat) (m : Msg) (k : State → State) (s : State) : State := if inTransit s op m then s else k (takeNet op m s)

/-- The copies of a broadcast leave every router: it has completed. -/
def dropCopies (id : Nat) (s : State) : State :=
  { s with fab := { s.fab with links := s.fab.links.map (fun e => (e.1, { e.2 with
      inq := (e.2.inq.map (fun b => (b.1, b.2.filter (fun x => !(x.op == opBcast && x.msg.txn == id))))).filter (fun b => !b.2.isEmpty) })) } }

end Sys2Proof.Machine
end

