-- ==== Sys2Proof/Machine/Mesh.lean ====
section
/-! DEFINITION. The mesh links (chapter 08): sideband and CRC, credits, replay, lane repair. -/
namespace Sys2Proof.Machine

/-! ## Links -/

/-- The stop at the far end of link `p` (0 N, 1 E, 2 S, 3 W) and the link's number there (R225). -/
def farEnd (st p : Nat) : Nat × Nat :=
  if p = 0 then (st - 17, 2) else if p = 1 then (st + 1, 3) else if p = 2 then (st + 17, 0) else (st - 1, 1)

def linkState (s : State) (st p : Nat) : Nat := s.rf (.mesh st) (Off.LINK_STATE + 0x40 * p) 1 0
def setLinkState (st p v : Nat) (s : State) : State := s.wf (.mesh st) (Off.LINK_STATE + 0x40 * p) 1 0 v

/-- The link carries flits: it is UP, or FAILED and replaying (R239). -/
def linkLive (s : State) (st p : Nat) : Bool := linkState s st p == 1 || linkState s st p == 3

def setCredits (st p c v : Nat) (s : State) : State := s.wf (.mesh st) (Off.LINK_CREDIT + 0x40 * p) (4 * c + 3) (4 * c) v

/-- Spare lanes not assigned (R241). -/
def sparesLeft (s : State) (st p : Nat) : Nat :=
  b2n (s.rf (.mesh st) (Off.LINK_LANEMAP + 0x40 * p) 9 0 == 0x3FF) +
    b2n (s.rf (.mesh st) (Off.LINK_LANEMAP + 0x40 * p) 25 16 == 0x3FF)

/-- A link trains with its lane map in force: from DOWN with full credits and nothing in flight, else with what it holds. -/
def linkUp (st p : Nat) (s : State) : State :=
  let s := if linkState s st p = 0 then (s.setLink st p {}).wr (.mesh st) (Off.LINK_CREDIT + 0x40 * p) 0xCCCCC else s
  (setLinkState st p 1 s).wf (.mesh st) (Off.LINK_STATE + 0x40 * p) 3 2 (sparesLeft s st p)

/-! ## Sideband (R237) -/

/-- What the 680 lanes of a link direction carry in one cycle: the flit, sideband bits [39:16], and the CRC. -/
structure Lanes where
  flit : BitVec 640
  side : BitVec 24
  crc : BitVec 16
deriving DecidableEq, Repr

/-- One step of the CRC register of polynomial 0x1_8BB7 with the next bit. -/
def laneStep (r : Nat) (b : Bool) : Nat :=
  let top := (r / 0x8000 % 2 == 1) != b
  (2 * r % 0x10000) ^^^ (if top then 0x8BB7 else 0)

/-- The CRC register past the `n` lowest bits of a number, highest first. -/
def laneCrc (v : Nat) : Nat → Nat → Nat
  | 0, r => r
  | n + 1, r => laneCrc v n (laneStep r (v.testBit n))

/-- CRC-16 from 0xFFFF over the sideband's upper bits and the flit. The spec does not say in which order the bits enter: sideband
bit 39 is first, flit bit 0 last (DESIGN CHOICE, log entry 21). -/
def laneCheck (flit : BitVec 640) (side : BitVec 24) : BitVec 16 := BitVec.ofNat 16 (laneCrc flit.toNat 640 (laneCrc side.toNat 24 0xFFFF))

/-- Sideband bits [39:16]. -/
def sideBits (seq : Nat) (fv : Bool) (ack : Nat) (nak : Bool) (cls cnt : Nat) : BitVec 24 :=
  BitVec.ofNat 24 (seq % 32 + (b2n fv) <<< 5 + (ack % 32) <<< 6 + (b2n nak) <<< 11 + (cls % 8) <<< 12 + (cnt % 16) <<< 15)

/-- Field of the sideband, numbered as in R237. -/
def sideFld (v : BitVec 24) (hi lo : Nat) : Nat := v.toNat / 2 ^ (lo - 16) % 2 ^ (hi + 1 - lo)

/-- The lanes that arrive inverted, from the errors in the flit and in each field of the sideband (R237; `crd` are CRD_CLASS
and CRD_CNT, `rsv` the reserved bits). -/
def laneErr (flit : BitVec 640) (crc : BitVec 16) (seq : BitVec 5) (fv : BitVec 1) (ack : BitVec 5) (nak : BitVec 1)
    (crd : BitVec 7) (rsv : BitVec 5) : BitVec 680 :=
  rsv ++ crd ++ nak ++ ack ++ fv ++ seq ++ crc ++ flit

/-- Lanes with errors on some of them: bit i of `err` inverts flit bit i, then sideband bit i − 640. -/
def Lanes.noisy (l : Lanes) (err : BitVec 680) : Lanes :=
  { flit := l.flit ^^^ err.setWidth 640
    side := l.side ^^^ (err >>> 656).setWidth 24
    crc := l.crc ^^^ (err >>> 640).setWidth 16 }

def Lanes.good (l : Lanes) : Bool := laneCheck l.flit l.side == l.crc

/-! ## Acknowledgements and credits -/

/-- SEQ `x` lies at or before `y`, of the at most 16 flits in the replay buffer (modulo 32). -/
def seqLe (x y : Nat) : Bool := decide ((y + 32 - x) % 32 < 16)

/-- An acknowledgement up to `ack` reaches the sender of link `p` of `st`: a flit acknowledged resets the
count of consecutive failed replays, unless the limit of 16 has been reached (R238, R241). -/
def linkAck (st p ack : Nat) (s : State) : State :=
  let l := s.link st p
  let rest := l.replay.filter (fun f => !seqLe f.seq ack)
  if rest.length = l.replay.length then s else
  let l := { l with
    replay := rest
    replaying := match l.replaying with | some q => if seqLe q ack then none else some q | none => none
    resend := match l.resend with | some q => if seqLe q ack then (rest.head?.map (·.seq)) else some q | none => none }
  let s := s.setLink st p l
  if s.rf (.mesh st) (Off.LINK_STATE + 0x40 * p) 8 4 = 16 then s
  else s.wf (.mesh st) (Off.LINK_STATE + 0x40 * p) 8 4 0

/-- Credits that class `c` returned, as a running total modulo 16 (R231, R237). A count raised above 12 is lost
credits (R232). -/
def linkCredit (st p c cnt : Nat) (s : State) : State :=
  if 5 ≤ c then s else
  let l := s.link st p
  let d := (cnt % 16 + 16 - smGet (fun _ => 0) l.crdSeen c) % 16
  let s := s.setLink st p { l with
    crdSeen := smSet (fun _ => 0) l.crdSeen c (cnt % 16)
    zeroSince := if d = 0 then l.zeroSince else smDel l.zeroSince c }
  if 12 < credits s st p c + d then driveDown s else setCredits st p c (credits s st p c + d) s

/-! ## Sending -/

/-- A replay from the oldest unacknowledged flit. With none left, the far receiver has nothing to wait for. -/
def startReplay (st p : Nat) (s : State) : State :=
  let l := s.link st p
  match l.replay.getLast? with
  | none =>
    let f := farEnd st p
    s.setLink f.1 f.2 { s.link f.1 f.2 with skipping := false }
  | some f => (s.setLink st p { l with replaying := some f.seq, resend := l.replay.head?.map (·.seq) }).incSat (.mesh st) (Off.LINK_ERR + 0x40 * p) 47 32

/-- A NAK reaches the sender at output `p` of `st`: it replays from ACK_SEQ + 1; a NAK before the last replay was acknowledged
makes that replay a failed one (R238, R239). -/
def takeNak (st p ack : Nat) (s : State) : State :=
  let (fs, fp) := farEnd st p
  let s := linkAck st p ack s
  let failed := (s.link st p).replaying.isSome
  let s := startReplay st p s
  if !failed then s else
  let n := min 16 (s.rf (.mesh st) (Off.LINK_STATE + 0x40 * p) 8 4 + 1)
  let s := s.wf (.mesh st) (Off.LINK_STATE + 0x40 * p) 8 4 n
  if n = 16 then driveDown (report st 5 3 18 0 p 0x1FF 0 s)
  else if n = s.rf (.mesh st) Off.MESH_CTL 11 8 ∧ s.rf (.mesh st) Off.MESH_CTL 12 12 = 1 ∧ linkState s st p = 1 then
    setLinkState fs fp 2 (setLinkState st p 2 s)
  else s

/-- The flit that an output resends next. -/
def nextResend (l : LinkSt) : Option SentFlit := match l.resend with | some q => l.replay.find? (fun f => f.seq == q) | none => none

/-- A replay goes on past a flit just resent. -/
def resendStep (l : LinkSt) (q : Nat) : LinkSt :=
  { l with resend := ((l.replay.dropWhile (fun f => f.seq != q)).drop 1).head?.map (·.seq) }

/-- A new flit takes a credit and a replay-buffer entry (R231). -/
def sendNew (st p c op : Nat) (m : Msg) (s : State) : State :=
  let l := s.link st p
  let n := credits s st p c - 1
  let s := setCredits st p c n (s.setLink st p { l with
    replay := l.replay ++ [⟨l.seq, op, m⟩]
    seq := (l.seq + 1) % 32
    zeroSince := if n = 0 then smPut l.zeroSince c s.tick else l.zeroSince })
  let s := unc (.mesh st) (4 * p) 1 s
  if c = 3 then unc (.mesh st) (4 * p + 1) 1 s else s

/-- What output `p` of `st` sends in this cycle: a flit of a running replay, else what arbitration grants, while the replay buffer
has room. The flag tells a resent flit. -/
def sendFlit (st p : Nat) (s : State) : Option (SentFlit × Bool) × State :=
  let l := s.link st p
  match nextResend l with
  | some f => (some (f, true), s.setLink st p (resendStep l f.seq))
  | none =>
    if 16 ≤ l.replay.length then (none, s) else
    match arbitrate st p s with
    | (some (c, op, m), s) => (some (⟨(s.link st p).seq, op, m⟩, false), sendNew st p c op m s)
    | (none, s) => (none, s)

/-- The sideband of output `p` of `st` in this cycle: it acknowledges and reports credits for the other direction (R237). -/
def sendSide (st p : Nat) (f : Option SentFlit) (s : State) : BitVec 24 × State :=
  let l := s.link st p
  (sideBits (match f with | some f => f.seq | none => 0) f.isSome l.rxSeq l.nak l.crdNext (smGet (fun _ => 0) l.crdOut l.crdNext),
    s.setLink st p { l with nak := false, crdNext := (l.crdNext + 1) % 5 })

/-- The lanes that carry a flit, or none. -/
def lanesOf (f : Option SentFlit) (side : BitVec 24) : Lanes :=
  let b := match f with | some f => flitOf f.op f.msg | none => 0
  { flit := b, side := side, crc := laneCheck b side }

/-! ## Receiving -/

/-- A message in flight has become poisoned. -/
def poisonFlight (op : Nat) (m : Msg) (s : State) : State :=
  let f := fun (e : Nat × Msg) => if e = (op, m) then (op, { m with poison := true }) else e
  { s with fab := { s.fab with net := s.fab.net.map f, sent := s.fab.sent.map f } }

/-- A flit joins the input buffer (R228): an error that its check bits cannot correct poisons its payload, and in a flit without
one lies in the header, which takes the domain down (R240). -/
def bufferFlit (st p op : Nat) (m : Msg) (s : State) : State :=
  let put := fun (m : Msg) (s : State) => setInBuf st p (classOf op) (inBuf s st p (classOf op) ++ [⟨op, m, flitOuts st p op m⟩]) s
  let (r, s) := eccRead st 0 17 p (eccWrite st 0 17 p s)
  match r with
  | .clean => put m s
  | .corrected => put m (report st 6 0 17 0 p 0x1FF 0 s)
  | .uncorr =>
    if hasPayload op then put { m with poison := true } (poisonFlight op m (report st 6 1 17 0 p 0x1FF 0 s))
    else driveDown (report st 6 3 17 0 p 0x1FF 0 s)
  | .wrong b => put { m with data := m.data ^^^ ((1 : Line) <<< b) } (report st 6 0 17 0 p 0x1FF 0 s)

/-- A flit that passed its CRC, in sequence: `f` is what was sent. A reserved header takes the domain down (R227, R240). -/
def receiveFlit (st p : Nat) (f : SentFlit) (bits : BitVec 640) (s : State) : State :=
  if !hdrGood bits then driveDown (report st 6 3 17 0 p 0x1FF 0 s)
  else if bits = flitOf f.op f.msg then bufferFlit st p f.op f.msg s
  else bufferFlit st p (msgOf bits).1 (msgOf bits).2 s

/-- A cycle that fails its CRC is discarded whole: the receiver waits for a replay and owes a NAK (R238). -/
def badCycle (st p : Nat) (s : State) : State :=
  let s := s.incSat (.mesh st) (Off.LINK_ERR + 0x40 * p) 31 0
  let s := report st 5 0 18 0 p 0x1FF 0 s
  s.setLink st p { s.link st p with skipping := true, nak := true }

/-- The sideband of a good cycle acts on the other direction. -/
def takeSide (st p : Nat) (v : BitVec 24) (s : State) : State :=
  let s := linkCredit st p (sideFld v 30 28) (sideFld v 34 31) (linkAck st p (sideFld v 26 22) s)
  if sideFld v 27 27 = 1 then takeNak st p (sideFld v 26 22) s else s

/-- The flit of a good cycle is taken if it is the next in sequence; after a CRC failure only a resent one is (R238). -/
def takeFlit (st p : Nat) (f : SentFlit × Bool) (r : Lanes) (s : State) : State :=
  let l := s.link st p
  let q := sideFld r.side 20 16
  if sideFld r.side 21 21 = 1 ∧ q = (l.rxSeq + 1) % 32 ∧ (!l.skipping ∨ f.2) then
    receiveFlit st p f.1 r.flit (s.setLink st p { l with rxSeq := q, skipping := false })
  else s

/-- LINK_CYCLE: one cycle of the direction into port `p` of stop `st`. The far output sends; `err` are the lanes that arrive
inverted. -/
def runLinkCycle (st p : Nat) (err : BitVec 680) (s : State) : State :=
  if !linkPresent st p then s else
  let (fs, fp) := farEnd st p
  if !linkLive s st p || !linkLive s fs fp then s else
  let (f, s) := sendFlit fs fp s
  let (side, s) := sendSide fs fp (f.map (·.1)) s
  let r := (lanesOf (f.map (·.1)) side).noisy err
  if !r.good then badCycle st p s
  else
    let s := takeSide st p r.side s
    match f with
    | some f => takeFlit st p f r s
    | none => s

/-- LINK_CYCLE (R228, R231, R235 to R238). -/
def execLinkCycle (stop link : Nat) (eFlit : BitVec 640) (eCrc : BitVec 16) (eSeq : BitVec 5) (eFv : BitVec 1)
    (eAck : BitVec 5) (eNak : BitVec 1) (eCrd : BitVec 7) (eRsv : BitVec 5) (s : State) : Res :=
  finish s (runLinkCycle stop link (laneErr eFlit eCrc eSeq eFv eAck eNak eCrd eRsv) s)

/-- NAK: the sender at output `p` of `st` hears of it outside a LINK_CYCLE. -/
def runNak (st p ack : Nat) (s : State) : State :=
  if !linkPresent st p || !linkLive s st p then s else
  let f := farEnd st p
  takeNak st p ack (s.setLink f.1 f.2 { s.link f.1 f.2 with nak := false })

/-- NAK (R238). -/
def execNak (stop link ackSeq : Nat) (s : State) : Res := finish s (runNak stop link ackSeq s)

/-! ## Lane repair (R239) -/

/-- Map one failing lane onto a free spare of the direction sent by output `p` of `st`; `none` when none is left. -/
def mapLane (st p lane : Nat) (s : State) : Option State :=
  let o := Off.LINK_LANEMAP + 0x40 * p
  let a := s.rf (.mesh st) o 9 0
  let b := s.rf (.mesh st) o 25 16
  if a = lane ∨ b = lane then some s
  else if a = 0x3FF then some (report st 5 0 23 0 lane 0x1FF 0 (s.wf (.mesh st) o 9 0 lane))
  else if b = 0x3FF then some (report st 5 1 23 0 lane 0x1FF 0 (s.wf (.mesh st) o 25 16 lane))
  else none

/-- Map the failing lanes, and whether each could be. -/
def mapLanes (st p : Nat) (bad : List Nat) (s : State) : State × Bool :=
  (bad.filter (fun l => decide (l < 680))).foldl (fun (a : State × Bool) l =>
    match mapLane st p l a.1 with
    | some s => (s, a.2)
    | none => (a.1, false)) (s, true)

/-- A repair at one end: `bad` lanes fail the check pattern in the direction that it sends; whether spares were enough. -/
def repairEnd (st p : Nat) (bad : List Nat) (s : State) : State × Bool :=
  let s := s.incSat (.mesh st) (Off.LINK_ERR + 0x40 * p) 63 48
  let (s, ok) := mapLanes st p bad s
  (s.wf (.mesh st) (Off.LINK_STATE + 0x40 * p) 3 2 (sparesLeft s st p), ok)

/-- Both ends of a link are repaired: `bad` and `back` are the failing lanes of its two directions. -/
def repairLink (st p : Nat) (bad back : List Nat) (s : State) : State :=
  let (fs, fp) := farEnd st p
  let (s, ok) := repairEnd st p bad s
  let (s, ok') := repairEnd fs fp back s
  let v := if ok ∧ ok' then 1 else 3
  let s := setLinkState fs fp v (setLinkState st p v s)
  if ok ∧ ok' then s else report st 5 1 23 0 p 0x1FF 0 s

/-- LANE_REPAIR_END: traffic resumes with a replay in both directions. -/
def runLaneRepairEnd (st p : Nat) (bad back : List Nat) (s : State) : State :=
  if !linkPresent st p ∨ linkState s st p ≠ 2 then s else
  let (fs, fp) := farEnd st p
  startReplay fs fp (startReplay st p (repairLink st p bad back s))

/-- LANE_REPAIR_END (R239): `bad.1` are the failing lanes of the direction into the port, `bad.2` those of the reverse one. -/
def execLaneRepairEnd (stop link : Nat) (bad : List Nat × List Nat) (s : State) : Res := finish s (runLaneRepairEnd stop link bad.1 bad.2 s)

/-- Every link trains. -/
def linksUp (s : State) : State :=
  (List.range 170).foldl (fun s st => (List.range 4).foldl (fun s p => if linkPresent st p then linkUp st p s else s) s) s

/-- The lane repair of bring-up runs on every link, once for its two ends (R239). `bad`: stop, link and lane of each failure. -/
def linksRepair (bad : List (Nat × Nat × Nat)) (s : State) : State :=
  let of := fun st p => (bad.filter (fun b => b.1 == st && b.2.1 == p)).map (·.2.2)
  (List.range 170).foldl (fun s st => [1, 2].foldl (fun s p =>
    if linkPresent st p then repairLink st p (of st p) (of (farEnd st p).1 (farEnd st p).2) s else s) s) s

/-- The lowest stop with a link that FAILED. -/
def failedStop (s : State) : Option Nat := (List.range 170).find? (fun st => (List.range 4).any (fun p => linkPresent st p && linkState s st p == 3))

/-! ## Lost credits -/

/-- CREDIT_TIMEOUT: the window of R232 closes for a class that a flit has waited for since it came to 0 credits. -/
def runCreditTimeout (st p c : Nat) (s : State) : State :=
  if !linkPresent st p ∨ !linkLive s st p ∨ 5 ≤ c ∨ credits s st p c ≠ 0 ∨ !waitsFor s st p c then s else
  match smFind (s.link st p).zeroSince c with
  | none => s
  | some t => driveDown (s.toTick (t + meshTicks s (2 ^ s.rf (.mesh st) Off.MESH_CTL 4 0)))

/-- CREDIT_TIMEOUT (R232). -/
def execCreditTimeout (stop link cls : Nat) (s : State) : Res := finish s (runCreditTimeout stop link cls s)

end Sys2Proof.Machine
end

