-- ==== Sys2Proof/Machine/Home.lean ====
section
/-! DEFINITION. The arrays of a home (chapter 09): LLC lines, Warren entries, worn ways, and the home's messages to
memory. -/
namespace Sys2Proof.Machine

/-! ## Sets and arrays -/

/-- R245. -/
def lineSet (ln : Nat) : Nat := (ln % 4096) ^^^ (ln / 4096 % 4096)

/-- A line homed in set `st` of slice `h`. -/
def inSet (h st ln : Nat) : Bool := (lineSet ln == st) && (homeOf ln == h)

/-- Every use gives its entry a new age (R250, R258). -/
def newAge (s : State) : Nat × State := (s.fab.uses + 1, { s with fab := { s.fab with uses := s.fab.uses + 1 } })

def State.llcAt (s : State) (ln : Nat) : Option LEnt := smFind s.fab.llc ln
def setLlc (ln : Nat) (e : LEnt) (s : State) : State := { s with fab := { s.fab with llc := smPut s.fab.llc ln e } }
def delLlc (ln : Nat) (s : State) : State := { s with fab := { s.fab with llc := smDel s.fab.llc ln } }
def State.warAt (s : State) (ln : Nat) : Option WEnt := smFind s.fab.warren ln
def setWar (ln : Nat) (e : WEnt) (s : State) : State := { s with fab := { s.fab with warren := smPut s.fab.warren ln e } }
def delWar (ln : Nat) (s : State) : State := { s with fab := { s.fab with warren := smDel s.fab.warren ln } }
def State.txnAt (s : State) (ln : Nat) : Option Txn := smFind s.fab.txns ln
def setTxn (ln : Nat) (t : Txn) (s : State) : State := { s with fab := { s.fab with txns := smPut s.fab.txns ln t } }
def delTxn (ln : Nat) (s : State) : State := { s with fab := { s.fab with txns := smDel s.fab.txns ln } }
def State.trkAt (s : State) (ln : Nat) : Option Txn := smFind s.fab.trackers ln
def setTrk (ln : Nat) (t : Txn) (s : State) : State := { s with fab := { s.fab with trackers := smPut s.fab.trackers ln t } }
def delTrk (ln : Nat) (s : State) : State := { s with fab := { s.fab with trackers := smDel s.fab.trackers ln } }

/-- A transaction or a tracker is open on the line (R257, R260). -/
def lineBusy (s : State) (ln : Nat) : Bool := (s.txnAt ln).isSome || (s.trkAt ln).isSome

/-- The slice has recorded the agent as dead (R290). -/
def State.deadAtSlice (s : State) (h a : Nat) : Bool := s.fab.deadAt.contains (512 * h + a)

/-- WARREN.STATUS.RQ_OCC and TRK_OCC follow the queue and the trackers. -/
def occ (h : Nat) (s : State) : State :=
  let q := (s.fab.queue.filter (fun e => e.slice == h)).length
  let t := (s.fab.trackers.filter (fun e => homeOf e.1 == h)).length
  (s.wf (.warren h) Off.WARREN_STATUS 22 16 q).wf (.warren h) Off.WARREN_STATUS 28 24 t

/-! ## Messages to memory (R304) -/

/-- Stop that serves a line: its Hoard stop or its memory controller (R28, R29). -/
def channelOf (ln : Nat) : Nat := (List.range 9).foldl (fun a k => a ^^^ (ln * 64 / 2 ^ (8 + 4 * k) % 16)) 0
def memStop (ln : Nat) : Nat :=
  if hoardBase ≤ ln * 64 then hoardStops.getD ((ln * 64 - hoardBase) / 2 ^ 24) 6 else mcStops.getD (channelOf ln) 1

def memRead (ln qport : Nat) (s : State) : State := post 0x20 { agent := memStop ln, line := ln, qport := qport } s
def memWrite (ln qport : Nat) (d : Line) (po ack : Bool) (s : State) : State :=
  post 0x21 { agent := memStop ln, line := ln, qport := qport, data := d, poison := po, arg := b2n ack } s

/-! ## LLC ways (R250, R265, R266, R268) -/

/-- Physical way of a logical way; 15 when unmapped. A line that is still in a way taken out of service has the number
16 + p. -/
def llcPhys (s : State) (h w : Nat) : Nat := if 16 ≤ w then w - 16 else s.rf (.llc h) Off.LLC_WAYCFG (4 * w + 3) (4 * w)

def fclassReg (s : State) (h k : Nat) : Word := s.rd (.llc h) (Off.FCLASS + 8 * (k % 32))

/-- Ways locked by a class other than `k`. -/
def lockedElsewhere (s : State) (h k : Nat) : Nat :=
  (List.range 32).foldl (fun a j => if j = k % 32 then a else a ||| fld (fclassReg s h j) 27 16) 0

/-- Eligible ways of a fill in class `k`. A way being swept takes no fills. -/
def eligible (s : State) (h k : Nat) : List Nat :=
  let mask := fld (fclassReg s h k) 11 0
  let locked := lockedElsewhere s h k
  (List.range 12).filter (fun w => mask.testBit w && !locked.testBit w && llcPhys s h w != 15 &&
    (match smFind s.fab.llcSweep h with | some (x, _) => llcPhys s h w != x | none => true))

/-- WDCFG fields (R222). -/
def wdAuto (w : Word) : Bool := bitOf w 0
def wdThresh (w : Word) : Nat := fld w 12 8
def wdWindow (w : Word) : Nat := fld w 35 16

/-- Logical ways mapped. -/
def llcWays (s : State) (h : Nat) : Nat := ((List.range 12).filter (fun w => llcPhys s h w != 15)).length

/-- A physical LLC way is unmapped and not failed. -/
def llcSpare (s : State) (h : Nat) : Option Nat :=
  (List.range 13).find? (fun p => !((List.range 12).any (fun w => llcPhys s h w == p)) && s.rf (.llc h) Off.LLC_WAYCFG (48 + p) (48 + p) == 0)

def llcSweepStart (h p : Nat) (steps : Bool) (s : State) : State :=
  let s := { s with fab := { s.fab with llcSweep := smPut s.fab.llcSweep h (p, steps) } }
  (s.wf (.llc h) Off.LLC_STATUS 0 0 1).wf (.llc h) Off.LLC_STATUS 4 1 p

/-- A crossing of THRESH in the LLC. -/
def llcCrossing (h p : Nat) (s : State) : State :=
  if llcWays s h ≤ 9 then report ((Blk.llc h).inst) 9 1 23 0 p 0x1FF 0 (s.wf (.llc h) Off.LLC_STATUS 6 6 1)
  else if (smFind s.fab.llcSweep h).isSome then { s with fab := { s.fab with llcSweepWait := s.fab.llcSweepWait ++ [(h, p)] } }
  else llcSweepStart h p true s

/-- One more correction in a way: its history with the window applied, and the count in the window. -/
def wearStep (hist : List (Nat × Nat × Nat)) (h p sec win : Nat) : List (Nat × Nat × Nat) × Nat :=
  let l := hist.filter (fun (e : Nat × Nat × Nat) => decide (sec < e.2.2 + win)) ++ [(h, p, sec)]
  (l, (l.filter (fun (e : Nat × Nat × Nat) => e.1 == h && e.2.1 == p)).length)

/-- A correction in physical way `p` of the LLC slice (R265). -/
def llcCorrect (h p : Nat) (s : State) : State :=
  let sec := s.settTime / 1000000
  let cfg := s.rd (.llc h) Off.LLC_WDCFG
  let (l, n) := wearStep s.fab.llcHist h p sec (wdWindow cfg)
  let s := { s with fab := { s.fab with llcHist := l } }
  let s := s.wr (.llc h) (Off.LLC_WAYERR + 8 * p) (wayErrWord (s.rd (.llc h) (Off.LLC_WAYERR + 8 * p)) n sec)
  let s := unc (.llc h) 15 1 s
  if n = wdThresh cfg ∧ wdAuto cfg then llcCrossing h p s else s

/-- Read a line of the LLC through its checkers (R264). -/
def llcCheck (ln : Nat) (s : State) : State :=
  match s.llcAt ln with
  | none => s
  | some e =>
    let h := homeOf ln
    let st := tileStop h
    let p := llcPhys s h e.way
    let (rt, s) := eccRead st 6 15 ln s
    let s := match rt with
      | .clean => s
      | .uncorr => driveDown (report ((Blk.llc h).inst) 7 3 15 ln p 0x1FF 0 s)
      | _ => llcCorrect h p (report ((Blk.llc h).inst) 7 0 15 ln p 0x1FF 0 s)
    let (r, s) := eccRead st 6 14 ln s
    if r = .clean then s else
    let (d, po) := eccData r e.data e.poison
    let s := setLlc ln { e with data := d, poison := po, dirty := e.dirty || po } s
    if r = .uncorr then report ((Blk.llc h).inst) 7 1 14 ln p 0x1FF 0 s
    else llcCorrect h p (report ((Blk.llc h).inst) 7 0 14 ln p 0x1FF 0 s)

/-- The LLC's copy of a line is used. -/
def llcTouch (ln : Nat) (s : State) : State :=
  match s.llcAt ln with
  | none => s
  | some e => let (a, s) := newAge s; setLlc ln { e with age := a } s

/-- Store into the LLC arrays. -/
def llcStore (ln : Nat) (e : LEnt) (s : State) : State :=
  let st := tileStop (homeOf ln)
  let (a, s) := newAge s
  setLlc ln { e with age := a } (eccWrite st 6 15 ln (eccWrite st 6 14 ln s))

/-- Fill a line in class `k` (R250). With no eligible way left by a sweep, dirty data goes to memory. -/
def llcFill (ln k qport : Nat) (d : Line) (dirty po : Bool) (s : State) : State :=
  let h := homeOf ln
  let ways := eligible s h k
  let mates := s.fab.llc.filter (fun e => inSet h (lineSet ln) e.1)
  match ways.find? (fun w => !(mates.any (fun e => e.2.way == w))) with
  | some w => llcStore ln ⟨w, d, dirty, po, 0⟩ s
  | none =>
    let cand := mates.filter (fun e => ways.contains e.2.way)
    match cand.foldl (fun (b : Option (Nat × LEnt)) e => match b with
        | none => some e
        | some x => if e.2.age < x.2.age then some e else some x) none with
    | none => if dirty then memWrite ln qport d po false s else s
    | some v =>
      let s := llcCheck v.1 s
      let s := match s.llcAt v.1 with
        | some e => if e.dirty then unc (.llc h) 6 1 (memWrite v.1 qport e.data e.poison false s) else s
        | none => s
      llcStore ln ⟨v.2.way, d, dirty, po, 0⟩ (delLlc v.1 s)

/-- Dirty data reaches the home (R281 to R283): into the LLC copy in place if one exists; else allocated if `alloc`
holds; else to memory. -/
def putDirty (ln k qport : Nat) (d : Line) (po alloc : Bool) (s : State) : State :=
  match s.llcAt ln with
  | some e => llcStore ln { e with data := d, dirty := true, poison := po } s
  | none =>
    if alloc then unc (.llc (homeOf ln)) 5 1 (llcFill ln k qport d true po s)
    else memWrite ln qport d po false s

def fillDram (s : State) (h k : Nat) : Bool := bitOf (fclassReg s h k) 32
def fillVictim (s : State) (h k : Nat) : Bool := bitOf (fclassReg s h k) 33

/-- Remove a line from the LLC (R253): written back first unless `drop`. -/
def llcRemove (ln qport : Nat) (drop ack : Bool) (s : State) : Nat × State :=
  let s := llcCheck ln s
  match s.llcAt ln with
  | none => (0, s)
  | some e =>
    let s := delLlc ln s
    if e.dirty ∧ !drop then (1, memWrite ln qport e.data e.poison ack s) else (0, s)

/-- Every line leaves the way, a dirty one to memory. -/
def llcEmptyWay (h p : Nat) (s : State) : State :=
  ((s.fab.llc.filter (fun e => homeOf e.1 == h && llcPhys s h e.2.way == p)).map (·.1)).foldl (fun s ln => (llcRemove ln 0 false false s).2) s

/-- R265's steps 3 to 5: the way has failed, and a spare takes its place if there is one. -/
def llcFailWay (h p : Nat) (s : State) : State :=
  let lw := (List.range 12).find? (fun w => llcPhys s h w == p)
  let s := s.wf (.llc h) Off.LLC_WAYCFG (48 + p) (48 + p) 1
  let spare := llcSpare s h
  let s := match lw with
    | some w => s.wf (.llc h) Off.LLC_WAYCFG (4 * w + 3) (4 * w) (spare.getD 15)
    | none => s
  report ((Blk.llc h).inst) 9 (if spare.isSome then 0 else 1) 23 0 p 0x1FF 0 s

/-- The sweep has ended: the status register says what is in service. -/
def llcSwept (h : Nat) (s : State) : State :=
  let s := { s with fab := { s.fab with llcSweep := smDel s.fab.llcSweep h } }
  let s := s.wf (.llc h) Off.LLC_STATUS 0 0 0
  let s := s.wf (.llc h) Off.LLC_STATUS 5 5 (b2n (llcSpare s h).isNone)
  s.wf (.llc h) Off.LLC_STATUS 12 8 (llcWays s h)

/-- The next waiting sweep of the slice (R266). -/
def llcNextSweep (h : Nat) (s : State) : State :=
  match s.fab.llcSweepWait.find? (fun e => e.1 == h) with
  | none => s
  | some e =>
    let s := { s with fab := { s.fab with llcSweepWait := delFirst (fun x => x == e) s.fab.llcSweepWait } }
    if 100 ≤ e.2 then llcSweepStart h (e.2 - 100) false s else llcCrossing h e.2 s

/-! ## Warren entries (R254 to R259) -/

/-- Agents that an entry may name. -/
def WEnt.holders (e : WEnt) : List Nat :=
  if e.coarse then e.who.flatMap (fun g => (List.range 8).map (fun i => 8 * g + i)) else e.who

/-- Record one more sharer (R256). -/
def addSharer (h r : Nat) (e : WEnt) (s : State) : WEnt × State :=
  if e.coarse then ({ e with who := insNat (r / 8) e.who }, s)
  else if e.who.contains r then (e, s)
  else if e.who.length < 4 then ({ e with who := insNat r e.who }, s)
  else ({ e with coarse := true, who := (r :: e.who).foldl (fun l a => insNat (a / 8) l) [] }, unc (.llc h) 12 1 s)

/-- Ways that take new entries. -/
def warWays (s : State) (h : Nat) : List Nat :=
  (List.range 26).filter (fun w => bitOf (s.rd (.warren h) Off.WARREN_WAYCFG) w &&
    (match smFind s.fab.warrenSweep h with | some (x, _) => x != w | none => true))

def warInServ (s : State) (h : Nat) : Nat := popcount 26 (s.rf (.warren h) Off.WARREN_WAYCFG 25 0)
def warSpare (s : State) (h : Nat) : Option Nat :=
  let c := s.rd (.warren h) Off.WARREN_WAYCFG
  (List.range 26).find? (fun w => !bitOf c w && !bitOf c (32 + w))

def warSweepStart (h w : Nat) (steps : Bool) (s : State) : State :=
  let s := { s with fab := { s.fab with warrenSweep := smPut s.fab.warrenSweep h (w, steps) } }
  (s.wf (.warren h) Off.WARREN_STATUS 0 0 1).wf (.warren h) Off.WARREN_STATUS 5 1 w

def warCrossing (h w : Nat) (s : State) : State :=
  if warInServ s h ≤ 20 then report ((Blk.warren h).inst) 9 1 23 0 w 0x1FF 0 (s.wf (.warren h) Off.WARREN_STATUS 7 7 1)
  else if (smFind s.fab.warrenSweep h).isSome then { s with fab := { s.fab with warrenSweepWait := s.fab.warrenSweepWait ++ [(h, w)] } }
  else warSweepStart h w true s

/-- A correction in way `w` of the Warren slice. -/
def warCorrect (h w : Nat) (s : State) : State :=
  let sec := s.settTime / 1000000
  let cfg := s.rd (.warren h) Off.WARREN_WDCFG
  let (l, n) := wearStep s.fab.warrenHist h w sec (wdWindow cfg)
  let s := { s with fab := { s.fab with warrenHist := l } }
  let s := s.wr (.warren h) (Off.WARREN_WAYERR + 8 * w) (wayErrWord (s.rd (.warren h) (Off.WARREN_WAYERR + 8 * w)) n sec)
  let s := unc (.llc h) 15 1 s
  if n = wdThresh cfg ∧ wdAuto cfg then warCrossing h w s else s

/-- Read an entry through its checker; an uncorrectable one takes the domain down (R264). -/
def warCheck (ln : Nat) (s : State) : State :=
  match s.warAt ln with
  | none => s
  | some e =>
    let h := homeOf ln
    let (r, s) := eccRead (tileStop h) 7 16 ln s
    match r with
    | .clean => s
    | .uncorr => driveDown (report ((Blk.warren h).inst) 8 3 16 ln e.way 0x1FF 0 s)
    | _ => warCorrect h e.way (report ((Blk.warren h).inst) 8 0 16 ln e.way 0x1FF 0 s)

/-- Store an entry with its check bits. -/
def warPut (ln : Nat) (e : WEnt) (s : State) : State := setWar ln e (eccWrite (tileStop (homeOf ln)) 7 16 ln s)

/-- Store an entry that an admission uses: its age is renewed (R258). -/
def warStore (ln : Nat) (e : WEnt) (s : State) : State :=
  let (a, s) := newAge s
  warPut ln { e with age := a } s

/-- Send a snoop to each agent. -/
def sendSnoops (op ln : Nat) (who : List Nat) (s : State) : State :=
  unc (.llc (homeOf ln)) 8 who.length (who.foldl (fun s a => post op { agent := a, line := ln } s) s)

def newTxn (s : State) (op : Nat) (m : Msg) : Txn :=
  { op := op, req := m, owner := none, snoops := [], wbs := [], early := [], data := none, dirty := false, llc := false, peer := false,
    reading := false, writes := 0, wrData := false, ready := false, ack := none, keep := true, upg := false, hurt := false,
    since := s.tick, tmo := snpTmo s (homeOf m.line) }

/-- Trackers in use at a slice. -/
def trkUse (s : State) (h : Nat) : Nat := (s.fab.trackers.filter (fun e => homeOf e.1 == h)).length

/-- Move an entry into a back-invalidation tracker (R259). -/
def intoTracker (ln : Nat) (s : State) : State :=
  let s := warCheck ln s
  match s.warAt ln with
  | none => s
  | some e =>
    let h := homeOf ln
    let s := delWar ln s
    let t := { newTxn s 0 { agent := 0, line := ln } with snoops := e.holders, owner := if e.ex then e.who.head? else none }
    occ h (unc (.llc h) 7 1 (sendSnoops 0x42 ln e.holders (setTrk ln t s)))

/-- How a victim ranks (R258): fewest sharers, coarse above pointers, then the least recently used. -/
def victimKey (e : WEnt) : Nat := (if e.ex then 1 else if e.coarse then 100 + e.who.length else e.who.length) * 2 ^ 64 + e.age

/-- The entries of a set, and the way a new entry would take: a free way, or a victim, or neither. -/
def warChoice (s : State) (ln : Nat) : Option (Nat × Option Nat) :=
  let h := homeOf ln
  let ways := warWays s h
  let mates := s.fab.warren.filter (fun e => inSet h (lineSet ln) e.1)
  match ways.find? (fun w => !(mates.any (fun e => e.2.way == w))) with
  | some w => some (w, none)
  | none =>
    let cand := mates.filter (fun e => ways.contains e.2.way && !(s.txnAt e.1).isSome)
    match cand.foldl (fun (b : Option (Nat × WEnt)) e => match b with
        | none => some e
        | some x => if victimKey e.2 < victimKey x.2 then some e else some x) none with
    | none => none
    | some v => some (v.2.way, some v.1)

/-- Requests that install a line and so need an entry (R280). -/
def needsEntry (op : Nat) : Bool := op == 1 || op == 2 || op == 3 || op == 4 || op == 0x1A || op == 0x1B

/-- A request cannot be admitted now (R260). `ahead`: an older request to the set is queued. -/
def blocked (s : State) (op ln : Nat) (ahead : Bool) : Bool :=
  ahead || lineBusy s ln ||
    (needsEntry op && (s.warAt ln).isNone &&
      (match warChoice s ln with
        | none => true
        | some (_, some _) => decide (16 ≤ trkUse s (homeOf ln))
        | some (_, none) => false))

/-- Entries of the way move into trackers as BUSY and the trackers allow. -/
def warEmptyWay (h w : Nat) (s : State) : State :=
  let ls := (s.fab.warren.filter (fun e => homeOf e.1 == h && e.2.way == w)).map (·.1)
  ((ls.filter (fun ln => (s.txnAt ln).isNone)).take (16 - trkUse s h)).foldl (fun s ln => intoTracker ln s) s

/-- An entry of the way is left. -/
def warWayHeld (h w : Nat) (s : State) : Bool := s.fab.warren.any (fun e => homeOf e.1 == h && e.2.way == w)

/-- R265's steps 3 to 5 for a Warren way. -/
def warFailWay (h w : Nat) (s : State) : State :=
  let s := (s.wf (.warren h) Off.WARREN_WAYCFG w w 0).wf (.warren h) Off.WARREN_WAYCFG (32 + w) (32 + w) 1
  let spare := warSpare s h
  let s := match spare with | some x => s.wf (.warren h) Off.WARREN_WAYCFG x x 1 | none => s
  report ((Blk.warren h).inst) 9 (if spare.isSome then 0 else 1) 23 0 w 0x1FF 0 s

/-- The sweep has ended. -/
def warSwept (h : Nat) (s : State) : State :=
  let s := { s with fab := { s.fab with warrenSweep := smDel s.fab.warrenSweep h } }
  let s := s.wf (.warren h) Off.WARREN_STATUS 0 0 0
  let s := s.wf (.warren h) Off.WARREN_STATUS 6 6 (b2n (warSpare s h).isNone)
  s.wf (.warren h) Off.WARREN_STATUS 12 8 (warInServ s h)

/-- The next waiting sweep of the slice. -/
def warNextSweep (h : Nat) (s : State) : State :=
  match s.fab.warrenSweepWait.find? (fun e => e.1 == h) with
  | none => s
  | some e =>
    let s := { s with fab := { s.fab with warrenSweepWait := delFirst (fun x => x == e) s.fab.warrenSweepWait } }
    if 100 ≤ e.2 then warSweepStart h (e.2 - 100) false s else warCrossing h e.2 s

/-! ## The slice's waiting sources (R261, R263) -/

/-- The oldest queued request of a slice whose blocking conditions have cleared. -/
def readyQueued (s : State) (h : Nat) : List Queued → List Nat → Option Queued
  | [], _ => none
  | q :: l, sets =>
    if q.slice = h then
      (if blocked s q.op q.msg.line (sets.contains (lineSet q.msg.line)) then readyQueued s h l (lineSet q.msg.line :: sets) else some q)
    else readyQueued s h l sets

/-- A tracker of the slice can complete. -/
def trackerReady (s : State) (h : Nat) : Bool :=
  s.fab.trackers.any (fun e => homeOf e.1 == h && e.2.snoops.isEmpty && e.2.wbs.isEmpty)

/-- A message of a class stands at the slice's ejection port. -/
def atSlice (s : State) (h c : Nat) : Bool := (ejectHead s (tileStop h) 2 c).isSome

/-- A source of the slice waits that goes before source `k` of R263: 1 responses and data, 2 tracker completions, 3 retries, 4 new
requests, 5 background. -/
def aheadOf (s : State) (h k : Nat) : Bool :=
  (decide (1 < k) && (atSlice s h 2 || atSlice s h 3)) || (decide (2 < k) && trackerReady s h) ||
    (decide (3 < k) && (readyQueued s h s.fab.queue []).isSome) || (decide (4 < k) && atSlice s h 0)

/-- A slice's background step `me` does not get its turn: a source that always comes first waits, a request waits and it has not been
refused for 15 cycles, or the other background step's turn has come (R263). -/
def bgHeld (s : State) (h me : Nat) (other : Bool) : Bool :=
  aheadOf s h 3 || (aheadOf s h 5 && decide (smGet (fun _ => 0) s.fab.bgWait h < 15)) || (other && smGet (fun _ => 0) s.fab.bgLast h == me)

/-- The background steps of a slice have been refused once more. -/
def bgRefuse (h : Nat) (s : State) : State :=
  { s with fab := { s.fab with bgWait := smSet (fun _ => 0) s.fab.bgWait h (smGet (fun _ => 0) s.fab.bgWait h + 1), bgLast := smSet (fun _ => 0) s.fab.bgLast h 0 } }

/-- Background step `me` of a slice gets its turn. -/
def bgTake (h me : Nat) (s : State) : State :=
  { s with fab := { s.fab with bgWait := smSet (fun _ => 0) s.fab.bgWait h 0, bgLast := smSet (fun _ => 0) s.fab.bgLast h me } }

/-- One background step of a slice: 1 LLC sweep, 2 Warren sweep. -/
def background (h me : Nat) (other : Bool) (act : State → State) (s : State) : State :=
  if bgHeld s h me other then bgRefuse h s else act (bgTake h me s)

/-- LLC_SWEEP_END: lines leave the way; then R265's steps 3 to 5 and R266. -/
def endLlcSweep (h : Nat) (s : State) : State :=
  match smFind s.fab.llcSweep h with
  | none => s
  | some (p, steps) =>
    let s := llcEmptyWay h p s
    llcNextSweep h (llcSwept h (if steps then llcFailWay h p s else s))

/-- LLC_SWEEP_END (R263, R265). -/
def execLlcSweepEnd (slice : Nat) (s : State) : Res :=
  finish s (background slice 1 (smFind s.fab.warrenSweep slice).isSome (endLlcSweep slice) s)

/-- WARREN_SWEEP_END: the way empties as far as it can; once it is empty the sweep ends. -/
def endWarSweep (h : Nat) (s : State) : State :=
  match smFind s.fab.warrenSweep h with
  | none => s
  | some (w, steps) =>
    let s := warEmptyWay h w s
    if warWayHeld h w s then s
    else warNextSweep h (warSwept h (if steps then warFailWay h w s else s))

/-- WARREN_SWEEP_END (R263, R265). -/
def execWarrenSweepEnd (slice : Nat) (s : State) : Res :=
  finish s (background slice 2 (smFind s.fab.llcSweep slice).isSome (endWarSweep slice) s)

end Sys2Proof.Machine
end

