-- ==== Sys2Proof/Machine/Coherence.lean ====
section
/-! DEFINITION. The coherence protocol at the home (chapter 10): admission, transactions, trackers, and agents that
stop answering. -/
namespace Sys2Proof.Machine

/-! ## Messages that arrive -/

/-- REQ class of the home's requests and of memory's (R277, R304). -/
def isReq (op : Nat) : Bool := decide (op < 0x40)

/-- An older request of the same agent to the same home is still on its way (R274). -/
def overtakes (s : State) (op : Nat) (m : Msg) : Bool :=
  isReq op && (match (s.fab.net.takeWhile (fun e => !(e == (op, m)))).find? (fun e =>
    isReq e.1 && e.2.agent == m.agent && decide (e.1 < 0x20) && homeOf e.2.line == homeOf m.line) with
    | some _ => true
    | none => false)

/-- A flit from an agent this slice has recorded as dead is discarded and counted (R290). -/
def discardDead (h : Nat) (s : State) : State := s.incSat (.warren h) Off.DEAD_DISCARD 31 0

/-! ## Poisoned by death (R292, R293) -/

/-- The line is poisoned in the LLC copy, or in memory if there is none. -/
def poisonLine (ln : Nat) (s : State) : State :=
  let h := homeOf ln
  let s := report ((Blk.llc h).inst) 7 1 22 ln 0 0x1FF 0 s
  match s.llcAt ln with
  | some e => setLlc ln { e with dirty := true, poison := true } s
  | none => memWrite ln 0 (memLine s ln) true false s

/-- The line as the home can read it after `poisonLine`. -/
def homeLine (s : State) (ln : Nat) : Line := match s.llcAt ln with | some e => e.data | none => memLine s ln

/-! ## Transactions -/

/-- A reply to the requester, unless this slice has recorded it as dead (R292). -/
def reply (op : Nat) (t : Txn) (f : Msg → Msg) (s : State) : State :=
  if s.deadAtSlice (homeOf t.req.line) t.req.agent then s
  else post op (f { agent := t.req.agent, line := t.req.line, txn := t.req.txn, lid := t.req.lid, gen := t.req.gen }) s

/-- A full byte mask. -/
def fullMask : BitVec 64 := BitVec.allOnes 64

/-- Bytes and mask that a write request writes (R278, R283). -/
def writeMask (op : Nat) (m : Msg) : BitVec 64 :=
  if op = 0x15 then placeMask (m.arg % 64) (2 ^ (m.arg / 64 % 4)) else m.mask

/-- Whether the operation needs the line's old data. -/
def needsData (s : State) (t : Txn) : Bool :=
  let op := t.op
  if op = 1 ∨ op = 2 ∨ op = 0x1B ∨ op = 0x10 ∨ op = 0x14 ∨ op = 0x18 then true
  else if op = 3 then !t.upg
  else if op = 0x15 ∨ op = 0x16 ∨ op = 0x19 then !t.hurt && writeMask op t.req != fullMask && (s.llcAt t.req.line).isNone
  else false

/-- The far ALU (R278): the new value of `n` bytes. -/
def faOp (op n old src : Nat) : Nat :=
  let sg := fun (v : Nat) => if 2 ^ (8 * n - 1) ≤ v then (v : Int) - 2 ^ (8 * n) else (v : Int)
  (match op with
  | 0 => src
  | 1 => old + src
  | 2 => old ^^^ src
  | 3 => old &&& src
  | 4 => old ||| src
  | 5 => if sg old ≤ sg src then old else src
  | 6 => if sg old ≤ sg src then src else old
  | 7 => min old src
  | _ => max old src) % 2 ^ (8 * n)

/-- Record what the requester now holds, and send its grant (R280). -/
def grantLine (ln : Nat) (t : Txn) (st : Nat) (withData : Bool) (s : State) : State :=
  let h := homeOf ln
  let r := t.req.agent
  let old := s.warAt ln
  let base : WEnt := match old with | some e => e | none => ⟨0, false, false, [], 0⟩
  let s := if st = 1 then
      let e0 : WEnt := { base with ex := false, coarse := if base.ex then false else base.coarse, who := if base.ex then (if t.keep then base.who else []) else base.who }
      let (e1, s) := addSharer h r e0 s
      warPut ln e1 s
    else warPut ln { base with ex := true, coarse := false, who := [r] } s
  let s := if withData then
      reply 0xC0 t (fun m => { m with
        arg := st + 4 * b2n t.llc, mask := if t.peer then 1 else 0
        data := (t.data.getD (0, false)).1, poison := (t.data.getD (0, false)).2 }) s
    else reply 0x82 t id s
  setTxn ln { t with ready := true, ack := some st, since := s.tick, tmo := snpTmo s h } s

/-- The transaction closes: BUSY clears (R257). -/
def closeTxn (ln : Nat) (s : State) : State := delTxn ln s

/-- Free the entry and close. -/
def freeClose (ln : Nat) (s : State) : State := closeTxn ln (delWar ln s)

/-- A far AMO performs (R150, R153, R278). -/
def performAmo (ln : Nat) (t : Txn) (s : State) : State :=
  let (d, po) := t.data.getD (0, false)
  let op := t.req.arg % 16
  let n := if t.req.arg / 16 % 2 = 1 then 8 else 4
  let o := t.req.arg / 32 % 64
  let old := lineNat d o n
  if po then
    let s := if t.dirty then putDirty ln t.req.fclass t.req.qport d true true s else s
    freeClose ln (reply 0xC4 t (fun m => { m with data := BitVec.ofNat 512 old, poison := true }) s)
  else
    let fail := op = 9 ∧ old ≠ lineNat t.req.data 0 4
    let new := if op = 9 then lineNat t.req.data 4 4 else faOp op n old (lineNat t.req.data 0 n)
    let d' := if fail then d else lineMerge d (placeBytes o (leBytes n new)) (placeMask o n)
    let s := unc (.llc (homeOf ln)) 11 1 s
    let s := match s.llcAt ln with
      | some e => if fail ∧ !t.dirty then llcTouch ln s else llcStore ln { e with data := d', dirty := true, poison := false } s
      | none => llcFill ln t.req.fclass t.req.qport d' (t.dirty || !fail) false s
    freeClose ln (reply 0xC4 t (fun m => { m with data := BitVec.ofNat 512 old, arg := b2n fail }) s)

/-- A write at the home (R283, R284). -/
def performWrite (ln : Nat) (t : Txn) (s : State) : State :=
  let m := t.req
  let s := if t.hurt then
      (match t.data with
        | some (d, po) => if t.dirty then putDirty ln m.fclass m.qport d po false s else s
        | none => s)
    else s
  if t.hurt then freeClose ln s else
  let mask := writeMask t.op m
  let full := mask = fullMask
  let s := if t.dirty then
      (match s.llcAt ln, t.data with
        | some e, some (d, po) => setLlc ln { e with data := d, poison := po, dirty := true } s
        | _, _ => s)
    else llcCheck ln s
  match s.llcAt ln with
  | some e =>
    let s := llcStore ln { e with data := lineMerge e.data m.data mask, dirty := true, poison := (if full then m.poison else e.poison || m.poison) } s
    freeClose ln (reply 0x84 t id s)
  | none =>
    let (d, po) := t.data.getD (0, false)
    let s := memWrite ln m.qport (lineMerge d m.data mask) (if full then m.poison else po || m.poison) true s
    setTxn ln { t with ready := true, writes := t.writes + 1 } s

/-- CbClean and CbFlush (R283). -/
def performClean (ln : Nat) (t : Txn) (s : State) : State :=
  let m := t.req
  let flush := t.op = 0x0D
  let s := llcCheck ln s
  -- dirty data from a holder joins the LLC copy, or goes to memory
  let newer := if t.dirty then t.data else none
  let (n, s) : Nat × State := match s.llcAt ln with
    | some e =>
      let d := match newer with | some x => x.1 | none => e.data
      let po := match newer with | some x => x.2 | none => e.poison
      let dirty := e.dirty || newer.isSome
      let s := if flush then delLlc ln s else llcStore ln { e with data := d, poison := po, dirty := false } s
      if dirty then (1, memWrite ln m.qport d po true s) else (0, s)
    | none => (match newer with
        | some x => (1, memWrite ln m.qport x.1 x.2 true s)
        | none => (0, s))
  let s := if flush then delWar ln s else s
  if n = 0 then closeTxn ln (reply 0x84 t id s) else setTxn ln { t with ready := true, writes := n } s

/-- Everything awaited has arrived: perform the operation. -/
def perform (ln : Nat) (t : Txn) (s : State) : State :=
  let h := homeOf ln
  let m := t.req
  let op := t.op
  if op = 1 then
    let s := if t.dirty then
        (match t.data with | some (d, po) => putDirty ln m.fclass m.qport d po (fillVictim s h m.fclass) s | none => s)
      else s
    let none_ : Bool := match s.warAt ln with | some e => e.who.isEmpty | none => true
    grantLine ln t (if none_ ∧ m.arg % 2 = 0 then 2 else 1) true s
  else if op = 2 ∨ op = 0x1B ∨ (op = 3 ∧ !t.upg) then grantLine ln t (if t.dirty then 3 else 2) true s
  else if op = 3 ∨ op = 4 ∨ op = 0x1A then grantLine ln t 2 false s
  else if op = 0x0C ∨ op = 0x0D then performClean ln t s
  else if op = 0x0E then freeClose ln (reply 0x84 t id (delLlc ln s))
  else if op = 0x10 then performAmo ln t s
  else if op = 0x14 ∨ op = 0x18 then
    closeTxn ln (reply 0xC5 t (fun q => { q with data := (t.data.getD (0, false)).1, poison := (t.data.getD (0, false)).2, arg := m.arg }) s)
  else performWrite ln t s

/-- The line's data from the LLC, or a read of memory (R280). -/
def seekData (ln : Nat) (t : Txn) (s : State) : State :=
  let h := homeOf ln
  let s := llcCheck ln s
  match s.llcAt ln with
  | some e =>
    let s := unc (.llc h) 2 1 (llcTouch ln s)
    setTxn ln { t with data := some (e.data, e.poison), llc := true } s
  | none => setTxn ln { t with reading := true } (memRead ln t.req.qport (unc (.llc h) 3 1 s))

/-- Go on with the line's transaction as far as it can. -/
def proceed (ln : Nat) (s : State) : State :=
  match s.txnAt ln with
  | none => s
  | some t =>
    if t.ready then
      (if t.writes = 0 ∧ t.ack.isNone then
        (if t.op = 0x0C then closeTxn ln (reply 0x84 t id s) else freeClose ln (reply 0x84 t id s))
       else s)
    else if !t.snoops.isEmpty ∨ !t.wbs.isEmpty ∨ t.reading ∨ t.wrData then s
    else if needsData s t ∧ t.data.isNone then
      let s := seekData ln t s
      match s.txnAt ln with
      | some t => if t.reading then s else perform ln t s
      | none => s
    else perform ln t s

/-- Snoop opcode and targets of a request, by the recorded entry (R280, R283). -/
def snoopPlan (op r : Nat) (e : Option WEnt) : Nat × List Nat :=
  match e with
  | none => (0, [])
  | some e =>
    let all := e.holders
    let others := all.filter (· != r)
    if op = 1 then (if e.ex then (0x40, others) else (0, []))
    else if op = 2 ∨ op = 3 ∨ op = 0x1B then (if e.ex then (0x41, others) else (0x42, others))
    else if op = 4 ∨ op = 0x1A then (0x43, others)
    else if op = 0x0C then (0x44, all)
    else if op = 0x0E then (0x43, all)
    else if op = 0x14 ∨ op = 0x18 then (0x45, all)
    else (0x42, all)

/-- The line's Warren entry, if it has one, becomes the youngest (R258). -/
def renewed (ln : Nat) (s : State) : State :=
  match s.warAt ln with
  | some e => let (a, s) := newAge s; setWar ln { e with age := a } s
  | none => s

/-- Admission of an eviction (R282) or of a port's commit (R285). -/
def admitEvict (op : Nat) (m : Msg) (s : State) : State :=
  let ln := m.line
  let h := homeOf ln
  let r := m.agent
  let t := newTxn s op m
  let s := renewed ln s
  let s := match s.warAt ln with
    | none => s
    | some e =>
      if e.ex ∧ e.who = [r] then
        let s := if op = 0x09 then putDirty ln m.fclass m.qport m.data m.poison (fillVictim s h m.fclass) s
          else if op = 0x1C then putDirty ln m.fclass m.qport m.data m.poison false s else s
        delWar ln s
      else if op = 0x08 ∧ !e.ex ∧ !e.coarse ∧ e.who.contains r then
        (if e.who.length ≤ 1 then delWar ln s else setWar ln { e with who := e.who.filter (· != r) } s)
      else s
  reply (if op = 0x1C then 0x84 else 0x85) t id s

/-- A request counts as it is admitted, and its Warren entry is read (R264). -/
def counted (op : Nat) (m : Msg) (s : State) : State :=
  let h := homeOf m.line
  let s := unc (.llc h) 1 1 s
  let s := if 0x18 ≤ op then unc (.llc h) 14 1 s else if 0x14 ≤ op then unc (.llc h) 13 1 s else s
  warCheck m.line s

/-- The request's Warren entry: one is taken where it needs one and has none, with the victim's moved into a tracker
(R258, R259); an entry that stands is used. -/
def entryFor (op ln : Nat) (s : State) : State :=
  match s.warAt ln with
  | some _ => renewed ln s
  | none =>
    if needsEntry op then
      (match warChoice s ln with
        | some (w, v) =>
          let s := match v with | some x => intoTracker x s | none => s
          warStore ln ⟨w, false, false, [], 0⟩ s
        | none => s)
    else s

/-- The transaction that a request opens on a line whose recorded entry is `e`. -/
def opened (op : Nat) (m : Msg) (e : Option WEnt) (s : State) : Txn :=
  { newTxn s op m with
    owner := (match e with | some e => if e.ex then e.who.head? else none | none => none)
    snoops := (snoopPlan op m.agent e).2
    upg := (op == 3) && (match e with | some e => !e.ex && !e.coarse && e.who.contains m.agent | none => false)
    wrData := op == 0x16 }

/-- Admit a request (R257, R274): the entry is set BUSY and the snoops go out; a UcWrM is told to send its data; with no
EX holder the data is sought at once. -/
def takeReq (op : Nat) (m : Msg) (s : State) : State :=
  let ln := m.line
  let s := counted op m s
  if op = 0x08 ∨ op = 0x09 ∨ op = 0x1C then admitEvict op m s else
  let before := s.warAt ln
  let s := entryFor op ln s
  let t := opened op m before s
  let s := setTxn ln t (sendSnoops (snoopPlan op m.agent before).1 ln t.snoops s)
  let s := if op = 0x16 then reply 0x83 t id s else s
  let s := if t.owner.isNone ∧ needsData s t ∧ !t.wrData then seekData ln t s else s
  proceed ln s

/-- A request at the slice's REQ ejection port (R260, R261, R263): admitted, queued, or left where it is while the queue is
full or another source goes first. -/
def homeReq (op : Nat) (m : Msg) (s : State) : State :=
  if inTransit s op m || overtakes s op m then s else
  -- a UcWr whose size crosses its line, or a reserved OP (R279)
  if (op = 0x15 ∧ 64 < m.arg % 64 + 2 ^ (m.arg / 64 % 4)) ∨ (op = 0x10 ∧ 9 < m.arg % 16) then driveDown (takeNet op m s) else
  let h := homeOf m.line
  if s.deadAtSlice h m.agent then discardDead h (takeNet op m s) else
  if aheadOf s h 4 ∨ 64 ≤ (s.fab.queue.filter (fun e => e.slice == h)).length then s else
  let s := takeNet op m s
  let ahead := s.fab.queue.any (fun e => e.slice == h && lineSet e.msg.line == lineSet m.line)
  if blocked s op m.line ahead then
    let s := unc (.llc h) 9 1 s
    occ h { s with fab := { s.fab with queue := s.fab.queue ++ [⟨op, m, h, s.tick⟩] } }
  else takeReq op m s

/-- HOME_RETRY_ADMIT. -/
def retryAdmit (h : Nat) (s : State) : State :=
  if aheadOf s h 3 then s else
  match readyQueued s h s.fab.queue [] with
  | none => s
  | some q =>
    let wait := (s.tick - q.tick) * meshPerTick s
    let s := { s with fab := { s.fab with queue := s.fab.queue.erase q } }
    let s := if s.rf (.warren h) Off.RQ_MAXWAIT 31 0 < wait then s.wf (.warren h) Off.RQ_MAXWAIT 31 0 (min 0xFFFFFFFF wait) else s
    takeReq q.op q.msg (occ h s)

/-- HOME_RETRY_ADMIT (R261). -/
def execHomeRetryAdmit (slice : Nat) (s : State) : Res := finish s (retryAdmit slice s)

/-- RDS (R280). -/
def execRds (m : Msg) (s : State) : Res := finish s (homeReq 0x01 m s)
/-- RDX (R280). -/
def execRdx (m : Msg) (s : State) : Res := finish s (homeReq 0x02 m s)
/-- UPG (R280). -/
def execUpg (m : Msg) (s : State) : Res := finish s (homeReq 0x03 m s)
/-- OWN_ND (R280). -/
def execOwnNd (m : Msg) (s : State) : Res := finish s (homeReq 0x04 m s)
/-- EVC (R282). -/
def execEvc (m : Msg) (s : State) : Res := finish s (homeReq 0x08 m s)
/-- EVD (R282). -/
def execEvd (m : Msg) (s : State) : Res := finish s (homeReq 0x09 m s)
/-- CB_CLEAN (R283). -/
def execCbClean (m : Msg) (s : State) : Res := finish s (homeReq 0x0C m s)
/-- CB_FLUSH (R283). -/
def execCbFlush (m : Msg) (s : State) : Res := finish s (homeReq 0x0D m s)
/-- CB_INVAL (R283). -/
def execCbInval (m : Msg) (s : State) : Res := finish s (homeReq 0x0E m s)
/-- FAMO (R150, R283). -/
def execFamo (m : Msg) (s : State) : Res := finish s (homeReq 0x10 m s)
/-- UC_RD (R283). -/
def execUcRd (m : Msg) (s : State) : Res := finish s (homeReq 0x14 m s)
/-- UC_WR (R283). -/
def execUcWr (m : Msg) (s : State) : Res := finish s (homeReq 0x15 m s)
/-- UC_WR_M (R284). -/
def execUcWrM (m : Msg) (s : State) : Res := finish s (homeReq 0x16 m s)
/-- IO_RD (R283). -/
def execIoRd (m : Msg) (s : State) : Res := finish s (homeReq 0x18 m s)
/-- IO_WR (R285). -/
def execIoWr (m : Msg) (s : State) : Res := finish s (homeReq 0x19 m s)
/-- IO_OWN (R285). -/
def execIoOwn (m : Msg) (s : State) : Res := finish s (homeReq 0x1A m s)
/-- IO_OWN_D (R285). -/
def execIoOwnD (m : Msg) (s : State) : Res := finish s (homeReq 0x1B m s)
/-- IO_WB (R285). -/
def execIoWb (m : Msg) (s : State) : Res := finish s (homeReq 0x1C m s)

/-! ## Answers at the home -/

/-- Change the transaction or tracker of a line. -/
def modOpen (ln : Nat) (f : Txn → Txn) (s : State) : State :=
  match s.txnAt ln with
  | some t => setTxn ln (f t) s
  | none => match s.trkAt ln with | some t => setTrk ln (f t) s | none => s

def openAt (s : State) (ln : Nat) : Option Txn := match s.txnAt ln with | some t => some t | none => s.trkAt ln

/-- A flit from a dead agent, or one that nothing awaits. -/
def stray (m : Msg) (s : State) : State :=
  let h := homeOf m.line
  if s.deadAtSlice h m.agent then discardDead h s else s

/-- SNP_RSP. -/
def snpRsp (m : Msg) : State → State := arrive 0x80 m fun s =>
  let h := homeOf m.line
  let a := m.agent
  match openAt s m.line with
  | none => stray m s
  | some t =>
    if !t.snoops.contains a ∨ (s.deadAtSlice h a ∧ m.arg / 16 % 2 = 0) then stray m s else
    let held := m.arg % 2 = 1
    let dat := m.arg / 2 % 2 = 1
    let wbb := m.arg / 8 % 2 = 1
    let lost := m.arg / 16 % 2 = 1
    let own := t.owner = some a
    let s := if lost ∧ own then poisonLine m.line s else s
    let hurtData := some (homeLine s m.line, true)
    let s := modOpen m.line (fun t => { t with
      snoops := t.snoops.erase a
      wbs := if dat && !t.early.contains a then t.wbs ++ [a] else t.wbs
      early := t.early.erase a
      -- a port gives the line up: it is never a sharer (R256, R285)
      keep := t.keep && !(own && (!held || wbb || 272 ≤ a))
      data := if lost && own then hurtData else t.data }) s
    proceed m.line s

/-- SNP_RSP (R280). -/
def execSnpRsp (m : Msg) (s : State) : Res := finish s (snpRsp m s)

/-- WB_DATA. -/
def wbData (m : Msg) : State → State := arrive 0xC2 m fun s =>
  let a := m.agent
  match openAt s m.line with
  | none => stray m s
  | some t =>
    if s.deadAtSlice (homeOf m.line) a ∨ (!t.snoops.contains a ∧ !t.wbs.contains a) then stray m s else
    let s := modOpen m.line (fun t => { t with
      wbs := t.wbs.erase a
      early := if t.wbs.contains a then t.early else t.early ++ [a]
      data := some (m.data, m.poison)
      peer := true
      dirty := t.dirty || (m.arg % 2 == 1) }) s
    proceed m.line s

/-- WB_DATA (R281). -/
def execWbData (m : Msg) (s : State) : Res := finish s (wbData m s)

/-- CMP_ACK. -/
def cmpAck (m : Msg) : State → State := arrive 0x81 m fun s =>
  match s.txnAt m.line with
  | some t =>
    if t.ack.isSome ∧ t.req.agent = m.agent ∧ !s.deadAtSlice (homeOf m.line) m.agent then closeTxn m.line s else stray m s
  | none => stray m s

/-- CMP_ACK (R280). -/
def execCmpAck (m : Msg) (s : State) : Res := finish s (cmpAck m s)

/-- WR_DATA: the data after WrGo. -/
def wrDataArr (m : Msg) : State → State := arrive 0xC3 m fun s =>
  match s.txnAt m.line with
  | some t =>
    if t.wrData ∧ t.req.agent = m.agent ∧ !s.deadAtSlice (homeOf m.line) m.agent then
      proceed m.line (setTxn m.line { t with wrData := false, req := { t.req with data := m.data, poison := m.poison } } s)
    else stray m s
  | none => stray m s

/-- WR_DATA (R284). -/
def execWrData (m : Msg) (s : State) : Res := finish s (wrDataArr m s)

/-- MDATA: read data reaches the home, which fills the LLC under R249. Data for a slice that was reset since is
discarded (R325). -/
def mdata (m : Msg) : State → State := arrive 0xC8 m fun s =>
  let ln := m.line
  let h := homeOf ln
  match s.txnAt ln with
  | none => s
  | some t =>
    if !t.reading then s else
    let fill := t.op = 0x10 ∨ ((t.op = 1 ∨ t.op = 2 ∨ t.op = 3 ∨ t.op = 0x1B) ∧ fillDram s h t.req.fclass)
    let s := setTxn ln { t with reading := false, data := some (m.data, m.poison) } s
    let s := if fill then unc (.llc h) 4 1 (llcFill ln t.req.fclass t.req.qport m.data false m.poison s) else s
    proceed ln s

/-- MDATA (R305). -/
def execMdata (m : Msg) (s : State) : Res := finish s (mdata m s)

/-- MCMP: a write was accepted. -/
def mcmp (m : Msg) : State → State := arrive 0x88 m fun s =>
  match s.txnAt m.line with
  | some t => proceed m.line (setTxn m.line { t with writes := t.writes - 1 } s)
  | none => s

/-- MCMP (R304). -/
def execMcmp (m : Msg) (s : State) : Res := finish s (mcmp m s)

/-- TRACKER_COMPLETE: once every response is in, dirty data is written and the tracker frees. -/
def trackerComplete (ln : Nat) (s : State) : State :=
  match s.trkAt ln with
  | none => s
  | some t =>
    if !t.snoops.isEmpty ∨ !t.wbs.isEmpty ∨ aheadOf s (homeOf ln) 2 then s else
    let s := if t.dirty then
        (match t.data with | some (d, po) => putDirty ln 0 0 d po false s | none => s)
      else s
    occ (homeOf ln) (delTrk ln s)

/-- TRACKER_COMPLETE (R259). -/
def execTrackerComplete (line : Nat) (s : State) : Res := finish s (trackerComplete line s)

/-! ## Dead agents (R289 to R295) -/

/-- End one line's waits on the agent (R292). -/
def endWait (a ln : Nat) (s : State) : State :=
  match openAt s ln with
  | none => s
  | some t =>
    let s := if t.snoops.contains a ∨ t.wbs.contains a then
        let own := t.owner = some a
        let s := if own then poisonLine ln s else s
        let d := some (homeLine s ln, true)
        let s := modOpen ln (fun t => { t with
          snoops := t.snoops.erase a, wbs := t.wbs.erase a, keep := t.keep && !own,
          dirty := t.dirty && !own, data := if own then d else t.data }) s
        proceed ln s
      else s
    match s.txnAt ln with
    | none => s
    | some t =>
      if t.req.agent ≠ a then s
      else match t.ack with
        | some 1 =>
          let s := match s.warAt ln with
            | some e => if e.coarse then s
                else if e.who = [a] then delWar ln s else setWar ln { e with who := e.who.filter (· != a) } s
            | none => s
          closeTxn ln s
        | some _ => freeClose ln (poisonLine ln s)
        | none => if t.wrData then proceed ln (setTxn ln { t with wrData := false, hurt := true } s) else s

/-- A slice records the agent as dead: its queued requests are discarded and its waits end. -/
def sliceDead (h a : Nat) (s : State) : State :=
  if s.deadAtSlice h a then s else
  let s := { s with fab := { s.fab with deadAt := insNat (512 * h + a) s.fab.deadAt } }
  let gone := s.fab.queue.filter (fun q => q.slice == h && q.msg.agent == a)
  let s := { s with fab := { s.fab with queue := s.fab.queue.filter (fun q => !(q.slice == h && q.msg.agent == a)) } }
  let s := gone.foldl (fun s _ => discardDead h s) (occ h s)
  let lines := (s.fab.txns.map (·.1) ++ s.fab.trackers.map (·.1)).filter (fun ln => homeOf ln == h)
  lines.foldl (fun s ln => endWait a ln s) s

/-- SNOOP_TIMEOUT: the home's wait on `a` for the line closes late. -/
def snoopTimeout (ln a : Nat) (s : State) : State :=
  match openAt s ln with
  | none => s
  | some t =>
    let waits := t.snoops.contains a ∨ t.wbs.contains a ∨ (t.req.agent = a ∧ (t.ack.isSome ∨ t.wrData))
    if !(decide waits) then s else
    let s := s.toTick (t.since + meshTicks s (2 ^ t.tmo))
    let h := homeOf ln
    if s.deadAtSlice h a then endWait a ln s else
    -- DEAD_NOTE to BCHUB
    post 0xE0 { agent := a, line := h } (sliceDead h a s)

/-- SNOOP_TIMEOUT (R289). -/
def execSnoopTimeout (line agent : Nat) (s : State) : Res := finish s (snoopTimeout line agent s)

/-- REQUESTER_TIMEOUT: a core's miss register without reply, or a controller that does not answer a home
(`agent` a stop index plus 512), past its window. -/
def requesterTimeout (a txn : Nat) (s : State) : State :=
  if 512 ≤ a then
    (match s.txnAt txn with
      | some t => if t.reading ∨ 0 < t.writes then driveDown (s.toTick (t.since + meshTicks s (2 ^ t.tmo))) else s
      | none => s)
  else
    match (s.core a).mrs.find? (fun r => r.txn == txn && r.op != 0) with
    | some r => driveDown (s.toTick (r.sent + meshTicks s (2 ^ (r.tmo + 7))))
    | none => s

/-- DEAD_NOTE: BCHUB takes a home's declaration (R290, steps 2 and 3). -/
def deadNote (h a : Nat) : State → State := arrive 0xE0 { agent := a, line := h } (hubDeclare a)

/-- DEAD_NOTE. -/
def execDeadNote (slice agent : Nat) (s : State) : Res := finish s (deadNote slice agent s)

/-- A sweep starts at a slice, or waits for its turn (R293, R295). -/
def startReclaim (h a : Nat) (s : State) : State :=
  if s.rf (.warren h) Off.RECLAIM 0 0 = 1 then
    { s with fab := { s.fab with reclaimWait := s.fab.reclaimWait ++ [(h, a)] } }
  else
    let s := { s with fab := { s.fab with reclaims := s.fab.reclaims ++ [(⟨h, a, s.tick, 0⟩ : Reclaim)] } }
    s.wr (.warren h) Off.RECLAIM (BitVec.ofNat 64 (1 + 2 * a))

/-- One entry's share of the sweep. -/
def reclaimEntry (a ln : Nat) (s : State) : Nat × State :=
  match s.warAt ln with
  | none => (0, s)
  | some e =>
    if e.coarse ∨ !e.who.contains a then (0, s)
    else if e.ex then (1, delWar ln (poisonLine ln s))
    else if e.who.length ≤ 1 then (0, delWar ln s)
    else (0, setWar ln { e with who := e.who.filter (· != a) } s)

/-- The sweep visits every entry of the slice that is not BUSY: lines poisoned. -/
def reclaimVisit (h a : Nat) (s : State) : Nat × State :=
  (((s.fab.warren.map (·.1)).filter (fun ln => homeOf ln == h)).filter (fun ln => (s.txnAt ln).isNone)).foldl
    (fun (b : Nat × State) ln => let (k, s) := reclaimEntry a ln b.2; (b.1 + k, s)) (0, s)

/-- A BUSY entry of the slice names the agent. -/
def reclaimLeft (h a : Nat) (s : State) : Bool :=
  s.fab.warren.any (fun e => homeOf e.1 == h && !e.2.coarse && e.2.who.contains a && (s.txnAt e.1).isSome)

/-- The next waiting sweep of the slice. -/
def nextReclaim (h : Nat) (s : State) : State :=
  match s.fab.reclaimWait.find? (fun w => w.1 == h) with
  | none => s
  | some w => startReclaim h w.2 { s with fab := { s.fab with reclaimWait := s.fab.reclaimWait.erase w } }

/-- RECLAIM_SWEEP_END: every entry that is not BUSY is visited; the sweep ends once no BUSY one names the agent. -/
def reclaimEnd (h : Nat) (s : State) : State :=
  match s.fab.reclaims.find? (fun r => r.slice == h) with
  | none => s
  | some r =>
    let (n, s) := reclaimVisit h r.agent s
    let n := min 0xFFFF (r.poisoned + n)
    if reclaimLeft h r.agent s then
      { s with fab := { s.fab with reclaims := s.fab.reclaims.map (fun x => if x.slice = h then { x with poisoned := n } else x) } }
    else
      let cyc := min 0xFFFFFFFF ((s.tick - r.start) * meshPerTick s)
      let s := s.wr (.warren h) Off.RECLAIM (BitVec.ofNat 64 (2 * r.agent + n <<< 16 + cyc <<< 32))
      let s := { s with fab := { s.fab with reclaims := s.fab.reclaims.filter (fun x => x.slice != h) } }
      nextReclaim h (post 0xE2 { agent := r.agent, line := h } s)

/-- RECLAIM_SWEEP_END (R294). -/
def execReclaimSweepEnd (slice : Nat) (s : State) : Res := finish s (reclaimEnd slice s)

/-- SWEEP_DONE: BCHUB counts it; the last of every declared agent ends RECOVERY (R290, step 5). -/
def sweepDone (h a : Nat) : State → State := arrive 0xE2 { agent := a, line := h } fun s =>
  let hub := s.fab.hub
  if !(hub.sweeps.any (fun w => w.1 == a && w.2.contains h)) then s else
  let sw := (hub.sweeps.map (fun w => if w.1 = a then (w.1, w.2.erase h) else w)).filter (fun w => !w.2.isEmpty)
  let s := { s with fab := { s.fab with hub := { hub with sweeps := sw } } }
  let left := match sw with | [] => 0 | w :: _ => w.2.length
  let s := s.wf .bchub Off.RECOVERY 17 10 left
  if sw.isEmpty then setMode 6 false (s.wf .bchub Off.RECOVERY 0 0 0) else s

/-- SWEEP_DONE. -/
def execSweepDone (slice agent : Nat) (s : State) : Res := finish s (sweepDone slice agent s)

end Sys2Proof.Machine
end

