-- ==== Sys2Proof/Machine/Xlate.lean ====
section
/-! DEFINITION. Translation (chapter 06): the TLBs, extents, permissions and the region check. -/
namespace Sys2Proof.Machine

/-! ## Access classes -/

/-- Read, write and fetch permission an access needs, and the exceptions it raises (R117, R174). -/
structure Acc' where
  r : Bool
  w : Bool
  x : Bool
  /-- KIND of R176 -/
  kind : Nat
  ext : Nat
  page : Nat
  access : Nat
deriving DecidableEq, Repr

def accFetch : Acc' := ⟨false, false, true, 0, 0x14, 0x0C, 0x01⟩
def accLoad : Acc' := ⟨true, false, false, 1, 0x15, 0x0D, 0x05⟩
/-- LR: a read whose access faults are store faults (R117). -/
def accLr : Acc' := ⟨true, false, false, 1, 0x15, 0x0D, 0x07⟩
def accStore : Acc' := ⟨false, true, false, 2, 0x16, 0x0F, 0x07⟩
def accAmo : Acc' := ⟨true, true, false, 2, 0x16, 0x0F, 0x07⟩
/-- cbo.clean, cbo.flush, and cbo.inval at U or K: read permission, store faults (R105). -/
def accCbo : Acc' := ⟨true, false, false, 1, 0x16, 0x0F, 0x07⟩

/-! ## Regions a core may reach (R25, R44) -/

/-- An address in a region that holds nothing, as a core sees it (R25). -/
def State.holdsNothing (s : State) (a : Nat) : Bool :=
  match s.region a with
  | .unmapped => true
  | .pcieWin p => !s.pwr.ioOn || (p == 8 && !s.pwr.tpRoot)
  | .ecam p => !s.pwr.ioOn || (p == 8 && !s.pwr.tpRoot)
  | _ => false

/-- Hoard bank 32 outside the mailboxes admitted at a level (R44). -/
def bank32Refused (l : Lvl) (a : Nat) : Bool :=
  decide (bank32 ≤ a) && decide (a < bank32 + 0x100000) &&
  !((decide (a < bank32 + 0x2000) && l == .m) ||
    (decide (bank32 + 0x2000 ≤ a) && decide (a < bank32 + 0x4000) && (l == .m || l == .h)))

/-- An address that a core's reads and writes at this level cannot reach at all. -/
def unreachable (s : State) (l : Lvl) (a : Nat) : Bool := s.holdsNothing a || bank32Refused l a

/-! ## The L2 TLB (R170, R171) -/

/-- Bank of a size, and the largest size of a bank. -/
def bankOf (sz : Nat) : Nat := if sz ≤ 13 then 0 else if sz ≤ 17 then 1 else if sz ≤ 21 then 2 else if sz ≤ 26 then 3 else if sz ≤ 31 then 4 else 5
def bankMax : Nat → Nat | 0 => 13 | 1 => 17 | 2 => 21 | 3 => 26 | 4 => 31 | _ => 46

/-- XOR of the 6-bit groups of a number. -/
def fold6 : Nat → Nat → Nat
  | 0, _ => 0
  | n + 1, v => (v % 64) ^^^ fold6 n (v / 64)

/-- Set of a VA and LID within a bank (R170). -/
def tlbSet (bank va lid : Nat) : Nat := (lid % 64) ^^^ fold6 8 ((va % 2 ^ 48) / 2 ^ bankMax bank)

def Core.tlbAt (c : Core) (slot : Nat) : TlbEnt := smGet (fun _ => ({} : TlbEnt)) c.tlb slot

/-- Whether an entry matches a lookup (R171). -/
def TlbEnt.hits (e : TlbEnt) (mw : Bool) (lid asid va : Nat) : Bool :=
  e.v && (e.lid == lid) && (e.g || e.asid == asid) && (e.mw == mw) && (e.va / 2 ^ e.size == (va % 2 ^ 48) / 2 ^ e.size)

/-- The slot that a lookup uses: lowest bank, then lowest way. -/
def Core.tlbFind (c : Core) (mw : Bool) (lid asid va : Nat) : Option Nat :=
  ((List.range 6).flatMap (fun b => (List.range 8).map (fun w => b * 512 + tlbSet b va lid * 8 + w))).find?
    (fun n => (c.tlbAt n).hits mw lid asid va)

/-- Lookup LID and ASID of a level, and whether its lookup is the boot walker's (R107). -/
def Core.ctx (c : Core) : Bool × Nat × Nat :=
  match c.lvl with
  | .m => (true, 0, 0)
  | .h => (false, 0, c.csrF HASID 15 0)
  | _ => (false, c.csrF HLID 8 0, c.csrF KASID 15 0)

/-- Accesses at the current level are translated (R107). -/
def Core.translated (c : Core) : Bool :=
  match c.lvl with
  | .m => c.csrF BOOTWALK 0 0 == 1
  | .h => c.csrF 0x6C0 11 11 == 1
  | _ => true

/-- Set an entry; every L1 copy of the slot goes (R172). -/
def Core.setTlb (c : Core) (slot : Nat) (e : TlbEnt) : Core :=
  { c with
    tlb := smSet (fun _ => ({} : TlbEnt)) c.tlb slot e,
    itlb := c.itlb.filter (fun t => t.slot != slot),
    dtlb := c.dtlb.filter (fun t => t.slot != slot) }

/-! ## Extents (R179 to R182) -/

/-- The extent that the 16 bytes of a table entry spell, and whether it is valid (R179). -/
def extentOf (lid : Nat) (d : Line) (o : Nat) : Extent × Bool :=
  let lo := lineNat d o 8
  let hi := lineNat d (o + 8) 8
  let sz := lo % 64
  let clr := fun (v : Nat) => (v / 4096 % 2 ^ 36 * 4096) / 2 ^ sz * 2 ^ sz
  (⟨lid, clr lo, sz, clr hi, lo.testBit 9, lo.testBit 10, lo.testBit 11⟩, decide (12 ≤ sz) && decide (sz ≤ 46) && lo.testBit 8)

/-- Key of an extent in the cache, for its parity. -/
def Extent.key (e : Extent) : Nat := e.lid * 2 ^ 36 + e.gbase / 4096

def Extent.covers (e : Extent) (g : Nat) : Bool := (g / 2 ^ e.size == e.gbase / 2 ^ e.size)

/-- What a table read answers: a line and its poison, or `none` while the line is on its way. -/
abbrev LineRead := Nat → State → Option (Line × Bool) × State

/-- A read by an agent outside the cores (R181): it is answered at once. -/
def cohRead : LineRead := fun ln s => (some (cohLine s ln), s)

/-- What the table walk meets. -/
inductive ExtRes
  | none
  | poison (a : Nat)
  | found (e : Extent)
  /-- a read is on its way -/
  | wait
deriving DecidableEq, Repr

/-- One entry of a table. -/
def readExtent (rd : LineRead) (base i lid : Nat) (s : State) : Option (Extent × Bool × Bool) × State :=
  let a := base + 16 * i
  match rd (a / 64) s with
  | (some (d, po), s) => let x := extentOf lid d (a % 64); (some (x.1, x.2, po), s)
  | (none, s) => (none, s)

/-- The binary search of R180 over the candidates [lo, hi); `seen`: entries read. Its result, and how many were read. -/
def extSearch (rd : LineRead) (base lid g : Nat) : Nat → Nat → Nat → List Nat → State → (ExtRes × Nat) × State
  | 0, _, _, seen, s => ((.none, seen.length), s)
  | n + 1, lo, hi, seen, s =>
    let last := decide (hi ≤ lo + 1)
    let i := if last then lo else (lo + hi) / 2
    let seen := insNat i seen
    match readExtent rd base i lid s with
    | (none, s) => ((.wait, seen.length), s)
    | (some (_, _, true), s) => ((.poison (base + 16 * i), seen.length), s)
    | (some (e, ok, false), s) =>
      if last then ((if ok && e.covers g then .found e else .none, seen.length), s)
      else if g < e.gbase then extSearch rd base lid g n lo i seen s
      else extSearch rd base lid g n i hi seen s

/-- The lookup of R180 and R181. -/
def extLookup (rd : LineRead) (base count lid g : Nat) (s : State) : (ExtRes × Nat) × State :=
  if !s.isNormal base ∨ !s.isNormal (base + 16 * count - 1) ∨ count = 0 then ((.none, 0), s)
  else extSearch rd base lid g 14 0 count [] s

/-- Insert at the front of a least-recently-used list of `n`. -/
def lruPut {α : Type} (n : Nat) (a : α) (l : List α) : List α := (a :: l).take n

/-- A cached extent with a parity error is dropped; the access refills it (R335). -/
def extParity (p : Nat) (e : Extent) (s : State) : State :=
  let (bad, s) := parityBad (coreStop p) (4 + p % 2) 11 e.key s
  if bad then report ((Blk.core p).inst) 2 0 11 0 0 p 0 (s.modCore p (fun c => { c with ext := delFirst (· == e) c.ext })) else s

/-- What stage 2 answers. -/
inductive ExtGet
  | found (e : Extent)
  | none
  | wait
deriving DecidableEq, Repr

/-- Stage 2 for a core (R178 to R182): the extent that covers a GPA, from the extent cache or the table, read through the core's
L2. `quiet`: the cache is not filled, and nothing is asked for (R96). -/
def coreExtent (p lid g : Nat) (quiet : Bool) (s : State) : ExtGet × State :=
  let s := match (s.core p).ext.find? (fun e => e.lid == lid && e.covers g) with
    | some e => extParity p e s
    | none => s
  let c := s.core p
  match c.ext.find? (fun e => e.lid == lid && e.covers g) with
  | some e => (.found e, if quiet then s else s.setCore p { c with ext := lruPut 512 e (delFirst (· == e) c.ext) })
  | none =>
    let a := pNow s p
    let v := c.csr' HEXTBASE
    let ((r, n), s) := extLookup (fun ln s => l2Read p ln quiet s) (fld v 47 16 * 65536) (fld v 12 0) lid g s
    if r = .wait then (.wait, s) else
    let s := bump p 69 n a (bump p 68 1 a s)
    match r with
    | .found e => (.found e, if quiet then s else
      (eccWrite (coreStop p) (4 + p % 2) 11 e.key s).modCore p (fun c => { c with ext := lruPut 512 e c.ext }))
    | .poison a => (.none, report ((Blk.core p).inst) 2 1 12 (a / 64) 0 p 0 s)
    | _ => (.none, s)

/-! ## Translation of one access -/

/-- What translation answers. -/
inductive Xl
  | ok (pa : Nat) (ty : MTy) (slot : Option Nat)
  | trap (code : Nat) (tval : Word) (gpa : Option Nat)
  /-- a miss in every TLB level: REFILL (R176), or a walk at M (R199) -/
  | miss
  /-- the extent table is being read (R181) -/
  | wait
deriving DecidableEq, Repr

/-- U and SUM rules of R174. -/
def userOk (c : Core) (u : Bool) (fetch : Bool) : Bool :=
  match c.lvl with
  | .u => u
  | .k => !u || (!fetch && c.csrF 0x5C0 10 10 == 1)
  | _ => !u

/-- The check of the final address (R25, R44, R135, R92, R33). `sz` 0 stands for an access without a size (a
hint or a cache-block operation). -/
def regionCheck (s : State) (l : Lvl) (a : Acc') (pa : Nat) (ty : MTy) (sz : Nat) (atomic : Bool) : Bool :=
  !unreachable s l pa &&
  (if s.isNormal pa then (a.x = false ∨ ty = .wb)
   else (ty == .dev) && !a.x && !atomic && sz != 0 && pa % sz == 0 &&
    (match s.region pa with | .ocr => sz == 4 || sz == 8 | _ => true))

/-- Permissions of an entry combined with an extent's. -/
def permOk (a : Acc') (r w x : Bool) : Bool := (!a.r || r) && (!a.w || w) && (!a.x || x)

def tyOf : Nat → MTy | 0 => .wb | 1 => .wc | _ => .dev

/-- The TLB entry that an access would use is dropped when its parity is wrong; the access misses and refills (R335). -/
def tlbParity (p : Nat) (va : Word) (s : State) : State :=
  let c := s.core p
  let (mw, lid, asid) := c.ctx
  match c.tlbFind mw lid asid (va.toNat % 2 ^ 48) with
  | none => s
  | some slot =>
    let (bad, s) := parityBad (coreStop p) (4 + p % 2) 10 slot s
    if bad then report ((Blk.core p).inst) 2 0 10 0 slot p 0 (s.modCore p (fun c => c.setTlb slot {})) else s

/-- Translate one access of the core, at its current level. An L1 entry serves only an access its permissions
allow; any other is decided by the L2 entry and the extent (R118 puts EXT before page faults). `quiet`: no L1 promotion and no extent fill. -/
def translate (p : Nat) (a : Acc') (va : Word) (quiet : Bool) (s : State) : Xl × State :=
  let s := if s.flips.isEmpty then s else tlbParity p va s
  let c := s.core p
  let v := va.toNat
  if c.translated = false then
    (if v < 2 ^ 48 then (.ok v (if s.isNormal v then .wb else .dev) none, s) else (.trap a.access va none, s))
  else if ¬(v < 2 ^ 47 ∨ 2 ^ 64 - 2 ^ 47 ≤ v) then (.trap a.access va none, s)
  else
    let (mw, lid, asid) := c.ctx
    let vv := v % 2 ^ 48
    match c.tlbFind mw lid asid vv with
    | none => (.miss, bump p 67 1 (pNow s p) (bump p (if a.x then 64 else 65) 1 (pNow s p) s))
    | some slot =>
      let e := c.tlbAt slot
      let l1 := if a.x then c.itlb else c.dtlb
      match l1.find? (fun t => t.slot == slot && vv / 2 ^ t.size == t.va / 2 ^ t.size && permOk a t.r t.w t.x && userOk c e.u a.x) with
      | some t =>
        let l := lruPut 64 t (delFirst (· == t) l1)
        let s := if quiet then s else s.setCore p (if a.x then { c with itlb := l } else { c with dtlb := l })
        (.ok (t.pa / 2 ^ t.size * 2 ^ t.size + vv % 2 ^ t.size) (tyOf e.ty) (some slot), s)
      | none =>
        let s := bump p 66 1 (pNow s p) (bump p (if a.x then 64 else 65) 1 (pNow s p) s)
        let g := e.oa / 2 ^ e.size * 2 ^ e.size + vv % 2 ^ e.size
        let fill := fun (t : L1Tlb) (s : State) => if quiet then s else
          s.modCore p (fun c => if a.x then { c with itlb := lruPut 48 t c.itlb } else { c with dtlb := lruPut 64 t c.dtlb })
        if lid = 0 ∨ c.lvl = .m ∨ c.lvl = .h then
          (if permOk a e.r e.w e.x && userOk c e.u a.x then
            (.ok g (tyOf e.ty) (some slot), fill ⟨slot, vv, e.size, g, e.r, e.w, e.x⟩ s)
           else (.trap a.page va none, s))
        else
          match coreExtent p lid g quiet s with
          | (.none, s) => (.trap a.ext va (some g), s)
          | (.wait, s) => (.wait, s)
          | (.found x, s) =>
            if !permOk a x.r x.w x.x then (.trap a.ext va (some g), s)
            else if permOk a e.r e.w e.x && userOk c e.u a.x then
              let pa := x.pbase + g % 2 ^ x.size
              (.ok pa (tyOf e.ty) (some slot), fill ⟨slot, vv, min e.size x.size, pa, e.r && x.r, e.w && x.w, e.x && x.x⟩ s)
            else (.trap a.page va none, s)

/-- An A/D update is needed before the access performs (R184): a write-class access sets D as well where it is 0. -/
def adNeeded (c : Core) (slot : Option Nat) (write : Bool) : Bool :=
  match slot with
  | none => false
  | some n => let e := c.tlbAt n; e.en && (!e.a || (write && !e.d))

/-- The oldest instruction waits for an A/D update of its entry: AD_UPDATE sends it. -/
def needAd (i : Ins) (slot : Option Nat) (va : Word) (write : Bool) (s : State) : State :=
  match slot with
  | none => s
  | some n => s.modCore i.pcn (fun c => { c with ad := some ⟨i.seq, i.pc, n, va, write && !(c.tlbAt n).d, c.lvl, false⟩ })

/-- Raise the exception of a failed translation on the oldest instruction. A miss at M is the boot walker's
(row BOOT_WALK): nothing happens here. -/
def xlTrap (i : Ins) (a : Acc') (va : Word) (upper : Bool) (x : Xl) (s : State) : State :=
  match x with
  | .ok _ _ _ => s
  | .trap code tval g => takeTrap i.pcn code tval g i.pc s
  | .miss => if (s.core i.pcn).lvl = .m then s else takeRefill i.pcn a.kind va upper i.pc s
  | .wait => s

end Sys2Proof.Machine
end

