-- ==== Sys2Proof/Machine/HartMem.lean ====
section
/-! DEFINITION. Loads, stores, atomics and maintenance at a core (chapters 03, 05 and 07). -/
namespace Sys2Proof.Machine

/-! ## Pieces of an access (R91) -/

/-- Where an access crosses a 64-byte line: bytes in its lower half, or its whole size. -/
def splitAt (va : Word) (n : Nat) : Nat := if va.toNat % 64 + n ≤ 64 then n else 64 - va.toNat % 64

/-- Translation of an access with both halves: the two addresses, type and slots. The type is the lower half's. -/
structure Mapped where
  pa : Nat
  n1 : Nat
  pa2 : Nat
  ty : MTy
  slot : Option Nat
  slot2 : Option Nat

inductive MapRes
  | ok (m : Mapped)
  /-- a half fails; `low`: where the lower half of a WB access lies whose upper half fails -/
  | fail (va : Word) (upper : Bool) (x : Xl) (low : Option Nat)
  /-- a half needs an A/D update before anything of the other is looked at (R118, R184) -/
  | ad (slot : Option Nat) (va : Word)

/-- Translate and check an access (R91, R92, R94, R118, R135, R184): everything about the lower half comes before the upper.
`atomic`: it must be aligned, and no device may be meant; `wr`: whether an access at the address is one that sets D. -/
def mapAccess (p : Nat) (a : Acc') (va : Word) (n : Nat) (quiet atomic : Bool) (wr : Nat → Bool) (s : State) : MapRes × State :=
  let lvl := (s.core p).lvl
  let n1 := splitAt va n
  let isSplit := decide (n1 < n)
  match translate p a va quiet s with
  | (.ok pa ty sl, s) =>
    if !regionCheck s lvl a pa ty n (atomic || isSplit) || (atomic && va.toNat % n != 0) then (.fail va false (.trap a.access va none) none, s)
    else if adNeeded (s.core p) sl (wr pa) then (.ad sl va, s)
    else if !isSplit then (.ok ⟨pa, n, 0, ty, sl, none⟩, s)
    else
      let vb := va + BitVec.ofNat 64 n1
      let low := if ty = .wb then some pa else none
      (match translate p a vb quiet s with
      | (.ok pb tb sb, s) =>
        if !regionCheck s lvl a pb tb n true then (.fail vb true (.trap a.access vb none) low, s)
        else if adNeeded (s.core p) sb (wr pb) then (.ad sb vb, s)
        else (.ok ⟨pa, n1, pb, ty, sl, sb⟩, bump p 24 1 (pNow s p) s)
      | (x, s) => (.fail vb true x low, s))
  | (x, s) => (.fail va false x none, s)

/-- Drain the write-combining entries of the lines an access touches (R145); `none`: a drain waits for a register. -/
def drainLines (p : Nat) (l : List Nat) (s : State) : State := l.foldl (fun s ln => drainWc p ln s) s
def wcHolds (c : Core) (l : List Nat) : Bool := c.wc.any (fun w => l.contains w.line)

/-- An older instruction has not executed: its address, if it is a store, is not known (R85). -/
def olderUnknown (c : Core) (seq : Nat) : Bool := decide ((c.rob.filter (fun e => decide (e.seq < seq))).length < seq - c.next)

/-- A load is in the speculation shadow while an older branch has not resolved, or an older instruction has not passed every
check that could make it trap (R96). -/
def inShadow (c : Core) (seq : Nat) : Bool := decide ((c.rob.filter (fun e => decide (e.seq < seq) && e.done)).length < seq - c.next)

/-- QUIET of the level that the load executes at; U has no status register. -/
def quietNow (c : Core) : Bool := (c.lvl != .u) && c.csrF (csrBase c.lvl) 4 4 == 1

/-- A load waits for the addresses of older stores: one that the memory-dependence predictor knows, or every load while
PRED_CTL.MDP_OFF = 1 (R85, R102). -/
def depWaits (s : State) (i : Ins) : Bool :=
  let c := s.core i.pcn
  olderUnknown c i.seq && (s.rf (.core i.pcn) Off.PRED_CTL 3 3 == 1 || c.pred.deps.any (fun d => d.1 == i.pc))

/-! ## Loads (R85, R89, R96) -/

/-- Read the L1D for a load in the reorder buffer, or send its misses. `none`: no register is free, it waits. -/
def accessCache (p seq : Nat) (quiet : Bool) (s : State) : Option State :=
  match (s.core p).rob.find? (fun e => e.seq == seq) with
  | none => none
  | some e =>
    let (bad, src, s) := e.lines.foldl (fun (acc : Bool × Nat × State) ln =>
      match lookLine p ln seq false quiet acc.2.2 with
      | (.hit k, s) => (acc.1, max acc.2.1 k, s)
      | (.miss, s) => (acc.1, acc.2.1, s)
      | (.wait, s) => (true, acc.2.1, s)) (false, 1, s)
    if bad then none else some (tryBind p seq src s)

/-- `n` L2 miss registers are free. -/
def l2FreeN (c : Core) (n : Nat) : Bool := decide ((c.mrs.filter (·.l2)).length + n ≤ 48)

/-- Send an uncached read of each piece of an access (R278): a whole line for WC, exactly the bytes for DEV (R140). -/
def sendUcReads (p seq : Nat) (e : RobEnt) (s : State) : State :=
  e.pieces.foldl (fun s x =>
    let arg := if e.ty = .dev then x.1 % 64 + 64 * Nat.log2 x.2 else 256
    let t := (s.core p).nextTxn
    sendMr p t 0x14 e.lid (addMr p { newMr .ucRead (x.1 / 64) with waits := [seq], arg := arg } s)) s

/-- A load that waited for older stores, or for a register, looks again (R89, R209). -/
def retryLoad (p : Nat) (e : RobEnt) (s : State) : Option State :=
  let c := s.core p
  if !(olderOverlap c e.seq e.pieces).isEmpty ∨ c.mrs.any (fun r => r.waits.contains e.seq) then none
  else if e.ty = .wb then accessCache p e.seq (e.held && inShadow c e.seq) s
  else if l2FreeN c e.pieces.length then some (sendUcReads p e.seq e s) else none

/-- Stores have committed: every load that waited for them issues again (R89). -/
def reissue (p : Nat) (s : State) : State :=
  retireAll p (((s.core p).rob.filter (fun e => e.isLoad && !e.done && e.waitFwd && e.ty != .dev)).foldl
    (fun s e => (retryLoad p e s).getD s) s)

/-- Bind an uncached load once the data of every piece is here. -/
def bindUc (p seq : Nat) (s : State) : State :=
  let c := s.core p
  match c.rob.find? (fun e => e.seq == seq && e.isLoad && !e.done) with
  | none => s
  | some e =>
    let got := fun (x : Nat × Nat) => (c.mrs.find? (fun r => r.use == .ucRead && r.line == x.1 / 64 && r.waits.contains seq)).bind (fun r =>
      r.got.map (fun g => (lineNat g.2.1 (x.1 % 64) x.2, g.2.2)))
    let parts := e.pieces.map got
    if parts.any Option.isNone then s
    else
      let lo := (parts.head?.getD none).getD (0, false)
      let hi := (parts.tail.head?.getD none).getD (0, false)
      let s := s.setCore p { c with
        mrs := c.mrs.filter (fun r => !(r.use == .ucRead && r.waits.contains seq)),
        dev := if e.ty = .dev then none else c.dev,
        rob := updFirst (fun x => x.seq == seq) (fun x => { x with
          val := BitVec.ofNat 64 (lo.1 + hi.1 <<< (8 * e.n1)), lo := some lo, hi := some hi, done := true, poisoned := lo.2 || hi.2
          src := if lo.2 || hi.2 then 11 else 10 }) c.rob }
      retireAll p s

/-- A load's place in the reorder buffer. -/
def loadEnt (i : Ins) (m : Mapped) (va : Word) (n : Nat) (dst : Dst) (signed tag : Bool) (s : State) : RobEnt :=
  let c := s.core i.pcn
  { robOf i c.lvl c.lidNow s.tick with
    dst := dst, isLoad := true, signed := signed, va := va, pa := m.pa, size := n, n1 := m.n1, pa2 := m.pa2, ty := m.ty,
    slot := m.slot, slot2 := m.slot2, uops := uopsOf i.bits (c.csr' 0xC21), tagged := tag, held := inShadow c i.seq && quietNow c }

/-- What the counters see of an access. -/
def accOf (i : Ins) (m : Mapped) (va : Word) (s : State) : PAcc :=
  { lvl := (s.core i.pcn).lvl, lid := (s.core i.pcn).lidNow, va := some va.toNat, pa := some m.pa, ty := some m.ty }

def putRob (p : Nat) (e : RobEnt) (s : State) : State := s.modCore p (fun c => { c with rob := c.rob ++ [e] })

/-- A device load executes as the oldest instruction, after every older store (R88, R142): an on-chip register answers
it at once, anything else is asked. -/
def loadDev (rd : Agent → Nat → Nat → State → Word × State) (i : Ins) (e : RobEnt) (s : State) : State :=
  let p := i.pcn
  let acc : DevAcc := ⟨i.seq, false, e.pa, e.size, 0, e.dst, e.signed⟩
  match s.region e.pa with
  | .ocr =>
    let (v, s) := rd (.core p (s.core p).lvl) (e.pa - ocrBase) e.size s
    retireAll p (putRob p { e with done := true, val := v, src := 10 } s)
  | .dram => sendUcReads p i.seq e (putRob p e (s.modCore p (fun c => { c with dev := some acc })))
  | .hoard => sendUcReads p i.seq e (putRob p e (s.modCore p (fun c => { c with dev := some acc })))
  | _ => putRob p e (s.modCore p (fun c => { c with dev := some acc }))

/-- A device load may be issued: it is the oldest, older stores have committed, the hart's previous device access has been
acknowledged, and one to DRAM or the Hoard finds a register (R88, R142, R207). -/
def devReady (s : State) (i : Ins) (m : Mapped) : Bool :=
  let c := s.core i.pcn
  (c.next == i.seq) && sbEmpty c i.seq && c.dev.isNone && (!s.isNormal m.pa || l2Free c false)

/-- Issue a load that has translated: `rd` reads an on-chip register (offset, size). -/
def issueLoad (rd : Agent → Nat → Nat → State → Word × State) (i : Ins) (m : Mapped) (va : Word) (n : Nat) (dst : Dst)
    (signed : Bool) (s : State) : State :=
  let p := i.pcn
  let c := s.core p
  let kind := accOf i m va s
  let (tag, s1) := dispatch i 1 kind s
  let e := loadEnt i m va n dst signed tag s
  let older := olderOverlap c i.seq e.pieces
  let s1 := drainLines p e.lines s1
  if wcHolds (s1.core p) e.lines then s
  else if m.ty = .dev ∨ s.isNormal m.pa = false then (if devReady s i m then loadDev rd i e (bump p 78 1 kind s1) else s)
  else if depWaits s i then s
  else if !older.isEmpty then
    (match forwardFrom c e with
    | some b => retireAll p (bump p 22 1 kind (putRob p (e.forwarded b) s1))
    | none => bump p 23 1 kind (putRob p { e with waitFwd := true } s1))
  else if m.ty = .wc then (if l2FreeN (s1.core p) e.pieces.length then sendUcReads p i.seq e (putRob p e s1) else s)
  else
    let s1 := if e.held then s1 else strideSee p i.pc m.pa s1
    match accessCache p i.seq e.held (putRob p e s1) with
    | some s2 => retireAll p s2
    | none => s

/-- The oldest instruction's access fails. A lower half in poison is consumed before its upper half faults (R118): its line
is read first. -/
def faultAt (i : Ins) (a : Acc') (va : Word) (upper : Bool) (x : Xl) (low : Option Nat) (s : State) : State :=
  if x = .wait then s else
  match low with
  | none => xlTrap i a va upper x s
  | some pa =>
    if a.w then xlTrap i a va upper x s else
    match lookLine i.pcn (pa / 64) i.seq a.x false s with
    | (.hit _, s) =>
      if (readHalf (s.core i.pcn) pa 1).any (·.2) then takeMcheck i.pcn (if a.x then 0x18 else 0x19) pa i.pc s
      else xlTrap i a va upper x s
    | (_, s) => s

/-- An access that fails, or needs an A/D update, acts as the oldest instruction; a miss waits for older stores too (R88).
Before that it waits: the command is given again. A table read may go out at once. -/
def failOrWait (i : Ins) (a : Acc') (r : MapRes) (s s' : State) : State :=
  match r with
  | .ok _ => s
  | .ad sl va => if atHead s i then needAd i sl va (a.kind = 2) s' else s
  | .fail va up x low =>
    if x = .wait then s'
    else if !atHead s i then s
    else if x = .miss ∧ !sbEmpty (s.core i.pcn) i.seq then s
    else faultAt i a va up x low s'

/-- The first piece of an access that the core holds poisoned. -/
def poisonedPiece (c : Core) (e : RobEnt) : Option Nat := (e.pieces.find? (fun x => (readHalf c x.1 x.2).any (·.2))).map (·.1)

/-- The fetch of an instruction: its lines come to the L1I; a poisoned one is a machine check at the head. -/
def runFetch (i : Ins) (va : Word) (n : Nat) (s : State) : State :=
  let p := i.pcn
  if !s.runs p then s else
  match mapAccess p accFetch va n false false (fun _ => false) s with
  | (.ok m, s') =>
    let e := { robOf i (s.core p).lvl (s.core p).lidNow s.tick with pa := m.pa, size := n, n1 := m.n1, pa2 := m.pa2 }
    let s' := e.lines.foldl (fun s ln => (lookLine p ln i.seq true false s).2) s'
    match poisonedPiece (s'.core p) e with
    | some pa => if atHead s i then takeMcheck p 0x18 pa i.pc s' else s'
    | none => s'
  | (r, s') => failOrWait i accFetch r s s'

/-- What QUIET deferred for a load: the promotion of its translation, what the prefetcher learns, and, once it has read, the
replacement state (R96). -/
def deferredUpdates (p : Nat) (e : RobEnt) (s : State) : State :=
  let s := (translate p accLoad e.va false s).2
  let s := if e.n1 < e.size then (translate p accLoad (e.va + BitVec.ofNat 64 e.n1) false s).2 else s
  let s := strideSee p e.pc e.pa s
  if !e.done then s else e.lines.foldl (fun s ln =>
    match (smFind (s.core p).l2 ln).bind (·.l1d) with | some k => touchD p ln k.way s | none => s) s

/-- The instruction at place `seq` is held no more. -/
def unheldAt (p seq : Nat) (s : State) : State :=
  s.setCore p { s.core p with rob := updFirst (fun x => x.seq == seq) (fun x => { x with held := false }) (s.core p).rob }

/-- A held load is held no more: its deferred updates are made (R96), the request it held proceeds. -/
def shadowRelease (p seq : Nat) (s : State) : State :=
  let c := s.core p
  match c.late.find? (fun e => e.seq == seq) with
  | some e => deferredUpdates p e (s.setCore p { c with late := delFirst (fun x => x.seq == seq) c.late })
  | none =>
  match c.rob.find? (fun e => e.seq == seq && e.held) with
  | none => s
  | some e =>
    if inShadow c seq ∨ !s.runs p then s else
    let s' := unheldAt p seq s
    if e.isStore then e.lines.foldl (fun s ln => (lookLine p ln seq false false s).2) s'
    else
      let s' := deferredUpdates p e s'
      if e.done then s' else if !(olderOverlap c seq e.pieces).isEmpty then s' else
      match accessCache p seq false s' with
      | some t => retireAll p t
      | none => s

/-- SHADOW_RELEASE. -/
def execShadowRelease (pcn seq : Nat) (s : State) : Res := finish s (shadowRelease pcn seq s)

/-- A load, or the fetch of an instruction. What needs the head of the reorder buffer waits until it is there, and what waits
for a register until one is free: the command is then given again. -/
def runLoad (rd : Agent → Nat → Nat → State → Word × State) (i : Ins) (va : Word) (n : Nat) (dst : Dst) (signed fetch : Bool)
    (s : State) : State :=
  let p := i.pcn
  let c := s.core p
  if fetch then runFetch i va n s
  else match c.rob.find? (fun e => e.seq == i.seq) with
  | some e =>
    if !s.runs p ∨ !e.isLoad ∨ e.done ∨ e.ty = .dev then s
    else if e.held ∧ !inShadow c i.seq then shadowRelease p i.seq s
    else (match retryLoad p e s with | some s' => retireAll p s' | none => s)
  | none =>
    if !mayRun s i ∨ !lqFree c i.seq ∨ !pregFree c i.seq dst then s
    else match mapAccess p accLoad va n (quietNow c && inShadow c i.seq) false (fun _ => false) s with
      | (.ok m, s') => issueLoad rd i m va n dst signed s'
      | (r, s') => failOrWait i accLoad r s s'

/-! ## Stores (R85, R87, R93) -/

/-- Keep the store buffer in program order. -/
def sbPut (b : SbEnt) : List SbEnt → List SbEnt
  | [] => [b]
  | x :: l => if b.seq < x.seq then b :: x :: l else x :: sbPut b l

/-- Loads younger than the store that have read elsewhere what it writes are re-executed (R85), and the pair is recorded. -/
def orderCheck (p : Nat) (i : Ins) (ps : List (Nat × Nat)) (s : State) : State :=
  let c := s.core p
  match c.rob.filter (fun e => e.isLoad && (e.done || e.lo.isSome || e.hi.isSome) && decide (i.seq < e.seq) && overlaps e.pieces ps &&
      (match e.fwdFrom with | some q => decide (q < i.seq) | none => true)) with
  | [] => s
  | e :: l =>
    let q := l.foldl (fun m x => if x.seq < m.seq then x else m) e
    let s := s.setCore p { c with pred := { c.pred with deps := ((q.pc, i.pc) :: c.pred.deps).take 2048 } }
    bump p 18 1 (pNow s p) (flushFrom p q.seq s)

/-- What the counters see of a store. -/
def storeAcc (i : Ins) (m : Mapped) (va : Word) (s : State) : PAcc := accOf i m va s

/-- A store's place in the reorder buffer. Under QUIET its pre-retirement read is held like a load's (R96). -/
def storeEnt (i : Ins) (m : Mapped) (va : Word) (n : Nat) (zero tag : Bool) (s : State) : RobEnt :=
  let c := s.core i.pcn
  { robOf i c.lvl c.lidNow s.tick with
    done := true, isStore := true, va := va, pa := m.pa, size := n, n1 := m.n1, pa2 := m.pa2, ty := m.ty, slot := m.slot
    slot2 := m.slot2, uops := uopsOf i.bits (c.csr' 0xC21), tagged := tag
    held := m.ty == .wb && !zero && s.isNormal m.pa && quietNow c && inShadow c i.seq }

/-- The store's places: in the reorder buffer, and one or two pieces in the store buffer. `s` is the state it issued in. -/
def putStore (i : Ins) (m : Mapped) (va : Word) (bytes : List Byte) (fwd zero : Bool) (e : RobEnt) (s t : State) : State :=
  let p := i.pcn
  let c := s.core p
  let ent := fun (a : Nat) (l : List Byte) (sl : Option Nat) (up : Bool) =>
    (⟨i.seq, va, a, l, m.ty, false, fwd, zero, sl, c.lidNow, c.lvl, false, up⟩ : SbEnt)
  let t := t.modCore p (fun c => { c with rob := c.rob ++ [e], sb := sbPut (ent m.pa (bytes.take m.n1) m.slot false) c.sb })
  if m.n1 < bytes.length then t.modCore p (fun c => { c with sb := sbPut (ent m.pa2 (bytes.drop m.n1) m.slot2 true) c.sb }) else t

/-- A miss on its line in the L1D issues a read of the line before retirement (R87). -/
def storeReads (i : Ins) (e : RobEnt) (s : State) : State :=
  e.lines.foldl (fun s ln =>
    if ((smFind (s.core i.pcn).l2 ln).bind (·.l1d)).isNone then (lookLine i.pcn ln i.seq false false s).2 else s) s

/-- A store (or cbo.zero) resolves: translation and checks, its pre-retirement read, and its place in the buffer. -/
def runStore (i : Ins) (va : Word) (bytes : List Byte) (fwd zero : Bool) (s : State) : State :=
  let p := i.pcn
  let c := s.core p
  let n := bytes.length
  if !mayRun s i ∨ !sbFree c i.seq ∨ n = 0 then s
  else match mapAccess p accStore va n false zero (fun _ => true) s with
    | (.ok m, s') =>
      let (tag, s') := dispatch i 2 (storeAcc i m va s) s'
      let e := storeEnt i m va n zero tag s
      let s' := orderCheck p i e.pieces (eccWrite (coreStop p) (corePart p) 13 i.seq (putStore i m va bytes fwd zero e s s'))
      retireAll p (if m.ty = .wb ∧ !zero ∧ s.isNormal m.pa ∧ !e.held then storeReads i e s' else s')
    | (r, s') => failOrWait i accStore r s s'

/-- STORE. -/
def execStore (i : Ins) (va : Word) (bytes : List Byte) (fwd : Bool) (s : State) : Res := finish s (runStore i va bytes fwd false s)

/-- CBO_ZERO (R105, R215): 64 zero bytes, through the store buffer in program order. -/
def execCboZero (i : Ins) (va : Word) (s : State) : Res :=
  finish s (runStore i (BitVec.ofNat 64 (va.toNat / 64 * 64)) (List.replicate 64 0) false true s)

/-- Room for a WC store in the write-combining buffer: an entry whose window has closed is drained (R10), and so is the
oldest of 8 when the store needs a new one (R144). `false`: a drain waits for a register. -/
def wcRoom (p ln : Nat) (s : State) : Bool × State :=
  let s := if (s.core p).wc.any (fun w => w.line == ln && decide (w.due ≤ s.tick)) then drainWc p ln s else s
  let c := s.core p
  match c.wc.find? (fun w => w.line == ln) with
  | some w => (decide (s.tick < w.due), s)
  | none =>
    match c.wc with
    | w :: l => if 8 ≤ l.length + 1 then (let s := drainWc p w.line s; (decide ((s.core p).wc.length < 8), s)) else (true, s)
    | [] => (true, s)

/-- Merge a WC store into the write-combining buffer, which has room. -/
def mergeWc (p : Nat) (b : SbEnt) (s : State) : State :=
  let ln := b.pa / 64
  let d := placeBytes (b.pa % 64) b.bytes
  let m := placeMask (b.pa % 64) b.bytes.length
  let due := s.tick + cycTicks s p 1024
  let sl := b.slot.toList.map (fun n => (n, b.lid))
  s.modCore p (fun c =>
    if c.wc.any (fun w => w.line == ln) then
      { c with wc := c.wc.map (fun w => if w.line = ln then { w with data := lineMerge w.data d m, mask := w.mask ||| m, slots := w.slots ++ sl } else w) }
    else { c with wc := c.wc ++ [⟨ln, m, d, due, sl⟩] })

/-- A store by the hart to the reserved granule clears the reservation (R160). -/
def resvStore (p ln : Nat) (s : State) : State := if (s.core p).resv = some ln then clearResv p s else s

/-- Send an uncached write: UcWr of 1 to 8 bytes, or a masked line write. A WC write is a drain like any other. -/
def sendUcWrite (p : Nat) (b : SbEnt) (s : State) : State :=
  let o := b.pa % 64
  let n := b.bytes.length
  let t := (s.core p).nextTxn
  let small := [1, 2, 4, 8].contains n
  let r := { newMr (if b.ty = .wc then .wc else .ucWrite) (b.pa / 64) with
    data := placeBytes o b.bytes, mask := placeMask o n, waits := [b.seq],
    arg := if small then o + 64 * Nat.log2 n else 0 }
  sendMr p t (if small && !b.zero then 0x15 else 0x16) b.lid (addMr p r s)

/-- The store buffer's oldest entry is read: what its checker finds. An uncorrectable entry is lost, and its
instruction, already retired, takes an imprecise MCHECK_LOAD (R335). -/
def sbCheck (p : Nat) (s : State) : Bool × State :=
  match (s.core p).sb with
  | [] => (false, s)
  | b :: _ =>
    if !b.retired ∨ b.sent then (false, s) else
    let (r, s) := eccRead (coreStop p) (corePart p) 13 b.seq s
    match r with
    | .clean => (false, s)
    | .uncorr =>
      let s := repCore p 2 2 13 (b.pa / 64) 0 (s.modCore p (fun c => { c with sb := c.sb.filter (fun x => x.seq != b.seq) }))
      let s := trapNow p 0x19 (BitVec.ofNat 64 (b.pa / 64 * 64)) none (s.core p).pc s
      (true, s.modCore p (fun c => c.setCsrF (csrBase c.lvl + 6) 61 61 1))
    | .wrong k =>
      (false, repCore p 2 0 13 (b.pa / 64) 0 (s.modCore p (fun c => { c with
        sb := updFirst (fun _ => true) (fun x => { x with
          bytes := leBytes x.bytes.length ((leNat x.bytes) ^^^ 2 ^ (k % (8 * x.bytes.length))) }) c.sb })))
    | .corrected => (false, repCore p 2 0 13 (b.pa / 64) 0 s)

/-- A device store is sent, once (R142). -/
def commitDev (p : Nat) (b : SbEnt) (s : State) : State :=
  let s := drainLines p [b.pa / 64] s
  if wcHolds (s.core p) [b.pa / 64] ∨ (s.isNormal b.pa ∧ !l2Free (s.core p) false) then s else
  let s := resvStore p (b.pa / 64) s
  let s := bump p 78 1 { lvl := b.lvl, lid := b.lid, va := some b.va.toNat, pa := some b.pa, ty := some b.ty } s
  let s := s.modCore p (fun c => { c with
    dev := some ⟨b.seq, true, b.pa, b.bytes.length, leNat b.bytes, .none, false⟩,
    sb := updFirst (fun _ => true) (fun x => { x with sent := true }) c.sb })
  if s.isNormal b.pa then sendUcWrite p b s else s

/-- A WC store leaves the store buffer and merges; a cbo.zero goes as one masked write (R144). -/
def commitWc (p : Nat) (b : SbEnt) (s : State) : State :=
  let ln := b.pa / 64
  let (room, s) := if b.zero then
      (let s := drainWc p ln s; (!wcHolds (s.core p) [ln] && l2Free (s.core p) false, s))
    else wcRoom p ln s
  if !room then s else
  let s := resvStore p ln (s.modCore p (fun c => { c with sb := c.sb.tail }))
  reissue p (if b.zero then sendUcWrite p b s else mergeWc p b s)

/-- Stores that commit with the oldest: its other half, or, for a whole store, the next one if it has retired and falls in the
same line (R87, R93). -/
def commitGroup (c : Core) (b : SbEnt) : List SbEnt :=
  let mine := c.sb.filter (fun x => x.seq == b.seq)
  match mine, c.sb.drop 1 with
  | [_], x :: l => if x.retired && x.ty == .wb && !x.zero && !b.zero && x.pa / 64 == b.pa / 64 && !(l.any (fun y => y.seq == x.seq)) then mine ++ [x] else mine
  | _, _ => mine

/-- A WB store, with what commits with it, writes the lines it owns, or asks for those it does not. -/
def commitWb (p : Nat) (b : SbEnt) (grp : List SbEnt) (s : State) : State :=
  let s := drainLines p (grp.map (fun x => x.pa / 64)) s
  if wcHolds (s.core p) (grp.map (fun x => x.pa / 64)) then s
  else if grp.all (fun x => ownedL1d (s.core p) (x.pa / 64)) then
    let s := grp.foldl (fun s x => resvStore p (x.pa / 64) (writeL1d p (x.pa / 64) (x.pa % 64) x.bytes s)) s
    reissue p (s.modCore p (fun c => { c with sb := c.sb.filter (fun x => !(grp.any (fun y => y.seq == x.seq))) }))
  else grp.foldl (fun s x => if ownedL1d (s.core p) (x.pa / 64) then s else askOwn p (x.pa / 64) b.zero s) s

/-- STORE_COMMIT (R87, R93, R137, R142): the oldest retired store acts. A split store's two halves act together. -/
def storeCommit (p : Nat) (s : State) : State :=
  if !(s.core p).on ∨ (s.core p).dead then s else
  let (lost, s) := sbCheck p s
  if lost then s else
  let c := s.core p
  match c.sb with
  | [] => s
  | b :: _ =>
    if !b.retired ∨ b.sent then s
    else if b.ty = .dev ∨ s.isNormal b.pa = false then (if c.dev.isSome then s else commitDev p b s)
    else if b.ty = .wc then commitWc p b s
    else commitWb p b (commitGroup c b) s

/-- STORE_COMMIT. -/
def execStoreCommit (pcn : Nat) (s : State) : Res := finish s (storeCommit pcn s)

/-- A device store is acknowledged (R141): it leaves the store buffer. -/
def devAck (p : Nat) (s : State) : State :=
  s.modCore p (fun c => match c.dev with
    | some d => if d.write then { c with dev := none, sb := c.sb.filter (fun b => !(b.seq == d.seq && b.sent)) } else c
    | none => c)

/-- A device load's data returns. -/
def devData (p : Nat) (v : Word) (s : State) : State :=
  match (s.core p).dev with
  | some d =>
    if d.write then s
    else
      let s := s.modCore p (fun c => { c with
        dev := none,
        rob := updFirst (fun x => x.seq == d.seq) (fun x => { x with val := v, done := true, src := 10 }) c.rob })
      retireAll p s
  | none => s

/-! ## Atomics (R150 to R162) -/

/-- Index of the contention predictor (R154). -/
def cpIdx (pa : Nat) : Nat := (pa / 64 % 512) ^^^ (pa / 2 ^ 15 % 512) ^^^ (pa / 2 ^ 24 % 512)

/-- The AMO operations (R278). -/
def amoOp (op n old src : Nat) : Nat :=
  let m := 2 ^ (8 * n)
  let sg := fun (v : Nat) => if v < m / 2 then (v : Int) else (v : Int) - (m : Int)
  let o := old % m
  let x := src % m
  match op with
  | 0 => x
  | 1 => (o + x) % m
  | 2 => o ^^^ x
  | 3 => o &&& x
  | 4 => o ||| x
  | 5 => if sg o ≤ sg x then o else x
  | 6 => if sg o ≤ sg x then x else o
  | 7 => min o x
  | _ => max o x

/-- Choose where an AMO executes (R151, R155): near, and whether it is a probe. -/
def amoPlace (p : Nat) (m : Mapped) (s : State) : (Bool × Bool) × State :=
  let c := s.core p
  if m.ty ≠ .wb then ((false, false), s)
  else match c.csrF ATOMCTL 1 0 with
    | 1 => ((true, false), s)
    | 2 => ((false, false), s)
    | _ =>
      let x := cpIdx m.pa
      let (k, pr) := smGet (fun _ => ((0 : Nat), (0 : Nat))) c.cpred x
      if k < 2 then ((true, false), s)
      else
        let s := s.setCore p { c with cpred := smSet (fun _ => ((0 : Nat), (0 : Nat))) c.cpred x (k, (pr + 1) % 32) }
        let probe := pr == 31 && c.csrF ATOMCTL 2 2 == 0
        ((probe, probe), s)

/-- Start tracking a near AMO (R156). -/
def trackAmo (p pa : Nat) (s : State) : State :=
  let due := s.tick + cycTicks s p 256
  s.modCore p (fun c =>
    let l := c.tracks.filter (fun t => t.line != pa / 64)
    { c with tracks := (if 8 ≤ l.length then l.tail else l) ++ [⟨pa / 64, cpIdx pa, due⟩] })

/-- A read or an atomic at the head consumes poison (R153, R341). -/
def headPoison (i : Ins) (pa : Nat) (s : State) : State := takeMcheck i.pcn 0x19 pa i.pc s

/-- Write a result and complete the oldest instruction. -/
def completeX (i : Ins) (rd : Nat) (v : Word) (kind : Nat) (s : State) : State :=
  complete i kind (eccWrite (coreStop i.pcn) (corePart i.pcn) 12 rd (s.modCore i.pcn (fun c => c.putX rd v)))

/-- Sign-extend a 32-bit result. -/
def sext (n v : Nat) : Word := if n = 4 then (BitVec.ofNat 32 v).signExtend 64 else BitVec.ofNat 64 v

/-- What every AMO, LR and SC does first: it waits in its station until it is the oldest and older stores have committed, its
address is checked and its line's write-combining entry drained. `k` continues with the mapped address. -/
def atomicHead (i : Ins) (a : Acc') (va : Word) (n : Nat) (wr : Nat → Bool) (k : Mapped → State → State) (s : State) : State :=
  let p := i.pcn
  if !atHead s i ∨ !sbEmpty (s.core p) i.seq then toStation i .m s
  else match mapAccess p a va n false true wr s with
    | (.ok m, s') =>
      let s' := drainLines p [m.pa / 64] s'
      if wcHolds (s'.core p) [m.pa / 64] then s' else k m s'
    | (r, s') => failOrWait i a r s s'

/-- After a near AMO has written its line: training, the counters and the result. -/
def amoFinish (i : Ins) (m : Mapped) (n old rd : Nat) (probe : Bool) (s : State) : State :=
  let p := i.pcn
  let s := trackAmo p m.pa (resvStore p (m.pa / 64) s)
  let a : PAcc := { lvl := (s.core p).lvl, lid := (s.core p).lidNow, pa := some m.pa, ty := some m.ty }
  let s := issue p 8 (bump p 7 1 a (if probe then bump p 9 1 a s else s))
  let s := s.modCore p (fun c => { c with amoChoice := none })
  completeX i rd (sext n old) 0 (replaySnooped p i.seq s)

/-- Perform a near AMO on an owned line. -/
def amoNear (i : Ins) (m : Mapped) (op n : Nat) (src : Word) (rd : Nat) (probe : Bool) (s : State) : State :=
  let p := i.pcn
  let ln := m.pa / 64
  let s := l1dCheck p ln s
  match smFind (s.core p).l2 ln with
  | none => s
  | some e =>
    if e.poison then headPoison i m.pa s
    else
      let old := lineNat e.cur (m.pa % 64) n
      amoFinish i m n old rd probe (writeL1d p ln (m.pa % 64) (leBytes n (amoOp op n old src.toNat)) s)

/-- Where this AMO executes: chosen once (R155). -/
def amoPlan (i : Ins) (m : Mapped) (s : State) : (Bool × Bool) × State :=
  let p := i.pcn
  let ((near, probe), s) := match (s.core p).amoChoice with
    | some (q, nr, pb) => if q = i.seq then ((nr, pb), s) else amoPlace p m s
    | none => amoPlace p m s
  ((near, probe), s.modCore p (fun c => { c with amoChoice := some (i.seq, near, probe) }))

/-- Send a far AMO to its home (R153). -/
def amoFar (i : Ins) (m : Mapped) (op : Nat) (w64 : Bool) (src : Word) (rd : Nat) (s : State) : State :=
  let p := i.pcn
  let t := (s.core p).nextTxn
  let a : PAcc := { lvl := (s.core p).lvl, lid := (s.core p).lidNow, pa := some m.pa, ty := some m.ty }
  let s := resvStore p (m.pa / 64) (issue p 8 (bump p 8 1 a s))
  let r := { newMr .amo (m.pa / 64) with
    data := src.setWidth 512, arg := op + 16 * b2n w64 + 32 * (m.pa % 64), waits := [i.seq] }
  sendMr p t 0x10 (s.core p).lidNow (addMr p r (s.modCore p (fun c => { c with amoAt := some (i, .x rd, if w64 then 8 else 4), amoChoice := none })))

/-- AMO (R151, R152). -/
def runAmo (i : Ins) (va : Word) (op : Nat) (w64 : Bool) (src : Word) (rd : Nat) (s : State) : State :=
  let n := if w64 then 8 else 4
  let p := i.pcn
  atomicHead i accAmo va n (fun _ => true) (fun m s =>
    let x := amoPlan i m s
    if x.1.1 then
      (if ownedL1d (x.2.core p) (m.pa / 64) then amoNear i m op n src rd x.1.2 x.2 else askOwn p (m.pa / 64) false x.2)
    else if l2Free (x.2.core p) false then amoFar i m op w64 src rd x.2
    else x.2) s

/-- AMO. -/
def execAmo (i : Ins) (va : Word) (op : Nat) (w64 : Bool) (src : Word) (rd : Nat) (s : State) : Res := finish s (runAmo i va op w64 src rd s)

/-- Set the reservation on a line (R158); the window opens unless it stood there already. -/
def reserve (p ln : Nat) (s : State) : State :=
  let due := s.tick + cycTicks s p 64
  s.modCore p (fun c => if c.resv = some ln then c else { c with lrOpen := true, lrDue := due, resv := some ln })

/-- LR (R158, R159). -/
def runLr (i : Ins) (va : Word) (w64 : Bool) (rd : Nat) (s : State) : State :=
  let n := if w64 then 8 else 4
  let p := i.pcn
  if !(s.core p).deferred.isEmpty then s else
  atomicHead i accLr va n (fun _ => false) (fun m s =>
    let ln := m.pa / 64
    if m.ty ≠ .wb then takeTrap p 0x07 va none i.pc s
    else if !ownedL1d (s.core p) ln then askOwn p ln false s
    else
      let s := l1dCheck p ln s
      match smFind (s.core p).l2 ln with
      | none => s
      | some e =>
        if e.poison then headPoison i m.pa s
        else completeX i rd (sext n (lineNat e.cur (m.pa % 64) n)) 0 (reserve p ln (issue p 8 s))) s

/-- LR. -/
def execLr (i : Ins) (va : Word) (w64 : Bool) (rd : Nat) (s : State) : Res := finish s (runLr i va w64 rd s)

/-- An SC to the line would succeed: its reservation is valid and the line still owned (R161). -/
def scHolds (c : Core) (ln : Nat) : Bool := (c.resv == some ln) && ownedL1d c ln

/-- SC (R160, R161). -/
def runSc (i : Ins) (va : Word) (w64 : Bool) (src : Word) (rd : Nat) (s : State) : State :=
  let n := if w64 then 8 else 4
  let p := i.pcn
  atomicHead i accStore va n (fun pa => scHolds (s.core p) (pa / 64)) (fun m s =>
    let ln := m.pa / 64
    if m.ty ≠ .wb then takeTrap p 0x07 va none i.pc s
    else if scHolds (s.core p) ln then clearResv p (completeX i rd 0 0 (issue p 8 (writeL1d p ln (m.pa % 64) (leBytes n src.toNat) s)))
    else clearResv p (completeX i rd 1 0 (issue p 8 (bump p 10 1 (pNow s p) s)))) s

/-- SC. -/
def execSc (i : Ins) (va : Word) (w64 : Bool) (src : Word) (rd : Nat) (s : State) : Res := finish s (runSc i va w64 src rd s)

/-- A tracked AMO's line stayed for the whole window (R156): its counter goes down. -/
def trainedDown (t : Track) (c : Core) : Core := trainEnd false t c

/-- AMO_TRAINING_WINDOW_END (R156). -/
def execAmoTrainingWindowEnd (pcn line : Nat) (s : State) : Res :=
  finish s (match (s.core pcn).tracks.find? (fun t => t.line == line) with
    | none => s
    | some t => (s.toTick t.due).modCore pcn (trainedDown t))

/-- LR_WINDOW_END (R159). -/
def execLrWindowEnd (pcn : Nat) (s : State) : Res := finish s (if (s.core pcn).lrOpen then closeLr pcn (s.toTick (s.core pcn).lrDue) else s)

/-- WC_WINDOW_END (R145). -/
def execWcWindowEnd (pcn line : Nat) (s : State) : Res :=
  finish s (match (s.core pcn).wc.find? (fun w => w.line == line) with
    | some w => drainWc pcn line (s.toTick w.due)
    | none => s)

/-- SIDEBUF_AGE_OUT (R212). -/
def execSidebufAgeOut (pcn line : Nat) (s : State) : Res :=
  finish s (match (s.core pcn).sideAt line with
    | some e => dropSide pcn line (bump pcn 55 1 (pNow s pcn) (s.toTick e.due))
    | none => s)

/-! ## Fences and maintenance (R138, R215 to R217) -/

/-- Write-combined data is still on its way to a home. -/
def wcPending (c : Core) : Bool := !c.wc.isEmpty || c.mrs.any (fun r => r.use == .wc)

/-- A younger normal load that has executed before a fence with i is discarded and executes again (R138). -/
def replayNormal (i : Ins) (s : State) : State :=
  match ((s.core i.pcn).rob.filter (fun e => decide (i.seq < e.seq) && e.isLoad && e.done && e.ty != .dev)).map (·.seq) with
  | [] => s
  | q :: l => flushFrom i.pcn (l.foldl min q) s

/-- FENCE (R88, R138). Bits: 3 i, 2 o, 1 r, 0 w. -/
def runFence (i : Ins) (prd scc : BitVec 4) (s : State) : State :=
  let p := i.pcn
  let c := s.core p
  if !atHead s i then s
  else if prd = 0 ∨ scc = 0 then complete i 0 s
  else if (prd.getLsbD 0 || prd.getLsbD 2) && !sbEmpty c i.seq then s
  else if prd.getLsbD 0 && wcPending c then drainAllWc p s
  else if (prd.getLsbD 2 || prd.getLsbD 3) && c.dev.isSome then s
  -- with w or o the fence dispatches only now (R88): what younger instructions have done ahead of it is discarded
  else if prd.getLsbD 0 || prd.getLsbD 2 then complete i 0 (flushFrom p (i.seq + 1) s)
  else
    let s := if prd.getLsbD 3 then replayNormal i s else s
    complete i 0 (if prd.getLsbD 1 then replaySnooped p i.seq s else s)

/-- FENCE. -/
def execFence (i : Ins) (prd scc : BitVec 4) (s : State) : Res := finish s (runFence i prd scc s)

/-- FENCE_I (R217). -/
def execFenceI (i : Ins) (s : State) : Res :=
  let p := i.pcn
  finish s (if !atHead s i ∨ !sbEmpty (s.core p) i.seq then s
    else if wcPending (s.core p) then drainAllWc p s
    else
      let s := flushFrom p (i.seq + 1) s
      let s := s.modCore p (fun c => { c with l2 := c.l2.map (fun e => (e.1, { e.2 with l1i := none })) })
      complete i 0 s)

/-- What a Zicbom operation does to the core's own copies (R216). -/
def cboLocal (i : Ins) (ln : Nat) (ty : MTy) (op : Nat) (s : State) : State :=
  let p := i.pcn
  let s := resvStore p ln s
  let s := if ty ≠ .wb ∨ op = 0x0C then s
    else if op = 0x0D then dropSide p ln (evictL2 p ln s)
    else
      -- without write-back: the copy goes as if it were clean
      let s := s.modCore p (fun c => { c with l2 := match smFind c.l2 ln with
        | some e => smPut c.l2 ln { e with st := if e.st = .m then .e else e.st }
        | none => c.l2 })
      dropSide p ln (evictL2 p ln s)
  if op = 0x0E then
    (match ((s.core p).rob.filter (fun e => decide (i.seq < e.seq) && e.isLoad && e.done && e.lines.contains ln)).map (·.seq) with
      | [] => s
      | q :: l => flushFrom p (l.foldl min q) s)
  else s

/-- Its request goes to the home, and the instruction holds until the answer. -/
def cboSend (i : Ins) (ln op : Nat) (s : State) : State :=
  let p := i.pcn
  let t := (s.core p).nextTxn
  let s := issue p 6 (bump p 76 1 (pNow s p) s)
  let s := addMr p { newMr .cbo ln with waits := [i.seq] } (s.modCore p (fun c => { c with stall := some i }))
  sendMr p t op (s.core p).lidNow s

/-- A Zicbom operation can act: no register of the core works for the line (R216; what QUIET holds for a younger load has not
been asked for), and a miss register and a writeback entry are free. -/
def cboRoom (c : Core) (ln : Nat) : Bool := !(c.mrs.any (fun r => r.line == ln && !r.isHeld)) && l2Free c false && wbbRoom c

/-- A Zicbom operation at the oldest instruction (R215, R216): its effect in this core, then its request. -/
def runCbo (i : Ins) (va : Word) (op : Nat) (a : Acc') (s : State) : State :=
  let p := i.pcn
  if !atHead s i ∨ !sbEmpty (s.core p) i.seq then toStation i .m s
  else match mapAccess p a va 1 false true (fun _ => a.kind = 2) s with
    | (.ok m, s') =>
      let ln := m.pa / 64
      let s' := drainLines p [ln] s'
      if wcHolds (s'.core p) [ln] ∨ !cboRoom (s'.core p) ln then s'
      else cboSend i ln op (cboLocal i ln m.ty op s')
    | (r, s') => failOrWait i a r s s'

/-- cbo.inval acts as cbo.flush at U and K (R105). -/
def inval (c : Core) : Nat × Acc' := if c.lvl = .h ∨ c.lvl = .m then (0x0E, accStore) else (0x0D, accCbo)

/-- CBO_CLEAN. -/
def execCboClean (i : Ins) (va : Word) (s : State) : Res := finish s (runCbo i va 0x0C accCbo s)
/-- CBO_FLUSH. -/
def execCboFlush (i : Ins) (va : Word) (s : State) : Res := finish s (runCbo i va 0x0D accCbo s)
/-- CBO_INVAL. -/
def execCboInval (i : Ins) (va : Word) (s : State) : Res :=
  finish s (runCbo i va (inval (s.core i.pcn)).1 (inval (s.core i.pcn)).2 s)

/-- An instruction without a memory effect goes into the reorder buffer, done. -/
def passOn (i : Ins) (f : RobEnt → RobEnt) (kind : Nat) (s : State) : State :=
  let p := i.pcn
  let c := s.core p
  let (tag, s) := dispatch i kind (pNow s p) s
  let e := f { robOf i c.lvl c.lidNow s.tick with done := true, tagged := tag, uops := uopsOf i.bits (c.csr' 0xC21) }
  retireAll p (s.modCore p (fun c => { c with rob := c.rob ++ [e] }))

/-- What a prefetch hint asks for (R105, R211): kind 0 prefetch.i, 1 prefetch.r, 2 prefetch.w. -/
def hintOf (i : Ins) (va : Word) (kind : Nat) (s : State) : State :=
  let p := i.pcn
  if s.rf (.core p) Off.PF_CTL 2 2 = 0 then s
  else
    let a := if kind = 0 then accFetch else if kind = 1 then accLoad else accStore
    match translate p a va false s with
    | (.ok pa ty _, t) =>
      if ty = .wb ∧ s.isNormal pa ∧ !unreachable s (s.core p).lvl pa then issuePrefetch p (pa / 64) (kind = 2) t else s
    | _ => s

/-- A prefetch hint. It never traps. -/
def runPrefetch (i : Ins) (va : Word) (kind : Nat) (s : State) : State :=
  if !mayRun s i then s else passOn i id 0 (hintOf i va kind s)

/-- PREFETCH_HINT. -/
def execPrefetchHint (i : Ins) (va : Word) (kind : Nat) (s : State) : Res := finish s (runPrefetch i va kind s)

end Sys2Proof.Machine
end

