-- ==== Sys2Proof/Machine/HartRows.lean ====
section
/-! DEFINITION. Control flow, traps, sleep, the Raermien instructions and broadcasts at a core (chapters 03, 04,
06 and 07). -/
namespace Sys2Proof.Machine

/-- ILLEGAL on the oldest instruction (R117). -/
def illegal (i : Ins) (s : State) : State := takeTrap i.pcn 0x02 i.bits none i.pc s

/-- The Raermien instructions of R125: funct7, and whether its table marks the rs2, rs1 and rd fields 0. -/
def raermienForms : List (Nat × Bool × Bool × Bool) :=
  [(0x00, true, false, false), (0x01, true, false, false), (0x02, false, false, false), (0x08, false, false, false),
   (0x09, false, true, false), (0x0A, true, false, false), (0x0B, true, true, false), (0x0C, true, false, false),
   (0x0D, false, false, false), (0x10, true, true, true), (0x11, true, true, true), (0x18, false, true, false), (0x19, false, false, true)]

/-- A custom-0 word that R125 does not define: funct3 is not 0, funct7 is not listed, or a field marked 0 is not 0. -/
def raermienBad (w : Word) : Bool :=
  fld w 6 0 == 0x0B && (fld w 14 12 != 0 || !raermienForms.any (fun (f : Nat × Bool × Bool × Bool) =>
    f.1 == fld w 31 25 && (!f.2.1 || fld w 24 20 == 0) && (!f.2.2.1 || fld w 19 15 == 0) && (!f.2.2.2 || fld w 11 7 == 0)))

/-- A Raermien instruction `k`: at the head, a word that R125 does not define raises ILLEGAL. -/
def raermien (i : Ins) (k : State → State) (s : State) : State := if atHead s i && raermienBad i.bits then illegal i s else k s

/-! ## Branches (R74, R76, R77) -/

/-- Whether a branch or jump was mispredicted (R76 to R78, R102). Without a BTB entry it was predicted not taken. With one, a
return goes where the return stack says; a direct jump, and with IND_OFF an indirect one, goes where the BTB says. What is left
depends on the index and tag functions, which the spec does not give: the row says it (`given`). -/
def mispredicted (s : State) (i : Ins) (taken : Bool) (target : Word) (ret given : Bool) : Bool :=
  let c := s.core i.pcn
  match c.pred.btbAt i.pc with
  | none => taken
  | some t =>
    if isCond i.bits then given
    else if ret then (match specRas c i.seq with | x :: _ => x != target | [] => given)
    else if !isInd i.bits || s.rf (.core i.pcn) Off.PRED_CTL 2 2 == 1 then t != target
    else given

/-- What a branch leaves in the reorder buffer. `call` and `ret` are the hints of the standard. -/
def brOf (i : Ins) (taken mis : Bool) (target : Word) (call ret : Bool) : Br :=
  { taken := taken, mis := mis, target := target, call := call, ret := ret, cond := isCond i.bits, ind := isInd i.bits,
    link := i.pc + BitVec.ofNat 64 i.ilen }

/-- A branch or jump resolves. -/
def runBranch (i : Ins) (taken : Bool) (target : Word) (given call ret : Bool) (s : State) : State :=
  let p := i.pcn
  if !mayRun s i then s else
  let mis := mispredicted s i taken target ret given
  let s := if mis then bump p 17 1 (pNow s p) (flushFrom p (i.seq + 1) s) else s
  passOn i (fun e => { e with npc := if taken then target else e.npc, branch := some (brOf i taken mis target call ret) }) 3 s

/-- BRANCH. -/
def execBranch (i : Ins) (taken : Bool) (target : Word) (mispred call ret : Bool) (s : State) : Res :=
  finish s (runBranch i taken target mispred call ret s)

/-! ## PAUSE, ECALL, EBREAK, ILLEGAL -/

/-- PAUSE (R88): dispatch holds for 64 cycles, or until an enabled interrupt is pending. -/
def execPause (i : Ins) (s : State) : Res :=
  finish s (if atHead s i then
    let due := s.tick + cycTicks s i.pcn 64
    let s := complete i 0 s
    if (enabledPending s i.pcn).isEmpty then s.modCore i.pcn (fun c => { c with pauseUntil := some due }) else s
  else s)

/-- PAUSE_HOLD_END (R88). -/
def execPauseHoldEnd (pcn : Nat) (s : State) : Res :=
  finish s (match (s.core pcn).pauseUntil with
    | some t => (if (enabledPending s pcn).isEmpty then s.toTick t else s).modCore pcn (fun c => { c with pauseUntil := none })
    | none => s)

/-- ECALL (R117). -/
def execEcall (i : Ins) (s : State) : Res :=
  finish s (if atHead s i then takeTrap i.pcn (0x08 + (s.core i.pcn).lvl.num) 0 none i.pc s else s)

/-- EBREAK (R117). -/
def execEbreak (i : Ins) (s : State) : Res := finish s (if atHead s i then takeTrap i.pcn 0x03 i.pc none i.pc s else s)

/-- ILLEGAL_INSTRUCTION (R117). -/
def execIllegalInstruction (i : Ins) (s : State) : Res := finish s (if atHead s i then illegal i s else s)

/-! ## TRET and interrupts (R119, R123) -/

/-- TRET returns from a fast-bank trap. -/
def tretFast (c : Core) : Bool := c.csrF (csrBase c.lvl) 5 5 == 1

/-- The status registers after TRET: the fast or the normal return. -/
def tretRegs (c : Core) : Core :=
  let b := csrBase c.lvl
  if tretFast c then ((c.setCsrF b 0 0 (c.csrF b 7 7)).setCsrF b 5 5 0).setCsrF HBANK 1 0 0
  else (c.setCsrF b 0 0 (c.csrF b 1 1)).setCsrF b 5 5 (if c.owner = c.lvl.num then c.csrF b 6 6 else 0)

/-- Where TRET goes, and at which level. -/
def tretPc (c : Core) : Word := c.csr' (csrBase c.lvl + if tretFast c then 8 else 5)
def tretLvl (c : Core) : Lvl := lvlOf (if tretFast c then c.csrF (csrBase c.lvl) 9 8 else c.csrF (csrBase c.lvl) 3 2)

/-- TRET. -/
def runTret (i : Ins) (s : State) : State :=
  let p := i.pcn
  let c := s.core p
  if !atHead s i then s
  else if c.lvl = .u then illegal i s
  else
    -- nothing younger that was fetched stands
    let s := complete i 0 (flushFrom p (i.seq + 1) (clearResv p s))
    let s := s.modCore p (fun x => { x with csr := smSet csrReset (tretRegs c).csr 0xC02 (x.csr' 0xC02), lvl := tretLvl c, pc := tretPc c })
    levelChanged p c.lvl s

/-- TRET. -/
def execTret (i : Ins) (s : State) : Res := finish s (raermien i (runTret i) s)

/-- INTERRUPT_TAKE (R98, R119): not while a non-revocable operation of the oldest instruction is outstanding. -/
def execInterruptTake (pcn : Nat) (s : State) : Res :=
  finish s (if s.runs pcn && !nonRevocable (s.core pcn) then takeIntr pcn s else s)

/-- TIMER_COMPARE (R112): `time` reaches the level's TIMECMP; an all-ones compare is out of reach. -/
def execTimerCompare (pcn : Nat) (lvl : Lvl) (s : State) : Res :=
  finish s (let t := ((s.core pcn).csr' (csrBase lvl + 0xC)).toNat
    if (s.core pcn).on ∧ lvl ≠ .u ∧ t < 2 ^ 64 - 1 then s.toTick (t + s.pwr.timeLag) else s)

/-! ## Sleep (R99 to R101, R130 to R132) -/

/-- A WAIT at the head (R100, steps 1 and 2; R130). -/
def runWait (i : Ins) (s : State) : State :=
  let p := i.pcn
  let c := s.core p
  if !atHead s i then s
  else if c.lvl = .u then illegal i s
  else if c.lvl = .k ∧ c.csrF 0x6C0 12 12 = 1 then takeTrap p 0x17 0 none i.pc s
  else if !sbEmpty c i.seq then s
  else if !c.wc.isEmpty then drainAllWc p s
  else if !c.mrs.isEmpty then s
  else if !(enabledPending s p).isEmpty then complete i 0 (clearResv p s)
  else
    let st := if c.lvl = .k then 0 else c.csrF SLEEPCFG 1 0
    (clearResv p s).modCore p (fun c => { c with sleep := .entering st, stall := some i })

/-- WAIT. -/
def execWait (i : Ins) (s : State) : Res := finish s (raermien i (runWait i) s)

/-- Lines leave the L2 as far as the writeback buffer has room (R214). -/
def evictLines (p : Nat) (l : List Nat) (s : State) : State := l.foldl (fun s ln => if wbbRoom (s.core p) then evictL2 p ln s else s) s

/-- The lines of a swept L2 way. -/
def wayLines (c : Core) (w : Nat) : List Nat := (c.l2.filter (fun e => e.2.way == w)).map (·.1)

/-- Steps 3 to 5 of R219: way `w` out of service, a spare way into it, and the report. -/
def sweepDisable (p w : Nat) (s : State) : State :=
  let cfg := s.rd (.core p) Off.L2_WAYCFG
  let cfg := setFld (setFld cfg w w 0) (32 + w) (32 + w) 1
  let spare := (List.range 17).find? (fun x => !bitOf cfg x && !bitOf cfg (32 + x))
  let cfg' := match spare with | some x => setFld cfg x x 1 | none => cfg
  repCore p 4 (if spare.isSome then 0 else 1) 23 0 w (s.wr (.core p) Off.L2_WAYCFG cfg')

/-- L2.STATUS after a sweep: not busy, whether the spares are used up, and the ways in service. -/
def sweepStatus (p : Nat) (s : State) : State :=
  let s := l2StatusSync p (s.wf (.core p) Off.L2_STATUS 0 0 0)
  s.modCore p (fun c => { c with sweep := none })

/-- Waiting sweeps begin, in turn, until one runs: a crossing that is refused starts none (R219, R220). 100 + w: way `w` was
removed by a write of L2_WAYCFG (R223). -/
def nextSweep (p : Nat) : List Nat → State → State
  | [], s => s
  | x :: l, s =>
    let s := s.modCore p (fun c => { c with sweepWait := l })
    let s := if 100 ≤ x then l2SweepStart p (x - 100) false s else l2Crossing p x s
    if (s.core p).sweep.isSome then s else nextSweep p l s

/-- The lines of the swept way leave; with the last of them gone the sweep ends, with `steps` by R219's steps 3 to 5. While the
writeback buffer is full it goes on. A dead core's sweep has stopped (R221). -/
def endSweep (p : Nat) (s : State) : State :=
  match (s.core p).sweep with
  | none => s
  | some (w, steps) =>
    if (s.core p).dead then s else
    let s := evictLines p (wayLines (s.core p) w) s
    if !(wayLines (s.core p) w).isEmpty then s
    else nextSweep p (s.core p).sweepWait (sweepStatus p (if steps then sweepDisable p w s else s))

/-- L2_SWEEP_END (R219). -/
def execL2SweepEnd (pcn : Nat) (s : State) : Res := finish s (endSweep pcn s)

/-- Sweeps in progress or waiting are completed before PARK (R221). -/
def endSweeps (p : Nat) : Nat → State → State
  | 0, s => s
  | n + 1, s => if (s.core p).sweep.isSome then endSweeps p n (endSweep p s) else s

/-- The L1D is written back to the L2, through its checkers (R99, R204). -/
def l1dBack (p : Nat) (s : State) : State :=
  let s := ((s.core p).l2.map (·.1)).foldl (fun s ln =>
    match (smFind (s.core p).l2 ln).bind (·.l1d) with | some k => if k.m then l1dCheck p ln s else s | none => s) s
  s.modCore p (fun c => { c with l2 := c.l2.map (fun e =>
    (e.1, { e.2 with data := e.2.cur, l1d := e.2.l1d.map (fun k => { k with m := false }) })) })

/-- The L1s are invalidated, and every translation with them (R99, R191). -/
def l1Forget (p : Nat) (s : State) : State :=
  s.modCore p (fun c => { c with
    l2 := c.l2.map (fun e => (e.1, { e.2 with l1d := none, l1i := none })),
    tlb := [], itlb := [], dtlb := [], ext := [],
    invSeq := (c.invSeq + 1) % 65536 })

/-- Step 3 of R100 for DOZE: the L1D write-back, then the invalidations. -/
def dozeEntry (p : Nat) (s : State) : State := l1Forget p (l1dBack p s)

/-- The L2 and the side buffer are written back and emptied (PARK), as far as the writeback buffer has room. -/
def parkEntry (p : Nat) (s : State) : State :=
  let s := ((s.core p).side.map (·.line)).foldl (fun s ln => dropSide p ln s) s
  evictLines p ((s.core p).l2.map (·.1)) s

/-- Nothing of the L2 or the side buffer is left to write back. -/
def l2Empty (c : Core) : Bool := c.l2.isEmpty && c.side.isEmpty

/-- Steps of the entry finish up to the one that an interrupt found in progress, and the core wakes (R100). Which step that was
the rows do not show: it is free. NAP has none that leaves a trace; the L2 write-back of PARK is a step of its own (`parking`). -/
def cutEntry (p st : Nat) (s : State) : State :=
  let k := (Config.freeWord s.freeIdx).toNat % (if st = 0 then 1 else 3)
  let s := { s with freeIdx := s.freeIdx + 1 }
  let s := if k = 0 then s else l1dBack p s
  if k ≤ 1 then s else l1Forget p s

/-- The state is recorded, and the core sleeps (R100, step 4). -/
def sleepNow (p st : Nat) (s : State) : State :=
  let n := cycleNow s p
  s.modCore p (fun c => { c with sleep := .asleep st, cycBase := n })

/-- The L2 write-back of a PARK entry, as far as the writeback buffer has room: the row is given again until it is done. -/
def parkStep (p : Nat) (s : State) : State :=
  let s := parkEntry p s
  if !l2Empty (s.core p) then s
  else match enabledPending s p with
    | w :: _ => wakeCore p (wakeCode w).1 (wakeCode w).2 2 true s
    | [] => sleepNow p 2 s

/-- SLEEP_ENTRY_DONE (R100, steps 3 and 4). -/
def sleepEntryDone (p : Nat) (s : State) : State :=
  match (s.core p).sleep with
  | .entering st =>
    (match enabledPending s p with
    | w :: _ => wakeCore p (wakeCode w).1 (wakeCode w).2 st true (cutEntry p st s)
    | [] =>
      if st = 0 then sleepNow p 0 s
      else if st = 1 then sleepNow p 1 (dozeEntry p s)
      else
        let s := endSweeps p 20 s
        if (s.core p).sweep.isSome then s
        else parkStep p ((dozeEntry p s).modCore p (fun c => { c with sleep := .parking })))
  | .parking => parkStep p s
  | _ => s

/-- SLEEP_ENTRY_DONE. -/
def execSleepEntryDone (pcn : Nat) (s : State) : Res := finish s (sleepEntryDone pcn s)

/-- CORE_WAKE (R101): on an interrupt pending and individually enabled. A release by the PWRC is a step of the
wake from DEN. -/
def execCoreWake (pcn : Nat) (s : State) : Res :=
  finish s (match (s.core pcn).sleep, enabledPending s pcn with
    | .asleep st, w :: _ => if s.modeFlag 8 ∧ st = 2 then s else wakeCore pcn (wakeCode w).1 (wakeCode w).2 st false s
    | _, _ => s)

/-! ## System-register rows -/

/-- A CSR write that is serialising (R81, R109): at the head, with the older stores committed. -/
def csrRow (i : Ins) (n : Nat) (min : Nat) (k : State → State) (s : State) : State :=
  if !atHead s i ∨ !sbEmpty (s.core i.pcn) i.seq then s
  else if (s.core i.pcn).lvl.num < min ∨ !csrPermitted (s.core i.pcn) n true then illegal i s
  else
    let s := issue i.pcn 0 (bump i.pcn 19 1 (pNow s i.pcn) s)
    complete i 0 (flushFrom i.pcn (i.seq + 1) (k s))

/-- ATOMCTL_CLEAR (R157). -/
def execAtomctlClear (i : Ins) (v : Word) (s : State) : Res :=
  finish s (csrRow i ATOMCTL 2 (fun s =>
    let s := csrWrite i.pcn ATOMCTL v s
    if bitOf v 3 then s.modCore i.pcn (fun c => { c with cpred := [] }) else s) s)

/-- Remove every boot-walker entry of a core (R201). -/
def dropMw (p : Nat) (s : State) : State :=
  s.modCore p (fun c =>
    let gone := (c.tlb.filter (fun e => e.2.mw)).map (·.1)
    gone.foldl (fun c n => c.setTlb n {}) c)

/-- BOOTWALK_WRITE (R201). -/
def execBootwalkWrite (i : Ins) (v : Word) (s : State) : Res :=
  finish s (csrRow i BOOTWALK 3 (fun s => dropMw i.pcn (csrWrite i.pcn BOOTWALK v s)) s)

/-! ## TLB instructions (R125 to R128, R175, R194) -/

/-- The entry that the staging registers hold (R173). -/
def staged (c : Core) : TlbEnt :=
  let t := c.csr' 0x5D0
  let d := c.csr' 0x5D1
  let a := c.csr' 0x5D2
  let v := c.csr' 0x5D3
  { v := bitOf t 7, size := fld t 5 0, g := bitOf t 6, mw := false, va := fld t 47 12 * 4096, asid := fld t 63 48,
    r := bitOf d 0, w := bitOf d 1, x := bitOf d 2, u := bitOf d 3, ty := fld d 5 4, a := bitOf d 6, d := bitOf d 7,
    oa := fld d 47 12 * 4096, lid := if c.lvl = .k then c.csrF HLID 8 0 else fld d 56 48, en := bitOf a 0,
    addr := fld a 47 3 * 8, expect := fld v 31 0, abit := fld v 36 32, dbit := fld v 44 40 }

/-- The four staging registers of an entry, as TLBR loads them. -/
def unstage (c : Core) (e : TlbEnt) : Core :=
  let t := e.size + 64 * b2n e.g + 128 * b2n e.v + 256 * b2n e.mw + e.va + e.asid <<< 48
  let d := b2n e.r + 2 * b2n e.w + 4 * b2n e.x + 8 * b2n e.u + 16 * e.ty + 64 * b2n e.a + 128 * b2n e.d + e.oa + e.lid <<< 48
  let v := e.expect + e.abit <<< 32 + e.dbit <<< 40
  (((c.setCsr 0x5D0 (BitVec.ofNat 64 t)).setCsr 0x5D1 (BitVec.ofNat 64 d)).setCsr 0x5D2 (BitVec.ofNat 64 (b2n e.en + e.addr))).setCsr
    0x5D3 (BitVec.ofNat 64 v)

/-- The checks of R175 that need no slot. -/
def tlbwOk (c : Core) (e : TlbEnt) : Bool :=
  let v := c.csr' 0x5D3
  decide (12 ≤ e.size) && decide (e.size ≤ 46) && (e.r || !e.w) && !(e.en && e.abit == e.dbit) &&
  (!bitOf v 47 || fld v 63 48 == c.invSeq)

/-- The slot that the hardware chooses (R175), and the core with its rotating pointer. The spec gives the pointers no start: they
start at way 0 (DESIGN CHOICE, log entry 16). -/
def chooseSlot (c : Core) (e : TlbEnt) : Nat × Core :=
  let b := bankOf e.size
  let set := tlbSet b e.va e.lid
  let slots := (List.range 8).map (fun w => b * 512 + set * 8 + w)
  match slots.find? (fun n => let x := c.tlbAt n
      x.v && x.lid == e.lid && x.size == e.size && x.va / 2 ^ e.size == e.va / 2 ^ e.size && (x.asid == e.asid || (x.g && e.g))) with
  | some n => (n, c)
  | none => match slots.find? (fun n => !(c.tlbAt n).v) with
    | some n => (n, c)
    | none =>
      let k := smGet (fun _ => 0) c.tlbPtr (b * 64 + set)
      (b * 512 + set * 8 + k, { c with tlbPtr := smSet (fun _ => 0) c.tlbPtr (b * 64 + set) ((k + 1) % 8) })

/-- TLBW (R127, R175, R194). -/
def runTlbw (i : Ins) (slot : Option Word) (rd : Nat) (s : State) : State :=
  let p := i.pcn
  let c := s.core p
  if !atHead s i ∨ !sbEmpty c i.seq then s
  else if c.lvl = .u then illegal i s
  else
    let e := staged c
    let s := if slot.isSome then flushFrom p (i.seq + 1) s else s
    let s := bump p 70 1 (pNow s p) s
    let fail := fun (s : State) => completeX i rd (BitVec.allOnes 64) 0 (bump p 71 1 (pNow s p) s)
    let b := bankOf e.size
    if !tlbwOk c e then fail s
    else match slot with
      | none =>
        if !e.v then fail s
        else
          let (n, c') := chooseSlot c e
          completeX i rd (BitVec.ofNat 64 n) 0 (eccWrite (coreStop p) (corePart p) 10 n (s.modCore p (fun c => { c'.setTlb n e with csr := c.csr })))
      | some w =>
        let x := fld w 8 0
        if x / 8 ≠ tlbSet b e.va e.lid then fail s
        else
          let n := b * 512 + x
          completeX i rd (BitVec.ofNat 64 n) 0 (eccWrite (coreStop p) (corePart p) 10 n (s.modCore p (fun c => c.setTlb n (if e.v then e else {}))))

/-- TLBW. The instructions after one with rs1 ≠ x0 are refetched, whatever it comes to (R126). -/
def execTlbw (i : Ins) (slot : Option Word) (rd : Nat) (s : State) : Res := finish s (raermien i (runTlbw i slot rd) s)

/-- TLBR (R128). -/
def runTlbr (i : Ins) (rs1 : Word) (rd : Nat) (s : State) : State :=
  let p := i.pcn
  let c := s.core p
  if !atHead s i ∨ !sbEmpty c i.seq then s
  else if c.lvl = .u then illegal i s
  else
    let n := fld rs1 11 0
    if 6 ≤ n / 512 then completeX i rd (BitVec.allOnes 64) 0 s
    else
      let e := c.tlbAt n
      if e.v && (c.lvl != .k || e.lid == c.csrF HLID 8 0) then completeX i rd 1 0 (s.setCore p (unstage c e))
      else completeX i rd 0 0 (s.setCore p (unstage c {}))

/-- TLBR. -/
def execTlbr (i : Ins) (rs1 : Word) (rd : Nat) (s : State) : Res := finish s (raermien i (runTlbr i rs1 rd) s)

/-- TLBP (R128). -/
def runTlbp (i : Ins) (va ctx : Word) (rd : Nat) (s : State) : State :=
  let p := i.pcn
  let c := s.core p
  if !atHead s i ∨ !sbEmpty c i.seq then s
  else if c.lvl = .u then illegal i s
  else
    let (lid, asid) := if c.lvl = .k then (c.csrF HLID 8 0, c.csrF KASID 15 0) else (fld ctx 24 16, fld ctx 15 0)
    completeX i rd (match c.tlbFind false lid asid va.toNat with | some n => BitVec.ofNat 64 n | none => BitVec.allOnes 64) 0 s

/-- TLBP. -/
def execTlbp (i : Ins) (rs1 rs2 : Word) (rd : Nat) (s : State) : Res := finish s (raermien i (runTlbp i rs1 rs2 rd) s)

/-! ## Broadcasts (R129, R189, R190) -/

/-- A broadcast joins BCHUB's queue. -/
def queueBcast (issuer kind lid asid va size : Nat) (s : State) : State :=
  let h := s.fab.hub
  let b : Bcast := {
    id := h.nextId, issuer := issuer, kind := kind, lid := lid, asid := asid, va := va, size := size, admitted := false
    waits := [], acked := [], lost := 0, since := s.tick }
  { s with fab := { s.fab with hub := { h with bcasts := h.bcasts ++ [b], nextId := h.nextId + 1 } } }

/-- An instruction's broadcast: it holds until every acknowledgement has come. -/
def startBcast (i : Ins) (kind lid asid va size rd : Nat) (s : State) : State :=
  let s := bump i.pcn 72 1 (pNow s i.pcn) s
  let id := s.fab.hub.nextId
  (queueBcast i.pcn kind lid asid va size s).modCore i.pcn (fun c => { c with bc := some ⟨id, i.seq, i.ilen, i.pc, rd⟩ })

/-- Issue a broadcast from the head, at level `min` or above. -/
def issueBcast (i : Ins) (min kind lid asid va size rd : Nat) (s : State) : State :=
  let c := s.core i.pcn
  if !atHead s i ∨ !sbEmpty c i.seq then s
  else if c.lvl.num < min ∨ (kind = 5 ∧ (size < 12 ∨ 46 < size)) then illegal i s
  else startBcast i kind lid asid va size rd s

/-- LID of a TLBINV: HLID at K. -/
def invLid (c : Core) (w : Word) : Nat := if c.lvl = .k then c.csrF HLID 8 0 else fld w 24 16

/-- TLBINV_VA. -/
def execTlbinvVa (i : Ins) (rs1 rs2 : Word) (rd : Nat) (s : State) : Res :=
  finish s (raermien i (issueBcast i 1 0 (invLid (s.core i.pcn) rs2) (fld rs2 15 0) rs1.toNat 0 rd) s)
/-- TLBINV_ASID. -/
def execTlbinvAsid (i : Ins) (_rs1 rs2 : Word) (rd : Nat) (s : State) : Res :=
  finish s (raermien i (issueBcast i 1 1 (invLid (s.core i.pcn) rs2) (fld rs2 15 0) 0 0 rd) s)
/-- TLBINV_LID. -/
def execTlbinvLid (i : Ins) (rs1 _rs2 : Word) (rd : Nat) (s : State) : Res := finish s (raermien i (issueBcast i 2 2 (fld rs1 8 0) 0 0 0 rd) s)
/-- TLBINV_ALL. -/
def execTlbinvAll (i : Ins) (_rs1 _rs2 : Word) (rd : Nat) (s : State) : Res := finish s (raermien i (issueBcast i 2 3 0 0 0 0 rd) s)
/-- EXTINV_LID. -/
def execExtinvLid (i : Ins) (rs1 _rs2 : Word) (rd : Nat) (s : State) : Res := finish s (raermien i (issueBcast i 2 4 (fld rs1 8 0) 0 0 0 rd) s)
/-- EXTINV_RANGE. -/
def execExtinvRange (i : Ins) (rs1 rs2 : Word) (rd : Nat) (s : State) : Res :=
  finish s (raermien i (issueBcast i 2 5 (fld rs2 8 0) 0 rs1.toNat (fld rs2 21 16) rd) s)

/-- [a, a + 2^m) and [b, b + 2^n), each aligned, overlap. -/
def blocksMeet (a m b n : Nat) : Bool := a / 2 ^ (max m n) == b / 2 ^ (max m n)

/-- Whether a broadcast removes a TLB entry (R129). -/
def Bcast.removes (b : Bcast) (e : TlbEnt) : Bool :=
  e.v &&
  (match b.kind with
  | 3 => true
  | 0 => !e.mw && e.lid == b.lid && (e.va / 2 ^ e.size == (b.va % 2 ^ 48) / 2 ^ e.size) && (e.asid == b.asid || e.g)
  | 1 => !e.mw && e.lid == b.lid && e.asid == b.asid && !e.g
  | 2 => !e.mw && e.lid == b.lid
  | 4 => !e.mw && e.lid == b.lid
  | _ => !e.mw && e.lid == b.lid && blocksMeet e.oa e.size (b.va % 2 ^ 48) b.size)

/-- Whether it removes an extent. -/
def Bcast.removesExt (b : Bcast) (x : Extent) : Bool :=
  (b.kind == 4 && x.lid == b.lid) || (b.kind == 5 && x.lid == b.lid && blocksMeet x.gbase x.size (b.va % 2 ^ 48) b.size)

/-- A marker for stores whose translation has been removed. -/
abbrev goneSlot : Nat := 4096

/-- L2 TLB slots whose entries a broadcast removes at a core. -/
def Bcast.gone (b : Bcast) (c : Core) : List Nat := (c.tlb.filter (fun e => b.removes e.2)).map (·.1)

/-- An access that translated through `slot` for LID `lid` used a removed entry: one of the L2 TLB, or, for an EXTINV, any L1
entry of the LID (R190). -/
def Bcast.hits (b : Bcast) (gone : List Nat) (slot : Option Nat) (lid : Nat) : Bool :=
  match slot with | some n => gone.contains n || (decide (4 ≤ b.kind) && lid == b.lid) | none => false

/-- An unretired instruction translated its fetch or its data through a removed entry. -/
def Bcast.hitsIns (b : Bcast) (c : Core) (e : RobEnt) : Bool :=
  let k := c.ctx
  let fetch := if c.translated then c.tlbFind k.1 k.2.1 k.2.2 (e.pc.toNat % 2 ^ 48) else none
  [e.slot, e.slot2, fetch].any (fun sl => b.hits (b.gone c) sl e.lid)

/-- Step 1 of R190: what a broadcast removes from a core's TLBs and extent cache. -/
def Bcast.clean (b : Bcast) (c : Core) : Core :=
  -- an EXTINV also removes every L1 entry of the LID
  let l1 := fun (l : List L1Tlb) => l.filter (fun t => !(decide (4 ≤ b.kind) && (c.tlbAt t.slot).lid == b.lid))
  (b.gone c).foldl (fun c n => c.setTlb n {}) { c with
    ext := c.ext.filter (fun x => !b.removesExt x), itlb := l1 c.itlb, dtlb := l1 c.dtlb }

/-- The write-combining entries that a removed translation has marked leave, as far as there are registers. -/
def drainGone (p : Nat) (s : State) : State :=
  drainLines p (((s.core p).wc.filter (fun w => w.slots.any (fun n => n.1 == goneSlot))).map (·.line)) s

/-- Steps 1 to 3 of R190 at a core. -/
def coreBcast (p : Nat) (b : Bcast) (s : State) : State :=
  let c := s.core p
  let gone := b.gone c
  let s := bump p 74 (gone.length + (c.ext.filter b.removesExt).length) (pNow s p) s
  let s := s.modCore p b.clean
  let s := match (c.rob.filter (fun e => b.hitsIns c e)).map (·.seq) with
    | [] => s
    | q :: l => flushFrom p (l.foldl min q) s
  let s := s.modCore p (fun c => { c with
    sb := c.sb.map (fun x => if b.hits gone x.slot x.lid then { x with slot := some goneSlot } else x),
    wc := c.wc.map (fun w => { w with slots := w.slots.map (fun n => if b.hits gone (some n.1) n.2 then (goneSlot, n.2) else n) }) })
  drainGone p s

/-- Retired stores that must still commit, and combined writes that must still be performed, before the acknowledgement. -/
def bcastHeld (c : Core) : Bool :=
  c.sb.any (fun x => x.retired && x.slot == some goneSlot) || c.wc.any (fun w => w.slots.any (fun n => n.1 == goneSlot)) ||
    c.mrs.any (fun r => r.use == .wc)

def setBcast (b : Bcast) (s : State) : State :=
  { s with fab := { s.fab with hub := { s.fab.hub with bcasts := s.fab.hub.bcasts.map (fun x => if x.id = b.id then b else x) } } }

/-- BCAST_ADMIT (R189): the oldest queued broadcast, one every 16 mesh cycles, at most 32 in flight. -/
def execBcastAdmit (s : State) : Res :=
  finish s (
    let h := s.fab.hub
    if 32 ≤ (h.bcasts.filter (·.admitted)).length then s
    else match h.bcasts.find? (fun b => !b.admitted) with
      | none => s
      | some b =>
        let agents := List.range 272 ++ (if 4 ≤ b.kind then (List.range 9).map (· + 480) else [])
        let s := match h.last with | some t => s.toTick (t + meshTicks s 16) | none => s
        let s := { s with fab := { s.fab with hub := { s.fab.hub with last := some s.tick } } }
        -- its flit stands at the local input of S(9,0)
        let s := setInBuf 9 4 4 (inBuf s 9 4 4 ++ [⟨opBcast, { agent := b.issuer, line := 0, txn := b.id }, bcastOuts 9 4⟩]) s
        setBcast { b with admitted := true, waits := agents, since := s.tick, tmo := s.rf .bchub Off.BCHUB_COH_CFG 4 0 } s)

/-- The last acknowledgement returns completion to the issuer, whose instruction retires with the lost count. -/
def bcastDone (b : Bcast) (s : State) : State :=
  let s := { s with fab := { s.fab with hub := { s.fab.hub with bcasts := s.fab.hub.bcasts.filter (fun x => x.id != b.id) } } }
  let s := dropCopies b.id s
  match (s.core b.issuer).bc with
  | none => s
  | some w =>
    if w.id ≠ b.id then s else
    let i : Ins := ⟨b.issuer, w.seq, w.pc, w.ilen, 0⟩
    let s := bump b.issuer 75 b.lost (pNow s b.issuer) s
    let s := s.modCore b.issuer (fun c => { c with bc := none })
    completeX i w.rd (BitVec.ofNat 64 b.lost) 0 (flushFrom b.issuer (w.seq + 1) s)

/-- BCHUB counts an acknowledgement. -/
def countAck (id agent : Nat) (lost : Bool) (s : State) : State :=
  match s.fab.hub.bcasts.find? (fun b => b.id == id) with
  | none => s
  | some b =>
    let b := { b with waits := b.waits.filter (· != agent), acked := b.acked.filter (· != agent), lost := b.lost + b2n lost }
    if b.waits.isEmpty && b.acked.isEmpty then bcastDone b (setBcast b s) else setBcast b s

/-- BCAST_ACK (R189): an acknowledgement that has been sent arrives. -/
def bcastAck (agent id : Nat) (s : State) : State :=
  (match s.fab.hub.bcasts.find? (fun b => b.id == id) with
    | some b => if b.acked.contains agent then countAck id agent false s else s
    | none => s)

/-- BCAST_ACK_TIMEOUT (R193, R289): BCHUB declares the agent dead at the close of the window. -/
def bcastAckTimeout (agent id : Nat) (s : State) : State :=
  (match s.fab.hub.bcasts.find? (fun b => b.id == id) with
    | some b => if b.admitted && (b.waits.contains agent || b.acked.contains agent) then
        let s := s.toTick (b.since + meshTicks s (2 ^ b.tmo))
        let done := fun (s : State) => match s.fab.hub.bcasts.find? (fun b => b.id == id) with
          | some b => if b.waits.isEmpty && b.acked.isEmpty then bcastDone b s else s
          | none => s
        done (hubDeclare agent s)
      else s
    | none => s)

/-! ## Fast bank (R130) -/

/-- The cluster a fast-bank instruction stands in, or goes to: A, or B where it holds fewer (R82). -/
def fastCluster (i : Ins) (c : Core) : Cluster :=
  match c.rs.find? (fun e => e.1 == i.seq) with | some e => e.2 | none => c.intCluster

/-- What FBR and FBW have in common: until they are the oldest with older stores committed they stand in a station of the
integer cluster with fewer entries (R82, R126); `k` acts. -/
def fastRow (i : Ins) (n : Nat) (k : State → State) (s : State) : State :=
  let c := s.core i.pcn
  let cl := fastCluster i c
  if !atHead s i ∨ !sbEmpty c i.seq then toStation i cl s
  else if c.lvl.num < 2 ∨ n < 10 ∨ 17 < n then illegal i s
  else k (issue i.pcn (if cl = .b then 4 else 0) s)

/-- FBR. -/
def execFbr (i : Ins) (n rd : Nat) (s : State) : Res :=
  finish s (raermien i (fastRow i n (fun s => completeX i rd (smGet (fun _ => (0 : Word)) (s.core i.pcn).fast n) 0 s)) s)

/-- FBW. -/
def execFbw (i : Ins) (n : Nat) (v : Word) (s : State) : Res :=
  finish s (raermien i (fastRow i n (fun s =>
    complete i 0 (s.modCore i.pcn (fun c => { c with fast := smSet (fun _ => (0 : Word)) c.fast n v })))) s)

/-! ## Accessed and dirty bits (R184 to R187) -/

/-- The word an A/D update aims at: an address of the host, or what the guest's extent makes of it; `none` inside where no
extent allows the write (R184); `none` while the table is being read. -/
def adTarget (p : Nat) (e : TlbEnt) (s : State) : Option (Option Nat) × State :=
  let c := s.core p
  if c.lidNow ≠ 0 then
    (match coreExtent p c.lidNow e.addr false s with
      | (.found x, s) => (some (if x.w then some (x.pbase + e.addr % 2 ^ x.size) else none), s)
      | (.none, s) => (some none, s)
      | (.wait, s) => (none, s))
  else (some (some e.addr), s)

/-- The new value of an A/D update's word. -/
def adNew (a : AdPend) (e : TlbEnt) : Nat := e.expect ||| 2 ^ e.abit ||| (if a.needD then 2 ^ e.dbit else 0)

/-- Send the compare-and-set of an A/D update (R185). -/
def adSend (p pa : Nat) (a : AdPend) (e : TlbEnt) (s : State) : State :=
  let t := (s.core p).nextTxn
  let r := { newMr .ad (pa / 64) with
    data := BitVec.ofNat 512 (e.expect + adNew a e <<< 32), arg := 9 + 32 * (pa % 64), waits := [a.seq] }
  let s := bump p 15 1 (pNow s p) s
  sendMr p t 0x10 (s.core p).lidNow (addMr p r (s.modCore p (fun c => { c with ad := some { a with sent := true } })))

/-- AD_UPDATE: the compare-and-set of the oldest instruction is sent to the word's home, or its target fails. -/
def runAdUpdate (p : Nat) (s : State) : State :=
  let c := s.core p
  match c.ad with
  | none => s
  | some a =>
    if a.sent ∨ !s.runs p ∨ a.seq ≠ c.next then s
    else
      let e := c.tlbAt a.slot
      if !e.v then s.setCore p { c with ad := none }
      else
        let (tgt, s) := adTarget p e s
        match tgt with
        | none => s
        | some none => takeTrap p 0x16 a.va (some e.addr) a.pc s
        | some (some pa) =>
          if !s.isNormal pa ∨ unreachable s c.lvl pa then takeTrap p 0x12 (BitVec.ofNat 64 pa) none a.pc s
          else if !l2Free (s.core p) false then s
          else adSend p pa a e s

/-- AD_UPDATE. -/
def execAdUpdate (pcn : Nat) (s : State) : Res := finish s (runAdUpdate pcn s)

/-- The result of an A/D update returns (R185, R186, R188). -/
def adResult (p : Nat) (fail poison : Bool) (line : Nat) (s : State) : State :=
  match (s.core p).ad with
  | none => s
  | some a =>
    let s := s.modCore p (fun c => { c with ad := none })
    let e := (s.core p).tlbAt a.slot
    if poison then takeMcheck p 0x1A (line * 64) a.pc s
    else if !e.v then s
    else if fail then takeTrap p 0x11 a.va none a.pc (s.modCore p (fun c => c.setTlb a.slot {}))
    else
      let e' := { e with a := true, d := e.d || a.needD, expect := adNew a e }
      s.modCore p (fun c => { c with tlb := smSet (fun _ => ({} : TlbEnt)) c.tlb a.slot e' })

/-! ## The boot walker (R197 to R200) -/

/-- What a walk comes to. -/
inductive WalkRes
  | leaf (e : TlbEnt)
  | fault (code : Nat) (tval : Word)
  /-- a descriptor is in poison, or its read met an error that cannot be corrected -/
  | bad (pa : Nat)
  /-- a descriptor is on its way to the L2 -/
  | wait
deriving DecidableEq, Repr

/-- The entry that a leaf descriptor of 2^sh bytes installs (R199). -/
def leafEnt (d : Word) (va : Word) (sh : Nat) : TlbEnt :=
  { v := true, size := sh, g := true, mw := true, va := va.toNat % 2 ^ 48 / 2 ^ sh * 2 ^ sh, asid := 0
    r := bitOf d 2, w := bitOf d 3, x := bitOf d 4, u := false, ty := fld d 6 5, a := true, d := true
    oa := fld d 47 12 * 4096 / 2 ^ sh * 2 ^ sh, lid := 0, en := false }

/-- The walk from a level's table; descriptors are read through the core's L2 (R199, R200). TYPE of a descriptor that names a
table is not looked at (DEDUCED, log entry 17). -/
def walkFrom (p : Nat) (a : Acc') (va : Word) : Nat → Nat → Nat → State → WalkRes × State
  | 0, _, _, s => (.fault a.page va, s)
  | n + 1, lev, base, s =>
    let sh := 39 - 9 * lev
    let da := base + 8 * ((va.toNat / 2 ^ sh) % 512)
    if !s.isNormal da ∨ unreachable s .m da then (.fault 0x12 (BitVec.ofNat 64 da), s)
    else match l2Read p (da / 64) false s with
      | (none, s) => (.wait, s)
      | (some (_, true), s) => (.bad (da / 64 * 64), s)
      | (some (l, false), s) =>
        let d := BitVec.ofNat 64 (lineNat l (da % 64) 8)
        if !bitOf d 0 ∨ (lev = 3 ∧ !bitOf d 1) then (.fault a.page va, s)
        else if bitOf d 1 then
          (if fld d 6 5 = 3 ∨ !permOk a (bitOf d 2) (bitOf d 3) (bitOf d 4) then .fault a.page va else .leaf (leafEnt d va sh), s)
        else walkFrom p a va n (lev + 1) (fld d 47 12 * 4096) s

/-- The access that a walk serves: 0 fetch, 1 read, 2 write, 3 AMO, 4 cache-block maintenance. -/
def walkAcc (kind : Nat) : Acc' :=
  match kind with | 0 => accFetch | 1 => accLoad | 2 => accStore | 3 => accAmo | _ => accCbo

/-- The oldest instruction's access at M missed with the walker on. -/
def walkNeeded (i : Ins) (va : Word) (s : State) : Bool :=
  let c := s.core i.pcn
  atHead s i && sbEmpty c i.seq && (c.lvl == .m) && c.csrF BOOTWALK 0 0 == 1 &&
    (c.tlbFind true 0 0 (va.toNat % 2 ^ 48)).isNone && (decide (va.toNat < 2 ^ 47) || decide (2 ^ 64 - 2 ^ 47 ≤ va.toNat))

/-- BOOT_WALK: the row is given again until the descriptors are here. -/
def runBootWalk (i : Ins) (va : Word) (kind : Nat) (s : State) : State :=
  let p := i.pcn
  if !walkNeeded i va s then s
  else match walkFrom p (walkAcc kind) va 4 0 ((s.core p).csrF BOOTWALK 47 12 * 4096) s with
    | (.leaf e, s) =>
      let x := chooseSlot (s.core p) e
      eccWrite (coreStop p) (corePart p) 10 x.1 (s.setCore p (x.2.setTlb x.1 e))
    | (.fault code tval, s) => takeTrap p code tval none i.pc s
    | (.bad pa, s) => takeMcheck p 0x1A pa i.pc s
    | (.wait, s) => s

/-- BOOT_WALK. -/
def execBootWalk (i : Ins) (va : Word) (kind : Nat) (s : State) : Res := finish s (runBootWalk i va kind s)

end Sys2Proof.Machine
end

