-- ==== Sys2Proof/Machine/Idist.lean ====
section
/-! DEFINITION. The interrupt distributor (chapter 14): sources, delivery to harts and to posted areas, claims,
recalls and replays. -/
namespace Sys2Proof.Machine

/-! ## Sources and lodges -/

/-- A field of IDIST.SRC. -/
def srcF (s : State) (id hi lo : Nat) : Nat := s.rf .idist (Off.SRC + 8 * id) hi lo
def setSrcF (id hi lo v : Nat) (s : State) : State := s.wf .idist (Off.SRC + 8 * id) hi lo v

/-- LID that owns a source (IDIST.SRC_LID). -/
def srcLid (s : State) (id : Nat) : Nat := s.rf .idist (Off.SRC_LID + 4 * (id / 16)) 8 0

/-- An attribute word of the IDIST (R361). -/
def idistAttr (s : State) (lid : Nat) : Word := s.rd .idist (Off.IDIST_LODGE_ATTR + 4 * lid)
def attrGen (w : Word) : Nat := fld w 7 0
def attrValid (w : Word) : Bool := bitOf w 25
def attrHold (w : Word) : Bool := bitOf w 26

/-- Sources whose trigger is level (R380, R400). -/
def isLevelSrc (s : State) (id : Nat) : Bool := srcF s id 6 6 == 1



/-- PCN of a hart ID in the IDIST's map (R386). -/
def mapPcn (s : State) (h : Nat) : Option Nat :=
  if s.rf .idist (Off.HART_MAP + 8 * h) 9 9 = 1 then some (s.rf .idist (Off.HART_MAP + 8 * h) 8 0) else none

/-- Hart ID of a PCN in the map. -/
def mapHart (s : State) (p : Nat) : Option Nat := (List.range 256).find? (fun h => mapPcn s h == some p)

/-! ## The IDIST's copies of harts (R386, R389, R390) -/

def State.hcopy (s : State) (h : Nat) (l : Lvl) : HartCopy := smGet (fun _ => ({} : HartCopy)) s.idist.copies (4 * h + l.num)
def setHcopy (h : Nat) (l : Lvl) (c : HartCopy) (s : State) : State :=
  { s with idist := { s.idist with copies := smSet (fun _ => ({} : HartCopy)) s.idist.copies (4 * h + l.num) c } }

/-- RUN of a level at a core. -/
def coreRun (s : State) (p : Nat) (l : Lvl) : Nat := (s.core p).csrF (csrBase l + 0xD) 7 4

/-- The core sends one level's running priority and enables. -/
def syncLvl (p : Nat) (l : Lvl) (s : State) : State :=
  match mapHart s p with
  | none => s
  | some h =>
    let e := (s.core p).csr' (csrBase l + 1)
    setHcopy h l { s.hcopy h l with run := coreRun s p l, extEn := bitOf e 1, fastEn := bitOf e 2 } s

/-- All three levels. -/
def syncHart (p : Nat) (s : State) : State := syncLvl p .m (syncLvl p .h (syncLvl p .k s))

/-- Free or fill the copy of a delivery slot. -/
def setBusy (h : Nat) (l : Lvl) (fast b : Bool) (s : State) : State :=
  let c := s.hcopy h l
  setHcopy h l (if fast then { c with fastBusy := b } else { c with extBusy := b }) s

/-! ## Posted areas (R393, R394) -/

def vslotCfg (s : State) (v : Nat) : Word := s.rd .idist (Off.VSLOT_CFG + 16 * v)
def vslotArea (s : State) (v : Nat) : Word := s.rd .idist (Off.VSLOT_AREA + 16 * v)
def areaPa (w : Word) : Nat := fld w 47 8 * 256

/-- A far AMO of the IDIST on a 64-bit word, on behalf of the lodge with attribute word `w`: the old value, which is free if the line is poisoned and the AMO does not
perform (R153). -/
def idistAmo (w : Word) (a : Nat) (f : Nat → Nat) (s : State) : Nat × State :=
  let ln := a / 64
  let s := llcCheck ln (warCheck ln s)
  if cohPoison s a 8 then s.fresh
  else
    let old := leNat (cohBytes s a 8)
    let s := cohPut a (leBytes 8 (f old)) s
    -- a far AMO allocates, whatever the FILL bits hold (R249)
    (old, if lineInUse s ln ∨ (s.llcAt ln).isSome then s else llcFill ln (fld w 24 20) (fld w 19 14) (memLine s ln) true false s)

/-- Posting slot of a VIRT source (R392): `none` when its VCPU index is beyond the lodge's slots. -/
def srcSlot (s : State) (id : Nat) : Option Nat :=
  let l := s.lodgeSt (srcLid s id)
  let v := srcF s id 23 16
  if v < l.slots then some (l.slotBase + v) else none

/-- Post a source: the three AMOs, and the source returns to IDLE. With EN = 0 it stays PENDING. -/
def postSource (id : Nat) (s : State) : State :=
  match srcSlot s id with
  | none => setSrcF id 32 32 1 (setSrcF id 33 33 0 s)
  | some v =>
    let w := vslotArea s v
    if !bitOf w 0 then setSrcF id 32 32 1 (setSrcF id 33 33 0 s)
    else
      let lid := srcLid s id
      let i := id - (s.lodgeSt lid).srcBase
      let a := areaPa w
      let (_, s) := idistAmo (idistAttr s lid) (a + 8 * (i / 64)) (fun o => o ||| 2 ^ (i % 64)) s
      let (_, s) := idistAmo (idistAttr s lid) (a + 0x88) (fun o => max o (srcF s id 3 0)) s
      let (on, s) := idistAmo (idistAttr s lid) (a + 0x80) (fun o => o ||| 1) s
      let s := setSrcF id 32 32 0 (setSrcF id 33 33 0 s)
      { s with idist := { s.idist with
        postings := s.idist.postings ++ [(⟨id, v, lid, attrGen (idistAttr s lid), i, srcF s id 3 0, 3, some on⟩ : Posting)] } }

/-- Queue a doorbell at its hart, or leave it owed (R394, R397). -/
def sendDoorbell (v h : Nat) (s : State) : State :=
  match mapPcn s h with
  | some p =>
    if (s.core p).dead ∨ 16 ≤ (s.idist.doorbells.filter (fun d => d.1 == p)).length then
      { s with idist := { s.idist with owed := s.idist.owed ++ [(v, h)] } }
    else { s with idist := { s.idist with doorbells := s.idist.doorbells ++ [(p, v)] } }
  | none => { s with idist := { s.idist with owed := s.idist.owed ++ [(v, h)] } }

/-- Owed doorbells of a hart follow as its queue drains. -/
def drainOwed (h : Nat) (s : State) : State :=
  match s.idist.owed.find? (fun o => o.2 == h) with
  | some o => sendDoorbell o.1 h { s with idist := { s.idist with owed := s.idist.owed.erase o } }
  | none => s

/-- A doorbell of the posting slot is outstanding: queued at a core, or owed. -/
def hasBell (s : State) (v : Nat) : Bool := s.idist.doorbells.any (fun d => d.2 == v) || s.idist.owed.any (fun o => o.1 == v)

/-- The posting slot is the lodge's. -/
def slotOfLodge (s : State) (lid v : Nat) : Bool :=
  decide ((s.lodgeSt lid).slotBase ≤ v) && decide (v < (s.lodgeSt lid).slotBase + (s.lodgeSt lid).slots)

/-- LODGE_ATTR.OLD_OUT of the IDIST: a posting or doorbell of an older generation is outstanding (R396). -/
def idistOld (lid : Nat) (s : State) : State :=
  let g := attrGen (idistAttr s lid)
  let old := s.idist.postings.any (fun p => p.lid == lid && p.gen != g) ||
    s.idist.oldBells.any (fun v => slotOfLodge s lid v && hasBell s v)
  s.wf .idist (Off.IDIST_LODGE_ATTR + 4 * lid) 27 27 (b2n old)

/-- The lodge's generation has risen: the doorbells of its slots are of the older one. -/
def markBells (lid : Nat) (s : State) : State :=
  let l := s.lodgeSt lid
  let vs := ((List.range l.slots).map (fun i => l.slotBase + i)).filter (hasBell s)
  { s with idist := { s.idist with oldBells := vs.foldl (fun m v => insNat v m) s.idist.oldBells } }

/-- A doorbell of slot `v` was claimed. -/
def bellTaken (v : Nat) (s : State) : State :=
  if s.idist.oldBells.contains v ∧ !hasBell s v then
    idistOld (fld (vslotCfg s v) 28 20) { s with idist := { s.idist with oldBells := s.idist.oldBells.filter (· != v) } }
  else s

/-- The doorbell of a posting (R394); it has the posting's generation. -/
def ringFor (p : Posting) (s : State) : State :=
  let s := sendDoorbell p.slot (fld (vslotCfg s p.slot) 16 9) s
  if p.gen = attrGen (idistAttr s p.lid) then s
  else { s with idist := { s.idist with oldBells := insNat p.slot s.idist.oldBells } }

/-- POSTED_DOORBELL: the AMOs of the slot's oldest posting have performed; an old ON of 0 rings H. -/
def postedDoorbell (v : Nat) (s : State) : State :=
  match s.idist.postings.find? (fun p => p.slot == v) with
  | none => s
  | some p =>
    let s := { s with idist := { s.idist with postings := s.idist.postings.erase p } }
    idistOld p.lid (if p.oldOn = some 0 then ringFor p s else s)

/-- POSTED_DOORBELL (R394). -/
def execPostedDoorbell (slot : Nat) (s : State) : Res := finish s (postedDoorbell slot s)

/-! ## Choosing a source and a hart (R384 to R386) -/

/-- Nothing is delivered in SAFE or asleep in DEN (R397). -/
def idistRuns (s : State) : Bool :=
  !s.modeFlag 11 && s.pwr.mainOn &&
    (match s.pwr.den with | .phaseB k => decide (k < 3) | .den => false | .waking f k => decide (f < 3) || decide (5 ≤ k) | _ => true)

/-- Sources that are PENDING; only registers away from their reset value can be. -/
def pendingSrcs (s : State) : List Nat :=
  let b := Blk.idist.base + Off.SRC
  s.ocr.filterMap (fun e => if b ≤ e.1 ∧ e.1 < b + 8 * 8192 ∧ bitOf e.2 32 then some ((e.1 - b) / 8) else none)

/-- Where a candidate would go. -/
inductive Route
  | hart (h : Nat) (l : Lvl)
  | post
deriving DecidableEq, Repr

/-- A hart may take the source at the level, by the IDIST's copy (R386). -/
def hartEligible (s : State) (id h : Nat) (l : Lvl) : Bool :=
  let c := s.hcopy h l
  let fast := srcF s id 4 4 == 1
  (mapPcn s h).isSome && !(if fast then c.fastBusy else c.extBusy) && (if fast then c.fastEn else c.extEn) &&
    decide (c.run < srcF s id 3 0)

/-- The eligible member with the lowest RUN; ties rotate from the member after the last chosen. -/
def chooseHart (s : State) (id n : Nat) (l : Lvl) : Option Nat :=
  let last := smGet (fun _ => 255) s.idist.tset n
  let order := (List.range 256).map (fun i => (last + 1 + i) % 256)
  let ok := order.filter (fun h => bitOf (s.rd .idist (Off.TSET + 32 * n + 8 * (h / 64))) (h % 64) && hartEligible s id h l)
  match ok with
  | [] => none
  | h :: t => some (t.foldl (fun b x => if (s.hcopy x l).run < (s.hcopy b l).run then x else b) h)

/-- The route of a PENDING source, or `none` while it cannot commit (R384, R392). -/
def routeSrc (s : State) (id : Nat) : Option Route :=
  let g := srcF s id 15 10
  let lid := srcLid s id
  if srcF s id 5 5 = 1 ∨ srcF s id 3 0 = 0 ∨ srcF s id 33 33 = 1 ∨ (lid ≠ 0 ∧ attrHold (idistAttr s lid)) ∨
      s.tick < smGet (fun _ => 0) s.idist.holdEnd g then none
  else if srcF s id 9 9 = 0 then
    (let l := lvlOf (srcF s id 8 7)
     (chooseHart s id (srcF s id 21 16) l).map (fun h => Route.hart h l))
  else match srcSlot s id with
    | none => none
    | some v =>
      let c := vslotCfg s v
      if bitOf c 0 then (if hartEligible s id (fld c 8 1) .k then some (.hart (fld c 8 1) .k) else none)
      else if bitOf (vslotArea s v) 0 then some .post else none

/-- Key of a priority's rotation pointer. -/
def rotKey (s : State) (id : Nat) : Nat := srcF s id 3 0 + 16 * srcF s id 4 4

/-- Rank of a candidate: class, priority, then its place in the rotation. -/
def srcRank (s : State) (id : Nat) : Nat :=
  let last := smGet (fun _ => 8191) s.idist.rot (rotKey s id)
  rotKey s id * 8192 + (8191 - (id + 8191 - last) % 8192)

/-- The candidate that commits. -/
def bestSrc (s : State) : Option (Nat × Route) :=
  ((pendingSrcs s).filterMap (fun id => (routeSrc s id).map (fun r => (id, r)))).foldl
    (fun (b : Option (Nat × Route)) x => match b with
      | none => some x
      | some y => if srcRank s y.1 < srcRank s x.1 then some x else some y) none

/-- A commit moves its priority's rotation pointer and opens its group's hold-off window (R384, R385). -/
def commitMoves (id : Nat) (s : State) : State :=
  let g := srcF s id 15 10
  let h := s.rf .idist (Off.GROUP + 8 * g) 15 0
  { s with idist := { s.idist with
    rot := smPut s.idist.rot (rotKey s id) id
    holdEnd := smSet (fun _ => 0) s.idist.holdEnd g (if h = 0 then 0 else s.tick + h) } }

/-- The delivery that a commit of `id` to hart `h` at level `l` makes. -/
def deliveryOf (s : State) (id h : Nat) (l : Lvl) : Delivery :=
  let virt := srcF s id 9 9 = 1
  ⟨id, srcF s id 3 0, srcF s id 4 4 = 1, l, h, (mapPcn s h).getD 0, if virt then srcLid s id else 0, virt⟩

/-- The source is ACTIVE at the hart, and the delivery is on its way. -/
def commitTo (id h : Nat) (l : Lvl) (s : State) : State :=
  let d := deliveryOf s id h l
  let n := srcF s id 21 16
  let s := setBusy h l d.fast true (setSrcF id 43 36 h (setSrcF id 33 33 1 (setSrcF id 32 32 0 s)))
  { s with idist := { s.idist with
    tset := if d.virt then s.idist.tset else smPut s.idist.tset n h
    actLvl := smPut s.idist.actLvl id l.num
    inFlight := s.idist.inFlight ++ [d] } }

/-- DELIVERY_COMMIT: one commit. -/
def deliveryCommit (s : State) : State :=
  if !idistRuns s then s else
  match bestSrc s with
  | none => s
  | some (id, .post) => postSource id (commitMoves id s)
  | some (id, .hart h l) => commitTo id h l (commitMoves id s)

/-- DELIVERY_COMMIT (R384). -/
def execDeliveryCommit (s : State) : Res := finish s (deliveryCommit s)

/-- HOLDOFF_EXPIRY (R385): the group's window closes. -/
def execHoldoffExpiry (group : Nat) (s : State) : Res :=
  finish s (match smFind s.idist.holdEnd group with
    | some t => let s := s.toTick t; { s with idist := { s.idist with holdEnd := smDel s.idist.holdEnd group } }
    | none => s)

/-! ## Acceptance and refusal (R387) -/

/-- Why the core refuses a delivery now. -/
def refusal (s : State) (d : Delivery) : Option Nat :=
  let c := s.core d.pcn
  if !c.on ∨ c.dead then some 4
  else if d.pri ≤ coreRun s d.pcn d.lvl then some 0
  else if !bitOf (c.csr' (csrBase d.lvl + 1)) (if d.fast then 2 else 1) then some 1
  else if d.virt ∧ c.csrF HLID 8 0 ≠ d.lid then some 2
  else none

/-- DELIVER: the oldest delivery on its way to the core reaches its stop. -/
def deliver (p : Nat) (s : State) : State :=
  match s.idist.inFlight.find? (fun d => d.pcn == p) with
  | none => s
  | some d =>
    let s := { s with idist := { s.idist with inFlight := s.idist.inFlight.erase d } }
    match refusal s d with
    | some r => { s with idist := { s.idist with refused := s.idist.refused ++ [(d, r)] } }
    | none => { s with idist := { s.idist with slots := s.idist.slots ++ [d] } }

/-- DELIVER (R387). -/
def execDeliver (pcn : Nat) (s : State) : Res := finish s (deliver pcn s)

/-- A delivery returned with a reason reaches the IDIST. -/
def takeRefused (d : Delivery) (r : Nat) (s : State) : State :=
  let s := s.incSat .idist Off.REFUSED 31 0
  let s := if r = 4 then setHcopy d.hart d.lvl {} s else setBusy d.hart d.lvl d.fast false (syncLvl d.pcn d.lvl s)
  if srcF s d.src 33 33 = 0 then s
  else
    let lid := srcLid s d.src
    if (r = 2 ∨ r = 3) ∧ d.virt ∧ !(lid ≠ 0 ∧ attrHold (idistAttr s lid)) then postSource d.src s
    else
      -- a level source whose input has gone is no longer pending
      let s := setSrcF d.src 33 33 0 s
      if isLevelSrc s d.src ∧ srcF s d.src 34 34 = 0 then s else setSrcF d.src 32 32 1 s

/-- DELIVERY_REFUSED (R387): the oldest refused delivery. -/
def execDeliveryRefused (s : State) : Res :=
  finish s (match s.idist.refused with
    | [] => s
    | (d, r) :: l => takeRefused d r { s with idist := { s.idist with refused := l } })

/-! ## Claim, priority and EOI (R389 to R391) -/

/-- Highest priority set in ACTIVE. -/
def topActive (w : Word) : Nat := (List.range 15).foldl (fun m i => if bitOf w (8 + i) then i + 1 else m) 0

/-- LCPRI with RUN recomputed. -/
def withRun (w : Word) : Word := setFld w 7 4 (max (fld w 3 0) (topActive w))

/-- Set LCPRI and send the new state. -/
def putCpri (p : Nat) (l : Lvl) (w : Word) (s : State) : State :=
  syncLvl p l (s.modCore p (fun c => c.setCsr (csrBase l + 0xD) (withRun w)))

/-- Number of LCLAIM. -/
def claimCsr : Lvl → Nat | .k => 0xDC4 | .h => 0xEC3 | _ => 0xFC0

/-- What a claim returns, and its effect. -/
def claimValue (p : Nat) (l : Lvl) (s : State) : Nat × State :=
  let slot := fun (f : Bool) => s.idist.slots.find? (fun d => d.pcn == p && d.lvl == l && d.fast == f)
  match (match slot true with | some d => some d | none => slot false) with
  | some d =>
    let s := { s with idist := { s.idist with slots := s.idist.slots.erase d } }
    let w := (s.core p).csr' (csrBase l + 0xD)
    let s := putCpri p l (setFld w (7 + d.pri) (7 + d.pri) 1) s
    (d.src + d.pri <<< 16 + (b2n d.fast) <<< 20 + 1 <<< 21, setBusy d.hart l d.fast false s)
  | none =>
    if l = .h then
      (match s.idist.doorbells.find? (fun d => d.1 == p) with
        | some d =>
          let s := { s with idist := { s.idist with doorbells := s.idist.doorbells.erase d } }
          (d.2 + 2 <<< 21, bellTaken d.2 (match mapHart s p with | some h => drainOwed h s | none => s))
        | none => (0, s))
    else (0, s)

/-- CLAIM: the read of LCLAIM at the oldest instruction; every later load waits for it (R149). -/
def runClaim (i : Ins) (l : Lvl) (rd : Nat) (s : State) : State :=
  let p := i.pcn
  let c := s.core p
  if !atHead s i then s
  else if l = .u ∨ !csrPermitted c (claimCsr l) false then illegal i s
  else
    let (v, s) := claimValue p l s
    completeX i rd (BitVec.ofNat 64 v) 0 (flushFrom p (i.seq + 1) s)

/-- CLAIM (R389). -/
def execClaim (i : Ins) (lvl : Lvl) (rd : Nat) (s : State) : Res := finish s (runClaim i lvl rd s)

/-- The effect of a write of LCPRI. -/
def cpriWrite (p : Nat) (l : Lvl) (v : Word) (s : State) : State := putCpri p l (v &&& 0x7FFF0F) s

/-- CPRI_WRITE (R390). -/
def execCpriWrite (i : Ins) (lvl : Lvl) (v : Word) (s : State) : Res :=
  finish s (csrRow i (csrBase lvl + 0xD) (max 1 lvl.num) (cpriWrite i.pcn lvl v) s)

/-- The EOI is of an ACTIVE source that was delivered to this hart and level, or to this lodge's K (R391). -/
def eoiMatches (s : State) (h : Nat) (l : Lvl) (id lid : Nat) : Bool :=
  srcF s id 33 33 == 1 && (if srcF s id 9 9 = 1 then l == .k && lid == srcLid s id
    else srcF s id 43 36 == h && smGet (fun _ => 0) s.idist.actLvl id == l.num)

/-- The IDIST receives an EOI from hart `h` at a level; `lid`: HLID of a sender at K. -/
def endSource (h : Nat) (l : Lvl) (id lid : Nat) (s : State) : State :=
  if !eoiMatches s h l id lid then s.incSat .idist Off.EOI_BAD 31 0
  else
    let s := setSrcF id 33 33 0 s
    let s := { s with idist := { s.idist with actLvl := smDel s.idist.actLvl id } }
    if isLevelSrc s id then setSrcF id 32 32 (srcF s id 34 34) s else s

/-- The effect of a write of LEOI. -/
def eoiWrite (p : Nat) (l : Lvl) (v : Word) (s : State) : State :=
  let pri := fld v 19 16
  let w := (s.core p).csr' (csrBase l + 0xD)
  let s := putCpri p l (if pri = 0 then w else setFld w (7 + pri) (7 + pri) 0) s
  match mapHart s p with
  | none => s.incSat .idist Off.EOI_BAD 31 0
  | some h =>
    -- a VIRT source ends only for a sender at K (R391)
    let sender := if (s.core p).lvl = .k then l else if srcF s (fld v 12 0) 9 9 = 1 then .u else l
    endSource h sender (fld v 12 0) ((s.core p).csrF HLID 8 0) s

/-- EOI (R391). -/
def execEoi (i : Ins) (lvl : Lvl) (v : Word) (s : State) : Res :=
  finish s (csrRow i (csrBase lvl + 0xE) (max 1 lvl.num) (eoiWrite i.pcn lvl v) s)

/-! ## Inputs of the IDIST (R380 to R382) -/

/-- A message source is fired by a message with a LID, a generation and data (R381). -/
def fireMessage (lid gen dat : Nat) (s : State) : State :=
  let w := idistAttr s lid
  let l := s.lodgeSt lid
  let id := if lid = 0 then dat else l.srcBase + dat
  if !attrValid w ∨ attrGen w ≠ gen then s.incSat .idist Off.IDIST_LATE_DISCARD 31 0
  else if id < 1024 ∨ 8191 < id ∨ (lid ≠ 0 ∧ 2 ^ l.log2Src ≤ dat) then s.incSat .idist Off.MSI_REJECT 31 0
  else fireEdge id s

/-- MSI_MESSAGE (R381): a message from a port reaches the IDIST. -/
def execMsiMessage (m : Msg) (s : State) : Res := finish s (arrive 0xE4 m (fireMessage m.lid m.gen (m.arg % 8192)) s)

/-- Active level of EXT_IRQ pin `n` (SRC.POL). -/
def extActive (s : State) (n : Nat) : Bool := s.pwr.extIrq.contains n != (srcF s n 24 24 == 1)

/-- The pin drives its source: by level, or by the edge to the active level. -/
def driveExt (n : Nat) (was : Bool) (s : State) : State :=
  let a := extActive s n
  if isLevelSrc s n then driveLevel n a s
  else
    let s := setSrcF n 34 34 (b2n a) s
    if a ∧ !was then fireEdge n s else s

/-- EXT_IRQ (R380): a filtered change of pin `n`. -/
def execExtIrq (pin : Nat) (high : Bool) (s : State) : Res :=
  finish s (if 8 ≤ pin then s else
    let was := extActive s pin
    let s := { s with pwr := { s.pwr with extIrq := if high then insNat pin s.pwr.extIrq else s.pwr.extIrq.filter (· != pin) } }
    driveExt pin was s)



/-! ## Writes of the IDIST's registers (R388, R394, R395, R399, R400) -/

/-- The trigger that R380 fixes for a source. -/
def fixedTrig (id : Nat) : Option Nat := if id < 8 then none else if 32 ≤ id ∧ id < 256 then some 1 else some 0

/-- The fields that a write of SRC leaves unchanged (R400), as values: VIRT, LEVEL, TRIG. -/
def srcLegal (s : State) (id : Nat) (v : Word) : Bool × Bool × Bool :=
  (!(bitOf v 9 && srcLid s id == 0), fld v 8 7 != 0, match fixedTrig id with | some t => fld v 6 6 == t | none => true)

/-- A write of SRC[id], its low 32 bits. -/
def srcWrite (id : Nat) (v : Word) (s : State) : State :=
  let old := s.rd .idist (Off.SRC + 8 * id)
  let (okV, okL, okT) := srcLegal s id v
  let n := setFld old 31 0 (fld v 31 0 % 2 ^ 25)
  let n := if okV then n else setFld n 9 9 (fld old 9 9)
  let n := if okL then n else setFld n 8 7 (fld old 8 7)
  let n := if okT then n else setFld n 6 6 (fld old 6 6)
  let n := if bitOf n 9 then n else setFld n 23 22 0
  let n := if id < 8 then n else setFld n 24 24 0
  let was := id < 8 && extActive s id
  let s := s.wr .idist (Off.SRC + 8 * id) n
  if id < 8 ∧ (fld n 24 24 ≠ fld old 24 24 ∨ fld n 6 6 ≠ fld old 6 6) then driveExt id was s else s

/-- A write of IPI_SEND. -/
def ipiSend (v : Word) (s : State) : State :=
  let id := fld v 12 0
  if 256 ≤ id ∧ id ≤ 767 then fireEdge id s else s.incSat .idist Off.DENIED 31 0

/-- Replay of a posted area (R395): every bitmap word and ON are swapped with 0, and what was set becomes PENDING. -/
def replayArea (v : Nat) (s : State) : State :=
  let w := vslotArea s v
  if !bitOf w 0 then s else
  let lid := fld (vslotCfg s v) 28 20
  let l := s.lodgeSt lid
  let a := areaPa w
  let attr := idistAttr s lid
  let s := (List.range 16).foldl (fun s k =>
    let (old, s) := idistAmo attr (a + 8 * k) (fun _ => 0) s
    (List.range 64).foldl (fun s b =>
      if old.testBit b ∧ 64 * k + b < 2 ^ l.log2Src then setSrcF (l.srcBase + 64 * k + b) 32 32 1 s else s) s) s
  (idistAmo attr (a + 0x80) (fun _ => 0) s).2

/-- A write of VSLOT_CFG[v]: recalls and replays (R395); owed doorbells follow DB_HART (R397). -/
def vslotCfgWrite (v : Nat) (val : Word) (s : State) : State :=
  let old := vslotCfg s v
  if bitOf old 18 then s else
  let n := setFld old 16 0 (fld val 16 0)
  let s := s.wr .idist (Off.VSLOT_CFG + 16 * v) n
  let s := if fld n 16 9 = fld old 16 9 then s else
    let mine := s.idist.owed.filter (fun o => o.1 == v)
    let s := { s with idist := { s.idist with owed := s.idist.owed.filter (fun o => o.1 != v) } }
    mine.foldl (fun s _ => sendDoorbell v (fld n 16 9) s) s
  if bitOf old 0 ∧ !bitOf n 0 then
    let s := s.wf .idist (Off.VSLOT_CFG + 16 * v) 18 18 1
    { s with idist := { s.idist with recalls := s.idist.recalls ++ [(v, fld old 8 1, fld old 28 20)] } }
  else if !bitOf old 0 ∧ bitOf n 0 ∧ bitOf val 17 then replayArea v s
  else s

/-- A write of VSLOT_AREA[v]; an area outside DRAM and the Hoard leaves it. -/
def vslotAreaWrite (v : Nat) (val : Word) (s : State) : State :=
  let n := setFld (setFld 0 0 0 (fld val 0 0)) 47 8 (fld val 47 8)
  if s.isNormal (areaPa n) then s.wr .idist (Off.VSLOT_AREA + 16 * v) n else s

/-- RECALL: the recall of slot `v` reaches the old hart behind every delivery committed before it; what is unclaimed
returns with reason 3, the IDIST posts it, and BUSY clears. -/
def doRecall (v : Nat) (s : State) : State :=
  match s.idist.recalls.find? (fun r => r.1 == v) with
  | none => s
  | some (_, h, lid) =>
    let done := fun (s : State) =>
      let s := { s with idist := { s.idist with recalls := s.idist.recalls.filter (fun r => r.1 != v) } }
      s.wf .idist (Off.VSLOT_CFG + 16 * v) 18 18 0
    match mapPcn s h with
    | none => done s
    | some p =>
      if s.idist.inFlight.any (fun d => d.pcn == p && d.lid == lid) ∨ s.idist.refused.any (fun d => d.1.pcn == p) then s else
      let back := s.idist.slots.filter (fun d => d.pcn == p && d.lvl == .k && d.virt && d.lid == lid)
      let s := { s with idist := { s.idist with slots := s.idist.slots.filter (fun d => !back.contains d) } }
      done (back.foldl (fun s d => takeRefused d 3 s) s)

/-- RECALL (R395). -/
def execRecall (slot : Nat) (s : State) : Res := finish s (doRecall slot s)

/-! ## Dead cores and lodges (R396, R397, R369 step 5) -/

/-- DEAD for a core: its harts' ACTIVE sources become PENDING again, and its doorbells stay owed. -/
def idistDead (p : Nat) (s : State) : State :=
  match s.hartOf p with
  | none => s
  | some h =>
    let b := Blk.idist.base + Off.SRC
    let act := s.ocr.filterMap (fun e => if b ≤ e.1 ∧ e.1 < b + 8 * 8192 ∧ bitOf e.2 33 ∧ fld e.2 43 36 = h then some ((e.1 - b) / 8) else none)
    let s := act.foldl (fun s id =>
      let s := setSrcF id 33 33 0 s
      if isLevelSrc s id ∧ srcF s id 34 34 = 0 then s else setSrcF id 32 32 1 s) s
    let mine := s.idist.doorbells.filter (fun d => d.1 == p)
    { s with idist := { s.idist with
      slots := s.idist.slots.filter (fun d => d.pcn != p)
      inFlight := s.idist.inFlight.filter (fun d => d.pcn != p)
      refused := s.idist.refused.filter (fun d => d.1.pcn != p)
      doorbells := s.idist.doorbells.filter (fun d => d.1 != p)
      owed := s.idist.owed ++ mine.map (fun d => (d.2, h))
      copies := ([Lvl.k, .h, .m].foldl (fun m l => smDel m (4 * h + l.num)) s.idist.copies) } }

/-- Step 5 of R369: the lodge's sources and slots are cleared. -/
def idistClearLodge (lid : Nat) (s : State) : State :=
  let l := s.lodgeSt lid
  let s := (List.range (if l.slots = 0 then 0 else 2 ^ l.log2Src)).foldl (fun s i =>
    setSrcF (l.srcBase + i) 33 32 0 s) s
  let mine := slotOfLodge s lid
  idistOld lid { s with idist := { s.idist with
    postings := s.idist.postings.filter (fun p => p.lid != lid)
    slots := s.idist.slots.filter (fun d => !(d.virt && d.lid == lid))
    doorbells := s.idist.doorbells.filter (fun d => !mine d.2)
    owed := s.idist.owed.filter (fun o => !mine o.1)
    oldBells := s.idist.oldBells.filter (fun v => !mine v) } }

/-! ## IO commands (R401, R402) -/

/-- Statuses of a command that would write a leased instance. -/
def leasedInst (s : State) (b : Blk) : Bool := s.leased b.inst

/-- IO.IRQ_SRC_SET. -/
def ioIrqSrcSet (c : Cmd) (s : State) : CmdRes :=
  let id := bytesAt c.body 1 0
  let v := BitVec.ofNat 64 (bytesAt c.body 7 4)
  if 8191 < id then .fail stBadField s
  else
    let (a, b, d) := srcLegal s id v
    if !a ∨ !b ∨ !d then .fail stBadField s else .done stOk [] (srcWrite id v s)

/-- IO_IRQ_SRC_SET (R402). -/
def execIoIrqSrcSet (ch tag : Nat) (s : State) : Res := finish s (runBelet 0x0520 ch tag ioIrqSrcSet s)

/-- IO.IRQ_SRC_GET. -/
def ioIrqSrcGet (c : Cmd) (s : State) : CmdRes :=
  let id := bytesAt c.body 1 0
  if 8191 < id then .fail stBadField s else .done stOk (leBytes 8 (s.rd .idist (Off.SRC + 8 * id)).toNat) s

/-- IO_IRQ_SRC_GET (R401). -/
def execIoIrqSrcGet (ch tag : Nat) (s : State) : Res := finish s (runBelet 0x0521 ch tag ioIrqSrcGet s)

/-- IO.IRQ_TSET. -/
def ioIrqTset (c : Cmd) (s : State) : CmdRes :=
  let n := bytesAt c.body 0 0
  if 63 < n ∨ 1 < bytesAt c.body 1 1 then .fail stBadField s
  else
    let wr := bytesAt c.body 1 1 = 1
    if wr ∧ leasedInst s .idist then .fail stLeaseHeld s else
    let s := if wr then (List.range 4).foldl (fun s w =>
        s.wr .idist (Off.TSET + 32 * n + 8 * w) (BitVec.ofNat 64 (bytesAt c.body (15 + 8 * w) (8 + 8 * w)))) s
      else s
    .done stOk ((List.range 4).flatMap (fun w => leBytes 8 (s.rd .idist (Off.TSET + 32 * n + 8 * w)).toNat)) s

/-- IO_IRQ_TSET (R402). -/
def execIoIrqTset (ch tag : Nat) (s : State) : Res := finish s (runBelet 0x0522 ch tag ioIrqTset s)

/-- IO.IRQ_GROUP. -/
def ioIrqGroup (c : Cmd) (s : State) : CmdRes :=
  let g := bytesAt c.body 0 0
  if 63 < g ∨ 1 < bytesAt c.body 1 1 then .fail stBadField s
  else
    let wr := bytesAt c.body 1 1 = 1
    if wr ∧ leasedInst s .idist then .fail stLeaseHeld s else
    let s := if wr then s.wf .idist (Off.GROUP + 8 * g) 15 0 (bytesAt c.body 3 2) else s
    .done stOk (leBytes 2 (s.rf .idist (Off.GROUP + 8 * g) 15 0)) s

/-- IO_IRQ_GROUP (R402). -/
def execIoIrqGroup (ch tag : Nat) (s : State) : Res := finish s (runBelet 0x0523 ch tag ioIrqGroup s)

end Sys2Proof.Machine
end

