-- ==== Sys2Proof/Machine/Ports.lean ====
section
/-! DEFINITION. What the root complexes and the twin port share: inbound work and its order, translation of DMA,
outbound tags, fault logs, and the answers of a port to the coherence protocol (R285, R403 to R413). -/
namespace Sys2Proof.Machine

/-! ## A port -/

def State.port (s : State) (n : Nat) : Port := smGet (fun _ => ({} : Port)) s.ports n
def State.setPort (s : State) (n : Nat) (p : Port) : State := { s with ports := smSet (fun _ => ({} : Port)) s.ports n p }
def State.modPort (s : State) (n : Nat) (f : Port → Port) : State := s.setPort n (f (s.port n))

/-- The register window of port `n`: RC0 to RC7, and 8 for the twin port in its role (R422). -/
def portBlk (s : State) (n : Nat) : Blk := if n < 8 then .rc n else if s.pwr.tpRoot then .rc 8 else .tp

/-- Port `n` is a root complex: the twin port only in root mode. -/
def isRc (s : State) (n : Nat) : Bool := decide (n < 8) || (n == 8 && s.pwr.tpRoot)

/-- Agent number of a port (R256), and its stop. -/
def portAgent (n : Nat) : Nat := 480 + n
def portStop (n : Nat) : Nat := if n = 8 then 7 else rcStops.getD n 0

def portAttr (s : State) (n lid : Nat) : Word := s.rd (portBlk s n) (Off.RC_LODGE_ATTR + 4 * lid)

/-- A DEV access met an agent that has been declared dead: the stop that answers for it tells the Owl (R143, R291). -/
def deadAccess (st a line : Nat) (s : State) : State := report (Blk.mesh st).inst 10 1 24 line 0 a 0 s

/-- A generation is the current one of a valid LID (R366). -/
def portFresh (s : State) (n lid gen : Nat) : Bool := attrValid (portAttr s n lid) && attrGen (portAttr s n lid) == gen

def bwOf (s : State) (b : Blk) : BwSt := smGet (fun _ => ({} : BwSt)) s.bw b.stop

/-- Closing tick of the window in progress: the next multiple of its length (R561). -/
def bwDue (w : BwSt) : Nat := (w.opened / (2 ^ w.k * us) + 1) * (2 ^ w.k * us)

/-- Swap a monitor's buffers (R561, R562): the snapshot is what has gathered, the next window counts from `from_`, and a
new K comes into force. -/
def bwSwap (b : Blk) (partly : Bool) (from_ : Nat) (s : State) : State :=
  let w := bwOf s b
  let s := (List.range 128).foldl (fun s i => s.wr b (Off.BW_SNAP + 8 * i) (BitVec.ofNat 64 (smGet (fun _ => 0) w.live i % 2 ^ 48))) s
  let s := (s.incWrap b Off.BW_STAT 31 0).wf b Off.BW_STAT 32 32 (b2n (partly || w.fresh))
  let k := s.rf b Off.BW_CTL 4 0
  { s with bw := smSet (fun _ => ({} : BwSt)) s.bw b.stop { live := [], k := k, fresh := k != w.k, opened := from_ } }

/-- Every window whose closing tick has come is closed, each at its own tick (R10, R561): the one in progress, the next one,
and all the empty ones after it. -/
def bwCatch (b : Blk) (s : State) : State :=
  if s.tick < bwDue (bwOf s b) then s else
  let s := bwSwap b false (bwDue (bwOf s b)) s
  if s.tick < bwDue (bwOf s b) then s else
  let s := bwSwap b false (bwDue (bwOf s b)) s
  let w := bwOf s b
  let len := 2 ^ w.k * us
  let m := s.tick / len - w.opened / len
  if m = 0 then s else
  let s := (s.wf b Off.BW_STAT 31 0 (s.rf b Off.BW_STAT 31 0 + m)).wf b Off.BW_STAT 32 32 0
  { s with bw := smSet (fun _ => ({} : BwSt)) s.bw b.stop { w with opened := s.tick / len * len } }

/-- Add payload bytes to a bandwidth cell of a stop while its monitor is enabled (R561). -/
def bwAdd (b : Blk) (i n : Nat) (s : State) : State :=
  if s.rf b Off.BW_CTL 5 5 = 0 then s else
  let s := bwCatch b s
  let w := bwOf s b
  { s with bw := smSet (fun _ => ({} : BwSt)) s.bw b.stop { w with live := smSet (fun _ => 0) w.live i (smGet (fun _ => 0) w.live i + n) } }

/-- Write BW_CTL: the windows that have ended so far ended under the old settings, and a monitor that was off opens its
window now. -/
def bwCtlPut (b : Blk) (v : Word) (s : State) : State :=
  let s := if s.rf b Off.BW_CTL 5 5 = 1 then bwCatch b s
    else { s with bw := smSet (fun _ => ({} : BwSt)) s.bw b.stop { bwOf s b with opened := s.tick } }
  s.wr b Off.BW_CTL v

/-- The blocks with a bandwidth monitor, in rising stop index. -/
def bwBlks (s : State) : List Blk :=
  (List.range 170).filterMap (fun st => if isTileStop st then none else
    match edgeBlk st with
    | .mc n => some (.mc n)
    | .rc n => some (.rc n)
    | .tp => some (portBlk s 8)
    | _ => none)

/-- Windows in progress when the Den stopped their instances close, in part, when these resume. -/
def bwResume (p : Blk → Bool) (s : State) : State :=
  ((bwBlks s).filter (fun b => p b && s.rf b Off.BW_CTL 5 5 == 1)).foldl (fun s b => bwSwap b true s.tick s) s

/-- TAGS: tags in use (R406), and those of them in quarantine. -/
def tagsReg (n : Nat) (s : State) : State :=
  let p := s.port n
  s.wr (portBlk s n) Off.RC_TAGS (BitVec.ofNat 64 (p.reqs.length + (p.reqs.filter (·.quar)).length <<< 10))

/-- LODGE_ATTR[lid].OLD_OUT: reads, or engine requests, of an older generation are outstanding (R410, R437). -/
def portOld (n lid : Nat) (s : State) : State :=
  if lid = 0 then s else
  let p := s.port n
  let g := attrGen (portAttr s n lid)
  let old := p.reads.any (fun r => r.lid == lid && r.gen != g) || p.reqs.any (fun r => r.lid == lid && r.gen != g) ||
    (n == 8 && p.pieces.any (fun x => x.lid == lid && x.gen != g))
  s.wf (portBlk s n) (Off.RC_LODGE_ATTR + 4 * lid) 27 27 (b2n old)

/-- A TLP leaves the port. -/
def sendTlp (n : Nat) (t : Tlp) (s : State) : State := s.modPort n (fun p => { p with out := p.out ++ [t] })

/-! ## Configuration space of a root port (R411) -/

/-- A 32-bit register of the configuration space: header registers at their offset, the PCI Express capability at
0x1000 + its offset in the structure, AER at 0x2000 + its offset. -/
def cfgReset (key : Nat) : Nat :=
  let r := key % 65536
  -- AER defaults: Uncorrectable Severity, Uncorrectable Mask, Correctable Mask (PRESUMED, log entry 41)
  if r = 0x200C then 0x462030 else if r = 0x2008 then 0x400000 else if r = 0x2014 then 0xE000 else 0

def cfgGet (s : State) (n p r : Nat) : Nat := smGet cfgReset (s.port n).cfg (65536 * p + r)
def cfgPut (n p r v : Nat) (s : State) : State :=
  s.modPort n (fun x => { x with cfg := smSet cfgReset x.cfg (65536 * p + r) (v % 2 ^ 32) })
def cfgOr (n p r v : Nat) (s : State) : State := cfgPut n p r (cfgGet s n p r ||| v) s

/-- Root Error Status of a port holds an enabled report. -/
def rootErrOn (s : State) (n p : Nat) : Bool :=
  let c := cfgGet s n p 0x202C
  let t := cfgGet s n p 0x2030
  (t.testBit 0 && c.testBit 0) || (t.testBit 5 && c.testBit 1) || (t.testBit 6 && c.testBit 2)

/-- Slot Status holds an enabled hot-plug event. -/
def slotOn (s : State) (n p : Nat) : Bool :=
  let w := cfgGet s n p 0x1018
  w.testBit 5 && ((w.testBit 3 && w.testBit 19) || (w.testBit 12 && w.testBit 24))

/-- Drive the port's level sources (R415, R442). -/
def portIrqs (n : Nat) (s : State) : State :=
  let any := fun (f : Nat → Bool) => (List.range 4).any f
  let log := !(s.port n).log.isEmpty
  if isRc s n then
    let a := any (fun p => rootErrOn s n p)
    let b := any (fun p => slotOn s n p)
    let d := any (fun p => 0 < cfgGet s n p 0x1010 / 2 ^ 30)
    driveLevel (32 + 4 * n + 3) d (driveLevel (32 + 4 * n + 2) log (driveLevel (32 + 4 * n + 1) b (driveLevel (32 + 4 * n) a s)))
  else driveLevel 64 (log || s.rf .tp Off.TP_LINK 18 18 == 1) s

/-- Append a record to the fault log, which holds 32 (R408, R418). -/
def logFault (n : Nat) (w : Word) (s : State) : State :=
  let s := unc (portBlk s n) 6 1 s
  let s := if (s.port n).log.length < 32 then s.modPort n (fun p => { p with log := p.log ++ [w] })
    else s.incSat (portBlk s n) Off.RC_FAULT_LOST 31 0
  portIrqs n s

/-- Read of FAULT_LOG: the oldest record leaves. -/
def takeFault (n : Nat) (s : State) : Word × State :=
  match (s.port n).log with
  | [] => (0, s)
  | w :: l => (w, portIrqs n (s.modPort n (fun p => { p with log := l })))

/-! ## Translation of DMA (R407, R408) -/

/-- Stage 2 at a port, with its 2,048-entry extent cache (R182). -/
def portExtent (n lid g : Nat) (s : State) : Option Extent × State :=
  match (s.port n).ext.find? (fun e => e.lid == lid && e.covers g) with
  | some e => (some e, s.modPort n (fun p => { p with ext := lruPut 2048 e (delFirst (· == e) p.ext) }))
  | none =>
    let s := unc (portBlk s n) 5 1 s
    let v := s.rd (portBlk s n) (Off.RC_LODGE_EXT + 8 * lid)
    match (extLookup cohRead (fld v 47 16 * 65536) (fld v 12 0) lid g s).1.1 with
    | .found e => (some e, s.modPort n (fun p => { p with ext := lruPut 2048 e p.ext }))
    | .poison a => (none, report ((portBlk s n).inst) (if n < 8 then 17 else 18) 1 0 (a / 64) 0 (portAgent n) 0 s)
    | _ => (none, s)

/-- A DMA range: its physical address, or the KIND of fault. -/
def portXlate (n lid g len : Nat) (write : Bool) (s : State) : Except Nat Nat × State :=
  if lid = 0 then (if s.inBuffer g len then .ok g else .error 2, s)
  else
    match portExtent n lid g s with
    | (none, s) => (.error 0, s)
    | (some e, s) =>
      if !(if write then e.w else e.r) then (.error 1, s)
      else if !e.covers (g + len - 1) then (.error 2, s)
      else
        let pa := e.pbase + g % 2 ^ e.size
        (if s.inBuffer pa len then .ok pa else .error 2, s)

/-! ## Posted inbound work (R147, R148, R285) -/

/-- A request of a port, unless the port is fenced. -/
def portPost (n op : Nat) (m : Msg) (s : State) : State := if (s.port n).dead then s else post op m s

def pieceMsg (n : Nat) (x : Piece) : Msg :=
  { agent := portAgent n, line := x.line, txn := x.txn, lid := x.lid, gen := x.gen, qport := x.qport, fclass := x.fclass }

/-- Change one piece. -/
def setPiece (n id : Nat) (f : Piece → Piece) (s : State) : State :=
  s.modPort n (fun p => { p with pieces := p.pieces.map (fun x => if x.id = id then f x else x) })

/-- Holds ownership, or has asked for it. -/
def Piece.owns (x : Piece) : Bool :=
  match x.st with | .asked => true | .owned => true | .committing => true | _ => false

/-- The pieces that may ask for ownership: the first of each line. -/
def askable : List Piece → List Nat → List Piece
  | [], _ => []
  | x :: l, seen =>
    if x.kind = .write ∧ x.st = .fresh ∧ !(seen.contains x.line) then x :: askable l (x.line :: seen) else askable l (x.line :: seen)

/-- The commit of a piece: the whole line while the port owns it, its own bytes otherwise. A write received with EP = 1
poisons the lines it touches (R410). -/
def commitMsg (n : Nat) (x : Piece) : Msg :=
  { pieceMsg n x with data := x.data, poison := (x.poison && x.st == .owned) || x.ep, mask := x.mask }

/-- The pieces that head their function's work and can go on. -/
def actionable : List Piece → List Nat → List Piece
  | [], _ => []
  | x :: l, seen =>
    if seen.contains x.fn then actionable l seen
    else
      match x.kind, x.st with
      | .write, .owned => x :: actionable l (x.fn :: seen)
      | .write, .givenUp => x :: actionable l (x.fn :: seen)
      | .write, _ => actionable l (x.fn :: seen)
      | _, _ => x :: actionable l (x.fn :: seen)

/-! ### Injection slots (R433) -/

/-- Place of a ring in the rotation: (VF 1, ring 0) is 0, (VF 63, ring 1) is 125. -/
def pairOf (v r : Nat) : Nat := 2 * (v - 1) + r

/-- Function number that the pieces of a ring carry. -/
def ringFn (v r : Nat) : Nat := 64 + 64 * r + v

/-- The ring whose work a piece of the twin port is. -/
def Piece.pair (x : Piece) : Option Nat := if x.fn < 64 then none else some (pairOf (x.fn % 64) (x.fn / 64 - 1))

/-- The first pair from the pointer on. -/
def pairFirst (rot : Nat) (l : List Nat) : Option Nat :=
  l.foldl (fun (a : Option Nat) p => match a with
    | none => some p
    | some q => if (p + 126 - rot) % 126 < (q + 126 - rot) % 126 then some p else a) none

/-- The piece that takes the next injection slot. At the twin port inbound and engine requests alternate, and the engine's
take turns over the rings. -/
def nextPiece (s : State) (n : Nat) (l : List Piece) : Option Piece :=
  if isRc s n then l.head? else
  let eng := (pairFirst (s.port n).rot (l.filterMap Piece.pair)).bind (fun q => l.find? (fun x => x.pair == some q))
  match l.find? (fun x => x.pair.isNone) with
  | none => eng
  | some x => if (s.port n).lastEng then some x else eng.or (some x)

/-- A slot went to ring `q` of the engine, or to an inbound request: the pointer moves to the pair after the one granted. -/
def slotTaken (n : Nat) (q : Option Nat) (s : State) : State :=
  s.modPort n (fun p => { p with lastEng := q.isSome, rot := match q with | some k => (k + 1) % 126 | none => p.rot })

/-- A piece is performed, or its message sent. -/
def dropPiece (n id : Nat) (s : State) : State :=
  let s' := s.modPort n (fun p => { p with pieces := p.pieces.filter (fun x => x.id != id) })
  match (s.port n).pieces.find? (fun x => x.id == id) with
  | some x => portOld n x.lid s'
  | none => s'

/-- The completion interrupt of a local ring (R432), or VF.RAISE (R444): IDIST message source, with the generation
check of R381 at the IDIST. -/
def portMsi (n : Nat) (x : Piece) (dat : Nat) (s : State) : State :=
  unc (portBlk s n) 12 1 (portPost n 0xE4 { agent := portAgent n, line := 0, lid := x.lid, gen := x.gen, arg := dat % 8192 } s)

/-- Ask for ownership of the next lines, at most 64 ahead, one piece of a line at a time. -/
def askPieces (n : Nat) : Nat → State → State
  | 0, s => s
  | k + 1, s =>
    if 64 ≤ ((s.port n).pieces.filter (·.owns)).length then s else
    match nextPiece s n (askable (s.port n).pieces []) with
    | none => s
    | some x => askPieces n k (portPost n (if x.mask = fullMask then 0x1A else 0x1B) (pieceMsg n x)
        (slotTaken n x.pair (setPiece n x.id (fun y => { y with st := .asked, sent := s.tick, tmo := snpTmo s (homeOf x.line) }) s)))

/-- Commit what the order of R147 lets go. -/
def pumpGo (n : Nat) : Nat → State → State
  | 0, s => s
  | k + 1, s =>
    match nextPiece s n (actionable (s.port n).pieces []) with
    | none => s
    | some x =>
      let s := slotTaken n x.pair s
      let s := match x.kind with
        | .msi d => portMsi n x d (dropPiece n x.id s)
        | .raise i => portPost n 0xE4 { agent := portAgent n, line := 0, lid := x.lid, gen := x.gen, arg := i % 8192 } (dropPiece n x.id s)
        | .write =>
          if x.st = .owned then portPost n 0x1C (commitMsg n x) (setPiece n x.id (fun y => { y with st := .committing, sent := s.tick, tmo := snpTmo s (homeOf x.line) }) s)
          else portPost n 0x19 (commitMsg n x) (setPiece n x.id (fun y => { y with st := .writing, sent := s.tick, tmo := snpTmo s (homeOf x.line) }) s)
      pumpGo n k s

/-! ## Inbound reads (R410) -/

/-- Data of a finished read, line by line from its address. -/
def readTlps (r : DmaRead) : List Tlp :=
  (List.range ((r.pa + r.len + 63) / 64 - r.pa / 64)).map (fun i =>
    let ln := r.pa / 64 + i
    let a := max r.pa (ln * 64)
    let e := min (r.pa + r.len) (ln * 64 + 64)
    match r.got.find? (fun g => g.1 == ln) with
    | some g => Tlp.cpl r.rp r.tag 0 (lineBytes g.2.1 (a % 64) (e - a)) g.2.2
    | none => Tlp.cpl r.rp r.tag 0 (leBytes (e - a) 0) false)

/-- Function number of the twin port's bandwidth cells: PF0 0, VF v. -/
def bwFn (fn : Nat) : Nat := fn % 64

/-- A read ends: its generation is checked where the data returns (R366); a poisoned line goes out as a poisoned TLP and is
reported (R341). -/
def endRead (n : Nat) (r : DmaRead) (s : State) : State :=
  let s := s.modPort n (fun p => { p with reads := p.reads.filter (fun x => x.id != r.id) })
  let s := portOld n r.lid s
  if portFresh s n r.lid r.gen then
    let s := unc (portBlk s n) 1 1 s
    let s := bwAdd (portBlk s n) (if isRc s n then 4 * r.rp else 2 * bwFn r.fn) r.len s
    let s := match r.got.find? (fun (g : Nat × Line × Bool) => g.2.2) with
      | some g => report ((portBlk s n).inst) (if n < 8 then 17 else 18) 2 0 g.1 0 (portAgent n) 0 s
      | none => s
    (readTlps r).foldl (fun s t => sendTlp n t s) s
  else sendTlp n (.cpl r.rp r.tag 1 [] false) (s.incSat (portBlk s n) Off.RC_LATE_DISCARD 31 0)

/-- Reads whose data has come and whose earlier writes have been performed. -/
def readyRead (s : State) (n : Nat) : Option DmaRead :=
  (s.port n).reads.find? (fun r => r.waits.isEmpty && !(r.after.any (fun i => (s.port n).pieces.any (fun x => x.id == i))))

def finishReads (n : Nat) : Nat → State → State
  | 0, s => s
  | k + 1, s =>
    match readyRead s n with
    | none => s
    | some r => finishReads n k (endRead n r s)

/-- Broadcasts whose inbound writes have been performed are acknowledged (R190). -/
def finishDrains (n : Nat) (s : State) : State :=
  let done := (s.port n).drains.filter (fun d => !(d.2.any (fun i => (s.port n).pieces.any (fun x => x.id == i))))
  let s := s.modPort n (fun p => { p with drains := p.drains.filter (fun d => d.2.any (fun i => p.pieces.any (fun x => x.id == i))) })
  let ids := done.map (·.1)
  { s with fab := { s.fab with hub := { s.fab.hub with bcasts := s.fab.hub.bcasts.map (fun b =>
      if ids.contains b.id then { b with waits := b.waits.filter (· != portAgent n), acked := b.acked ++ [portAgent n] } else b) } } }

/-- Let the port go on. -/
def portGo (n : Nat) (s : State) : State :=
  let s := askPieces n (s.port n).pieces.length s
  let s := pumpGo n ((s.port n).pieces.length + 1) s
  finishDrains n (finishReads n ((s.port n).reads.length) s)

/-- A fresh number for a piece or a read. -/
def portId (n : Nat) (s : State) : Nat × State := ((s.port n).next, s.modPort n (fun p => { p with next := p.next + 1 }))

/-- What one inbound request carries. -/
structure Inbound where
  fn : Nat
  rp : Nat
  lid : Nat
  win : Option (Nat × Nat × Nat)
  ep : Bool

/-- Attributes of new work of a LID (R362). -/
def newPiece (s : State) (n id : Nat) (q : Inbound) (kind : PieceKind) : Piece :=
  let w := portAttr s n q.lid
  { id := id, fn := q.fn, kind := kind, st := .fresh, line := 0, mask := 0, data := 0, ep := q.ep, poison := false, lid := q.lid,
    gen := attrGen w, qport := fld w 19 14, fclass := fld w 24 20, txn := id % 4096, sent := s.tick, win := q.win }

/-- Queue one piece. -/
def queuePiece (n : Nat) (q : Inbound) (kind : PieceKind) (f : Piece → Piece) (s : State) : Nat × State :=
  let (id, s) := portId n s
  (id, s.modPort n (fun p => { p with pieces := p.pieces ++ [f (newPiece s n id q kind)] }))

/-- The lines of a write of `l` at `pa`: line, offset, bytes. -/
def splitGo : Nat → Nat → List Byte → List (Nat × Nat × List Byte)
  | 0, _, _ => []
  | k + 1, pa, l => if l.isEmpty then [] else
    (pa / 64, pa % 64, l.take (64 - pa % 64)) :: splitGo k (pa + (64 - pa % 64)) (l.drop (64 - pa % 64))
def splitLines (pa : Nat) (l : List Byte) : List (Nat × Nat × List Byte) := splitGo (l.length / 64 + 2) pa l

/-- Queue a write; answers the pieces. -/
def queueWrite (n : Nat) (q : Inbound) (pa : Nat) (l : List Byte) (s : State) : List Nat × State :=
  (splitLines pa l).foldl (fun (a : List Nat × State) x =>
    let (id, s) := queuePiece n q .write (fun y => { y with line := x.1, mask := placeMask x.2.1 x.2.2.length, data := placeBytes x.2.1 x.2.2 }) a.2
    (a.1 ++ [id], s)) ([], s)

/-- Queue a read: one IoRd per line (R285). `ordered`: it waits for every earlier write of the function (R426). -/
def queueRead (n : Nat) (q : Inbound) (tag addr pa len : Nat) (ordered : Bool) (s : State) : State :=
  let w := portAttr s n q.lid
  let (id, s) := portId n s
  let lines := (List.range ((pa + len + 63) / 64 - pa / 64)).map (fun i => pa / 64 + i)
  let (waits, s) := lines.foldl (fun (a : List (Nat × Nat) × State) ln =>
    let (t, s) := portId n a.2
    let t := t % 4096
    let m : Msg := { agent := portAgent n, line := ln, txn := t, lid := q.lid, gen := attrGen w, qport := fld w 19 14, fclass := fld w 24 20 }
    (a.1 ++ [(t, ln)], portPost n 0x18 m s)) ([], s)
  let after := if ordered then ((s.port n).pieces.filter (fun x => x.fn == q.fn)).map (·.id) else []
  s.modPort n (fun p => { p with reads := p.reads ++ [(⟨id, q.fn, q.rp, tag, addr, pa, len, q.lid, attrGen w, waits, [], s.tick, waits.map (fun x => (x.1, snpTmo s (homeOf x.2))), after, q.win⟩ : DmaRead)] })

/-! ## The protocol at a port -/

/-- Ownership has come, with data for a partial line. -/
def portGrant (n : Nat) (m : Msg) (withData : Bool) (s : State) : State :=
  match (s.port n).pieces.find? (fun x => x.txn == m.txn && x.st == .asked) with
  | none => s
  | some x =>
    let s := setPiece n x.id (fun y => { y with
      st := .owned
      data := if withData then lineMerge m.data y.data y.mask else y.data
      poison := withData && m.poison }) s
    portGo n (portPost n 0x81 { agent := portAgent n, line := m.line, txn := m.txn } s)

/-- Uncached data for an inbound read. -/
def portUcData (n : Nat) (m : Msg) (s : State) : State :=
  let s := s.modPort n (fun p => { p with reads := p.reads.map (fun r =>
    if r.waits.contains (m.txn, m.line) then
      { r with waits := r.waits.erase (m.txn, m.line), got := r.got ++ [(m.line, m.data, m.poison)] }
    else r) })
  portGo n s

/-- Completion of a commit: the write has been performed; a commit that came too late follows as IoWr. -/
def portCmp (n : Nat) (m : Msg) (s : State) : State :=
  match (s.port n).pieces.find? (fun x => x.txn == m.txn && (x.st == .committing || x.st == .writing || x.st == .lost)) with
  | none => s
  | some x =>
    let s := if x.st = .lost then setPiece n x.id (fun y => { y with st := .givenUp }) s
      else dropPiece n x.id s
    portGo n s

/-- A snoop at a port (R285): an owned line not yet committed is given up. -/
def portSnoop (n : Nat) (m : Msg) (s : State) : State :=
  if (s.port n).dead then snpReply m false false false false true 0 false s else
  match (s.port n).pieces.find? (fun x => x.line == m.line && (x.st == .owned || x.st == .committing)) with
  | none => snpReply m false false false false false 0 false s
  | some x =>
    let there := fun (e : Nat × Msg) => e.1 == 0x1C && e.2.agent == portAgent n && e.2.line == m.line
    if x.st = .owned then
      portGo n (snpReply m true false false false false 0 false (setPiece n x.id (fun y => { y with st := .givenUp }) s))
    else if s.fab.net.any there ∨ s.fab.queue.any (fun q => there (q.op, q.msg)) then
      snpReply m true false false false false 0 false (setPiece n x.id (fun y => { y with st := .lost }) s)
    else snpReply m false false false false false 0 false s

/-- An EXTINV at a port (R190): entries leave, and the broadcast is acknowledged once the inbound writes queued so far
that the extents translated have been performed. -/
def portBcast (n : Nat) (b : Bcast) (s : State) : State :=
  let s := s.modPort n (fun p => { p with
    ext := p.ext.filter (fun x => !b.removesExt x)
    drains := p.drains ++ [(b.id, ((p.pieces.filter (fun x => x.lid == b.lid)).map (·.id)))] })
  finishDrains n s

/-! ## Tags (R406, R412, R413) -/

/-- Tags a port holds. -/
def tagCount (s : State) (n : Nat) : Nat := if isRc s n then 512 else 768

/-- The lowest free tag. -/
def freeTag (s : State) (n : Nat) : Option Nat :=
  (List.range (tagCount s n)).find? (fun t => !((s.port n).reqs.any (fun r => r.tag == t)))

/-- Completion timeout by encoding, in ticks (R412). -/
def ctoTicks (e : Nat) : Nat :=
  match e with
  | 1 => 80 * us
  | 2 => 8 * ms
  | 5 => 40 * ms
  | 6 => 160 * ms
  | 9 => 640 * ms
  | 10 => 2500 * ms
  | 13 => 10000 * ms
  | 14 => 40000 * ms
  | _ => 10 * ms

def freeReq (n tag : Nat) (s : State) : State :=
  match (s.port n).reqs.find? (fun r => r.tag == tag) with
  | none => s
  | some r => portOld n r.lid (tagsReg n (s.modPort n (fun p => { p with reqs := p.reqs.filter (fun x => x.tag != tag) })))

/-- A tag enters quarantine. -/
def quarReq (n tag : Nat) (s : State) : State :=
  tagsReg n (s.modPort n (fun p => { p with reqs := p.reqs.map (fun x => if x.tag = tag then { x with quar := true } else x) }))

end Sys2Proof.Machine
end

