-- ==== Sys2Proof/Machine/RegCore.lean ====
section
/-! DEFINITION. How a write merges into a register under its access codes (R3 to R5, R33). -/
namespace Sys2Proof.Machine

/-- One field's share of a write of `v` over `old`: `lease` opens RWL fields, `sett` RO ones. A reserved encoding leaves
the field unchanged (R5). -/
def mergeField (lease : Bool) (v : Word) (old : Word) (f : FieldDef) : Word :=
  let n := fld v f.hi f.lo
  match f.acc with
  | .rw => if f.legal.ok n then setFld old f.hi f.lo n else old
  | .rwl => if lease && f.legal.ok n then setFld old f.hi f.lo n else old
  | .w1c => setFld old f.hi f.lo (fld (old &&& ~~~v) f.hi f.lo)
  | .w1s => setFld old f.hi f.lo (fld (old ||| v) f.hi f.lo)
  | _ => old

/-- All fields of a register. -/
def mergeReg (lease : Bool) (d : RegDef) (old v : Word) : Word := d.fields.foldl (mergeField lease v) old

/-- A register's definition; `none` where no register starts. -/
def regDef (b : Blk) (o : Nat) : Option RegDef := regAt b o

/-- The value a write would leave in a register. -/
def merged (s : State) (lease : Bool) (b : Blk) (o : Nat) (v : Word) : Word :=
  match regAt b o with
  | some d => mergeReg lease d (s.rd b o) v
  | none => s.rd b o

end Sys2Proof.Machine
end

