-- ==== Sys2Proof/Machine/Flash.lean ====
section
/-! DEFINITION. The flash and the journal (chapter 18): slots, boot selection, records, commit, replay,
compaction, the FW and JRN commands. -/
namespace Sys2Proof.Machine

/-! ## CRC-32C (R471) -/

/-- One bit step of CRC-32C, polynomial 0x1EDC_6F41 reflected (0x82F6_3B78). -/
def crcStep (c : BitVec 32) : BitVec 32 :=
  if c.getLsbD 0 then (c >>> 1) ^^^ 0x82F63B78#32 else c >>> 1

def crcByte (c : BitVec 32) (b : Byte) : BitVec 32 :=
  (List.range 8).foldl (fun c _ => crcStep c) (c ^^^ b.setWidth 32)

/-- CRC-32C of bytes, initial and final XOR 0xFFFF_FFFF. -/
def crc32c (l : List Byte) : Nat := (l.foldl crcByte 0xFFFFFFFF#32 ^^^ 0xFFFFFFFF#32).toNat

/-! ## Flash bytes and images -/

/-- A byte of the firmware slots or of factory data; erased flash reads 0xFF. -/
def flByte (s : State) (a : Nat) : Byte := smGet (fun _ => (0xFF : Byte)) s.flash.bytes a
def flBytes (s : State) (a : Nat) : Nat → List Byte
  | 0 => []
  | n + 1 => flByte s a :: flBytes s (a + 1) n
def flNat (s : State) (a n : Nat) : Nat := leNat (flBytes s a n)

/-- Program bytes: a program only clears bits (NOR), and every block is erased before it is written. -/
def flProgram (a : Nat) : List Byte → State → State
  | [], s => s
  | b :: l, s =>
    let v := flByte s a &&& b
    flProgram (a + 1) l { s with flash := { s.flash with
      bytes := smSet (fun _ => (0xFF : Byte)) s.flash.bytes a v } }

/-- Erase a 64 KiB block. -/
def flErase (blk : Nat) (s : State) : State :=
  { s with flash := { s.flash with
      bytes := s.flash.bytes.filter (fun e => e.1 / 0x10000 != blk),
      bsel := s.flash.bsel.filter (fun r => r.blk != blk) } }

/-- Base of a slot: 0 A, 1 B (R465). -/
def slotBase (slot : Nat) : Nat := if slot = 0 then 0x100000 else 0x1100000

abbrev imgMagic : Nat := 0x53455454

/-- VERSION of a slot's header, 0 where MAGIC does not read (R67). -/
def slotVersion (s : State) (slot : Nat) : Nat :=
  if flNat s (slotBase slot) 4 = imgMagic then flNat s (slotBase slot + 4) 4 else 0

/-- The sections of a slot's header: type, offset, size. -/
def imgSections (s : State) (slot : Nat) : List (Nat × Nat × Nat) :=
  (List.range (min 8 (flNat s (slotBase slot + 16) 1))).map (fun j =>
    let b := slotBase slot + 0x40 + 16 * j
    (flNat s b 4, flNat s (b + 4) 4, flNat s (b + 8) 4))

/-- Sections lie within the body and do not overlap. -/
def sectionsFit (len : Nat) (l : List (Nat × Nat × Nat)) : Bool :=
  l.all (fun (t, o, z) => (t == 1 || t == 2) && o % 4096 == 0 && decide (4096 ≤ o) && decide (o + z ≤ 4096 + len) &&
    (t != 2 || decide (z ≤ 0x800000))) &&
  (l.zipIdx).all (fun (a, i) => (l.zipIdx).all (fun (b, j) =>
    i == j || decide (a.2.1 + a.2.2 ≤ b.2.1) || decide (b.2.1 + b.2.2 ≤ a.2.1)))

/-- Reserved header bytes are zero: 17 to 63, bytes 12 to 15 of each section entry used, the unused
entries and 0xC0 to 0xFFF. -/
def reservedZero (s : State) (slot n : Nat) : Bool :=
  let b := slotBase slot
  let z := fun (a k : Nat) => (flBytes s (b + a) k).all (fun x => x == 0)
  z 17 47 && (List.range n).all (fun j => z (0x40 + 16 * j + 12) 4) && z (0x40 + 16 * n) (0xC0 - 0x40 - 16 * n) && z 0xC0 0xF40

/-- The test of R466 (FW.VERIFY and the mask ROM apply it). -/
def imageValid (s : State) (slot : Nat) : Bool :=
  let b := slotBase slot
  let len := flNat s (b + 8) 4
  let n := flNat s (b + 16) 1
  let secs := imgSections s slot
  let entry := flNat s (b + 12) 4
  (flNat s b 4 == imgMagic) && decide (4096 + len + 96 ≤ 0x1000000) && decide (1 ≤ n) && decide (n ≤ 8) &&
    ((secs.filter (fun x => x.1 == 1)).length == 1) && decide ((secs.filter (fun x => x.1 == 2)).length ≤ 1) &&
    sectionsFit len secs && reservedZero s slot n &&
    secs.any (fun (t, o, z) => t == 1 && decide (o ≤ entry) && decide (entry < o + z)) &&
    Config.signatureValid (flBytes s b (4096 + len + 96))

/-! ## Boot-select records (R468, R469) -/

/-- The valid record with the highest SEQ. -/
def newestBsel (s : State) : Option Bsel :=
  (s.flash.bsel.filter (·.crcOk)).foldl (fun a r => match a with
    | none => some r
    | some x => if x.seq < r.seq then some r else some x) none

/-- Write the next boot-select record; when the block is full the other block is erased and taken. -/
def writeBsel (slot : Nat) (trial : Bool) (attempts : Nat) (s : State) : State :=
  let (blk, page, seq) := match newestBsel s with
    | none => (0, 0, 1)
    | some r => if r.page + 1 < 256 then (r.blk, r.page + 1, r.seq + 1) else (1 - r.blk, 0, r.seq + 1)
  let s := if page = 0 then flErase blk s else s
  { s with flash := { s.flash with bsel := s.flash.bsel ++ [⟨blk, page, seq, slot, trial, attempts, true⟩] } }

/-- The slot the newest record selects; slot A as CONFIRMED where none is valid. -/
def bselSlot (s : State) : Nat × Bool × Nat :=
  match newestBsel s with
  | none => (0, false, 0)
  | some r => (r.slot, r.trial, r.attempts)

def setTested (slot : Nat) (v : Bool) (s : State) : State :=
  if slot = 0 then { s with sett := { s.sett with testedA := v } }
  else { s with sett := { s.sett with testedB := v } }

/-- Boot selection (R469): the slot the mask ROM starts, or none when both fail. -/
def bootSelect (s : State) : Option Nat × State :=
  let (slot, trial, att) := bselSlot s
  -- step 2
  let (slot, trial, att, s) := if trial ∧ att ≥ 2 then (1 - slot, false, 0, writeBsel (1 - slot) false 0 s)
    else (slot, trial, att, s)
  -- steps 3 and 4
  if imageValid s slot then
    let s := setTested slot true s
    (some slot, if trial then writeBsel slot true (att + 1) s else s)
  else if imageValid s (1 - slot) then (some (1 - slot), setTested (1 - slot) true s)
  else (none, s)

/-! ## Journalled state -/

def putKey {α : Type} (k : Nat) (v : α) (l : List (Nat × α)) : List (Nat × α) := smPut l k v

/-- What a committed record does to the journalled state (R473, R476). -/
def jApply (p : JPayload) (j : JState) : JState :=
  match p with
  | .coreMap m ps => { j with coreMap := m, pcns := ps }
  | .spareReg off v => { j with spareRegs := putKey off v j.spareRegs }
  | .wear k c => { j with wear := putKey k c j.wear }
  | .training ch rate regs temp =>
    { j with trainings := j.trainings.filter (fun t => !(t.1 == ch && t.2.1 == rate)) ++ [(ch, rate, regs, temp)] }
  | .lodgePools a n sb sc hm => { j with pools := some (a, n, sb, sc, hm) }
  | .fwSlot n => { j with fwSlot := some n }
  | .memRetire b l => { j with retired := j.retired ++ [(b, l)] }
  | .rowRepair r => { j with rowRepairs :=
      (j.rowRepairs.filter (fun x => !({ x with applied := r.applied } == r))) ++ [r] }
  | .dramErase ch rk sc dev => { j with erasures :=
      (j.erasures.filter (fun e => !(e.1 == ch && e.2.1 == rk && e.2.2.1 == sc))) ++
        (if dev = 15 then [] else [(ch, rk, sc, dev)]) }
  | .errlog r => { j with errlog := j.errlog ++ [r] }
  | .retrainCfg d i => { j with retrain := some (d, i) }
  | .rcBifurc n v => { j with rcBifurc := putKey n v j.rcBifurc }
  | .flashBad b => { j with flashBad := j.flashBad ++ [b] }
  | .pwrConfig i a => { j with pwr := some (i, a) }
  | .pwrFail => j
  | .snapEnd _ _ => j
  | .client _ _ => j
  | .unknown _ => j

/-- The member records of a snapshot of the journalled state (R477). -/
def snapMembers (j : JState) : List JPayload :=
  [.coreMap j.coreMap j.pcns] ++ j.spareRegs.map (fun e => .spareReg e.1 e.2) ++ j.wear.map (fun e => .wear e.1 e.2) ++
  j.trainings.map (fun t => .training t.1 t.2.1 t.2.2.1 t.2.2.2) ++
  (match j.pools with | some (a, n, sb, sc, hm) => [.lodgePools a n sb sc hm] | none => []) ++
  (match j.fwSlot with | some n => [.fwSlot n] | none => []) ++
  j.retired.map (fun r => .memRetire r.1 r.2) ++ j.rowRepairs.map .rowRepair ++
  j.erasures.map (fun e => .dramErase e.1 e.2.1 e.2.2.1 e.2.2.2) ++ j.errlog.map .errlog ++
  (match j.retrain with | some (d, i) => [.retrainCfg d i] | none => []) ++
  j.rcBifurc.map (fun e => .rcBifurc e.1 e.2) ++ j.flashBad.map .flashBad ++
  (match j.pwr with | some (i, a) => [.pwrConfig i a] | none => [])

/-- Every record that can be read, in block and page order (R476 steps 1 to 3). -/
def readable (bs : List JBlock) : List JRec :=
  let ordered := (bs.filter (·.hdrOk)).mergeSort (fun a b => decide (a.bseq ≤ b.bseq))
  let recs := ordered.flatMap (fun b => b.recs.takeWhile (·.intact))
  (recs.foldl (fun (acc : Nat × List JRec) r => if acc.1 < r.seq then (r.seq, acc.2 ++ [r]) else acc) (0, [])).2

/-- Torn records that replay ignores: one for each block whose reading stops at one. -/
def tornCount (bs : List JBlock) : Nat := ((bs.filter (·.hdrOk)).filter (fun b => b.recs.any (fun r => !r.intact))).length

/-- The newest complete snapshot: SEQ of its SNAP_END and the C it covers (R476 step 4). -/
def snapBase (rs : List JRec) : Option (Nat × Nat) :=
  rs.foldl (fun acc r => match r.payload with
    | .snapEnd c n =>
      if (rs.filter (fun x => x.snap && decide (c < x.seq) && decide (x.seq < r.seq))).length ≥ n then some (r.seq, c) else acc
    | _ => acc) none

/-- Replay (R476): the journalled state that the readable records give. -/
def replayState (rs : List JRec) : JState :=
  match snapBase rs with
  | some (e, c) =>
    let base := (rs.filter (fun x => x.snap && decide (c < x.seq) && decide (x.seq < e))).foldl (fun j r => jApply r.payload j) {}
    (rs.filter (fun x => !x.snap && decide (c < x.seq))).foldl (fun j r => jApply r.payload j) base
  | none => (rs.filter (fun x => !x.snap)).foldl (fun j r => jApply r.payload j) {}

def isUnknown (r : JRec) : Bool := match r.payload with | .unknown _ => true | _ => false

/-- Replay at COLD: rebuild the journalled state; drop blocks with invalid headers (they are free and are
erased before use); continue after the highest SEQ (R472, R476). -/
def replay (s : State) : State :=
  let rs := readable s.flash.blocks
  { s with flash := { s.flash with
      blocks := s.flash.blocks.filter (·.hdrOk),
      jst := replayState rs,
      bad := (replayState rs).flashBad,
      nextSeq := (rs.foldl (fun m r => max m r.seq) 0) + 1,
      torn := tornCount s.flash.blocks,
      unknownTypes := (rs.filter isUnknown).length,
      queue := [], compact := none, erase := none, toErase := [], appends := [], compactions := 0 } }

/-! ## Writing a record (R470 to R474, R478) -/

/-- Journal region and spare pool: blocks 0x210 to 0x30F and 0x310 to 0x3FF (R465). -/
def freeBlock (s : State) : Option Nat :=
  ((List.range 496).map (· + 0x210)).find? (fun b =>
    !(s.flash.blocks.any (fun k => k.blk == b)) && !(s.flash.bad.contains b) && !(s.flash.toErase.contains b))

/-- Pages in use of a block, header included. -/
def JBlock.used (b : JBlock) : Nat := 1 + (b.recs.foldl (fun n r => n + r.pages) 0)

/-- The block appends go to: the newest, unless it holds a torn record, is retired or is full. -/
def appendBlock (s : State) (pages : Nat) : Option JBlock :=
  match (s.flash.blocks.foldl (fun (a : Option JBlock) b => match a with
      | none => some b
      | some x => if x.bseq < b.bseq then some b else some x) none) with
  | some b => if b.recs.all (·.intact) && !(s.flash.bad.contains b.blk) && decide (b.used + pages ≤ 256) && b.hdrOk
      then some b else none
  | none => none

/-- Open a block if the record does not fit the newest one (R470). -/
def openBlock (pages : Nat) (s : State) : Option (Nat × State) :=
  match appendBlock s pages with
  | some b => some (b.blk, s)
  | none =>
    if blocksInUse s ≥ 256 then none else
    match freeBlock s with
    | none => none
    | some n =>
      let bseq := (s.flash.blocks.foldl (fun m b => max m b.bseq) 0) + 1
      some (n, { s with flash := { s.flash with
        blocks := s.flash.blocks ++ [⟨n, bseq, true, []⟩],
        spareUsed := if n ≥ 0x310 then max s.flash.spareUsed (n - 0x310 + 1) else s.flash.spareUsed } })

/-- Append a record (intact or torn) to a block. -/
def putRec (blk : Nat) (r : JRec) (s : State) : State :=
  { s with flash := { s.flash with
      blocks := s.flash.blocks.map (fun b => if b.blk = blk then { b with recs := b.recs ++ [r] } else b) } }

/-- The record to be written next: a waiting one, else the next member of a snapshot. During a hold-up
nothing follows the PWRFAIL record, and no compaction is written (R475). -/
def nextReq (s : State) : Option (JReq × Bool) :=
  match s.flash.queue with
  | r :: _ => if s.sett.holdUp && !s.flash.queue.any (fun q => q.payload == .pwrFail) then none else some (r, false)
  | [] => match s.flash.compact with
    | some k => (match k.todo with
      | p :: _ => if s.sett.holdUp then none else some (⟨p, (match p with | .snapEnd _ _ => false | _ => true), s.settTime, none, 0⟩, true)
      | [] => none)
    | none => none

/-- Take it off its list. -/
def dropReq (fromSnap : Bool) (s : State) : State :=
  if fromSnap then
    { s with flash := { s.flash with compact := s.flash.compact.map (fun k => { k with todo := k.todo.tail }) } }
  else { s with flash := { s.flash with queue := s.flash.queue.tail } }

/-- A block is retired (R478): FLASH_BAD is written, the Owl hears of it. -/
def retireBlock (blk : Nat) (s : State) : State :=
  let s := { s with flash := { s.flash with bad := insNat blk s.flash.bad } }
  report (Blk.sett).inst 20 1 24 0 blk 0x1FF 0 s

/-- After SNAP_END has committed (R477): blocks wholly covered by C, and holding no member of the new
snapshot, get a zeroed header and wait for their erase; a retired one is only given up (R478). -/
def startErases (c : Nat) (s : State) : State :=
  let old := s.flash.blocks.filter (fun b => b.recs.all (fun r => decide (r.seq ≤ c)))
  { s with flash := { s.flash with
      blocks := s.flash.blocks.filter (fun b => !(old.any (fun o => o.blk == b.blk))),
      toErase := s.flash.toErase ++ (old.map (·.blk)).filter (fun b => !s.flash.bad.contains b),
      compactions := s.flash.compactions + 1 } }

/-- Begin the next block erase, if one waits and none runs (R479). -/
def nextErase (s : State) : State :=
  match s.flash.erase, s.flash.toErase with
  | none, b :: _ => { s with flash := { s.flash with erase := some ⟨b, false, 0⟩ } }
  | _, _ => s

/-- The compaction ends once nothing is left to write or erase: JRN.COMPACT responds with C. -/
def endCompaction (s : State) : State :=
  match s.flash.compact with
  | some k =>
    if k.todo.isEmpty && s.flash.toErase.isEmpty then
      let s := { s with flash := { s.flash with compact := none } }
      match k.owner with
      | some o => (match s.sett.cmds.find? (fun c => c.ord == o) with
        | some c => respond c stOk (leBytes 8 k.c) s
        | none => s)
      | none => s
    else s
  | none => s

/-- A commit that meets a running erase suspends it, a resumed one not before its 100 µs (R479). -/
def suspendErase (s : State) : State :=
  match s.flash.erase with
  | some e =>
    if e.suspended then s else
    let s := s.toTick e.holdUntil
    { s with flash := { s.flash with erase := some ⟨e.blk, true, e.holdUntil⟩ } }
  | none => s

/-- A record commits: it is on the flash and part of the journalled state. -/
def commitRec (r : JReq) (s : State) : Option State :=
  let seq := s.flash.nextSeq
  let pg := recPages seq r.payload
  match openBlock pg s with
  | none => none
  | some (blk, s) =>
    let s := putRec blk ⟨seq, r.time, r.snap, r.payload, pg, true⟩ s
    some { s with flash := { s.flash with
      nextSeq := seq + 1,
      jst := if r.snap then s.flash.jst else jApply r.payload s.flash.jst } }

/-! ## FW commands (R65 to R67, R466 to R468) -/

def runSlot (s : State) : Nat := s.rf .sett Off.SETT_STATE 8 8

/-- FW.INFO (R65, R67). -/
def fwInfo (_c : Cmd) (s : State) : CmdRes :=
  let has := fun k => b2n (flNat s (slotBase k) 4 == imgMagic)
  let (sess, staged) := match s.sett.fw with | some f => (f.ch, f.staged) | none => (0xFF, 0)
  .done stOk (leBytes 1 (runSlot s) ++ leBytes 1 (bselSlot s).1 ++ leBytes 1 sess ++
    leBytes 1 (has 0 + 2 * has 1 + 4 * b2n s.sett.testedA + 8 * b2n s.sett.testedB) ++
    leBytes 4 (slotVersion s 0) ++ leBytes 4 (slotVersion s 1) ++ leBytes 4 staged) s

/-- Another channel holds the session. -/
def fwBusy (s : State) (ch : Nat) : Bool := match s.sett.fw with | some f => f.ch != ch | none => false

/-- FW.STAGE before its programs: the slot's flags fall, offset 0 opens the session, and the blocks to be written are
erased (R67, R467). -/
def stageErase (slot off n ch : Nat) (s : State) : State :=
  let base := slotBase slot + off
  let s := setTested slot false s
  let s := if off = 0 then
      flErase (slotBase slot / 0x10000) { s with sett := { s.sett with fw := some ⟨ch, 0, false⟩ } }
    else { s with sett := { s.sett with fw := s.sett.fw.map (fun f => { f with verified := false }) } }
  (List.range ((base + n + 0xFFFF) / 0x10000 - base / 0x10000)).foldl (fun s i => flErase (base / 0x10000 + i) s) s

/-- Bytes staged once a stage has reached offset `top`: the highest offset reached. That it is not the sum of the bytes staged is
the model's choice (log entry 24). -/
def stagedTo (top : Nat) (s : State) : Nat := match s.sett.fw with | some f => max f.staged top | none => top

def setStaged (n : Nat) (s : State) : State :=
  { s with sett := { s.sett with fw := s.sett.fw.map (fun f => { f with staged := n }) } }

/-- FW.STAGE (R67, R467). `ok` is what the flash reports of its erases and programs. That a non-zero offset with no session open
fails with BAD_FIELD is the model's choice (log entry 22): the spec does not say. -/
def fwStage (ok : Bool) (c : Cmd) (s : State) : CmdRes :=
  let off := bytesAt c.body 19 16
  let n := bufLen c
  let slot := 1 - runSlot s
  if fwBusy s c.ch then .fail stBusy s
  else if !bufOk s c then .fail stBadBuffer s
  else if off % 4096 ≠ 0 ∨ off + n > 0x1000000 ∨ (off ≠ 0 ∧ s.sett.fw.isNone) then .fail stBadField s
  else match bufPoisoned s (bufPa c) n with
  | some ln => poisonFail ln s
  | none =>
    if ok then
      let t := flProgram (slotBase slot + off) (settRd s (bufPa c) n) (stageErase slot off n c.ch (cohLook (bufPa c) n s))
      .done stOk (leBytes 4 (stagedTo (off + n) t)) (setStaged (stagedTo (off + n) t) t)
    else .fail stFlashError (stageErase slot off n c.ch s)

/-- FW.VERIFY (R466). -/
def fwVerify (c : Cmd) (s : State) : CmdRes :=
  let slot := 1 - runSlot s
  if fwBusy s c.ch then .fail stBusy s
  else if s.sett.fw.isNone then .fail stNoTarget s
  else if imageValid s slot then
    let s := setTested slot true s
    .done stOk (leBytes 4 (slotVersion s slot))
      { s with sett := { s.sett with fw := s.sett.fw.map (fun f => { f with verified := true }) } }
  else .fail stAuthFail s

/-- FW.ACTIVATE (R468): the boot-select record is written once the FW_SLOT record commits. `ok` is what the
flash reports of the boot-select page; that a page that does not program answers FLASH_ERROR is the model's choice (log
entry 23). -/
def fwActivate (ok : Bool) (c : Cmd) (s : State) : CmdRes :=
  if fwBusy s c.ch then .fail stBusy s
  else match s.sett.fw with
    | some f => if f.verified then
        (if ok then .commit [.fwSlot (1 - runSlot s)] s else .fail stFlashError s)
      else .fail stNoTarget s
    | none => .fail stNoTarget s

/-- FW.ABANDON (R67). -/
def fwAbandon (c : Cmd) (s : State) : CmdRes :=
  if fwBusy s c.ch then .fail stBusy s
  else if s.sett.fw.isNone then .fail stNoTarget s
  else .done stOk [] { s with sett := { s.sett with fw := none } }

/-- FW_INFO. -/
def execFwInfo (ch tag : Nat) (s : State) : Res := finish s (runBelet 0x0801 ch tag fwInfo s)
/-- FW_STAGE. -/
def execFwStage (ch tag : Nat) (flashOk : Bool) (s : State) : Res := finish s (runBelet 0x0802 ch tag (fwStage flashOk) s)
/-- FW_VERIFY. -/
def execFwVerify (ch tag : Nat) (s : State) : Res := finish s (runBelet 0x0803 ch tag fwVerify s)
/-- FW_ACTIVATE. -/
def execFwActivate (ch tag : Nat) (flashOk : Bool) (s : State) : Res := finish s (runBelet 0x0804 ch tag (fwActivate flashOk) s)
/-- FW_ABANDON. -/
def execFwAbandon (ch tag : Nat) (s : State) : Res := finish s (runBelet 0x0805 ch tag fwAbandon s)

/-! ## JRN commands (R480, R481) -/

def recType : JPayload → Nat
  | .coreMap _ _ => 1 | .spareReg _ _ => 2 | .wear _ _ => 2 | .training _ _ _ _ => 3 | .lodgePools _ _ _ _ _ => 4
  | .fwSlot _ => 5 | .memRetire _ _ => 6 | .rowRepair _ => 7 | .dramErase _ _ _ _ => 8 | .errlog _ => 9
  | .retrainCfg _ _ => 0xA | .rcBifurc _ _ => 0xB | .flashBad _ => 0xC | .pwrFail => 0xD | .pwrConfig _ _ => 0xE
  | .snapEnd _ _ => 0xF | .client ch _ => 0x80 + ch | .unknown t => t

/-- The bytes of a record (R471). Payloads other than CLIENT are the firmware's own. -/
def recBytes (r : JRec) : List Byte :=
  let pay := match r.payload with
    | .client _ b => b
    | _ => (Config.recordPayload r.seq).take (r.pages * 256 - 28)
  let n := 28 + pay.length
  let body := leBytes 2 0x4A52 ++ leBytes 1 (recType r.payload) ++ leBytes 1 (b2n r.snap) ++ leBytes 2 n ++ leBytes 2 0 ++
    leBytes 8 r.seq ++ leBytes 8 r.time ++ pay
  body ++ leBytes 4 (crc32c body)

/-- Committed records in SEQ order. -/
def heldRecs (s : State) : List JRec := readable s.flash.blocks

def jrnInfo (_c : Cmd) (s : State) : CmdRes :=
  let rs := heldRecs s
  let oldest := match snapBase rs with
    | some (_, c) => (match rs.find? (fun r => decide (c < r.seq)) with | some r => r.seq | none => c)
    | none => (match rs with | r :: _ => r.seq | [] => 0)
  .done stOk (leBytes 1 (b2n s.flash.compact.isSome) ++ leBytes 2 (blocksInUse s) ++ leBytes 2 (spareLeft s) ++
    leBytes 3 0 ++ leBytes 8 oldest ++ leBytes 8 (s.flash.nextSeq - 1) ++ leBytes 4 s.flash.compactions ++
    leBytes 2 s.flash.torn ++ leBytes 2 s.flash.unknownTypes) s

/-- Copy whole records until the next would not fit: the bytes, the SEQ of the last one copied, and of the one that did not
fit. -/
def copyRecs : List JRec → Nat → List Byte → Option Nat → List Byte × Option Nat × Option Nat
  | [], _, acc, last => (acc, last, none)
  | r :: l, room, acc, last =>
    let b := recBytes r
    if acc.length + b.length ≤ room then copyRecs l room (acc ++ b) (some r.seq) else (acc, last, some r.seq)

/-- A SEQ that the journal no longer holds: it lies before the oldest record held (R481). -/
def goneSeq (s : State) (q : Nat) : Bool :=
  decide (0 < q) && (match heldRecs s with | r :: _ => decide (q < r.seq) | [] => decide (q < s.flash.nextSeq))

/-- What JRN.READ copies. -/
def jrnCopy (c : Cmd) (s : State) : List Byte × Option Nat × Option Nat :=
  let ty := bytesAt c.body 24 24
  copyRecs ((heldRecs s).filter (fun r => decide (bytesAt c.body 23 16 ≤ r.seq) && (ty == 0 || recType r.payload == ty))) (bufLen c) [] none

def jrnRead (c : Cmd) (s : State) : CmdRes :=
  let first := bytesAt c.body 23 16
  if !bufOk s c then .fail stBadBuffer s
  else if goneSeq s first then .fail stNoTarget s
  else
    let rsp := fun (n last : Nat) => leBytes 4 n ++ leBytes 8 last ++ leBytes 8 ((jrnCopy c s).2.2.getD (max first s.flash.nextSeq))
    match jrnCopy c s with
    | (bytes, some last, _) => .done stOk (rsp bytes.length last) (settWr (bufPa c) bytes s)
    -- with none copied the SEQ of the last one copied is free (log entry 30)
    | (_, none, _) => .done stOk (rsp 0 (s.fresh.1 % 2 ^ 64)) s.fresh.2

/-- JRN.APPEND, at most 64 commands per channel in each second of SETT.TIME (R481). -/
def jrnAppend (c : Cmd) (s : State) : CmdRes :=
  let sec := s.settTime / 1000000
  let used := match s.flash.appends.find? (fun e => e.1 == c.ch && e.2.1 == sec) with | some e => e.2.2 | none => 0
  if used ≥ 64 then .fail stBusy s
  else
    let s := { s with flash := { s.flash with
      appends := (s.flash.appends.filter (fun e => e.1 != c.ch)) ++ [(c.ch, sec, used + 1)] } }
    .commit [.client c.ch (c.body.take c.len)] s

/-- Begin a compaction (R477). -/
def beginCompaction (owner : Option Nat) (s : State) : State :=
  let m := snapMembers s.flash.jst
  let cc := s.flash.nextSeq - 1
  { s with flash := { s.flash with compact := some ⟨cc, m ++ [.snapEnd cc m.length], owner⟩ } }

def jrnCompact (c : Cmd) (s : State) : CmdRes :=
  if s.flash.compact.isSome then .fail stBusy s
  else .run [] (beginCompaction (some c.ord) s)

/-- JRN_INFO. -/
def execJrnInfo (ch tag : Nat) (s : State) : Res := finish s (runBelet 0x0901 ch tag jrnInfo s)
/-- JRN_READ. -/
def execJrnRead (ch tag : Nat) (s : State) : Res := finish s (runBelet 0x0902 ch tag jrnRead s)
/-- JRN_APPEND. -/
def execJrnAppend (ch tag : Nat) (s : State) : Res := finish s (runBelet 0x0903 ch tag jrnAppend s)
/-- JRN_COMPACT. -/
def execJrnCompact (ch tag : Nat) (s : State) : Res := finish s (runBelet 0x0904 ch tag jrnCompact s)

/-- COMPACTION_START (R477): at 192 blocks in use; not in HANDOVER, where no compaction starts (R523). -/
def execCompactionStart (s : State) : Res :=
  finish s (if s.flash.compact.isNone && decide (192 ≤ blocksInUse s) && !s.modeFlag 9 && !s.sett.holdUp &&
      (s.rf .sett Off.SETT_STATE 1 0 == 1) then beginCompaction none s else s)

/-- ERASE_COMPLETE (R477, R478): the block is free, or retired where the erase failed. -/
def execEraseComplete (ok : Bool) (s : State) : Res :=
  finish s (match s.flash.erase with
    | some e =>
      if e.suspended then s else
      let s := { s with flash := { s.flash with erase := none, toErase := s.flash.toErase.filter (· != e.blk) } }
      let s := if ok then s else journal (.flashBad e.blk) (retireBlock e.blk s)
      endCompaction (if s.sett.holdUp then s else nextErase s)
    | none => s)

/-- ERASE_RESUME (R479): when no commit waits; a resumed erase runs at least 100 µs. Never in a hold-up (R475). -/
def execEraseResume (s : State) : Res :=
  finish s (match s.flash.erase with
    | some e => if e.suspended && s.flash.queue.isEmpty && !s.sett.holdUp then
        { s with flash := { s.flash with erase := some ⟨e.blk, false, s.tick + 100 * us⟩ } }
      else s
    | none => s)

/-- JTAG_FLASH_ACCESS (R464): only while the Sett is in BOOT. -/
def execJtagFlashAccess (op : JtagOp) (s : State) : Res :=
  finish s (if s.rf .sett Off.SETT_STATE 1 0 ≠ 0 then s else
    match op with
    | .eraseBlock b =>
      let s := flErase b s
      { s with flash := { s.flash with blocks := s.flash.blocks.filter (fun k => k.blk != b) } }
    | .program a d => flProgram a d s
    | .programBsel blk page seq slot tr att =>
      { s with flash := { s.flash with bsel := s.flash.bsel ++ [⟨blk, page, seq, slot, tr, att, true⟩] } }
    | .read a n => { s with flash := { s.flash with jtagData := flBytes s a n } })

end Sys2Proof.Machine
end

