-- ==== Sys2Proof/Machine/SettRows.lean ====
section
/-! DEFINITION. The Sett's own rows (chapter 02): doorbells, polls, acceptance, leases, MI2C, and the SYS and
EXPERT commands. -/
namespace Sys2Proof.Machine

/-- The Sett serves: RUN = SERVING and no power-fail hold-up (R40, R475). -/
def State.serving (s : State) : Bool := (s.rf .sett Off.SETT_STATE 1 0 == 1) && !s.sett.holdUp

/-! ## Doorbells and channel resets (R42, R51, R72) -/

/-- Whether a doorbell write of this agent is admitted on the channel (R42). -/
def doorbellAdmitted (who : Agent) (ch : Nat) : Bool :=
  match who, ch with
  | .core _ l, 0 => l == .m
  | .core _ l, 1 => l == .m || l == .h
  | .partner 0, 3 => true
  | .sett, 2 => true
  | _, _ => false

/-- A doorbell with CHRESET = 0: the tag is recorded and the ring examined. A CLOSED channel ignores it (R71). -/
def ringDoorbell (ch tag : Nat) (s : State) : State :=
  if s.chState ch = 0 then s
  else
    let s := s.wf .sett (Off.CHAN_STATE + 8 * ch) 31 16 tag
    if s.serving then examine ch s else s

/-- A doorbell with CHRESET = 1 (R72); LAST_TAG is unchanged. -/
def ringReset (ch : Nat) (s : State) : State :=
  if s.chState ch = 0 ∨ s.chState ch = 2 ∨ s.serving = false then s else resetChan ch none s

/-- A write of DOORBELL[ch] (R41, R42). -/
def doorbellWrite (who : Agent) (ch : Nat) (v : Word) (s : State) : State :=
  if doorbellAdmitted who ch then
    (if bitOf v 31 then ringReset ch s else ringDoorbell ch (fld v 15 0) s)
  else s

/-- DOORBELL: a write of SETT.DOORBELL[ch] with CHRESET = 0. -/
def execDoorbell (who : Agent) (ch tag : Nat) (s : State) : Res :=
  finish s (doorbellWrite who ch (BitVec.ofNat 64 (tag % 65536)) s)

/-- CHRESET: a doorbell write with CHRESET = 1. -/
def execChreset (who : Agent) (ch : Nat) (s : State) : Res :=
  finish s (doorbellWrite who ch (BitVec.ofNat 64 (2 ^ 31)) s)

/-- CHANNEL_POLL (R51): every open channel, once per millisecond. -/
def execChannelPoll (s : State) : Res :=
  finish s
    (let s := s.toTick (s.sett.pollAt + ms)
     let s := { s with sett := { s.sett with pollAt := s.tick } }
     if s.serving then (List.range 4).foldl (fun s ch => examine ch s) s else s)

/-! ## Acceptance (R51 to R53) -/

/-- Whether channel `ch` has a request that may be accepted now (R51). -/
def canAccept (s : State) (ch : Nat) : Bool :=
  (s.chState ch == 1) && ((s.chan ch).reqCons != (s.chan ch).reqSeen) &&
    decide (s.outstanding ch + unconsumed s ch < 16)

/-- The Sett keeps the command in its SRAM: an armed injection is found when the word is read (R335, R494). -/
def sramCheck (s : State) : State :=
  let (r, s) := eccRead 160 4 20 0 (eccWrite 160 4 20 0 s)
  match r with
  | .clean => s
  | .uncorr => report ((Blk.sett).inst) 19 3 20 0 0 0x1FF 0 s
  | _ => report ((Blk.sett).inst) 19 0 20 0 0 0x1FF 0 s

/-- The channel whose turn it is (R53). -/
def acceptTurn (s : State) : Option Nat :=
  ((List.range 8).map (fun i => (s.sett.turn + i) % 8)).find? (canAccept s)

/-- Checks 1 to 6 of R52 on an accepted entry; `none`: it passes. -/
def acceptCheck (s : State) (ch : Nat) (e : List Byte) : Option Nat :=
  let op := bytesAt e 1 0
  let tag := bytesAt e 3 2
  let len := bytesAt e 5 4
  let flags := bytesAt e 7 6
  let body := e.drop 16
  match cmdInfo op with
  | none => some stBadOpcode
  | some i =>
    if (groupMask ch).testBit (op / 256) = false ∨ i.chanOk ch body = false then some stDenied
    else if i.modeOk ch s.mode body = false ∨
        (s.mode = 9 ∧ ch ≤ 1 ∧ [1, 6, 7, 9].contains (op / 256) = false) then some stWrongMode
    else if (match i.len with | some n => decide (len ≠ n) | none => decide (len < 1) || decide (112 < len)) then some stBadLength
    else if s.sett.cmds.any (fun c => c.ch == ch && c.tag == tag && !c.discard) then some stDupTag
    else if flags / 8 ≠ 0 ∨ bytesAt e 9 8 / 512 ≠ 0 ∨ bytesAt e 11 11 ≠ 0 ∨ bytesAt e 15 14 ≠ 0 ∨ bytesAt e 13 12 ≠ 0 ∨
        flags.testBit 0 ≠ i.buf ∨ (flags.testBit 1 = true ∧ i.hdrLid = false) ∨ i.bodyOk body len = false then some stBadField
    else none

/-- Accept the next request of a channel: REQ_CONS advances, a response slot is reserved, and a request
that fails a check is answered at once (R51, R52). -/
def acceptFrom (ch : Nat) (s : State) : State :=
  let k := s.chan ch
  let e := settRd s (mboxBase ch + 0x100 + 128 * (k.reqCons % 16)) 128
  let rc := (k.reqCons + 1) % 32
  let chk := acceptCheck s ch e
  let c : Cmd := ⟨ch, bytesAt e 3 2, bytesAt e 1 0, bytesAt e 7 6, bytesAt e 9 8, bytesAt e 10 10, bytesAt e 5 4,
    e.drop 16, s.sett.nextOrd, .accepted, false, []⟩
  let s := hdrPut ch 0x14 rc (s.setChan ch { k with reqCons := rc })
  let s := s.wf .sett (Off.CHAN_STATE + 8 * ch) 15 8 (s.outstanding ch + 1)
  let s := { s with sett := { s.sett with
    cmds := s.sett.cmds ++ [c], nextOrd := s.sett.nextOrd + 1, turn := (ch + 1) % 8 } }
  match chk with
  | some st => respond c st [] s
  | none =>
    -- A command of channel 0 or 1 on a lodge of channel 3 takes the lodge over (R379).
    match cmdInfo c.opcode with
    | some i =>
      if i.hdrLid ∧ ch ≤ 1 ∧ (s.lodgeSt (c.lid % 512)).twin then
        s.setLodge (c.lid % 512) { s.lodgeSt (c.lid % 512) with twin := false } else s
    | none => s

/-- The Sett's read of a channel's next request entry meets what is wrong at the lines' homes (R264). -/
def reqLook (ch : Nat) (s : State) : State := cohLook (mboxBase ch + 0x100 + 128 * ((s.chan ch).reqCons % 16)) 128 s

/-- REQUEST_ACCEPT. -/
def execRequestAccept (s : State) : Res :=
  finish s (if s.serving then (match acceptTurn s with | some ch => acceptFrom ch (reqLook ch (sramCheck s)) | none => s) else s)

/-! ## ALIVE and leases -/

/-- ALIVE_TOGGLE (R40): 500 ms after the last inversion while SERVING; the level is held in DEN and SAFE. -/
def execAliveToggle (s : State) : Res :=
  finish s (if (s.rf .sett Off.SETT_STATE 1 0 == 1) && !s.modeFlag 8 && !s.modeFlag 11 then
      let s := s.toTick (s.sett.aliveAt + 500 * ms)
      { s with sett := { s.sett with alive := !s.sett.alive, aliveAt := s.tick } }
    else s)

/-- LEASE_EXPIRY (R62): at the expiry tick. -/
def execLeaseExpiry (slot : Nat) (s : State) : Res :=
  finish s (match s.sett.leases.find? (fun l => l.slot == slot) with
    | some l => endLease l (some 0) (s.toTick (s.tickOfTime l.expiry))
    | none => s)

/-- RELOCK (R62, R63): the relock write takes effect at the block, and the holder is told. -/
def execRelock (inst : Nat) (s : State) : Res :=
  finish s (match s.sett.relocks.find? (fun r => r.inst == inst) with
    | some r => relockNow r s
    | none => s)

/-- Whether an instance code names no instance (R60). -/
def instBad (inst : Nat) : Bool :=
  let st := inst % 256
  let p := inst / 256
  decide (169 < st) || !([0, 1, 2, 4, 5, 6, 7].contains p) || (decide (5 ≤ p) && !isTileStop st)

def instDenied (ch inst : Nat) : Bool :=
  inst == (Blk.sett).inst || inst == (Blk.pwrc).inst ||
    ((inst == (Blk.owl).inst || inst / 256 == 2) && ch != 0)

/-- The lowest free lease slot. -/
def freeSlot (s : State) : Option Nat := (List.range 32).find? (fun i => !(s.sett.leases.any (fun l => l.slot == i)))

/-- Leases past their expiry tick have ended (R62). -/
def endExpired (s : State) : State := endLeases (fun l => decide (l.expiry ≤ s.settTime)) (some 0) s

/-- EXPERT.GRANT (R60 to R62). The spec gives no order between BAD_FIELD, DENIED, LEASE_HELD and NO_RESOURCE, and does not
say which free slot is taken: the order here and the lowest free slot are the model's (DESIGN CHOICE, log entry 8). -/
def expertGrant (c : Cmd) (s0 : State) : CmdRes :=
  let s := endExpired s0
  let inst := bytesAt c.body 1 0
  let dur := bytesAt c.body 7 4
  if instBad inst ∨ dur < 1 ∨ 60000 < dur then .fail stBadField s0
  else if instDenied c.ch inst then .fail stDenied s0
  else if s.leased inst then .fail stLeaseHeld s
  else if 16 ≤ (s.sett.leases.filter (fun l => l.ch == c.ch)).length then .fail stNoResource s
  else match freeSlot s with
    | none => .fail stNoResource s
    | some i =>
      let ex := s0.settTime + dur * 1000
      let s := (s.sett.relocks.filter (fun r => r.inst == inst)).foldl (fun s r => relockNow r s) s
      let s := { s with sett := { s.sett with
        leases := s.sett.leases ++ [({ slot := i, inst := inst, ch := c.ch, expiry := ex } : Lease)],
        unlocked := (s.sett.unlocked.filter (fun (u : Nat × Nat) => u.1 != inst)) ++ [(inst, c.ch)] } }
      .done stOk (leBytes 1 i ++ leBytes 3 0 ++ leBytes 8 ex) (s.wf .sett Off.LEASE_ACTIVE i i 1)

def expertRenew (c : Cmd) (s : State) : CmdRes :=
  let i := bytesAt c.body 0 0
  let dur := bytesAt c.body 7 4
  if dur < 1 ∨ 60000 < dur ∨ 32 ≤ i then .fail stBadField s
  else match s.sett.leases.find? (fun l => l.slot == i) with
    | none => .fail stNoTarget s
    | some l =>
      if l.expiry ≤ s.settTime then .fail stNoTarget s
      else if l.ch ≠ c.ch then .fail stDenied s
      else
        let ex := s.settTime + dur * 1000
        .done stOk (leBytes 1 i ++ leBytes 3 0 ++ leBytes 8 ex) { s with sett := { s.sett with
          leases := s.sett.leases.map (fun x => if x.slot = i then { x with expiry := ex } else x) } }

def expertRelease (c : Cmd) (s : State) : CmdRes :=
  let i := bytesAt c.body 0 0
  if 32 ≤ i then .fail stBadField s
  else match s.sett.leases.find? (fun l => l.slot == i) with
    | none => .fail stNoTarget s
    | some l =>
      if l.expiry ≤ s.settTime then .fail stNoTarget s
      else if l.ch ≠ c.ch then .fail stDenied s
      else .done stOk [] (endLease l (some 1) s)

/-- EXPERT_GRANT. -/
def execExpertGrant (ch tag : Nat) (s : State) : Res := finish s (runBelet 0x0B01 ch tag expertGrant s)
/-- EXPERT_RENEW. -/
def execExpertRenew (ch tag : Nat) (s : State) : Res := finish s (runBelet 0x0B02 ch tag expertRenew s)
/-- EXPERT_RELEASE. -/
def execExpertRelease (ch tag : Nat) (s : State) : Res := finish s (runBelet 0x0B03 ch tag expertRelease s)

/-! ## SYS commands (R65, R68) -/

def sysNop (_c : Cmd) (s : State) : CmdRes := .done stOk [] s

def spareCores (s : State) : Nat := (s.org.pcns.filter (fun e => e.2 == .spare)).length

def sysIdent (_c : Cmd) (s : State) : CmdRes :=
  .done stOk (leBytes 4 (s.rd .sett Off.SETT_ID).toNat ++ leBytes 4 (slotVersion s (runSlot s)) ++ leBytes 8 s.flash.factory.serial ++
    leBytes 2 s.served.length ++ leBytes 2 (spareCores s) ++ leBytes 8 s.org.mapped) s

def sysStatus (_c : Cmd) (s : State) : CmdRes :=
  .done stOk (leBytes 1 s.mode ++ leBytes 1 0 ++ leBytes 2 (s.rf .pwrc Off.MODE_FLAGS 11 0) ++
    leBytes 8 (s.rd .owl Off.OWL_STATUS).toNat ++ leBytes 8 s.settTime) s

/-- SYS.ABORT withdraws an accepted, unstarted command of the channel, which responds ABORTED (R68). -/
def sysAbort (c : Cmd) (s : State) : CmdRes :=
  let t := bytesAt c.body 1 0
  match s.sett.cmds.find? (fun d => d.ch == c.ch && d.tag == t && !d.discard) with
  | none => .fail stNoTarget s
  | some d =>
    if d.phase ≠ .accepted ∨ d.ord = c.ord then .fail stBusy s
    else .done stOk [] (respond d stAborted [] s)

/-- SYS.EVENT_MASK (R65): groups 1 to 11; SYS is always delivered. A FAULTED channel's header is not written (R47). -/
def sysEventMask (c : Cmd) (s : State) : CmdRes :=
  let m := (bytesAt c.body 3 0 &&& 0xFFE) ||| 2
  let s := s.setChan c.ch { s.chan c.ch with evtMask := m }
  .done stOk (leBytes 4 m) (if s.chState c.ch = 1 then hdrPut c.ch 0x0C m s else s)

/-- SYS_NOP. -/
def execSysNop (ch tag : Nat) (s : State) : Res := finish s (runBelet 0x0101 ch tag sysNop s)
/-- SYS_IDENT. -/
def execSysIdent (ch tag : Nat) (s : State) : Res := finish s (runBelet 0x0102 ch tag sysIdent s)
/-- SYS_STATUS. -/
def execSysStatus (ch tag : Nat) (s : State) : Res := finish s (runBelet 0x0103 ch tag sysStatus s)
/-- SYS_ABORT. -/
def execSysAbort (ch tag : Nat) (s : State) : Res := finish s (runBelet 0x0104 ch tag sysAbort s)
/-- SYS_EVENT_MASK. -/
def execSysEventMask (ch tag : Nat) (s : State) : Res := finish s (runBelet 0x0105 ch tag sysEventMask s)

/-! ## MI2C (R69, R70) -/

/-- Channel 2 answers on MI2C: open, not in SAFE or OFF (R71, R493). -/
def mi2cUp (s : State) : Bool := (s.chState 2 != 0) && !s.modeFlag 11 && !s.modeFlag 0

/-- The mailbox bytes of a write that are acknowledged, and whether a byte was NACKed (R70). -/
def mi2cScan (off : Nat) : List Byte → Nat → List Byte × Bool
  | [], _ => ([], false)
  | b :: l, i =>
    let o := off + i
    if o < 0x2000 then
      let (m, n) := mi2cScan off l (i + 1)
      (b :: m, n)
    else if o = 0x2000 ∨ o = 0x2001 then mi2cScan off l (i + 1)
    else if o = 0x2002 ∧ i = 0 ∧ b = 0xA5#8 then mi2cScan off l (i + 1)
    else ([], true)

/-- What a write transaction does at its STOP. -/
def mi2cStop (off : Nat) (data : List Byte) (s : State) : State :=
  let (m, nack) := mi2cScan off data 0
  let s := { s with sett := { s.sett with mi2c := { s.sett.mi2c with part := none, nacked := nack } } }
  let s := if off < 0x2000 then settWr (mboxBase 2 + off) m s else s
  if nack then s
  else if off = 0x2000 ∧ data.length = 2 then ringDoorbell 2 (leNat data) s
  else if off = 0x2002 ∧ data.length = 1 then ringReset 2 s
  else s

/-- A write transaction: bytes collect until the STOP makes them visible together. -/
def mi2cWrite (off : Nat) (data : List Byte) (stop : Bool) (s : State) : State :=
  if mi2cUp s then
    (if stop then mi2cStop off data s
     else { s with sett := { s.sett with mi2c := { s.sett.mi2c with part := some (off, data) } } })
  else { s with sett := { s.sett with mi2c := { s.sett.mi2c with part := none, nacked := true } } }

/-- MI2C_WRITE. -/
def execMi2cWrite (off : Nat) (data : List Byte) (stop : Bool) (s : State) : Res := finish s (mi2cWrite off data stop s)

/-- One byte of a read transaction. -/
def mi2cReadByte (s : State) (o : Nat) : Byte :=
  if o < 0x2000 then (settRd s (mboxBase 2 + o) 1).headD 0 else if o < 0x2003 then 0 else 0xFF

/-- MI2C_READ. -/
def execMi2cRead (off len : Nat) (s : State) : Res :=
  finish s (if mi2cUp s then { s with sett := { s.sett with mi2c := { s.sett.mi2c with
      readData := (List.range len).map (fun i => mi2cReadByte s (off + i)), nacked := false } } }
    else { s with sett := { s.sett with mi2c := { s.sett.mi2c with readData := [], nacked := true } } })

/-- MI2C_DOORBELL: a two-byte write at offset 0x2000, low byte first. -/
def execMi2cDoorbell (tag : Nat) (s : State) : Res := finish s (mi2cWrite 0x2000 (leBytes 2 tag) true s)

/-- MI2C_CHRESET: a one-byte 0xA5 write at offset 0x2002. -/
def execMi2cChreset (s : State) : Res := finish s (mi2cWrite 0x2002 [0xA5#8] true s)

/-- MI2C_CLOCK_LOW_TIMEOUT (R69): the partial transaction is discarded. -/
def execMi2cClockLowTimeout (s : State) : Res :=
  finish s { s with sett := { s.sett with mi2c := { s.sett.mi2c with part := none } } }

end Sys2Proof.Machine
end

