-- ==== Sys2Proof/Machine/Twin.lean ====
section
/-! DEFINITION. The twin port as an endpoint (chapter 16): PF0, the virtual functions, their windows and replication
rings, resets and partner loss. -/
namespace Sys2Proof.Machine

/-! ## Functions -/

def State.vf (s : State) (v : Nat) : VfSt := smGet (fun _ => ({} : VfSt)) s.vfs v
def State.setVf (s : State) (v : Nat) (x : VfSt) : State := { s with vfs := smSet (fun _ => ({} : VfSt)) s.vfs v x }
def State.modVf (s : State) (v : Nat) (f : VfSt → VfSt) : State := s.setVf v (f (s.vf v))

def isVf (v : Nat) : Bool := decide (1 ≤ v) && decide (v ≤ 63)

/-- Endpoint mode (R421). -/
def twinEp (s : State) : Bool := !s.pwr.tpRoot

/-- The link is up: the partner reaches the functions. -/
def twinUp (s : State) : Bool := twinEp s && s.rf .tp Off.TP_LINK 1 0 == 1

/-- LID a VF is bound to. -/
def vfLid (s : State) (v : Nat) : Option Nat :=
  if s.rf .tp (Off.VF_BIND + 8 * v) 9 9 = 1 then some (s.rf .tp (Off.VF_BIND + 8 * v) 8 0) else none

/-- The VF exists on the link: VF Enable and NumVFs (R435). -/
def vfEnabled (s : State) (v : Nat) : Bool := s.rf .tp Off.TP_LINK 17 17 == 1 && decide (v ≤ s.rf .tp Off.TP_LINK 16 11)

/-- AER of function `fn`: PF0 is 0 (R423). -/
def fnAer (s : State) (fn : Nat) : Aer := if fn = 0 then s.pf0.aer else (s.vf fn).aer
def setFnAer (fn : Nat) (a : Aer) (s : State) : State :=
  if fn = 0 then { s with pf0 := { s.pf0 with aer := a } } else s.modVf fn (fun x => { x with aer := a })

/-- An uncorrectable error that a function detects; the first one is logged with its header. -/
def epUnc (fn bit hdr : Nat) (s : State) : State :=
  let a := fnAer s fn
  setFnAer fn { a with unc := a.unc ||| 2 ^ bit, hdr := if a.unc = 0 then hdr % 2 ^ 32 else a.hdr } s

/-- A correctable error of a function. -/
def epCor (fn bit : Nat) (s : State) : State :=
  let a := fnAer s fn
  setFnAer fn { a with cor := a.cor ||| 2 ^ bit } s

/-! ## Rings (R429 to R435) -/

def ringEn (s : State) (v r : Nat) : Bool := s.rf (.vf v) Off.VF_CTL r r == 1
def ringState (s : State) (v r : Nat) : Nat := s.rf (.vf v) Off.VF_STATUS (2 * r + 1) (2 * r)
def setRingState (v r n : Nat) (s : State) : State := s.wf (.vf v) Off.VF_STATUS (2 * r + 1) (2 * r) n
def ringLog (s : State) (v r : Nat) : Nat := s.rf (.vf v) (Off.RING_BASE + 0x20 * r) 3 0
def ringN (s : State) (v r : Nat) : Nat := 2 ^ ringLog s v r
def ringHead (s : State) (v r : Nat) : Nat := s.rf (.vf v) (Off.RING_HEAD + 0x20 * r) 12 0
def ringTail (s : State) (v r : Nat) : Nat := s.rf (.vf v) (Off.RING_TAIL + 0x20 * r) 12 0

def VfSt.prog (x : VfSt) (r : Nat) : List Desc := if r = 0 then x.prog0 else x.prog1
def VfSt.next (x : VfSt) (r : Nat) : Nat := if r = 0 then x.next0 else x.next1
def VfSt.setProg (x : VfSt) (r : Nat) (l : List Desc) : VfSt := if r = 0 then { x with prog0 := l } else { x with prog1 := l }
def VfSt.setNext (x : VfSt) (r n : Nat) : VfSt := if r = 0 then { x with next0 := n } else { x with next1 := n }

/-- Change one descriptor in progress. -/
def setDesc (v r i : Nat) (f : Desc → Desc) (s : State) : State :=
  s.modVf v (fun x => x.setProg r ((x.prog r).map (fun d => if d.idx = i then f d else d)))

/-- A ring is HELD (R435, R367). -/
def ringHeld (s : State) (v : Nat) : Bool :=
  !(s.vf v).bme || !vfEnabled s v || (s.vf v).d3 || (match vfLid s v with | some l => attrHold (portAttr s 8 l) | none => false)



/-- Bit `v` of PF0.VF_HALTED, and source 64 + v (R434). -/
def vfHalted (s : State) (v : Nat) : Bool := ringState s v 0 == 3 || ringState s v 1 == 3
def haltIrq (v : Nat) (s : State) : State := driveLevel (64 + v) (vfHalted s v) s

/-- PF0's MSI-X vector towards the partner (R423). -/
def pf0Vector (n : Nat) (s : State) : State := raiseTwin n s

/-- A ring halts (R434). -/
def haltRing (v r cause : Nat) (s : State) : State :=
  if ringState s v r = 3 then s else
  let was := vfHalted s v
  let h := ringHead s v r
  let s := setRingState v r 3 s
  let s := s.wf (.vf v) Off.VF_STATUS (4 * r + 7) (4 * r + 4) cause
  let s := s.wr (.vf v) (Off.RING_ERR + 0x20 * r) (BitVec.ofNat 64 h)
  let s := s.modVf v (fun x => x.setProg r [])
  let s := haltIrq v s
  let s := report (Blk.tp).inst 18 (if cause = 3 then 2 else 1) (if cause = 3 then 0 else 24) 0 v (if cause = 3 then portAgent 8 else 0x1FF) 0 s
  let s := if was then s else pf0Vector 2 s
  let lid := (vfLid s v).getD 0
  emit (if (s.lodgeSt lid).twin then [3] else [0, 1]) 0x0581 lid (s.lodgeSt lid).gen
    (leBytes 1 v ++ leBytes 1 r ++ leBytes 1 cause ++ leBytes 2 h) s

/-! ## Engine requests -/

/-- Partner reads outstanding of a VF. -/
def vfReads (s : State) (v : Nat) : Nat :=
  ((s.port 8).reqs.filter (fun q => !q.quar && (match q.owner with | .ring w _ _ => w == v | _ => false))).length

/-- A partner-memory range cut at `k` bytes and at 4 KiB boundaries: offset and length of the piece at `o`. -/
def cutLen (rem len o k : Nat) : Nat := min (len - o) (min k (4096 - (rem + o) % 4096))

/-- The COPY_IN of a ring whose next partner read may leave: at most 64 of the VF's are outstanding. -/
def nextRead (s : State) (v r : Nat) : Option Desc :=
  if 64 ≤ vfReads s v ∨ ringHeld s v then none else ((s.vf v).prog r).find? (fun d => d.op == 2 && decide (d.nextRd < d.len))

/-- The next partner read of a descriptor leaves with tag `t`. -/
def sendRead (v r t : Nat) (d : Desc) (s : State) : State :=
  let n := cutLen d.rem d.len d.nextRd s.pf0.mrrs
  let lid := (vfLid s v).getD 0
  let q : OutReq := ⟨t, v, .ring v r d.idx, d.rem + d.nextRd, n, false, false, s.tick, ctoTicks s.pf0.ctoEnc, false, lid, attrGen (portAttr s 8 lid)⟩
  let s := tagsReg 8 (s.modPort 8 (fun p => { p with reqs := p.reqs ++ [q], out := p.out ++ [.memRd 0 t (d.rem + d.nextRd) n] }))
  setDesc v r d.idx (fun d => { d with nextRd := d.nextRd + n, reads := d.reads + 1 }) (slotTaken 8 (some (pairOf v r)) (unc .tp 3 1 s))

/-- The rings with a partner read to send. -/
def readPairs (s : State) : List Nat :=
  s.vfs.flatMap (fun (e : Nat × VfSt) => [0, 1].filterMap (fun r => (nextRead s e.1 r).map (fun _ => pairOf e.1 r)))

/-- Partner reads leave, the rings in rotation (R433), while one has a read to send and a tag is free. -/
def sendReads : Nat → State → State
  | 0, s => s
  | k + 1, s =>
    match pairFirst (s.port 8).rot (readPairs s) with
    | none => s
    | some q =>
      match nextRead s (q / 2 + 1) (q % 2), freeTag s 8 with
      | some d, some t => sendReads k (sendRead (q / 2 + 1) (q % 2) t d s)
      | _, _ => s

/-- The engine sends what it can. -/
def engineGo (s : State) : State := sendReads 768 s

/-- Local bytes at a GPA, line by line: the bytes, or the halt cause. -/
def localRead (lid : Nat) : Nat → Nat → Nat → State → Except Nat (List Byte) × State
  | 0, _, _, s => (.ok [], s)
  | k + 1, g, n, s =>
    if n = 0 then (.ok [], s) else
    let m := min n (64 - g % 64)
    match portXlate 8 lid g m false s with
    | (.error _, s) => (.error 2, s)
    | (.ok pa, s) =>
      let s := llcCheck (pa / 64) (warCheck (pa / 64) s)
      if cohPoison s pa m then (.error 3, s)
      else match localRead lid k (g + m) (n - m) s with
        | (.error c, s) => (.error c, s)
        | (.ok l, s) => (.ok (cohBytes s pa m ++ l), s)

/-- Queue local writes of a ring's data: the pieces, or the halt cause; lines before a fault stand. -/
def localWrite (v r lid : Nat) : Nat → Nat → List Byte → List Nat → State → Except Nat (List Nat) × State
  | 0, _, _, ids, s => (.ok ids, s)
  | k + 1, g, l, ids, s =>
    if l.isEmpty then (.ok ids, s) else
    let m := min l.length (64 - g % 64)
    match portXlate 8 lid g m true s with
    | (.error _, s) => (.error 2, s)
    | (.ok pa, s) =>
      let (ids', s) := queueWrite 8 ⟨ringFn v r, 0, lid, none, false⟩ pa (l.take m) s
      localWrite v r lid k (g + m) (l.drop m) (ids ++ ids') s

/-- A partner write leaves (R431). -/
def partnerWrite (v a : Nat) (l : List Byte) (s : State) : State :=
  bwAdd .tp (2 * v + 1) l.length (unc .tp 14 1 (unc .tp 4 1 (sendTlp 8 (.memWr 0 a l) s)))

/-- COPY_OUT from offset `o`: partner writes in ascending order, each at most the partner's MPS. -/
def copyOut (v lid src dst len : Nat) : Nat → Nat → State → Option Nat × State
  | 0, _, s => (none, s)
  | k + 1, o, s =>
    if len ≤ o then (none, s) else
    let n := cutLen dst len o s.pf0.mps
    match localRead lid (n / 64 + 2) (src + o) n s with
    | (.error c, s) => (some c, s)
    | (.ok l, s) => copyOut v lid src dst len k (o + n) (partnerWrite v (dst + o) l s)

/-- `n` bytes of the pattern from offset `o` of its target. -/
def fillBytes (pat o n : Nat) : List Byte := (List.range n).map (fun i => BitVec.ofNat 8 (pat / 256 ^ ((o + i) % 8) % 256))

/-- FILL of the partner's memory. -/
def fillOut (v dst pat len : Nat) : Nat → Nat → State → State
  | 0, _, s => s
  | k + 1, o, s =>
    if len ≤ o then s else
    let n := cutLen dst len o s.pf0.mps
    fillOut v dst pat len k (o + n) (partnerWrite v (dst + o) (fillBytes pat o n) s)

/-- A descriptor's work is done (R431), apart from the order among descriptors. -/
def descWorkDone (s : State) (d : Desc) : Bool :=
  (d.op != 2 || (decide (d.len ≤ d.nextRd) && d.reads == 0)) && !(d.pieces.any (fun i => (s.port 8).pieces.any (fun x => x.id == i)))

/-- A descriptor is malformed (R430). -/
def descBad (b : List Byte) : Bool :=
  let op := bytesAt b 0 0
  let k := op % 8
  k == 0 || decide (6 ≤ k) || decide (8 ≤ op) || decide (32 ≤ bytesAt b 1 1) || bytesAt b 31 28 != 0 ||
    (decide (k ≤ 3) && (bytesAt b 7 4 == 0 || decide (16777216 < bytesAt b 7 4)))

/-- Start one fetched descriptor. -/
def issueDesc (v r lid i : Nat) (b : List Byte) (s : State) : State :=
  let op := bytesAt b 0 0 % 8
  let fl := bytesAt b 1 1
  let len := if op ≤ 3 then bytesAt b 7 4 else 0
  let loc := bytesAt b 15 8
  let rem := bytesAt b 23 16
  let d : Desc := ⟨i, op, fl, bytesAt b 3 2, len, loc, rem, 0, 0, [], false⟩
  let s := s.modVf v (fun x => (x.setProg r (x.prog r ++ [d])).setNext r ((i + 1) % (2 * ringN s v r)))
  if op = 1 then
    match copyOut v lid loc rem len (len + 1) 0 s with
    | (some c, s) => haltRing v r c s
    | (none, s) => s
  else if op = 2 then engineGo s
  else if op = 3 then
    if fl % 2 = 1 then fillOut v loc rem len (len + 1) 0 s
    else match localWrite v r lid (len / 64 + 2) loc (fillBytes rem 0 len) [] s with
      | (.error c, s) => haltRing v r c (portGo 8 s)
      | (.ok ids, s) => portGo 8 (setDesc v r i (fun d => { d with pieces := ids }) s)
  else s

/-- The engine may fetch the next descriptor of a ring: at most 8 are in progress, and none behind a FENCE (R431). -/
def mayFetch (s : State) (v r : Nat) : Bool :=
  let x := s.vf v
  let open_ := (x.prog r).filter (fun d => !d.complete)
  (vfLid s v).isSome && ringState s v r == 1 && !ringHeld s v && x.next r != ringTail s v r && decide (open_.length < 8) &&
    !(open_.any (fun d => d.op == 4))

/-- The rings that wait for a fetch. -/
def fetchPairs (s : State) : List Nat :=
  ((List.range 63).map (· + 1)).flatMap (fun v => [0, 1].filterMap (fun r => if mayFetch s v r then some (pairOf v r) else none))

/-- It is the ring's turn among those that wait (R433). -/
def fetchTurn (s : State) (v r : Nat) : Bool := pairFirst (s.port 8).rot (fetchPairs s) == some (pairOf v r)

/-- DESCRIPTOR_START: fetch and start the ring's next descriptor, in the ring's turn. -/
def descStart (v r : Nat) (s : State) : State :=
  if !isVf v ∨ 2 ≤ r ∨ !twinEp s then s else
  match vfLid s v with
  | none => s
  | some lid =>
    let i := (s.vf v).next r
    if !mayFetch s v r ∨ !fetchTurn s v r then s else
    let s := slotTaken 8 (some (pairOf v r)) s
    let g := s.rf (.vf v) (Off.RING_BASE + 0x20 * r) 47 5 * 32 + 32 * (i % ringN s v r)
    match localRead lid 2 g 32 s with
    | (.error c, s) => haltRing v r c s
    | (.ok b, s) => if descBad b then haltRing v r 1 s else issueDesc v r lid i b s

/-- DESCRIPTOR_START (R431). -/
def execDescriptorStart (vf ring : Nat) (s : State) : Res := finish s (descStart vf ring s)

/-! ## Completion (R431, R432) -/

/-- A VF's MSI-X vector: sent, pended, or lost (R432). -/
def vfVector (v n : Nat) (s : State) : State :=
  let x := s.vf v
  if !x.msixEn then s.incSat (.vf v) Off.VF_STATUS 23 16
  else
    let (a, d, m, _) := smGet (fun _ => (0, 0, true, false)) x.msix n
    if m then s.setVf v { x with msix := smPut x.msix n (a, d, m, true) }
    else sendTlp 8 (.memWr 0 a (leBytes 4 d)) s

/-- HEAD passes the completed descriptors that lead the ring. -/
def advanceHead (v r : Nat) (s : State) : State :=
  let l := (s.vf v).prog r
  let k := (l.takeWhile (·.complete)).length
  let s := s.modVf v (fun x => x.setProg r (l.drop k))
  s.wf (.vf v) (Off.RING_HEAD + 0x20 * r) 12 0 ((ringHead s v r + k) % (2 * ringN s v r))

/-- DESCRIPTOR_COMPLETE. -/
def descComplete (v r i : Nat) (s : State) : State :=
  if !isVf v ∨ 2 ≤ r then s else
  let l := (s.vf v).prog r
  match l.find? (fun d => d.idx == i && !d.complete) with
  | none => s
  | some d =>
    let earlier := (l.takeWhile (fun x => x.idx != i)).all (·.complete)
    let irq := d.flags / 2 % 4 != 0
    if !descWorkDone s d ∨ ((d.op = 4 ∨ d.op = 5 ∨ d.flags / 4 % 2 = 1) ∧ !earlier) ∨ (irq ∧ ringHeld s v) then s else
    let lid := (vfLid s v).getD 0
    let s := unc .tp 13 1 s
    let s := if d.flags / 2 % 2 = 1 then
        portPost 8 0xE4 { agent := portAgent 8, line := 0, lid := lid, gen := attrGen (portAttr s 8 lid), arg := d.src % 8192 } s
      else s
    let s := if d.flags / 4 % 2 = 1 then vfVector v (d.flags / 8 % 4) s else s
    advanceHead v r (setDesc v r i (fun d => { d with complete := true }) s)



/-- STATUS.STATE of a ring follows its enable and what holds it; a halt stays. -/
def ringRefresh (v r : Nat) (s : State) : State :=
  if ringState s v r = 3 then s
  else if (vfLid s v).isNone ∨ !ringEn s v r then setRingState v r 0 s
  else if ringHeld s v then setRingState v r 2 s
  else engineGo (setRingState v r 1 s)

/-- The rings of a VF after a change of its enables, of HOLD or of its binding. -/
def vfRefresh (v : Nat) (s : State) : State := ringRefresh v 1 (ringRefresh v 0 s)
def allVfs : List Nat := (List.range 63).map (· + 1)

/-- VFs whose rings may change: bound ones. -/
def boundVfs (s : State) : List Nat := allVfs.filter (fun v => (vfLid s v).isSome)
def twinRefresh (s : State) : State := (boundVfs s).foldl (fun s v => vfRefresh v s) s

/-- Write of a ring's TAIL (R429). -/
def ringTailWrite (v r n : Nat) (s : State) : State :=
  let n := n % 8192
  let s := s.wf (.vf v) (Off.RING_TAIL + 0x20 * r) 12 0 n
  if !ringEn s v r ∨ ringState s v r = 3 then s
  else
    let m := ringN s v r
    if 2 * m ≤ n ∨ m < (n + 2 * m - ringHead s v r) % (2 * m) then haltRing v r 1 s else s

/-- Data of a partner read for a ring (R431, R434): status 0 SC; `none` data is an error. -/
def ringData (v r i addr : Nat) (status : Nat) (l : List Byte) (ep : Bool) (s : State) : State :=
  match ((s.vf v).prog r).find? (fun d => d.idx == i) with
  | none => s
  | some d =>
    let lid := (vfLid s v).getD 0
    let s := setDesc v r i (fun d => { d with reads := d.reads - 1 }) s
    let s := if status ≠ 0 then haltRing v r 4 s
      else if ep then haltRing v r 6 (epUnc v 12 0 s)
      else match localWrite v r lid (l.length / 64 + 2) (d.loc + (addr - d.rem)) l [] s with
        | (.error c, s) => haltRing v r c (portGo 8 s)
        | (.ok ids, s) => portGo 8 (setDesc v r i (fun d => { d with pieces := d.pieces ++ ids }) s)
    engineGo s

/-! ## Windows (R426 to R428) -/

def winLive (s : State) (v w : Nat) : Word := s.rd (.vf v) (Off.WIN_LIVE + 0x20 * w)
def winGen (s : State) (v w : Nat) : Nat := s.rf (.vf v) (Off.WIN_GEN + 0x20 * w) 7 0
def bumpGen (v w : Nat) (s : State) : State := s.wf (.vf v) (Off.WIN_GEN + 0x20 * w) 7 0 (winGen s v w + 1)

/-- A record of TP.FAULT_LOG. -/
def twinRecord (kind off v w : Nat) (write : Bool) (gen : Nat) : Word :=
  BitVec.ofNat 64 (kind + (off / 4 % 2 ^ 34) <<< 3 + v <<< 37 + w <<< 43 + (b2n write) <<< 45 + gen <<< 46 + 1 <<< 63)

/-- A fault of a window request. -/
def winFault (kind v off tag : Nat) (write : Bool) (s : State) : State :=
  let w := off / 2 ^ 34 % 4
  let s := if write then s else sendTlp 8 (.cpl v tag 1 [] false) s
  let s := s.incSat (.vf v) Off.WIN_FAULTS 31 0
  logFault 8 (twinRecord kind off v w write (winGen s v w)) s

/-- A partner request to BAR2 of VF `v`. -/
def vfWindow (v off len tag : Nat) (write ep : Bool) (l : List Byte) (s : State) : State :=
  let n := if write then l.length else len
  if !isVf v ∨ !twinUp s ∨ n = 0 ∨ 2 ^ 36 ≤ off then s else
  if !vfEnabled s v ∨ (s.vf v).d3 then
    let s := if vfEnabled s v then epUnc v 20 (off % 2 ^ 32) s else s
    (if write then s else sendTlp 8 (.cpl v tag 1 [] false) s) else
  match vfLid s v with
  | none => winFault 0 v off tag write s
  | some lid =>
    let w := off / 2 ^ 34
    let o := off % 2 ^ 34
    let live := winLive s v w
    let sz := fld live 6 1
    if !bitOf live 0 ∨ 2 ^ sz < o + n then winFault 4 v off tag write s
    else if !attrValid (portAttr s 8 lid) then
      let s := s.incSat .tp Off.TP_LATE_DISCARD 31 0
      if write then s else sendTlp 8 (.cpl v tag 1 [] false) s
    else if attrHold (portAttr s 8 lid) then winFault 3 v off tag write s
    else
      let g := fld live 47 12 * 4096 / 2 ^ sz * 2 ^ sz + o
      match portXlate 8 lid g n write s with
      | (.error k, s) => winFault k v off tag write s
      | (.ok pa, s) =>
        let q : Inbound := ⟨v, v, lid, some (v, w, winGen s v w), ep⟩
        if write then
          let s := bwAdd .tp (2 * v) n (unc .tp 2 1 s)
          let s := if ep then epUnc v 12 (off % 2 ^ 32) s else s
          portGo 8 (queueWrite 8 q pa l s).2
        else portGo 8 (queueRead 8 q tag off pa n true s)

/-- VF_WINDOW_REQUEST (R426). -/
def execVfWindowRequest (vf off len tag : Nat) (wr ep : Bool) (data : List Byte) (s : State) : Res :=
  finish s (vfWindow vf off len tag wr ep data s)

/-- A request matched under an older generation of a window of the mask is unfinished. -/
def oldWindow (s : State) (v mask : Nat) : Bool :=
  let old := fun (x : Option (Nat × Nat × Nat)) => match x with
    | some (a, w, g) => a == v && mask.testBit w && g != winGen s v w
    | none => false
  (s.port 8).pieces.any (fun x => old x.win) || (s.port 8).reads.any (fun r => old r.win)

/-- A write of WIN_COMMIT (R427). -/
def winCommit (v mask : Nat) (s : State) : State :=
  if s.rf (.vf v) Off.WIN_COMMIT 4 4 = 1 then s.incSat (.vf v) Off.WIN_IGNORED 31 0
  else if mask % 16 = 0 then s
  else
    let s := (List.range 4).foldl (fun s w =>
      if mask.testBit w then bumpGen v w (s.wr (.vf v) (Off.WIN_LIVE + 0x20 * w) (s.rd (.vf v) (Off.WIN_STG + 0x20 * w))) else s) s
    let s := unc .tp 15 1 (s.modVf v (fun x => { x with commit := mask % 16 }))
    s.wf (.vf v) Off.WIN_COMMIT 4 4 (b2n (oldWindow s v (mask % 16)))

/-- WIN_COMMIT_DRAIN (R427). -/
def execWinCommitDrain (vf : Nat) (s : State) : Res :=
  finish s (if !isVf vf ∨ s.rf (.vf vf) Off.WIN_COMMIT 4 4 = 0 ∨ oldWindow s vf (s.vf vf).commit then s
    else (s.wf (.vf vf) Off.WIN_COMMIT 4 4 0).modVf vf (fun x => { x with commit := 0 }))

/-- A direct write of WIN_LIVE (R428). -/
def winLiveWrite (v w : Nat) (x : Word) (s : State) : State :=
  if bitOf (winLive s v w) 0 then
    logFault 8 (twinRecord 5 0 v w true (winGen s v w)) (s.incSat (.vf v) Off.WIN_IGNORED 31 0)
  else
    let o := Off.WIN_LIVE + 0x20 * w
    bumpGen v w (s.wr (.vf v) o (merged s false (.vf v) o x))

/-- A write of RING_BASE: unaligned, or while the ring is enabled, it leaves the register unchanged (R444). -/
def ringBaseWrite (v r : Nat) (x : Word) (s : State) : State :=
  let o := Off.RING_BASE + 0x20 * r
  let w := merged s false (.vf v) o x
  if ringEn s v r ∨ (fld w 47 5 * 32) % (32 * 2 ^ fld w 3 0) ≠ 0 then s else s.wr (.vf v) o w

/-- A write of a ring's enables in VF.CTL: a ring that becomes enabled checks its TAIL (R429). -/
def vfCtlWrite (v : Nat) (x : Word) (s : State) : State :=
  let was := s.rd (.vf v) Off.VF_CTL
  let s := s.wf (.vf v) Off.VF_CTL 1 0 (fld x 1 0)
  let s := vfRefresh v s
  (List.range 2).foldl (fun s r => if !bitOf was r ∧ bitOf x r then ringTailWrite v r (ringTail s v r) s else s) s

/-! ## Resets (R436, R437) -/

/-- The tags of a VF's partner reads enter quarantine. -/
def quarVf (v : Nat) (s : State) : State :=
  tagsReg 8 (s.modPort 8 (fun p => { p with reqs := p.reqs.map (fun q =>
    match q.owner with | .ring w _ _ => if w = v then { q with quar := true } else q | _ => q) }))

/-- An FLR of a VF starts. -/
def startFlr (v : Nat) (s : State) : State :=
  let b := (Blk.vf v).base
  let gen := fun (o : Nat) => (List.range 4).any (fun w => o == b + Off.WIN_GEN + 0x20 * w)
  let s := { s with ocr := s.ocr.filter (fun e => !(decide (b ≤ e.1) && decide (e.1 < b + 0x4000)) || gen e.1) }
  let s := s.setVf v { flr := some s.tick }
  haltIrq v (quarVf v (s.wf (.vf v) Off.VF_CTL 2 2 1))

/-- FLR_COMPLETE: the FLR finishes; the commands that waited for it respond. -/
def flrComplete (v : Nat) (s : State) : State :=
  if (s.vf v).flr.isNone then s else
  let s := (s.modVf v (fun x => { x with flr := none })).wf (.vf v) Off.VF_CTL 2 2 0
  (s.sett.cmds.filter (fun c => c.opcode == 0x0541 && c.phase == .running && c.aux == [v])).foldl (fun s c => respond c stOk [] s) s

/-- An FLR of PF0, or VF Enable cleared by the partner: PF0's configuration space is reset, VF Enable and NumVFs with it,
and an FLR is applied to every VF (R436). -/
def pf0Flr (s : State) : State :=
  allVfs.foldl (fun s v => startFlr v s) (twinRefresh ({ s with pf0 := { heartbeat := s.pf0.heartbeat } }.wf .tp Off.TP_LINK 17 11 0))

/-- PARTNER_FLR (R436): Initiate FLR of a VF, or of PF0, which reaches every VF. -/
def execPartnerFlr (fn : Nat) (s : State) : Res :=
  finish s (if !twinUp s then s
    else if fn = 0 then pf0Flr s
    else if isVf fn then startFlr fn s else s)

/-- A configuration write of the partner (R435). -/
def partnerConfig (fn : Nat) (f : CfgField) (s : State) : State :=
  if !twinUp s ∨ 64 ≤ fn then s
  else if fn = 0 then
    match f with
    | .busMaster b => { s with pf0 := { s.pf0 with bme := b } }
    | .d3hot b => { s with pf0 := { s.pf0 with d3 := b } }
    | .vfEnable b =>
      if b then twinRefresh (s.wf .tp Off.TP_LINK 17 17 1)
      else if s.rf .tp Off.TP_LINK 17 17 = 1 then pf0Flr s else s
    | .numVfs n => if s.rf .tp Off.TP_LINK 17 17 = 1 ∨ 63 < n then s else twinRefresh (s.wf .tp Off.TP_LINK 16 11 n)
    | .msixEnable b => { s with pf0 := { s.pf0 with msixEn := b } }
    | .mps n => if [128, 256, 512].contains n then { s with pf0 := { s.pf0 with mps := n } } else s
    | .mrrs n => if [128, 256, 512, 1024, 2048, 4096].contains n then { s with pf0 := { s.pf0 with mrrs := n } } else s
    | .cto e => if [0, 1, 2, 5, 6, 9, 10, 13, 14].contains e then { s with pf0 := { s.pf0 with ctoEnc := e } } else s
    | .aerClear m => { s with pf0 := { s.pf0 with aer := { s.pf0.aer with unc := s.pf0.aer.unc - (s.pf0.aer.unc &&& m) } } }
    | .corClear m => { s with pf0 := { s.pf0 with aer := { s.pf0.aer with cor := s.pf0.aer.cor - (s.pf0.aer.cor &&& m) } } }
  else if !vfEnabled s fn then s
  else
    match f with
    | .busMaster b => vfRefresh fn (s.modVf fn (fun x => { x with bme := b }))
    | .d3hot b => vfRefresh fn (s.modVf fn (fun x => { x with d3 := b }))
    | .msixEnable b => s.modVf fn (fun x => { x with msixEn := b })
    | .aerClear m => s.modVf fn (fun x => { x with aer := { x.aer with unc := x.aer.unc - (x.aer.unc &&& m) } })
    | .corClear m => s.modVf fn (fun x => { x with aer := { x.aer with cor := x.aer.cor - (x.aer.cor &&& m) } })
    | _ => s

/-- PARTNER_CONFIG_WRITE (R435). -/
def execPartnerConfigWrite (fn : Nat) (field : CfgField) (s : State) : Res := finish s (partnerConfig fn field s)

/-- The PORT reset of R436. -/
def twinPortReset (s : State) : State :=
  let s := { s with pf0 := { heartbeat := s.pf0.heartbeat } }
  let s := s.wf .tp Off.TP_LINK 17 11 0
  allVfs.foldl (fun s v =>
    let s := s.modVf v (fun x => { x with bme := false, d3 := false, msixEn := false, msix := [], aer := {} })
    let s := (List.range 2).foldl (fun s r =>
      if ringEn s v r ∧ ringHead s v r ≠ ringTail s v r then haltRing v r 7 s else s) s
    if (vfLid s v).isSome then vfRefresh v s else s) s

/-- A partner loss (R438). `cause`: 0 PERST, 1 hot reset, 2 link lost, 3 channel 3 closed, 4 mode. -/
def twinLoss (cause : Nat) (s : State) : State :=
  if !twinEp s then s else
  let was := s.rf .tp Off.TP_LINK 1 0 = 1
  let s := (s.port 8).reqs.foldl (fun s q =>
    match q.owner with
    | .ring v r _ => if q.quar then s else haltRing v r 7 s
    | _ => s) s
  let s := tagsReg 8 (s.modPort 8 (fun p => { p with reads := [], reqs := p.reqs.map (fun q => { q with quar := true }) }))
  let lids := ((boundVfs s).filterMap (fun v => vfLid s v)).eraseDups
  let s := lids.foldl (fun s l => portOld 8 l s) s
  let s := twinPortReset s
  let s := s.wf .tp Off.TP_LINK 9 0 0
  let s := if s.modeFlag 9 then setMode 9 false s else s
  if !was then s else
  let s := portIrqs 8 (s.wf .tp Off.TP_LINK 18 18 1)
  emit [0, 1] 0x0580 0 0 (leBytes 1 0 ++ leBytes 1 cause) s

/-- TWIN_PERST_N (R438): an input in endpoint mode. -/
def execTwinPerstN (asserted : Bool) (s : State) : Res :=
  finish s (if !twinEp s then s else
    let s := { s with pwr := { s.pwr with twinPerst := asserted } }
    let s := s.wf .tp Off.TP_LINK 10 10 (b2n asserted)
    if asserted then twinLoss 0 s else s)

/-- TWIN_LINK_LOSS (R438): a hot reset (1), or the link lost (2). -/
def execTwinLinkLoss (cause : Nat) (s : State) : Res :=
  finish s (if twinUp s ∧ (cause = 1 ∨ cause = 2) then twinLoss cause s else s)

/-- The link may be up in this mode (R441). -/
def twinMode (s : State) : Bool := s.pwr.ioOn && !([0, 1, 2, 8, 10, 11].contains s.mode)

/-- TWIN_LINK_UP (R441): training ends with the partner. -/
def execTwinLinkUp (speed width : Nat) (s : State) : Res :=
  finish s (if !twinEp s ∨ s.chState 3 = 0 ∨ s.pwr.twinPerst ∨ !twinMode s ∨ s.rf .tp Off.TP_LINK 1 0 = 1 ∨ speed = 0 ∨ 6 < speed ∨
      !([1, 2, 4, 8, 16].contains width) then s
    else
      let s := s.wf .tp Off.TP_LINK 9 0 (1 + speed <<< 2 + width <<< 5)
      let s := portIrqs 8 (s.wf .tp Off.TP_LINK 18 18 1)
      emit [0, 1] 0x0580 0 0 (leBytes 1 1 ++ leBytes 1 0) s)

/-! ## PF0 (R424, R439, R443) -/

/-- PF0 BAR2: channel 3's mailbox, 1 to 64 bytes. -/
def pf0Mailbox (wr : Bool) (off len tag : Nat) (l : List Byte) (s : State) : State :=
  let n := if wr then l.length else len
  if !twinUp s then s
  else if s.pf0.d3 ∨ n = 0 ∨ 64 < n ∨ 0x2000 < off + n then (let s := epUnc 0 20 (off % 2 ^ 32) s; if wr then s else sendTlp 8 (.cpl 0 tag 1 [] false) s)
  else
    let s := bwAdd .tp 0 n s
    if wr then unc .tp 2 1 (settWr (mboxBase 3 + off) l s)
    else
      let a := mboxBase 3 + off
      unc .tp 1 1 (sendTlp 8 (.cpl 0 tag 0 (settRd s a n) (cohPoison s a n)) s)

/-- PF0_MAILBOX_ACCESS (R424). -/
def execPf0MailboxAccess (wr : Bool) (off len tag : Nat) (data : List Byte) (s : State) : Res := finish s (pf0Mailbox wr off len tag data s)

/-- PF0_DOORBELL (R424): every earlier posted write of PF0 has been performed. -/
def execPf0Doorbell (tag : Nat) (s : State) : Res := finish s (if twinUp s ∧ !s.pf0.d3 then ringDoorbell 3 tag s else s)

/-- PF0_CHRESET (R72). -/
def execPf0Chreset (s : State) : Res := finish s (if twinUp s ∧ !s.pf0.d3 then ringReset 3 s else s)

/-- HEARTBEAT_TICK (R439): the next tick of SETT.TIME that is a multiple of 1,000 µs. -/
def execHeartbeatTick (s : State) : Res :=
  finish s (if s.sett.timeStill ∨ s.rf .sett Off.SETT_STATE 1 0 ≠ 1 ∨ !twinEp s then s else
    let s := s.toTick (s.tickOfTime ((s.settTime / 1000 + 1) * 1000))
    { s with pf0 := { s.pf0 with heartbeat := (s.pf0.heartbeat + 1) % 2 ^ 64 } })

/-- VF_RAISE (R444): after every earlier posted write of the VF; ignored unless the VF is bound. -/
def execVfRaise (vf index : Nat) (s : State) : Res :=
  finish s (if !isVf vf ∨ !twinUp s ∨ !vfEnabled s vf ∨ (s.vf vf).d3 then s else
    match vfLid s vf with
    | none => s
    | some lid => portGo 8 (queuePiece 8 ⟨vf, vf, lid, none, false⟩ (.raise (index % 1024)) id s).2)

/-- Bits of PF0.VF_HALTED. -/
def vfHaltedBits (s : State) : Nat := (boundVfs s).foldl (fun a v => if vfHalted s v then a + 2 ^ v else a) 0

/-- A PF0 register as it reads (R443). -/
def pf0Read (s : State) (off : Nat) : Word :=
  if off = 0 then s.rd .sett Off.SETT_ID
  else if off = 0x08 then BitVec.ofNat 64 s.pf0.heartbeat
  else if off = 0x10 then BitVec.ofNat 64 (s.mode + fld (s.rd .pwrc Off.MODE_FLAGS) 11 0 <<< 4 + (s.chState 3) <<< 16)
  else if off = 0x20 then s.rd .sett (Off.CHAN_STATE + 24)
  else if off = 0x28 then BitVec.ofNat 64 (vfHaltedBits s)
  else 0

/-! ## IO commands (R445, R446) -/

def ioTwinInfo (_c : Cmd) (s : State) : CmdRes :=
  let w := s.rd .tp Off.TP_LINK
  .done stOk (leBytes 1 (b2n s.pwr.tpRoot) ++ leBytes 1 (fld w 1 0) ++ leBytes 1 (fld w 4 2) ++ leBytes 1 (fld w 9 5) ++
    leBytes 1 (fld w 16 11) ++ leBytes 1 (fld w 17 17) ++ leBytes 2 0 ++ leBytes 8 (vfHaltedBits s) ++ leBytes 8 s.pf0.heartbeat) s

/-- IO_TWIN_INFO. -/
def execIoTwinInfo (ch tag : Nat) (s : State) : Res := finish s (runBelet 0x0540 ch tag ioTwinInfo s)

def ioTwinVfReset (c : Cmd) (s : State) : CmdRes :=
  let v := bytesAt c.body 0 0
  if s.pwr.tpRoot then .fail stNoTarget s
  else if !isVf v then .fail stBadField s
  else match vfLid s v with
    | none => .fail stBadField s
    | some l => if !(s.lodgeSt l).ownedBy c.ch then .fail stDenied s
      else if s.leased Blk.tp.inst then .fail stLeaseHeld s else .run [v] (startFlr v s)

/-- IO_TWIN_VF_RESET. -/
def execIoTwinVfReset (ch tag : Nat) (s : State) : Res := finish s (runBelet 0x0541 ch tag ioTwinVfReset s)

end Sys2Proof.Machine
end

