-- ==== Sys2Proof/Machine/RootComplex.lean ====
section
/-! DEFINITION. The root complexes (chapter 15): bifurcation, outbound windows, completions, inbound DMA, AER, hot-plug
and the IO commands. -/
namespace Sys2Proof.Machine

/-! ## Bifurcation (R403) -/

/-- Lanes of each root port under a BIFURC value; 0: ABSENT. -/
def bifurcLanes (b : Nat) : List Nat :=
  match b with | 0 => [16, 0, 0, 0] | 1 => [8, 0, 8, 0] | 2 => [8, 0, 4, 4] | 3 => [4, 4, 8, 0] | _ => [4, 4, 4, 4]

def rcBifurc (s : State) (n : Nat) : Nat := if n = 8 then 0 else s.rf (.rc n) Off.RC_CFG 2 0
def portLanes (s : State) (n p : Nat) : Nat := (bifurcLanes (rcBifurc s n)).getD p 0

def linkOf (s : State) (n p : Nat) : Nat := s.rf (.rc n) (Off.PORT_STATE + 8 * p) 1 0
def perstOf (s : State) (n p : Nat) : Bool := s.rf (.rc n) (Off.PORT_STATE + 8 * p) 10 10 == 1
def setLinkOf (n p v : Nat) (s : State) : State := s.wf (.rc n) (Off.PORT_STATE + 8 * p) 1 0 v

/-- Every root port has LINK = DOWN, or does not exist, with PERST asserted (R404). -/
def rcQuiet (s : State) (n : Nat) : Bool :=
  (List.range 4).all (fun p => (linkOf s n p == 0 || linkOf s n p == 3) && perstOf s n p)

/-- The root ports follow BIFURC. -/
def bifurcApply (n : Nat) (s : State) : State :=
  (List.range 4).foldl (fun s p =>
    s.wr (.rc n) (Off.PORT_STATE + 8 * p) (if portLanes s n p = 0 then 0x403 else 0x400)) s

/-- A write of RC.CFG: BIFURC is ignored unless the ports are quiet. -/
def rcCfgWrite (n : Nat) (v : Word) (s : State) : State :=
  let w := merged s true (.rc n) Off.RC_CFG v
  let old := s.rd (.rc n) Off.RC_CFG
  if n ≠ 8 ∧ rcQuiet s n then bifurcApply n (s.wr (.rc n) Off.RC_CFG w)
  else s.wr (.rc n) Off.RC_CFG (setFld w 2 0 (fld old 2 0))

/-! ## AER (R411) -/

/-- An uncorrectable error `bit` that root port `p` detects or is told of: its status, the root status, and the Owl
line of a fatal one. `hdr`: the header, logged with the first error. -/
def aerUnc (n p bit hdr : Nat) (s : State) : State :=
  let old := cfgGet s n p 0x2004
  let s := cfgPut n p 0x2004 (old ||| 2 ^ bit) s
  let s := if old = 0 then (List.range 4).foldl (fun s i => cfgPut n p (0x201C + 4 * i) (hdr / 2 ^ (32 * i) % 2 ^ 32) s) s else s
  if (cfgGet s n p 0x2008).testBit bit then s
  else
    let fatal := (cfgGet s n p 0x200C).testBit bit
    let t := cfgGet s n p 0x2030
    let s := cfgOr n p 0x1008 (2 ^ (16 + (if fatal then 2 else 1))) s
    let s := cfgPut n p 0x2030 (t ||| 4 ||| (if t.testBit 2 then 8 else 0) ||| (if fatal then 64 else 32) |||
      (if fatal ∧ !t.testBit 2 then 16 else 0)) s
    let s := if fatal then report ((portBlk s n).inst) 17 3 21 0 p 0x1FF 0 s else s
    portIrqs n s

/-- A correctable error `bit`. -/
def aerCor (n p bit : Nat) (s : State) : State :=
  let s := unc (portBlk s n) 10 1 (cfgOr n p 0x2010 (2 ^ bit) (cfgOr n p 0x1008 (2 ^ 16) s))
  if (cfgGet s n p 0x2014).testBit bit then s
  else
    let t := cfgGet s n p 0x2030
    portIrqs n (cfgPut n p 0x2030 (t ||| 1 ||| (if t.testBit 0 then 2 else 0)) s)

/-- An Unexpected Completion: advisory non-fatal, with its header (R413). At the twin port `p` is the function. -/
def unexpected (n p hdr : Nat) (s : State) : State :=
  let s := unc (portBlk s n) 8 1 s
  if isRc s n then
    let old := cfgGet s n p 0x2004
    let s := cfgPut n p 0x2004 (old ||| 2 ^ 16) s
    let s := if old = 0 then cfgPut n p 0x201C (hdr % 2 ^ 32) s else s
    aerCor n p 13 s
  else epCor p 13 (epUnc p 16 hdr s)

/-- A message from below, or an error the port detects itself: `kind` 0 ERR_COR, 1 ERR_NONFATAL, 2 ERR_FATAL, 3 an
uncorrectable error `bit`, 4 a correctable one. -/
def errorMessage (n p kind bit rid hdr : Nat) (s : State) : State :=
  if !isRc s n ∨ 4 ≤ p ∨ portLanes s n p = 0 ∨ 32 ≤ bit then s
  else if kind = 3 then aerUnc n p bit hdr s
  else if kind = 4 then aerCor n p bit s
  else
    let t := cfgGet s n p 0x2030
    let s := if kind = 0 then
        cfgPut n p 0x2034 (cfgGet s n p 0x2034 / 65536 * 65536 + (if t.testBit 0 then cfgGet s n p 0x2034 % 65536 else rid % 65536))
          (cfgPut n p 0x2030 (t ||| 1 ||| (if t.testBit 0 then 2 else 0)) s)
      else
        cfgPut n p 0x2034 (cfgGet s n p 0x2034 % 65536 + (if t.testBit 2 then cfgGet s n p 0x2034 / 65536 else rid % 65536) * 65536)
          (cfgPut n p 0x2030 (t ||| 4 ||| (if t.testBit 2 then 8 else 0) ||| (if kind = 2 then 64 else 32) |||
            (if kind = 2 ∧ !t.testBit 2 then 16 else 0)) s)
    let s := if kind = 2 then report ((portBlk s n).inst) 17 3 21 0 p 0x1FF 0 s else s
    portIrqs n s

/-- ERROR_MESSAGE (R411). -/
def execErrorMessage (port rp kind bit rid hdr : Nat) (s : State) : Res := finish s (errorMessage port rp kind bit rid hdr s)

/-! ## Configuration registers as an ECAM access sees them -/

/-- Writable bits, and bits cleared by writing 1, of a register of the standard layout (PRESUMED, log entry 41). -/
def cfgMasks (r : Nat) : Nat × Nat :=
  match r with
  | 0x04 => (0x547, 0xF9000000)
  | 0x18 => (0xFFFFFF, 0)
  | 0x1C => (0, 0xF9000000)
  | 0x20 => (0xFFF0FFF0, 0)
  | 0x24 => (0xFFF0FFF0, 0)
  | 0x28 => (0xFFFFFFFF, 0)
  | 0x2C => (0xFFFFFFFF, 0)
  | 0x3C => (0x006300FF, 0)
  | 0x1008 => (0x70FF, 0xF0000)
  | 0x1010 => (0x0FFF, 0xC0000000)
  | 0x1018 => (0x1FFF, 0x1090000)
  | 0x101C => (0x001F, 0)
  | 0x1028 => (0x000F, 0)
  | 0x1030 => (0x007F, 0)
  | 0x2004 => (0, 0x07FFF030)
  | 0x2008 => (0x07FFF030, 0)
  | 0x200C => (0x07FFF030, 0)
  | 0x2010 => (0, 0xF1C1)
  | 0x2014 => (0xF1C1, 0)
  | 0x2018 => (0x0540, 0)
  | 0x202C => (0x7, 0)
  | 0x2030 => (0, 0x7F)
  | _ => (0, 0)

/-- The register at a configuration offset (R411). -/
def cfgKey (o : Nat) : Option Nat :=
  let r := o / 4 * 4
  if r < 0x40 then some r
  else if Config.pcieCap ≤ r ∧ r < Config.pcieCap + 0x3C then some (0x1000 + (r - Config.pcieCap))
  else if Config.aerCap ≤ r ∧ r < Config.aerCap + 0x48 then some (0x2000 + (r - Config.aerCap))
  else none

/-- Registers this model holds; the other read-only ones are fixed by the implementation. -/
def cfgHeld (k : Nat) : Bool := (cfgMasks k).1 != 0 || (cfgMasks k).2 != 0 || [0x201C, 0x2020, 0x2024, 0x2028, 0x2034, 0x2038, 0x203C, 0x2040, 0x2044].contains k

/-- Read of `n` bytes. -/
def cfgRead (s : State) (n p o size : Nat) : Nat :=
  let w := match cfgKey o with
    | some k => if cfgHeld k then cfgGet s n p k else Config.cfgFixed (o / 4 * 4) % 2 ^ 32
    | none => Config.cfgFixed (o / 4 * 4) % 2 ^ 32
  w / 2 ^ (8 * (o % 4)) % 2 ^ (8 * size)

/-- Write of `n` bytes. Reserved completion timeouts (R412) leave Device Control 2 as it is. -/
def cfgWrite (n p o size v : Nat) (s : State) : State :=
  match cfgKey o with
  | none => s
  | some k =>
    let lanes := (2 ^ (8 * size) - 1) * 2 ^ (8 * (o % 4))
    let w := v % 2 ^ (8 * size) * 2 ^ (8 * (o % 4))
    let (rw, w1c) := cfgMasks k
    let old := cfgGet s n p k
    let keep := old - (old &&& (rw &&& lanes)) + (w &&& (rw &&& lanes))
    let new := keep - (keep &&& (w &&& w1c))
    if k = 0x1028 ∧ !([0, 1, 2, 5, 6, 9, 10, 13, 14].contains (new % 16)) then s
    else portIrqs n (cfgPut n p k new s)

/-! ## Outbound (R405, R406) -/

/-- Where an outbound access goes. -/
inductive Dest
  /-- root port, PCIe address, configuration request -/
  | port (p a : Nat) (cfg : Bool)
  /-- a root port's own configuration space -/
  | own (p o : Nat)
  /-- no bus or function answers: all ones -/
  | absent
  /-- an Unsupported Request -/
  | ur
deriving DecidableEq, Repr

/-- A bridge window contains the address. -/
def bridgeClaims (s : State) (n p a : Nat) : Bool :=
  let m := cfgGet s n p 0x20
  let f := cfgGet s n p 0x24
  let mb := m / 16 % 4096 * 2 ^ 20
  let ml := m / 2 ^ 20 % 4096 * 2 ^ 20 + 0xFFFFF
  let fb := f / 16 % 4096 * 2 ^ 20 + cfgGet s n p 0x28 * 2 ^ 32
  let fl := f / 2 ^ 20 % 4096 * 2 ^ 20 + 0xFFFFF + cfgGet s n p 0x2C * 2 ^ 32
  (cfgGet s n p 4).testBit 1 && ((decide (mb ≤ a) && decide (a ≤ ml)) || (decide (fb ≤ a) && decide (a ≤ fl)))

/-- Route an access of port `n` (R405). -/
def outRoute (s : State) (n pa : Nat) : Dest :=
  let ports := (List.range 4).filter (fun p => portLanes s n p != 0)
  if 0x7E0000000000 ≤ pa then
    let o := (pa - 0x7E0000000000) % 0x10000000
    let bus := o / 2 ^ 20
    let dev := o / 2 ^ 15 % 32
    let fn := o / 2 ^ 12 % 8
    if bus = 0 then (if fn = 0 ∧ ports.contains dev then .own dev (o % 4096) else .absent)
    else match ports.find? (fun p => decide (cfgGet s n p 0x18 / 256 % 256 ≤ bus) && decide (bus ≤ cfgGet s n p 0x18 / 65536 % 256)) with
      | some p => if bus = cfgGet s n p 0x18 / 256 % 256 ∧ dev ≠ 0 then .absent else .port p o true
      | none => .absent
  else
    let o := (pa - 0x400000000000) % 0x40000000000
    let a := if n < 8 ∧ 0x3FF80000000 ≤ o then o - 0x3FF80000000 + 0x80000000
      else o + s.rf (.rc n) Off.OB64_BASE 63 32 * 2 ^ 32
    match ports.find? (fun p => bridgeClaims s n p a) with
    | some p => .port p a false
    | none => .ur

/-- All ones of an access. -/
def ones (n : Nat) : Word := BitVec.ofNat 64 (2 ^ (8 * n) - 1)

/-- A core's access ends: a load takes the value, a store is acknowledged (R141). -/
def endDev (p : Nat) (write : Bool) (v : Word) (s : State) : State := if write then devAck p s else devData p v s

/-- Timeout of a request of root port `p`: the smaller of Device Control 2's and the requester cap (R412). -/
def reqWait (s : State) (n p : Nat) : Nat :=
  min (ctoTicks (cfgGet s n p 0x1028 % 16)) (meshTicks s (2 ^ (s.rf .bchub Off.BCHUB_COH_CFG 4 0 + 6)))

/-- The access that waits leaves the port: a posted write, or a request with a tag. -/
def sendOut (n : Nat) (w : OutWait) (s : State) : State :=
  let pcn := match w.owner with | .core p => p | _ => 0
  if w.posted then
    let s := bwAdd (portBlk s n) (4 * w.rp + 3) w.size (unc (portBlk s n) 4 1 (sendTlp n (.memWr w.rp w.addr w.data) s))
    devAck pcn s
  else match freeTag s n with
    | none => s
    | some t =>
      let wr := w.cfg && !w.data.isEmpty
      let q : OutReq := ⟨t, w.rp, w.owner, w.addr, w.size, wr, w.cfg, s.tick, reqWait s n w.rp, false, 0, 0⟩
      let tlp := if wr then Tlp.cfgWr w.rp t w.addr w.data else if w.cfg then .cfgRd w.rp t w.addr w.size else .memRd w.rp t w.addr w.size
      let s := tagsReg n (s.modPort n (fun p => { p with reqs := p.reqs ++ [q], out := p.out ++ [tlp] }))
      if wr then devAck pcn (unc (portBlk s n) 4 1 s) else unc (portBlk s n) 3 1 s

/-- Waiting requests go in arrival order while they can (R406). -/
def drainWait (n : Nat) : Nat → State → State
  | 0, s => s
  | k + 1, s =>
    match (s.port n).wait with
    | [] => s
    | w :: l =>
      if !w.posted ∧ (freeTag s n).isNone then s
      else drainWait n k (sendOut n w (s.modPort n (fun p => { p with wait := l })))

/-- The port whose window an access lies in; 9 for none. -/
def outPort (s : State) (pa : Nat) : Nat := match s.region pa with | .pcieWin n => n | .ecam n => n | _ => 9

/-- The core's access is already at the port. -/
def outBusy (s : State) (n pcn : Nat) : Bool :=
  (s.port n).reqs.any (fun q => q.owner == .core pcn && !q.quar && !q.write) || (s.port n).wait.any (fun w => w.owner == .core pcn)

/-- An access that waits at a root port. -/
def outWait (p pcn a : Nat) (cfg : Bool) (d : DevAcc) : OutWait :=
  ⟨p, .core pcn, a, d.size, d.write, d.write && !cfg, cfg, if d.write then leBytes d.size d.data else [], 0, 0⟩

/-- The access of core `pcn` reaches its port. -/
def outbound (pcn : Nat) (s : State) : State :=
  match (s.core pcn).dev with
  | none => s
  | some d =>
    let n := outPort s d.pa
    if !isRc s n ∨ outBusy s n pcn then s
    else if (s.port n).dead then endDev pcn d.write (ones d.size) (deadAccess (portStop n) (portAgent n) (d.pa / 64) s)
    else match outRoute s n d.pa with
      | .own p o => if d.write then devAck pcn (cfgWrite n p o d.size d.data s) else devData pcn (BitVec.ofNat 64 (cfgRead s n p o d.size)) s
      | .absent => endDev pcn d.write (ones d.size) s
      | .ur => endDev pcn d.write (ones d.size) (aerUnc n 0 20 (d.pa % 2 ^ 32) s)
      | .port p a cfg =>
        if linkOf s n p ≠ 1 then endDev pcn d.write (ones d.size) (aerUnc n p 20 (a % 2 ^ 32) s)
        else
          let s := s.modPort n (fun x => { x with wait := x.wait ++ [outWait p pcn a cfg d] })
          drainWait n (s.port n).wait.length s

/-- OUTBOUND_REQUEST (R405). -/
def execOutboundRequest (pcn : Nat) (s : State) : Res := finish s (outbound pcn s)

/-! ## Completions (R413) -/

/-- A request ends in error: a load returns all ones; a ring's cause. -/
def failReq (q : OutReq) (cause : Nat) (s : State) : State :=
  match q.owner with
  | .core p => if q.write then s else devData p (ones q.size) s
  | .ring v r _ => haltRing v r cause s

/-- At s + C: the request ends with a Completion Timeout and its tag enters quarantine. -/
def cplTimeout (n tag : Nat) (s : State) : State :=
  match (s.port n).reqs.find? (fun q => q.tag == tag && !q.quar) with
  | none => s
  | some q =>
    let s := quarReq n tag (unc (portBlk s n) 7 1 (s.toTick (q.sent + q.wait)))
    let s := if isRc s n then aerUnc n q.rp 14 0 s else epUnc q.rp 14 0 s
    failReq q 5 s

/-- A tag is free again. -/
def tagFree (n tag : Nat) (s : State) : State :=
  let s := freeReq n tag s
  if isRc s n then drainWait n (s.port n).wait.length s
  else engineGo s

/-- TAG_QUARANTINE_END (R413): at s + 2C. -/
def tagQuarantineEnd (port tag : Nat) (s : State) : State :=
  (match (s.port port).reqs.find? (fun q => q.tag == tag && q.quar) with
    | some q => tagFree port tag (s.toTick (q.sent + 2 * q.wait))
    | none => s)

/-- A core load whose data came with EP = 1 takes poisoned data (R341). -/
def devPoison (p : Nat) (v : Word) (s : State) : State :=
  match (s.core p).dev with
  | some d => devData p v (s.modCore p (fun c => { c with rob := updFirst (fun x => x.seq == d.seq) (fun x => { x with poisoned := true }) c.rob }))
  | none => s

/-- A configuration read answered with CRS that is reissued: all but a Vendor ID read under CRS software visibility. -/
def retried (s : State) (n : Nat) (q : OutReq) (status : Nat) : Bool :=
  let vendor := q.cfg && !q.write && q.addr % 4096 == 0 && decide (2 ≤ q.size)
  status == 2 && q.cfg && !q.write && !(vendor && (cfgGet s n q.rp 0x101C).testBit 4)

/-- A completion that is in time and fits its request. -/
def cplTaken (n : Nat) (q : OutReq) (status : Nat) (l : List Byte) (ep : Bool) (s : State) : State :=
  if retried s n q status then
    -- Configuration Request Retry Status: the read is reissued
    sendTlp n (.cfgRd q.rp q.tag q.addr q.size) s
  else
    let s := tagFree n q.tag s
    match q.owner with
    | .ring v r i => ringData v r i q.addr status l ep s
    | .core p =>
      -- a completion that fails ECRC ends its request in error (R411)
      let s := if status = 3 then aerUnc n q.rp 19 q.tag s else s
      if q.write then s
      else if status = 2 ∧ q.cfg then devData p (BitVec.ofNat 64 ((2 ^ (8 * q.size) - 1) / 65536 * 65536 + 1)) s
      else if status ≠ 0 then devData p (ones q.size) s
      else
        let s := bwAdd (portBlk s n) (4 * q.rp + 2) q.size s
        if ep then devPoison p (BitVec.ofNat 64 (leNat l)) (aerUnc n q.rp 12 0 s) else devData p (BitVec.ofNat 64 (leNat l)) s

/-- A completion for a ring whose lodge's generation is no longer current is counted, and goes no further (R13, R366). -/
def staleReq (s : State) (n : Nat) (q : OutReq) : Bool :=
  match q.owner with | .ring _ _ _ => !portFresh s n q.lid q.gen | .core _ => false
def lateGen (n : Nat) (q : OutReq) (s : State) : State :=
  if staleReq s n q then s.incSat (portBlk s n) Off.TP_LATE_DISCARD 31 0 else s

/-- PCIE_COMPLETION: `status` 0 SC, 1 UR, 2 CRS, 4 CA, 3 for one that fails an enabled ECRC check; `low`: lower address. -/
def pcieCompletion (n tag status low : Nat) (l : List Byte) (ep : Bool) (s : State) : State :=
  -- a completion at s + C or later is late, and at s + 2C its tag is free
  let s := match (s.port n).reqs.find? (fun q => q.tag == tag && !q.quar) with
    | some q => if q.sent + q.wait ≤ s.tick then cplTimeout n tag s else s
    | none => s
  let s := match (s.port n).reqs.find? (fun q => q.tag == tag && q.quar) with
    | some q => if q.sent + 2 * q.wait ≤ s.tick then tagQuarantineEnd n tag s else s
    | none => s
  match (s.port n).reqs.find? (fun q => q.tag == tag) with
  | none => unexpected n 0 tag s
  | some q =>
    let s := lateGen n q s
    if q.quar then tagFree n tag (unexpected n q.rp tag (s.incSat (portBlk s n) Off.RC_UNEXP_CPL 31 0))
    else if status = 0 ∧ !q.write ∧ (l.length ≠ q.size ∨ low % 128 ≠ q.addr % 128) then unexpected n q.rp tag s
    else if staleReq s n q then tagFree n tag s
    else cplTaken n q status l ep s

/-! ## Inbound DMA (R407 to R410) -/

def streamReg (s : State) (n i : Nat) : Word := s.rd (.rc n) (Off.STREAM + 8 * i)

/-- The stream of a request: entry (256 for none) and LID. -/
def streamOf (s : State) (n p rid : Nat) : Option (Nat × Nat) :=
  match (List.range 256).find? (fun i =>
    let w := streamReg s n i
    bitOf w 34 && fld w 33 32 == p && (rid &&& fld w 31 16) == (fld w 15 0 &&& fld w 31 16)) with
  | some i => some (i, fld (streamReg s n i) 43 35)
  | none => if s.rf (.rc n) Off.RC_CFG 8 8 = 1 then some (256, 0) else none

/-- A DMA fault (R408): STREAM is 0xFF where no entry matched (R407). -/
def dmaFault (n p kind addr stream tag : Nat) (write : Bool) (s : State) : State :=
  let s := if write then s else sendTlp n (.cpl p tag 1 [] false) s
  let s := if stream < 256 then s.incSat (.rc n) (Off.SFAULT_CNT + 4 * stream) 31 0 else s
  logFault n (BitVec.ofNat 64 (kind + (addr / 4 % 2 ^ 46) <<< 2 + (min 255 stream) <<< 48 + (b2n write) <<< 56 + 1 <<< 63)) s

/-- The link of the root port carries requests. -/
def portLive (s : State) (n p : Nat) : Bool := isRc s n && decide (p < 4) && linkOf s n p == 1

/-- Stale or absent lodge: the request is discarded and counted (R362). -/
def dmaStale (n p tag : Nat) (write : Bool) (s : State) : State :=
  let s := s.incSat (.rc n) Off.RC_LATE_DISCARD 31 0
  if write then s else sendTlp n (.cpl p tag 1 [] false) s

/-- The checks of R407, R362 and R408 before translation: entry and LID, or the state after a fault. -/
def dmaStream (n p rid addr tag atype : Nat) (pasid write : Bool) (s : State) : Except State (Nat × Nat) :=
  match streamOf s n p rid with
  | none => .error (dmaFault n p 0 addr 256 tag write s)
  | some (i, lid) =>
    if atype ≠ 0 ∨ pasid then .error (dmaFault n p 0 addr i tag write s)
    else if !attrValid (portAttr s n lid) then .error (dmaStale n p tag write s)
    else .ok (i, lid)

/-- INBOUND_READ. -/
def inboundRead (n p rid tag addr len atype : Nat) (pasid : Bool) (s : State) : State :=
  if !portLive s n p ∨ len = 0 then s else
  match dmaStream n p rid addr tag atype pasid false s with
  | .error s => s
  | .ok (i, lid) =>
    if attrHold (portAttr s n lid) then dmaFault n p 3 addr i tag false s
    else match portXlate n lid addr len false s with
      | (.error k, s) => dmaFault n p k addr i tag false s
      | (.ok pa, s) => portGo n (queueRead n ⟨p * 65536 + rid, p, lid, none, false⟩ tag addr pa len false s)

/-- INBOUND_READ (R407). -/
def execInboundRead (port rp rid tag addr len atype : Nat) (pasid : Bool) (s : State) : Res :=
  finish s (inboundRead port rp rid tag addr len atype pasid s)

/-- An MSI or MSI-X message (R409): forwarded after the function's earlier posted writes, even with RO set. -/
def inboundMsi (n p rid dat atype : Nat) (pasid : Bool) (s : State) : State :=
  if !portLive s n p then s else
  match dmaStream n p rid (s.rd (.rc n) Off.MSI_ADDR).toNat 0 atype pasid true s with
  | .error s => s
  | .ok (_, lid) => portGo n (queuePiece n ⟨p * 65536 + rid, p, lid, none, false⟩ (.msi dat) id s).2

/-- INBOUND_MSI (R409). -/
def execInboundMsi (port rp rid : Nat) (v : Word) (s : State) : Res := finish s (inboundMsi port rp rid (fld v 31 0) 0 false s)

/-- INBOUND_WRITE. -/
def inboundWrite (n p rid addr atype : Nat) (pasid ep : Bool) (l : List Byte) (s : State) : State :=
  let m := (s.rd (.rc n) Off.MSI_ADDR).toNat
  if !portLive s n p ∨ l.isEmpty then s
  else if addr = m ∧ l.length = 4 then inboundMsi n p rid (leNat l) atype pasid s
  else
    match dmaStream n p rid addr 0 atype pasid true s with
    | .error s => s
    | .ok (i, lid) =>
      if attrHold (portAttr s n lid) then dmaFault n p 3 addr i 0 true s
      else if addr < m + 4 ∧ m < addr + l.length then dmaFault n p 2 addr i 0 true s
      else match portXlate n lid addr l.length true s with
        | (.error k, s) => dmaFault n p k addr i 0 true s
        | (.ok pa, s) =>
          let s := bwAdd (.rc n) (4 * p + 1) l.length (unc (.rc n) 2 1 s)
          let s := if ep then aerUnc n p 12 (addr % 2 ^ 32) s else s
          portGo n (queueWrite n ⟨p * 65536 + rid, p, lid, none, ep⟩ pa l s).2

/-- INBOUND_WRITE (R410). -/
def execInboundWrite (port rp rid addr atype : Nat) (pasid ep : Bool) (data : List Byte) (s : State) : Res :=
  finish s (inboundWrite port rp rid addr atype pasid ep data s)

/-! ## Links (R404, R414, R416) -/

/-- Slot Status: presence and Data Link Layer events. -/
def slotEvent (n p : Nat) (present : Bool) (s : State) : State :=
  let w := cfgGet s n p 0x1018
  let w := (w ||| 0x1080000) - (w &&& 0x400000) + (if present then 0x400000 else 0)
  portIrqs n (cfgPut n p 0x1018 w s)

/-- LINK_UP: training ends. On a link that is up it shows a change of speed or width (Link Status, R415). -/
def portLinkUp (n p speed width : Nat) (s : State) : State :=
  if !isRc s n ∨ 4 ≤ p ∨ portLanes s n p = 0 ∨ perstOf s n p ∨ linkOf s n p = 3 ∨ speed = 0 ∨ 6 < speed ∨
      !([1, 2, 4, 8, 16].contains width) ∨ portLanes s n p < width then s
  else
    let was := linkOf s n p = 1
    let o := Off.PORT_STATE + 8 * p
    let s := s.wr (.rc n) o (BitVec.ofNat 64 (1 + speed <<< 2 + width <<< 5 + 1 <<< 11))
    if was then portIrqs n (cfgOr n p 0x1010 (2 ^ 30) s) else slotEvent n p true s

/-- LINK_UP (R404). -/
def execLinkUp (port rp speed width : Nat) (s : State) : Res := finish s (portLinkUp port rp speed width s)

/-- Outstanding requests of a root port end, and what is owed to the device is dropped. -/
def endPort (n p : Nat) (s : State) : State :=
  let qs := (s.port n).reqs.filter (fun q => q.rp == p && !q.quar)
  let s := qs.foldl (fun s q => failReq q 5 (quarReq n q.tag (unc (portBlk s n) 7 1 s))) s
  let gone := ((s.port n).wait.filter (fun w => w.rp == p))
  let s := s.modPort n (fun x => { x with wait := x.wait.filter (fun w => w.rp != p), reads := x.reads.filter (fun r => r.rp != p) })
  let s := gone.foldl (fun s w => match w.owner with
    | .core c => endDev c (w.posted || !w.data.isEmpty) (ones w.size) s
    | _ => s) s
  (List.range 512).foldl (fun s l => if bitOf (portAttr s n l) 27 then portOld n l s else s) s

/-- LINK_DOWN: surprise removal (R414). -/
def portLinkDown (n p : Nat) (s : State) : State :=
  if !portLive s n p then s else
  let s := s.wr (.rc n) (Off.PORT_STATE + 8 * p) 0
  slotEvent n p false (endPort n p (aerUnc n p 5 0 s))

/-- LINK_DOWN (R414). -/
def execLinkDown (port rp : Nat) (s : State) : Res := finish s (portLinkDown port rp s)

/-- A PORT reset of a root port (R416, R418): PERST# is asserted for `hold` ticks. -/
def portReset (n p hold : Nat) (s : State) : State :=
  let s := endPort n p s
  let s := s.modPort n (fun x => { x with
    cfg := x.cfg.filter (fun e => e.1 / 65536 != p)
    perstDue := smPut x.perstDue p (s.tick + hold) })
  portIrqs n (s.wr (.rc n) (Off.PORT_STATE + 8 * p) 0x400)

/-- PERST_RELEASE: PERST# is released when its hold has elapsed, and training starts. -/
def perstRelease (n p : Nat) (s : State) : State :=
  match smFind (s.port n).perstDue p with
  | none => s
  | some t =>
    if portLanes s n p = 0 then s else
    let s := (s.toTick t).modPort n (fun x => { x with perstDue := smDel x.perstDue p })
    let s := s.wr (.rc n) (Off.PORT_STATE + 8 * p) 2
    (s.sett.cmds.filter (fun c => c.opcode == 0x0504 && c.phase == .running && c.aux == [4 * n + p])).foldl (fun s c => respond c stOk [] s) s

/-- PERST_RELEASE (R416). -/
def execPerstRelease (port rp : Nat) (s : State) : Res := finish s (perstRelease port rp s)

/-- WARM at the root ports (R416): a PORT reset of every one; streams of lodges are cleared. -/
def warmPorts (s : State) : State :=
  (List.range 9).foldl (fun s n => if !isRc s n then s else
    let s := (List.range 4).foldl (fun s p => if portLanes s n p = 0 then s else portReset n p (100 * ms) s) s
    (List.range 256).foldl (fun s i => if fld (streamReg s n i) 43 35 = 0 then s else s.wr (.rc n) (Off.STREAM + 8 * i) 0) s) s

/-! ## IO commands (R419, R420) -/

/-- The RC that a body names. -/
def rcNum (s : State) (b : List Byte) : Option Nat := let n := bytesAt b 0 0; if isRc s n then some n else none

/-- Response of IO.RC_CFG. -/
def rcCfgRsp (s : State) (n : Nat) : List Byte :=
  leBytes 1 (rcBifurc s n) ++ leBytes 1 (s.rf (.rc n) Off.RC_CFG 8 8) ++ (List.range 4).flatMap (fun p => leBytes 1 (linkOf s n p))

def ioRcCfg (c : Cmd) (s : State) : CmdRes :=
  match rcNum s c.body with
  | none => .fail stBadField s
  | some n =>
    if bytesAt c.body 1 1 = 0 then .done stOk (rcCfgRsp s n) s
    else if 1 < bytesAt c.body 1 1 ∨ 4 < bytesAt c.body 2 2 ∨ 1 < bytesAt c.body 3 3 ∨ (n = 8 ∧ bytesAt c.body 2 2 ≠ 0) then .fail stBadField s
    else if leasedInst s (.rc n) then .fail stLeaseHeld s
    else if bytesAt c.body 2 2 ≠ rcBifurc s n ∧ !rcQuiet s n then .fail stBusy s
    else .commit [.rcBifurc n (BitVec.ofNat 64 (bytesAt c.body 2 2 + 256 * bytesAt c.body 3 3))] s

/-- IO_RC_CFG. -/
def execIoRcCfg (ch tag : Nat) (s : State) : Res := finish s (runBelet 0x0501 ch tag ioRcCfg s)

def ioStreamSet (c : Cmd) (s : State) : CmdRes :=
  match rcNum s c.body with
  | none => .fail stBadField s
  | some n =>
    let v := BitVec.ofNat 64 (bytesAt c.body 15 8)
    let lid := fld v 43 35
    if 2 ^ 44 ≤ bytesAt c.body 15 8 then .fail stBadField s
    else if lid ≠ 0 ∧ ((s.lodgeSt lid).state = .free ∨ !(s.lodgeSt lid).ownedBy c.ch) then .fail stBadLid s
    else if leasedInst s (.rc n) then .fail stLeaseHeld s
    else .done stOk [] (s.wr (.rc n) (Off.STREAM + 8 * bytesAt c.body 1 1) v)

/-- IO_STREAM_SET. -/
def execIoStreamSet (ch tag : Nat) (s : State) : Res := finish s (runBelet 0x0502 ch tag ioStreamSet s)

def ioStreamGet (c : Cmd) (s : State) : CmdRes :=
  match rcNum s c.body with
  | none => .fail stBadField s
  | some n =>
    let i := bytesAt c.body 1 1
    .done stOk (leBytes 8 (streamReg s n i).toNat ++ leBytes 4 (s.rf (.rc n) (Off.SFAULT_CNT + 4 * i) 31 0)) s

/-- IO_STREAM_GET. -/
def execIoStreamGet (ch tag : Nat) (s : State) : Res := finish s (runBelet 0x0503 ch tag ioStreamGet s)

def ioPortReset (c : Cmd) (s : State) : CmdRes :=
  let g := bytesAt c.body 0 0
  let hold := bytesAt c.body 3 2
  if 32 ≤ g ∨ hold < 100 ∨ 1000 < hold then .fail stBadField s
  else if portLanes s (g / 4) (g % 4) = 0 then .fail stBusy s
  else if s.leased (portBlk s (g / 4)).inst then .fail stLeaseHeld s
  else .run [g] (portReset (g / 4) (g % 4) (hold * ms) s)

/-- IO_PORT_RESET. -/
def execIoPortReset (ch tag : Nat) (s : State) : Res := finish s (runBelet 0x0504 ch tag ioPortReset s)

/-- Remove up to `k` records. -/
def takeFaults (n : Nat) : Nat → State → List Word × State
  | 0, s => ([], s)
  | k + 1, s =>
    if (s.port n).log.isEmpty then ([], s) else
    let (w, s) := takeFault n s
    let (l, s) := takeFaults n k s
    (w :: l, s)

/-- IO.DMA_FAULTS removes the records it returns; FAULT_LOST is reported and stays (R580). -/
def ioDmaFaults (c : Cmd) (s : State) : CmdRes :=
  match rcNum s c.body with
  | none => .fail stBadField s
  | some n =>
    let (l, s) := takeFaults n 12 s
    let lost := s.rf (.rc n) Off.RC_FAULT_LOST 31 0
    .done stOk (leBytes 8 l.length ++ ((l.flatMap (fun w => leBytes 8 w.toNat)) ++ leBytes 96 0).take 96 ++ leBytes 4 lost) s

/-- IO_DMA_FAULTS. -/
def execIoDmaFaults (ch tag : Nat) (s : State) : Res := finish s (runBelet 0x0505 ch tag ioDmaFaults s)

end Sys2Proof.Machine
end

