-- ==== Sys2Proof/Machine/Agents.lean ====
section
/-! DEFINITION. Messages that reach a core or a port (R275, R276, R280 to R287), broadcasts at their targets (R190), and the
fencing of a dead agent (R290, R291). -/
namespace Sys2Proof.Machine

def isCoreAgent (a : Nat) : Bool := decide (a < 272)
def isPortAgent (a : Nat) : Bool := decide (480 ≤ a) && decide (a ≤ 488)

/-! ## Snoops -/

/-- A snoop reaches its target. A core without caches in power holds nothing. -/
def snoopArr (op : Nat) (m : Msg) : State → State := arrive op m fun s =>
  if isPortAgent m.agent then portSnoop (m.agent - 480) m s
  else if !isCoreAgent m.agent then s
  else if (s.core m.agent).dead then snpReply m false false false false true 0 false s
  else coreSnoop op m s

/-- SNP_S (R287). -/
def execSnpS (m : Msg) (s : State) : Res := finish s (snoopArr 0x40 m s)
/-- SNP_X (R287). -/
def execSnpX (m : Msg) (s : State) : Res := finish s (snoopArr 0x41 m s)
/-- SNP_INV (R287). -/
def execSnpInv (m : Msg) (s : State) : Res := finish s (snoopArr 0x42 m s)
/-- SNP_INV_ND (R287). -/
def execSnpInvNd (m : Msg) (s : State) : Res := finish s (snoopArr 0x43 m s)
/-- SNP_CLEAN (R287). -/
def execSnpClean (m : Msg) (s : State) : Res := finish s (snoopArr 0x44 m s)
/-- SNP_CUR (R287). -/
def execSnpCur (m : Msg) (s : State) : Res := finish s (snoopArr 0x45 m s)

/-! ## Replies -/

/-- The miss register a reply matches, by TXN and ADDR (R275). -/
def mrFor (s : State) (m : Msg) (uses : List MUse) : Option MReq :=
  (s.core m.agent).mrs.find? (fun r => r.txn == m.txn && r.line == m.line && r.op != 0 && uses.contains r.use)

/-- A reply at a core: `k` acts on the matching miss register. One that matches nothing is a header error (R240). -/
def coreReply (m : Msg) (uses : List MUse) (k : MReq → State → State) (s : State) : State :=
  if (s.core m.agent).dead then s
  else match mrFor s m uses with
    | some r => k r s
    | none => driveDown s

/-- A port has an entry that awaits the reply. -/
def portAwaits (s : State) (n : Nat) (m : Msg) : Bool :=
  (s.port n).pieces.any (fun x => x.txn == m.txn && x.line == m.line && (x.st == .asked || x.st == .committing || x.st == .writing || x.st == .lost)) ||
  (s.port n).reads.any (fun r => r.waits.contains (m.txn, m.line))

/-- A reply reaches a core or a port. -/
def replyArr (op : Nat) (m : Msg) (uses : List MUse) (k : MReq → State → State) (port : Nat → State → State) : State → State := arrive op m fun s =>
  if isPortAgent m.agent then
    (let n := m.agent - 480
     if (s.port n).dead then s else if portAwaits s n m then port n s else driveDown s)
  else if isCoreAgent m.agent then coreReply m uses k s
  else s

/-- CmpAck of a requester. -/
def ackGrant (m : Msg) (s : State) : State := post 0x81 { agent := m.agent, line := m.line, txn := m.txn } s

/-- Install a granted line, or keep it until the writeback buffer has room (R214). -/
def takeFill (m : Msg) (r : MReq) (st : Nat) (d : Line) (po : Bool) (s : State) : State :=
  let p := m.agent
  let src := fillSrc p m (homeOf m.line)
  if fillRoom s p r then serveFill p r st d po src s
  else setMr p r.txn (fun r => { r with got := some (st + 4 * src, d, po) }) s

def fillUses : List MUse := [.read, .own, .zero, .prefetch]

/-- DATA (R280): STATE 1 S, 2 E, 3 M. -/
def dataArr (m : Msg) (s : State) : State :=
  if m.arg % 4 = 0 then arrive 0xC0 m driveDown s else
  replyArr 0xC0 m fillUses (fun r s => takeFill m r (m.arg % 4) m.data m.poison (ackGrant m s)) (fun n s => portGrant n m true s) s

/-- GNT_X (R280): ownership without data. A line held in S keeps its data; a line taken by OwnNd starts as zero. -/
def gntX (m : Msg) (s : State) : State :=
  replyArr 0x82 m fillUses (fun r s =>
    let (d, po) := match smFind (s.core m.agent).l2 m.line with | some e => (e.cur, e.poison) | none => (0, false)
    takeFill m r 2 (if r.op = 4 then 0 else d) (if r.op = 4 then false else po) (ackGrant m s)) (fun n s => portGrant n m false s) s

/-- WR_GO (R283): the write data follows. -/
def wrGoArr (m : Msg) (s : State) : State :=
  (replyArr 0x83 m [.wc, .ucWrite, .spoor, .zero] (fun r s =>
    post 0xC3 { agent := m.agent, line := m.line, txn := m.txn, data := r.data, mask := r.mask } s) (fun _ s => s) s)

/-- The device access waits for another uncached write of its own. -/
def moreUc (p : Nat) (r : MReq) (s : State) : Bool := (s.core p).mrs.any (fun x => x.use == .ucWrite && x.waits == r.waits)

/-- A completed write or maintenance operation of a core. -/
def cmpCore (m : Msg) (r : MReq) (s : State) : State :=
  let p := m.agent
  let s := dropMr p r.txn s
  match r.use with
  | .spoor => spoorDone p s
  | .cbo =>
    -- an interrupt may have discarded the instruction, and another stand in its place
    (match (s.core p).stall with
      | some i => if r.waits.contains i.seq then complete i 0 (s.modCore p (fun c => { c with stall := none })) else s
      | none => s)
  | .ucWrite =>
    (match (s.core p).dev with
      | some d => if d.write ∧ r.waits = [d.seq] ∧ !moreUc p r s then devAck p s else s
      | none => s)
  | _ => s

/-- CMP (R283). -/
def cmpArr (m : Msg) (s : State) : State :=
  (replyArr 0x84 m [.wc, .ucWrite, .cbo, .spoor] (fun r s => cmpCore m r s) (fun n s => portCmp n m s) s)

/-- EV_ACK (R282): the writeback-buffer entry is free; fills and requests that waited for it go on (R214). -/
def evAck (m : Msg) : State → State := arrive 0x85 m fun s =>
  let p := m.agent
  if !isCoreAgent p ∨ (s.core p).dead then s
  else if !((s.core p).wbb.any (fun w => w.line == m.line)) then driveDown s
  else
    let s := s.modCore p (fun c => { c with wbb := delFirst (fun w => w.line == m.line) c.wbb })
    serveWaiting p (resendMr p m.line s)

/-- EV_ACK. -/
def execEvAck (m : Msg) (s : State) : Res := finish s (evAck m s)

/-- AMO_RSP (R150, R153, R185): the old value of a far AMO, or the result of an A/D update. -/
def amoRsp (m : Msg) (s : State) : State :=
  replyArr 0xC4 m [.amo, .ad] (fun r s =>
    let p := m.agent
    let s := dropMr p r.txn s
    if r.use = .ad then adResult p (m.arg % 2 == 1) m.poison m.line s
    else match (s.core p).amoAt with
      | none => s
      | some (i, dst, n) =>
        let s := s.modCore p (fun c => { c with amoAt := none })
        if m.poison then headPoison i (m.line * 64) s
        else
          let rd := match dst with | .x k => k | _ => 0
          completeX i rd (sext n (lineNat m.data 0 n)) 0 (replaySnooped p i.seq s)) (fun _ s => s) s

/-- AMO_RSP. -/
def execAmoRsp (m : Msg) (s : State) : Res := finish s (amoRsp m s)

/-- UC_DATA (R283). A read whose instruction was flushed is dropped. -/
def ucData (m : Msg) (s : State) : State :=
  replyArr 0xC5 m [.ucRead] (fun r s =>
    let p := m.agent
    match r.waits with
    | [] => dropMr p r.txn s
    | q :: _ => bindUc p q (setMr p r.txn (fun r => { r with got := some (2, m.data, m.poison) }) s)) (fun n s => portUcData n m s) s

/-! ## Timeouts of requesters (R289) -/

/-- The wait of a port's entry for a reply to TXN `txn`: when it began, and SNP_TMO_LOG2 of its slice then (R298). -/
def portWait (p : Port) (txn : Nat) : Option (Nat × Nat) :=
  match p.pieces.find? (fun x => x.txn == txn && (x.st == .asked || x.st == .committing || x.st == .writing || x.st == .lost)) with
  | some x => some (x.sent, x.tmo)
  | none => p.reads.findSome? (fun r => if r.waits.any (fun e => e.1 == txn)
      then (r.tmos.find? (fun e => e.1 == txn)).map (fun e => (r.sent, e.2)) else none)

/-- A port entry without reply. -/
def portTimeout (n txn : Nat) (s : State) : State :=
  match portWait (s.port n) txn with
  | some (t, k) => driveDown (s.toTick (t + meshTicks s (2 ^ (k + 7))))
  | none => s

/-- REQUESTER_TIMEOUT. -/
def execRequesterTimeout (agent txn : Nat) (s : State) : Res :=
  finish s (if isPortAgent agent then portTimeout (agent - 480) txn s else requesterTimeout agent txn s)

/-! ## Broadcasts (R190) -/

/-- A broadcast's copy at a stop is delivered to its agents (R234). -/
def deliverCopy (st id : Nat) (s : State) : State :=
  match [0, 1, 3].find? (fun p => match inBuf s st p 4 with | e :: _ => e.op == opBcast && e.msg.txn == id && e.outs.contains 4 | [] => false) with
  | some p => popBuf st p 4 4 s
  | none => s

/-- The agent's acknowledgement leaves for BCHUB. -/
def sendAck (id a : Nat) (s : State) : State :=
  match s.fab.hub.bcasts.find? (fun b => b.id == id) with
  | some b => setBcast { b with waits := b.waits.filter (· != a), acked := b.acked ++ [a] } s
  | none => s

/-- The core has translations that a broadcast can act on: it is on, and not asleep with its caches off. -/
def hearsBcast (c : Core) : Bool := c.on && (match c.sleep with | .asleep k => k == 0 | _ => true)

/-- BCAST_RECEIVE: the broadcast acts at its target. While stores that it removes the translation of have still to
commit, the acknowledgement waits: the command is then given again. -/
def bcastReceive (a id : Nat) (s : State) : State :=
  match s.fab.hub.bcasts.find? (fun b => b.id == id && b.admitted && b.waits.contains a) with
  | none => s
  | some b =>
    let s := deliverCopy (agentStop a) id s
    if isPortAgent a then
      (if (s.port (a - 480)).dead then countAck id a true s else portBcast (a - 480) b s)
    else if !isCoreAgent a then s
    else if (s.core a).dead then countAck id a true s
    else if !hearsBcast (s.core a) then sendAck id a s
    -- an operation that R88 made non-revocable, or a Zicbom request, is not flushed: it completes first (log entry 18)
    else if !b.acting.contains a ∧ (nonRevocable (s.core a) ∨ (s.core a).mrs.any (fun r => r.use == .cbo)) then s
    else
      let s := if b.acting.contains a then drainGone a s
        else setBcast { b with acting := insNat a b.acting } (coreBcast a b s)
      if bcastHeld (s.core a) then s
      else sendAck id a (bump a 73 1 (pNow s a) (s.modCore a (fun c => { c with invSeq := (c.invSeq + 1) % 65536 })))

/-- BCAST_RECEIVE. -/
def execBcastReceive (agent id : Nat) (s : State) : Res := finish s (bcastReceive agent id s)

/-! ## Dead agents (R290, R291, R509) -/

/-- Broadcasts that wait for nobody complete. -/
def hubSettle (s : State) : State :=
  (s.fab.hub.bcasts.filter (fun b => b.admitted && b.waits.isEmpty && b.acked.isEmpty)).foldl (fun s b => bcastDone b s) s

/-- The Sett's part for a dead core (R509): its PCN is retired in the map, its hart leaves HART_MAP, and CORE.DEAD is
sent with the cause (0 FENCE, 1 a timeout). A spare that dies before it has a hart is failed (R508). -/
def coreLost (p cause : Nat) (s : State) : State :=
  if s.pcnSt p = .retired ∨ s.pcnSt p = .failed then s else
  match s.hartOf p with
  | none => journal s.mapRec (s.setPcn p .failed)
  | some h =>
    let s := s.setPcn p .retired
    let s := journal s.mapRec (s.wf .idist (Off.HART_MAP + 8 * h) 9 9 0)
    emit [0, 1] 0x0482 0 0 (leBytes 1 h ++ leBytes 2 p ++ leBytes 1 cause) s

/-- The DEAD flit reaches a stop; broadcasts that now wait for nobody complete. -/
def deadTaken (st a : Nat) (s : State) : State :=
  let ds := (s.fab.hub.deads.map (fun d => if d.1 = a then (d.1, d.2.erase st) else d)).filter (fun d => !d.2.isEmpty)
  hubSettle { s with fab := { s.fab with hub := { s.fab.hub with deads := ds } } }

/-- The agent's own stop fences it (R291). -/
def fenceAt (st a : Nat) (s : State) : State :=
  if agentStop a ≠ st then s
  else if isCoreAgent a then s.modCore a (fun c => { c with dead := true })
  else if isPortAgent a then s.modPort (a - 480) (fun p => { p with dead := true }) else s

/-- DEAD at one stop: the agent's own stop fences it, a slice ends its waits and starts its sweep, the IDIST and
the Sett act as their chapters say. -/
def deadAt (st a : Nat) (s : State) : State :=
  if !(s.fab.hub.deads.any (fun d => d.1 == a && d.2.contains st)) then s else
  let s := fenceAt st a (deadTaken st a s)
  let s := if isTileStop st then startReclaim (st - 17) a (sliceDead (st - 17) a s) else s
  let s := if st = 8 ∧ isCoreAgent a then idistDead a s else s
  if st = 160 ∧ isCoreAgent a then coreLost a 1 s else s

end Sys2Proof.Machine
end

