-- ==== Sys2Proof/Machine/Dram.lean ====
section
/-! DEFINITION. The memory controllers (chapter 11) and the DRAM device code (R336 to R343): queues, the scheduler, refresh,
RETUNE, training, and scrub reads. -/
namespace Sys2Proof.Machine

/-! ## Where a line lies (R29, R303) -/

/-- Channel-local address of a physical address. -/
def caOf (pa : Nat) : Nat := pa / 4096 % 2 ^ 31 * 256 + pa % 256

/-- Physical address of a channel-local address of channel `n` (R347). -/
def paOfCa (n ca : Nat) : Nat :=
  let p := ca / 256 * 4096 + ca % 256
  p + (channelOf (p / 64) ^^^ n) * 256

/-- Widths of MC.GEOM: rank, DIMM, CID and row bits. -/
structure Geom where
  rank : Nat
  dimm : Nat
  cid : Nat
  row : Nat
deriving DecidableEq, Repr

def geomOf (w : Word) : Geom := ⟨fld w 1 1, fld w 0 0, fld w 3 2, fld w 8 4⟩
def State.geom (s : State) (n : Nat) : Geom := geomOf (s.rd (.mc n) Off.GEOM)

/-- R303's limits. -/
def geomOk (g : Geom) : Bool := decide (g.rank + g.cid + g.row ≤ 19)

/-- A place in the DRAM (R303, R345). -/
structure DCell where
  sc : Nat
  dimm : Nat
  rank : Nat
  cid : Nat
  bg : Nat
  ba : Nat
  row : Nat
  col : Nat
deriving DecidableEq, Repr

/-- R303. -/
def cellOf (g : Geom) (ca : Nat) : DCell :=
  let v := ca / 2 ^ 19
  let rank := v % 2 ^ g.rank
  let v := v / 2 ^ g.rank
  let dimm := v % 2 ^ g.dimm
  let v := v / 2 ^ g.dimm
  let cid := v % 2 ^ g.cid
  let row := v / 2 ^ g.cid
  ⟨ca / 64 % 2, dimm, rank, cid, (ca / 2 ^ 14 % 8) ^^^ (row % 8), (ca / 2 ^ 17 % 4) ^^^ (row / 8 % 4), row, ca / 128 % 128⟩

/-- The inverse of `cellOf` (R347). -/
def caOfCell (g : Geom) (c : DCell) : Nat :=
  let v := ((c.row * 2 ^ g.cid + c.cid) * 2 ^ g.dimm + c.dimm) * 2 ^ g.rank + c.rank
  v * 2 ^ 19 + (c.ba ^^^ (c.row / 8 % 4)) * 2 ^ 17 + (c.bg ^^^ (c.row % 8)) * 2 ^ 14 + c.col * 128 + c.sc * 64

/-- Rank position rk = DIMM·2 + rank. -/
def DCell.rk (c : DCell) : Nat := 2 * c.dimm + c.rank

/-- A bank, named by subchannel, rank, DIMM, CID, BG and BA. -/
def DCell.bank (c : DCell) : Nat := c.sc + 2 * (c.rk + 4 * (c.cid + 8 * (c.bg + 8 * c.ba)))
def bankSc (b : Nat) : Nat := b % 2
def bankRk (b : Nat) : Nat := b / 2 % 4
def bankBa (b : Nat) : Nat := b / 512 % 4

def cellAt (s : State) (n ln : Nat) : DCell := cellOf (s.geom n) (caOf (ln * 64))

/-- RANKPOS and BANK bytes of R345. -/
def DCell.rankpos (c : DCell) : Nat := c.sc + 2 * c.dimm + 4 * c.rank + 8 * c.cid
def DCell.bankByte (c : DCell) : Nat := c.bg + 8 * c.ba

/-! ## A controller -/

def State.mcs' (s : State) (n : Nat) : McSt := smGet (fun _ => ({} : McSt)) s.mcs n
def State.setMc (s : State) (n : Nat) (m : McSt) : State := { s with mcs := smSet (fun _ => ({} : McSt)) s.mcs n m }
def State.modMc (s : State) (n : Nat) (f : McSt → McSt) : State := s.setMc n (f (s.mcs' n))

/-- STATUS.STATE: 0 OFF, 1 INIT, 2 ACTIVE, 3 SELF_REFRESH, 4 RETUNE, 5 DEN, 6 SAFE. -/
def mcState (s : State) (n : Nat) : Nat := s.rf (.mc n) Off.MC_STATUS 2 0
def setMcState (n v : Nat) (s : State) : State := s.wf (.mc n) Off.MC_STATUS 2 0 v
def mcPhase (s : State) (n : Nat) : Nat := s.rf (.mc n) Off.MC_STATUS 6 4
def setMcPhase (n v : Nat) (s : State) : State := s.wf (.mc n) Off.MC_STATUS 6 4 v
def mcSet (s : State) (n : Nat) : Nat := s.rf (.mc n) Off.MC_STATUS 3 3

/-- RATE of a timing set (R327). -/
def setRate (s : State) (n set : Nat) : Nat := s.rf (.mc n) (Off.TIMING_A + 0x40 * set) 3 0
def mcRate (s : State) (n : Nat) : Nat := setRate s n (mcSet s n)

/-- Memory-island cycles in one tick: data rate / 4 in units of 100 MHz (R302). -/
def mcPerTick (s : State) (n : Nat) : Nat := 7 + mcRate s n

/-- Occupancies and the refresh debt in STATUS. -/
def mcOcc (n : Nat) (s : State) : State :=
  let m := s.mcs' n
  let r := fun (k : Nat) => (m.rq.filter (fun e => e.line % 2 == k)).length
  let w := fun (k : Nat) => (m.wq.filter (fun l => l % 2 == k)).length
  let s := (s.wf (.mc n) Off.MC_STATUS 15 8 (r 0)).wf (.mc n) Off.MC_STATUS 23 16 (r 1)
  let s := (s.wf (.mc n) Off.MC_STATUS 30 24 (w 0)).wf (.mc n) Off.MC_STATUS 38 32 (w 1)
  s.wf (.mc n) Off.MC_STATUS 51 48 (m.debt.foldl (fun a e => max a e.2) 0)

/-- Sources 128 + 4n + k follow IRQ_STATUS and IRQ_EN (R334). -/
def mcIrqs (n : Nat) (s : State) : State :=
  (List.range 4).foldl (fun s k =>
    driveLevel (128 + 4 * n + k) (s.rf (.mc n) Off.MC_IRQ_STATUS k k == 1 && s.rf (.mc n) Off.MC_IRQ_EN k k == 1) s) s

/-- Set a cause of IRQ_STATUS: 0 RETUNE_END, 1 SCRUB_END, 2 ALERT, 3 TRAIN_END. -/
def mcCause (n k : Nat) (s : State) : State := mcIrqs n (s.wf (.mc n) Off.MC_IRQ_STATUS k k 1)

/-! ## Requests (R304 to R306) -/

/-- A request takes the ejection queue in order: none older to the same stop is still on the mesh. -/
def headOfStop (s : State) (op : Nat) (m : Msg) : Bool :=
  !inTransit s op m &&
  match s.fab.net.find? (fun e => (e.1 == 0x20 || e.1 == 0x21) && e.2.agent == m.agent) with
  | some e => e == (op, m)
  | none => true

/-- Line data for a home. -/
def sendMData (b : Blk) (ln q : Nat) (d : Line) (po : Bool) (s : State) : State :=
  let s := if (match b with | .mc _ => true | _ => false) then bwAdd b (2 * q) 64 s else s
  post 0xC8 { agent := b.stop, line := ln, qport := q, data := d, poison := po } s

/-- The controller notes a request: self-refresh ends (R317). -/
def mcArrive (n : Nat) (s : State) : State :=
  let s := s.modMc n (fun m => { m with lastReq := s.tick })
  if mcState s n = 3 then setMcState n 2 s else s

/-- The controller takes flits in this state. -/
def mcTakes (s : State) (n : Nat) : Bool := s.pwr.memOn && [2, 3, 4].contains (mcState s n)

/-- Data of a line queued for writing, read through the queue's checker. -/
def queuedLine (n ln : Nat) (s : State) : (Line × Bool) × State :=
  let st := mcStops.getD n 0
  let (r, s) := eccRead st 4 19 ln s
  match r with
  | .clean => ((memLine s ln, s.poison.contains ln), s)
  | .corrected => ((memLine s ln, s.poison.contains ln), report ((Blk.mc n).inst) 13 0 19 ln 0 0x1FF 0 s)
  | r =>
    let (d, po) := eccData r (memLine s ln) (s.poison.contains ln)
    let s := setMemLine ln d po s
    ((d, po), if r = .uncorr then report ((Blk.mc n).inst) 13 1 19 ln 0 0x1FF 0 s
      else report ((Blk.mc n).inst) 13 0 19 ln 0 0x1FF 0 s)

/-- Target of a read of port `q` that arrives now, in cycles (R309). -/
def targetCycles (s : State) (n q : Nat) : Nat :=
  (s.rf (.mc n) (Off.QOS_TARGET + 8 * q) 15 0 * mcPerTick s n + 9) / 10

/-- MRD at a controller. -/
def mcRead (n : Nat) (m : Msg) (s : State) : State :=
  let x := s.mcs' n
  if !mcTakes s n then s
  else if x.wq.contains m.line then
    let s := mcArrive n (takeNet 0x20 m s)
    let ((d, po), s) := queuedLine n m.line s
    sendMData (.mc n) m.line m.qport d po s
  else if 128 ≤ (x.rq.filter (fun e => e.line % 2 == m.line % 2)).length then s
  else
    let s := mcArrive n (takeNet 0x20 m s)
    mcOcc n (s.modMc n (fun x => { x with rq := x.rq ++ [(⟨m.line, m.qport, s.tick, targetCycles s n m.qport⟩ : MRead)] }))

/-- A subchannel's write queue has room for a line, or holds it. -/
def wqRoom (x : McSt) (ln : Nat) : Bool := x.wq.contains ln || decide ((x.wq.filter (fun l => l % 2 == ln % 2)).length < 64)

/-- A line enters the write queue: it is performed for every later read (R305). -/
def wqPut (n ln : Nat) (d : Line) (po : Bool) (s : State) : State :=
  let st := mcStops.getD n 0
  let s := setMemLine ln d po (eccWrite st 4 19 ln (eccWrite st 4 1 ln s))
  let s := s.modMc n (fun x => { x with wq := if x.wq.contains ln then x.wq else x.wq ++ [ln] })
  let sc := ln % 2
  let hi := s.rf (.mc n) Off.SCHED 19 14
  let s := if hi ≤ ((s.mcs' n).wq.filter (fun l => l % 2 == sc)).length then
      s.modMc n (fun x => { x with drain := insNat sc x.drain }) else s
  mcOcc n s

/-- MWR at a controller. A head flit that is a write it cannot take starts a write drain (R308). -/
def mcWrite (n : Nat) (m : Msg) (s : State) : State :=
  if !mcTakes s n then s
  else if !wqRoom (s.mcs' n) m.line then s.modMc n (fun x => { x with drain := insNat (m.line % 2) x.drain })
  else
    let s := wqPut n m.line m.data m.poison (mcArrive n (takeNet 0x21 m s))
    let s := bwAdd (.mc n) (2 * m.qport + 1) 64 s
    if m.arg % 2 = 1 then post 0x88 { agent := m.agent, line := m.line } s else s

/-! ## The device code (R336 to R338) -/

/-- What the decoder makes of a burst. -/
inductive DRes
  | clean
  /-- device, and whether as an erasure -/
  | corr (dev : Nat) (erased : Bool)
  | uncorr
  /-- errors beyond the code's guarantee that it takes for a corrected, or a clean, burst: the data are free -/
  | wrong (reported : Bool) (d : Line)
deriving DecidableEq, Repr

/-- A free line. -/
def freshLine (s : State) : Line × State :=
  (List.range 8).foldl (fun (a : Line × State) i =>
    let (w, s) := a.2.fresh
    (a.1 ||| (BitVec.ofNat 512 w <<< (64 * i)), s)) (0, s)

/-- Decode a burst in which the devices `bad` returned wrong bits. -/
def decodeBurst (n ln : Nat) (bad : List Nat) (s : State) : DRes × State :=
  let c := cellAt s n ln
  let inst := mcStops.getD n 0 + 4 * 256
  let flip := s.flips.any (fun f => f.inst == inst && f.checker == 1 && f.key == ln)
  let devs := ((if flip then 8 :: bad else bad).filter (fun d => decide (d < 10))).eraseDups
  let e := s.rf (.mc n) (Off.ERASE + 8 * c.rk) (4 * c.sc + 3) (4 * c.sc)
  let po := s.poison.contains ln
  let beyond := fun (k : Nat) (s : State) =>
    let (w, s) := s.fresh
    if w % 2 = 0 then (DRes.uncorr, s)
    else
      let (d, s) := freshLine s
      (DRes.wrong (w / 2 % 2 == 0 || decide (k ≤ 2)) d, s)
  if e < 10 then
    (match devs.filter (· != e) with
      | [] => (if devs.contains e then .corr e true else .clean, s)
      | [_] => (.uncorr, s)
      | l => beyond l.length s)
  else match devs with
    | [] => (.clean, s)
    | [d] => (if po then .uncorr else .corr d false, s)
    | l => beyond l.length s

/-- A decoded read: its data and poison, with its report and write-back (R335, R342). `how`: 0 demand, 1 scrub. -/
def readBurst (n ln : Nat) (bad : List Nat) (how : Nat) (s : State) : DRes × (Line × Bool) × State :=
  let (r, s) := decodeBurst n ln bad s
  let inst := (Blk.mc n).inst
  let d := memLine s ln
  let po := s.poison.contains ln
  match r with
  | .clean => (r, (d, po), s)
  | .corr dev er =>
    let (w, s) := s.fresh
    let room := wqRoom (s.mcs' n) ln
    let s := unc (.mc n) 15 1 (reportHow ((if er then 2 else how) + (if room then 0 else 4)) inst 14 0 1 ln dev 0x1FF (w % 2 ^ 32) s)
    let s := if room then wqPut n ln d po s else s
    (r, (d, po), s)
  | .uncorr =>
    let (w, s) := s.fresh
    (r, (d, true), reportHow how inst 14 1 1 ln 0xFF 0x1FF (w % 2 ^ 32) s)
  | .wrong rep x =>
    let room := wqRoom (s.mcs' n) ln
    let s := if rep then unc (.mc n) 15 1 (reportHow (how + (if room then 0 else 4)) inst 14 0 1 ln 0xFF 0x1FF 0 s) else s
    (r, (x, false), if rep ∧ room then wqPut n ln x false s else s)

/-! ## Urgency (R309) -/

def qosTen (s : State) (n q : Nat) : Bool := s.rf (.mc n) (Off.QOS_TARGET + 8 * q) 16 16 == 1

/-- Ages in cycles at which the urgency rises. -/
def urgencyEdges (t : Nat) : List Nat := [t / 2, 3 * t / 4, t]

def urgency (s : State) (n : Nat) (r : MRead) : Nat :=
  let age := (s.tick - r.tick) * mcPerTick s n
  ((urgencyEdges r.tc).filter (fun e => decide (e ≤ age))).length

/-- URGENCY_RISE: a queued read crosses its next window boundary. -/
def urgencyRise (n ln : Nat) (s : State) : State :=
  match (s.mcs' n).rq.find? (fun r => r.line == ln) with
  | none => s
  | some r =>
    let age := (s.tick - r.tick) * mcPerTick s n
    match (urgencyEdges r.tc).find? (fun e => decide (age < e)) with
    | none => s
    | some e =>
      let s := s.toTick (r.tick + (e + mcPerTick s n - 1) / mcPerTick s n)
      if urgency s n r = 3 then unc (.mc n) 10 1 s else s

/-- URGENCY_RISE (R309). -/
def execUrgencyRise (mc line : Nat) (s : State) : Res := finish s (urgencyRise mc line s)

/-! ## The scheduler (R308 to R314, R316 to R318) -/

/-- One DRAM command. -/
inductive DCmd
  /-- REFab, or REFsb of bank `ba` of each group -/
  | refresh (rk : Nat) (ba : Option Nat)
  /-- RFMab, or RFMsb -/
  | rfm (rk : Nat) (ba : Option Nat)
  | zq (rk : Nat)
  | pre (bank : Nat)
  | act (bank row : Nat) (ten : Bool)
  | read (r : MRead)
  | write (ln : Nat)
  | scrub
deriving DecidableEq, Repr

/-- Key of a rank of a subchannel in `debt`, `ahead` and `zq`. -/
def rankKey (sc rk : Nat) : Nat := 4 * sc + rk

/-- Ranks of a channel. -/
def ranksOf (g : Geom) : List Nat := (List.range 4).filter (fun r => decide (r / 2 < 2 ^ g.dimm) && decide (r % 2 < 2 ^ g.rank))

/-- Refreshes that may be postponed (R316), and the refresh interval in ticks. -/
def refLimit (s : State) (n : Nat) : Nat := if s.rf (.mc n) Off.MC_CTL 1 1 = 1 then 8 else 4
def refTicks (s : State) (n : Nat) : Nat := if s.rf (.mc n) Off.MC_CTL 1 1 = 1 then 195 else 390

def openRow (x : McSt) (b : Nat) : Option Nat := let v := smGet (fun _ => 0) x.rows b; if v = 0 then none else some (v - 1)

/-- Lines queued for a subchannel. -/
def queuedLines (x : McSt) (sc : Nat) : List Nat := (x.rq.map (·.line) ++ x.wq).filter (fun l => l % 2 == sc)

/-- A queued request hits the bank's open row; one misses it. -/
def bankHits (s : State) (n : Nat) (x : McSt) (b row : Nat) : Bool :=
  (queuedLines x (bankSc b)).any (fun l => (cellAt s n l).bank == b && (cellAt s n l).row == row)
def bankMisses (s : State) (n : Nat) (x : McSt) (b row : Nat) : Bool :=
  (queuedLines x (bankSc b)).any (fun l => (cellAt s n l).bank == b && (cellAt s n l).row != row)

def rankAtLimit (s : State) (n : Nat) (x : McSt) (sc rk : Nat) : Bool :=
  decide (refLimit s n ≤ smGet (fun _ => 0) x.debt (rankKey sc rk)) || decide (2 ≤ smGet (fun _ => 0) x.zq (rankKey sc rk))

/-- TEN activates of a bank in the current refresh window. -/
def tenActs (s : State) (n : Nat) (x : McSt) (b : Nat) : Nat :=
  if smGet (fun _ => 0) x.tenWin b = s.tick / refTicks s n then smGet (fun _ => 0) x.tens b else 0

def rfmOn (s : State) (n : Nat) : Bool := s.rf (.mc n) Off.SCHED 26 26 == 1
def raaOf (x : McSt) (b : Nat) : Nat := smGet (fun _ => 0) x.raa b
def raaMax (s : State) (n : Nat) : Nat := s.rf (.mc n) Off.SCHED 42 35
def raaInit (s : State) (n : Nat) : Nat := s.rf (.mc n) Off.SCHED 34 27

/-- The command that serves a request now, or none (R311, R312, R314): `busy` are banks whose timing allows nothing. -/
def cmdFor (s : State) (n : Nat) (x : McSt) (busy : List Nat) (ln : Nat) (ten : Bool) (col : DCmd) (urg3 : Bool) : Option DCmd :=
  let c := cellAt s n ln
  let b := c.bank
  if busy.contains b then none
  else match openRow x b with
    | some r =>
      let capped := decide (s.rf (.mc n) Off.SCHED 12 8 ≤ smGet (fun _ => 0) x.hits b) && bankMisses s n x b r
      if r = c.row then (if capped then none else some col)
      else if capped ∨ !bankHits s n x b r then some (.pre b) else none
    | none =>
      if rankAtLimit s n x c.sc c.rk ∨ (rfmOn s n ∧ raaMax s n ≤ raaOf x b) then none
      else if ten ∧ !urg3 ∧ s.rf (.mc n) Off.SCHED 7 0 ≤ tenActs s n x b then none
      else some (.act b c.row ten)

/-- Order of a read among the candidates (R310, steps 3 to 6): the lowest key goes first. -/
def readKey (s : State) (n : Nat) (x : McSt) (sc : Nat) (r : MRead) (i : Nat) : Nat :=
  let c := cellAt s n r.line
  let ten := qosTen s n r.qport
  let second := if ten then (c.bank + 4096 - smGet (fun _ => 0) x.bankPtr sc) % 4096 else b2n (openRow x c.bank != some c.row)
  (3 - urgency s n r) * 2 ^ 40 + b2n ten * 2 ^ 39 + second * 2 ^ 20 + i

/-- Lowest key. -/
def lowest {α : Type} (l : List (Nat × α)) : Option α :=
  (l.foldl (fun (b : Option (Nat × α)) e => match b with
    | none => some e
    | some x => if e.1 < x.1 then some e else some x) none).map (·.2)

/-- Choose among the queued reads. -/
def pickRead (s : State) (n sc : Nat) (x : McSt) (busy : List Nat) (only3 : Bool) : Option DCmd :=
  lowest ((x.rq.zipIdx).filterMap (fun (e : MRead × Nat) =>
    let r := e.1
    if r.line % 2 ≠ sc ∨ (only3 ∧ urgency s n r ≠ 3) then none
    else (cmdFor s n x busy r.line (qosTen s n r.qport) (.read r) (urgency s n r == 3)).map (fun c => (readKey s n x sc r e.2, c))))

/-- Choose among the queued writes: oldest first within a bank, row hits first across banks (R308). -/
def pickWrite (s : State) (n sc : Nat) (x : McSt) (busy : List Nat) : Option DCmd :=
  let l := (x.wq.filter (fun l => l % 2 == sc)).zipIdx
  lowest (l.filterMap (fun (e : Nat × Nat) =>
    let c := cellAt s n e.1
    if (l.take e.2).any (fun y => (cellAt s n y.1).bank == c.bank) then none
    else (cmdFor s n x busy e.1 false (.write e.1) true).map (fun k => (b2n (openRow x c.bank != some c.row) * 2 ^ 20 + e.2, k))))

/-- REFsb is in use (R316). -/
def refSb (s : State) (n : Nat) : Bool := s.rf (.mc n) Off.MC_CTL 1 1 == 1 && s.rf (.mc n) Off.MC_CTL 2 2 == 1

/-- The banks that a command to a rank reaches: all of them, or bank `ba` of each group. -/
def reaches (sc rk : Nat) (ba : Option Nat) (b : Nat) : Bool :=
  bankSc b == sc && bankRk b == rk && (match ba with | some k => bankBa b == k | none => true)

/-- A command to a rank needs the banks that it reaches precharged. -/
def rankCmd (x : McSt) (sc rk : Nat) (ba : Option Nat) (busy : List Nat) (c : DCmd) : Option DCmd :=
  match x.rows.find? (fun e => reaches sc rk ba e.1) with
  | some e => if busy.contains e.1 then none else some (.pre e.1)
  | none => some c

/-- The next refresh of a rank: REFab, or REFsb bank by bank (R316). -/
def refCmd (s : State) (n : Nat) (x : McSt) (sc rk : Nat) (busy : List Nat) : Option DCmd :=
  let ba := if refSb s n then some (smGet (fun _ => 0) x.refBa (rankKey sc rk)) else none
  rankCmd x sc rk ba busy (.refresh rk ba)

/-- A rank no request is queued for. -/
def rankIdle (s : State) (n : Nat) (x : McSt) (sc rk : Nat) : Bool :=
  !((queuedLines x sc).any (fun l => (cellAt s n l).rk == rk))

/-- The RFM that a bank whose count has reached `lim` asks for: RFMab, or RFMsb with REFsb in use (R314). -/
def rfmCmd (s : State) (n sc lim : Nat) (x : McSt) (busy : List Nat) : Option DCmd :=
  x.raa.findSome? (fun e =>
    if bankSc e.1 == sc && decide (lim ≤ e.2) then
      let ba := if refSb s n then some (bankBa e.1) else none
      rankCmd x sc (bankRk e.1) ba busy (.rfm (bankRk e.1) ba)
    else none)

/-- The next scrub read is the subchannel's, and whether its guarantee has fallen due (R318). -/
def scrubHere (x : McSt) (sc : Nat) : Bool := match x.scrub with | some b => decide (0 < b.left) && b.ca / 64 % 2 == sc | none => false
def scrubDue (s : State) (x : McSt) (sc : Nat) : Bool :=
  scrubHere x sc && (match x.scrub with
    | some b => decide (64 ≤ smGet (fun _ => 0) b.demand sc) || decide (b.since + 10 * us ≤ s.tick)
    | none => false)

/-- The command that R310's order chooses. -/
def chooseCmd (s : State) (n sc : Nat) (busy : List Nat) : Option DCmd :=
  let x := s.mcs' n
  let rks := ranksOf (s.geom n)
  let k := fun (m : SMap Nat) (rk : Nat) => smGet (fun _ => 0) m (rankKey sc rk)
  let drain := x.drain.contains sc
  let first := rks.findSome? (fun rk =>
    if refLimit s n ≤ k x.debt rk then refCmd s n x sc rk busy
    else if 2 ≤ k x.zq rk then rankCmd x sc rk none busy (.zq rk) else none)
  match first with
  | some c => some c
  | none =>
  match (if rfmOn s n then rfmCmd s n sc (raaMax s n) x busy else none) with
  | some c => some c
  | none =>
  if scrubDue s x sc then some .scrub else
  let dem := if drain then
      (match pickRead s n sc x busy true with | some c => some c | none => pickWrite s n sc x busy)
    else pickRead s n sc x busy false
  match dem with
  | some c => some c
  | none =>
  -- background commands; a write drain leaves out scrub reads and ZQ calibration (R308)
  if scrubHere x sc ∧ !drain then some .scrub else
  match rks.findSome? (fun rk => if 0 < k x.debt rk ∧ rankIdle s n x sc rk then refCmd s n x sc rk busy else none) with
  | some c => some c
  | none =>
  match (if rfmOn s n then rfmCmd s n sc (max 1 (raaInit s n)) x busy else none) with
  | some c => some c
  | none =>
  match (if drain then none else rks.findSome? (fun rk => if 0 < k x.zq rk then rankCmd x sc rk none busy (.zq rk) else none)) with
  | some c => some c
  | none =>
  match x.rows.find? (fun e => bankSc e.1 == sc && !busy.contains e.1 && !bankHits s n x e.1 (e.2 - 1)) with
  | some e => some (.pre e.1)
  | none =>
  -- an idle rank pulls its next refresh in (R316)
  rks.findSome? (fun rk => if k x.ahead rk < refLimit s n ∧ rankIdle s n x sc rk then refCmd s n x sc rk busy else none)

/-- Less activate pressure after a refresh or an RFM: RAAIMT activates of the bank (PRESUMED, log entry 42). -/
def raaLess (n : Nat) (p : Nat → Bool) (s : State) : State :=
  let k := raaInit s n
  s.modMc n (fun x => { x with raa := (x.raa.map (fun e => if p e.1 then (e.1, e.2 - k) else e)).filter (fun e => e.2 != 0) })

/-- A column command: consecutive hits are counted while a miss waits. -/
def countHit (n : Nat) (c : DCell) (s : State) : State :=
  let s := unc (.mc n) 3 1 s
  if bankMisses s n (s.mcs' n) c.bank c.row then
    s.modMc n (fun x => { x with hits := smPut x.hits c.bank (smGet (fun _ => 0) x.hits c.bank + 1) })
  else s

/-- A scrub read of the next line (R343). -/
def scrubRead (n sc : Nat) (bad : List Nat) (s : State) : State :=
  match (s.mcs' n).scrub with
  | none => s
  | some b =>
    let ln := paOfCa n b.ca / 64
    let room := wqRoom (s.mcs' n) ln
    let s := unc (.mc n) 12 1 s
    let queued := (s.mcs' n).wq.contains ln
    let po := s.poison.contains ln
    let (r, _, s) := if queued then (DRes.clean, (0, false), s) else readBurst n ln bad 1 s
    let corr : Bool := match r with | .corr _ _ => true | .wrong true _ => true | _ => false
    let ue : Bool := !queued && (r == .uncorr || (po && r == .clean))
    let fail := corr || ue
    let s := if !queued ∧ po ∧ r = .clean then reportHow 1 ((Blk.mc n).inst) 14 1 1 ln 0xFF 0x1FF 0xA55A s else s
    s.modMc n (fun x => { x with lastReq := s.tick, scrub := some { b with
      ca := b.ca + 64
      left := b.left - 1
      read := b.read + 1
      ce := b.ce + b2n corr
      ue := b.ue + b2n ue
      poisoned := b.poisoned + b2n (!queued && po)
      dropped := b.dropped + b2n (corr && !room)
      first := if fail then some (match b.first with | some f => min f b.ca | none => b.ca) else b.first
      last := if fail then some (match b.last with | some f => max f b.ca | none => b.ca) else b.last
      demand := smDel b.demand sc
      since := s.tick } })

/-- A refresh pays one owed by the rank, or counts as pulled in. With REFsb the round over the four banks of a group does. -/
def paidRefresh (n k : Nat) (ba : Option Nat) (s : State) : State :=
  let s := match ba with
    | some b => s.modMc n (fun x => { x with refBa := smSet (fun _ => 0) x.refBa k ((b + 1) % 4) })
    | none => s
  if ba.any (· != 3) then s else
  s.modMc n (fun x => if 0 < smGet (fun _ => 0) x.debt k then { x with debt := smSet (fun _ => 0) x.debt k (smGet (fun _ => 0) x.debt k - 1) }
    else { x with ahead := smPut x.ahead k (smGet (fun _ => 0) x.ahead k + 1) })

/-- Carry one command out. -/
def runCmd (n sc : Nat) (bad : List Nat) (c : DCmd) (s : State) : State :=
  let x := s.mcs' n
  match c with
  | .refresh rk ba =>
    paidRefresh n (rankKey sc rk) ba (raaLess n (reaches sc rk ba) (unc (.mc n) 6 1 s))
  | .rfm rk ba => raaLess n (reaches sc rk ba) (unc (.mc n) 7 1 s)
  | .zq rk => s.modMc n (fun x => { x with zq := smSet (fun _ => 0) x.zq (rankKey sc rk) (smGet (fun _ => 0) x.zq (rankKey sc rk) - 1) })
  | .pre b =>
    let conflict := (match openRow x b with | some r => bankMisses s n x b r | none => false)
    let s := if conflict then unc (.mc n) 5 1 s else s
    s.modMc n (fun x => { x with rows := smDel x.rows b, hits := smDel x.hits b })
  | .act b row ten =>
    let acts := tenActs s n x b
    let s := unc (.mc n) 4 1 s
    s.modMc n (fun x => { x with
      rows := smPut x.rows b (row + 1)
      hits := smDel x.hits b
      raa := smPut x.raa b (raaOf x b + 1)
      tens := if ten then smPut x.tens b (acts + 1) else x.tens
      tenWin := if ten then smPut x.tenWin b (s.tick / refTicks s n) else x.tenWin })
  | .read r =>
    let c := cellAt s n r.line
    let ten := qosTen s n r.qport
    let s := countHit n c (unc (.mc n) 1 1 s)
    let s := s.modMc n (fun x => { x with
      rq := x.rq.erase r
      lastReq := s.tick
      bankPtr := if ten then smPut x.bankPtr sc ((c.bank + 1) % 4096) else x.bankPtr
      scrub := x.scrub.map (fun b => { b with demand := smPut b.demand sc (smGet (fun _ => 0) b.demand sc + 1) }) })
    let (_, (d, po), s) := readBurst n r.line bad 0 s
    sendMData (.mc n) r.line r.qport d po s
  | .write ln =>
    let s := countHit n (cellAt s n ln) (unc (.mc n) 2 1 s)
    let (_, s) := queuedLine n ln s
    let s := s.modMc n (fun x => { x with wq := x.wq.erase ln, lastReq := s.tick })
    if ((s.mcs' n).wq.filter (fun l => l % 2 == sc)).length ≤ s.rf (.mc n) Off.SCHED 25 20 then
      s.modMc n (fun x => { x with drain := x.drain.filter (· != sc) }) else s
  | .scrub => scrubRead n sc bad s

/-- DRAM_COMMAND_ISSUE: subchannel `sc` issues one command. `busy`: banks whose timing allows nothing now; `bad`:
devices that return wrong bits, if the command reads. -/
def dramIssue (n sc : Nat) (busy bad : List Nat) (s : State) : State :=
  if 16 ≤ n ∨ 2 ≤ sc ∨ mcState s n ≠ 2 ∨ !s.pwr.memOn then s else
  match chooseCmd s n sc busy with
  | none => s
  | some c => mcOcc n (runCmd n sc bad c s)

/-- DRAM_COMMAND_ISSUE (R310). -/
def execDramCommandIssue (mc sc : Nat) (busy bad : List Nat) (s : State) : Res := finish s (dramIssue mc sc busy bad s)

/-- REFRESH_DUE (R316): the rank owes one more refresh in each subchannel, less one pulled in. -/
def refreshDue (n rk : Nat) (s : State) : State :=
  if 16 ≤ n ∨ mcState s n ≠ 2 ∨ !((ranksOf (s.geom n)).contains rk) then s else
  let lim := refLimit s n
  mcOcc n (s.modMc n (fun x => (List.range 2).foldl (fun (x : McSt) sc =>
    let k := rankKey sc rk
    if 0 < smGet (fun _ => 0) x.ahead k then { x with ahead := smSet (fun _ => 0) x.ahead k (smGet (fun _ => 0) x.ahead k - 1) }
    else { x with debt := smPut x.debt k (min lim (smGet (fun _ => 0) x.debt k + 1)) }) x))

/-- REFRESH_DUE. -/
def execRefreshDue (mc rk : Nat) (s : State) : Res := finish s (refreshDue mc rk s)

/-- ZQ_CAL_DUE (R316): at the second one owed it wins as a refresh does. -/
def execZqCalDue (mc rk : Nat) (s : State) : Res :=
  finish s (if 16 ≤ mc ∨ mcState s mc ≠ 2 ∨ !((ranksOf (s.geom mc)).contains rk) then s else
    s.modMc mc (fun x => (List.range 2).foldl (fun (x : McSt) sc =>
      { x with zq := smPut x.zq (rankKey sc rk) (min 2 (smGet (fun _ => 0) x.zq (rankKey sc rk) + 1)) }) x))

/-- SELF_REFRESH_ENTRY (R317). -/
def selfRefresh (n : Nat) (s : State) : State :=
  let x := s.mcs' n
  if 16 ≤ n ∨ mcState s n ≠ 2 ∨ s.rf (.mc n) Off.MC_CTL 3 3 = 0 ∨ !x.rq.isEmpty ∨ !x.wq.isEmpty ∨ x.scrub.isSome then s else
  let s := s.toTick (x.lastReq + s.rf (.mc n) Off.MC_CTL 17 4 * us)
  setMcState n 3 (mcOcc n (s.modMc n (fun x => { x with rows := [], hits := [], debt := [], ahead := [] })))

/-- SELF_REFRESH_ENTRY. -/
def execSelfRefreshEntry (mc : Nat) (s : State) : Res := finish s (selfRefresh mc s)

/-- The window that an ALERT_n falls in: its start, and the count with this one. -/
def alertCount (x : McSt) (now : Nat) : Nat × Nat :=
  if x.alertN = 0 ∨ x.alertFrom + ms ≤ now then (now, 1) else (x.alertFrom, x.alertN + 1)

/-- ALERT_N (R319): four within 1 ms of the first raise the Owl event. The commands reissued leave nothing to see. -/
def alertN (n : Nat) (s : State) : State :=
  if 16 ≤ n ∨ !([2, 3, 4].contains (mcState s n)) then s else
  let s := mcCause n 2 (s.incSat (.mc n) Off.MC_STATUS 47 40)
  let w := alertCount (s.mcs' n) s.tick
  let s := s.modMc n (fun x => { x with rows := [], hits := [], alertFrom := w.1, alertN := w.2 })
  if w.2 = 4 then
    emit [0, 1] 0x0381 0 0 (leBytes 1 n ++ leBytes 1 (s.rf (.mc n) Off.MC_STATUS 47 40))
      (report ((Blk.mc n).inst) 13 1 24 0 n 0x1FF 0 s)
  else s

/-- ALERT_N. -/
def execAlertN (mc : Nat) (s : State) : Res := finish s (alertN mc s)

/-! ## RETUNE (R320, R321) -/

/-- The two sets differ in data rate. -/
def ratesDiffer (s : State) (n : Nat) : Bool := setRate s n 0 != setRate s n 1

/-- Some channel is in a RETUNE phase. -/
def anyRetune (s : State) : Bool := (List.range 16).any (fun k => mcPhase s k != 0)

/-- A GO is refused. -/
def retuneRefused (s : State) (n trainUs : Nat) : Bool :=
  anyRetune s || setRate s n (1 - mcSet s n) == 0 || (decide (0 < trainUs) && ratesDiffer s n) ||
    s.rf (.mc n) Off.GEOM 8 4 == 0 || s.rf (.mc n) Off.MC_CTL 0 0 == 0

/-- GO: the hold starts, or REFUSED is set. -/
def retuneGo (n : Nat) (s : State) : State :=
  if retuneRefused s n (s.rf (.mc n) Off.RETUNE 5 2) then
    mcCause n 0 ((s.wf (.mc n) Off.RETUNE 0 0 0).wf (.mc n) Off.RETUNE 6 6 1)
  else
    let s := (s.wf (.mc n) Off.RETUNE 0 0 1).wf (.mc n) Off.RETUNE 7 6 0
    let s := s.modMc n (fun x => { x with oldRate := mcRate s n, fellBack := false })
    denUpset (setMode 7 true (setMcPhase n 1 (setMcState n 4 s)))

/-- The Sett starts a RETUNE of its own. -/
def settRetune (n : Nat) (switch : Bool) (trainUs : Nat) (s : State) : State :=
  retuneGo n ((s.wf (.mc n) Off.RETUNE 1 1 (b2n switch)).wf (.mc n) Off.RETUNE 5 2 trainUs)

/-- A write of MC.RETUNE: ignored while GO reads 1 (R330). -/
def retuneWrite (n : Nat) (v : Word) (s : State) : State :=
  if s.rf (.mc n) Off.RETUNE 0 0 = 1 then s
  else
    let w := setFld (merged s true (.mc n) Off.RETUNE v) 0 0 0
    let s := s.wr (.mc n) Off.RETUNE w
    if bitOf v 0 then retuneGo n s else s

/-- A phase applies. -/
def phaseApplies (s : State) (n p : Nat) : Bool :=
  let sw := s.rf (.mc n) Off.RETUNE 1 1 == 1
  match p with
  | 2 => ratesDiffer s n
  | 3 => sw
  | 4 => ratesDiffer s n
  | 5 => sw
  | 6 => s.rf (.mc n) Off.RETUNE 5 2 != 0
  | _ => true

/-- The memory island follows the rate in force (R302). -/
def mcFreq (n : Nat) (s : State) : State :=
  let f := mcPerTick s n
  (s.wf (.isl (mcStops.getD n 0)) Off.ISL_FREQ 13 8 f).wf (.isl (mcStops.getD n 0)) Off.ISL_FREQ 5 0 f

/-- RETUNE_PHASE_END: the phase's own effect, and the next phase that applies. -/
def phaseEnd (n : Nat) (s : State) : State :=
  let p := mcPhase s n
  if 16 ≤ n ∨ p = 0 ∨ p = 7 then s else
  let s := if p = 1 then s.modMc n (fun x => { x with rows := [], hits := [] })
    else if p = 2 then mcOcc n (s.modMc n (fun x => { x with debt := [], ahead := [] }))
    else if p = 3 then mcFreq n (s.wf (.mc n) Off.MC_STATUS 3 3 (1 - mcSet s n))
    else s
  match ((List.range 7).map (· + 1)).find? (fun q => decide (p < q) && phaseApplies s n q) with
  | some q => setMcPhase n q s
  | none => s

/-- RETUNE_PHASE_END (R320). -/
def execRetunePhaseEnd (mc : Nat) (s : State) : Res := finish s (phaseEnd mc s)

/-- RETUNE_LOCK_TIMEOUT (R321): back to the old set, from phase 4. -/
def execRetuneLockTimeout (mc : Nat) (s : State) : Res :=
  finish s (if 16 ≤ mc ∨ mcPhase s mc ≠ 3 ∨ !ratesDiffer s mc then s else
    let s := (s.modMc mc (fun x => { x with fellBack := true })).wf (.mc mc) Off.RETUNE 7 7 1
    setMcPhase mc 4 (report ((Blk.mc mc).inst) 13 1 24 0 mc 0x1FF 0 s))

/-- Offset of a timing-set register of set A in set `k`. -/
def setOff (o k : Nat) : Nat := if o < 0x2000 then o + 0x40 * k else o + 0x1000 * k

/-- The journalled training result of a channel at a rate. -/
def trainingOf (s : State) (n rate : Nat) : Option (List (Nat × Word) × Nat) :=
  (s.flash.jst.trainings.find? (fun t => t.1 == n && t.2.1 == rate)).map (·.2.2)

/-- Firmware loads the inactive set. -/
def loadSet (n : Nat) (regs : List (Nat × Word)) (s : State) : State :=
  let k := 1 - mcSet s n
  regs.foldl (fun s e => s.wr (.mc n) (setOff e.1 k) e.2) s

/-- Firmware copies the active set into the inactive one. -/
def copySet (n : Nat) (s : State) : State :=
  let a := mcSet s n
  let offs := (List.range 3).map (fun i => Off.TIMING_A + 8 * i) ++ (List.range 16).map (fun i => Off.MRIMG_A + 4 * i) ++
    (List.range 512).map (fun i => Off.DELAY_A + 4 * i)
  offs.foldl (fun s o => s.wr (.mc n) (setOff o (1 - a)) (s.rd (.mc n) (setOff o a))) s

/-- Start of a channel of MEM.RETUNE: a change of rate, or a retraining window. -/
def startChannel (n rate : Nat) (s : State) : State :=
  if rate = 0 then settRetune n false 12 ((copySet n s).modMc n (fun x => { x with job := .measure }))
  else match trainingOf s n rate with
    | some (regs, _) => settRetune n true 0 ((loadSet n regs s).modMc n (fun x => { x with job := .rate }))
    | none => s

/-- The lowest channel of a mask. -/
def lowBit (m : Nat) : Option Nat := (List.range 16).find? (fun k => m.testBit k)

/-- A channel of MEM.RETUNE is done: the next starts, or the command responds. -/
def retuneNext (n : Nat) (fell : Bool) (s : State) : State :=
  match runningCmd s 0x0304 with
  | none => s
  | some c =>
    match c.aux with
    | [todo, done, back, rate] =>
      if lowBit todo ≠ some n then s else
      let todo := todo - 2 ^ n
      let done := if fell then done else done + 2 ^ n
      let back := if fell then back + 2 ^ n else back
      (match lowBit todo with
        | some k => startChannel k rate (setPhase c.ord .running [todo, done, back, rate] s)
        | none => respond c (if back = 0 then stOk else 0x8000) (leBytes 2 done ++ leBytes 2 back) s)
    | _ => s

/-- RETUNE_END: phase 7 ends. -/
def retuneEnd (n : Nat) (s : State) : State :=
  if 16 ≤ n ∨ mcPhase s n ≠ 7 then s else
  let x := s.mcs' n
  let s := mcCause n 0 ((s.wf (.mc n) Off.RETUNE 0 0 0).incWrap (.mc n) Off.RETUNE 15 8)
  let s := setMcPhase n 0 (setMcState n 2 s)
  let s := if anyRetune s then s else setMode 7 false s
  let ev := fun (k : Nat) (s : State) => emit [0, 1] 0x0380 0 0 (leBytes 1 n ++ leBytes 1 (mcRate s n) ++ leBytes 1 k) s
  match x.job with
  | .measure => s.modMc n (fun x => { x with job := .ready (s.tick + ms) })
  | .final =>
    let s := s.wf (.mc n) Off.MC_TEMP 15 8 (s.rf (.mc n) Off.MC_TEMP 7 0)
    retuneNext n x.fellBack (ev 2 (s.modMc n (fun x => { x with job := .idle, trainedAt := s.tick })))
  | .rate => retuneNext n x.fellBack (ev (b2n x.fellBack) (s.modMc n (fun x => { x with job := .idle })))
  | _ => ev (b2n x.fellBack) s

/-- RETUNE_END (R321). -/
def execRetuneEnd (mc : Nat) (s : State) : Res := finish s (retuneEnd mc s)

/-- Retraining thresholds: TEMP_DELTA and INTERVAL (R332). -/
def retrainCfg (s : State) : Nat × Nat := s.flash.jst.retrain.getD (10, 86400)

/-- °C of a byte in two's complement. -/
def degrees (b : Nat) : Int := if 128 ≤ b then (b : Int) - 256 else b

/-- RETRAIN_DUE: the Sett opens a measuring window on a channel that drifted or whose interval has passed; or, with
the measured delays (`delays`: DELAY entry and value), the final window (R323). -/
def retrainDue (n : Nat) (delays : List (Nat × Nat)) (s : State) : State :=
  if 16 ≤ n ∨ anyRetune s ∨ s.leased (mcInst n) ∨ !s.serving ∨ s.modeFlag 9 then s else
  match (s.mcs' n).job with
  | .idle =>
    let (delta, iv) := retrainCfg s
    let now := degrees (s.rf (.mc n) Off.MC_TEMP 7 0)
    let was := degrees (s.rf (.mc n) Off.MC_TEMP 15 8)
    let drift := decide ((now - was).natAbs > delta)
    if mcState s n ≠ 2 ∧ mcState s n ≠ 3 then s
    else if drift then startChannel n 0 s
    else if iv = 0 ∨ s.tick < (s.mcs' n).trainedAt + iv * 1000 * ms then s
    else startChannel n 0 s
  | .ready due =>
    let s := s.toTick due
    let s := delays.foldl (fun s d => if d.1 < 512 then s.wr (.mc n) (setOff (Off.DELAY_A + 4 * d.1) (1 - mcSet s n)) (BitVec.ofNat 64 (d.2 % 2 ^ 31)) else s) s
    settRetune n true 0 (s.modMc n (fun x => { x with job := .final }))
  | _ => s

/-- RETRAIN_DUE. -/
def execRetrainDue (mc : Nat) (delays : List (Nat × Nat)) (s : State) : Res := finish s (retrainDue mc delays s)

/-! ## The training assist (R322, R329) -/

/-- The assist may run: in INIT, inside phase 6, and in DIAGNOSTIC on a held channel, one whose RETUNE holds its
requests. -/
def trainOk (s : State) (n : Nat) (w : Word) : Bool :=
  (mcState s n == 1 || mcPhase s n == 6 || (s.modeFlag 10 && mcPhase s n != 0)) && (!bitOf w 6 || !ratesDiffer s n)

/-- A write of TRAIN_CTL: ignored while GO reads 1. -/
def trainWrite (n : Nat) (v : Word) (s : State) : State :=
  if s.rf (.mc n) Off.TRAIN_CTL 7 7 = 1 then s
  else
    let w := setFld (merged s true (.mc n) Off.TRAIN_CTL v) 7 7 0
    let s := s.wr (.mc n) Off.TRAIN_CTL w
    if !bitOf v 7 then s
    else if trainOk s n w then (s.wf (.mc n) Off.TRAIN_CTL 7 7 1).wr (.mc n) Off.TRAIN_RESULT 0
    else mcCause n 3 (s.wf (.mc n) Off.TRAIN_RESULT 41 41 1)

/-- Bursts that an operation writes: lines of one row, wrapping. -/
def trainLines (s : State) (n : Nat) (w a : Word) : List Nat :=
  let g := s.geom n
  (List.range (fld w 15 8)).map (fun i =>
    paOfCa n (caOfCell g ⟨fld w 3 3, fld w 5 5, fld w 4 4, fld a 7 5, fld a 2 0, fld a 4 3, fld a 24 8, (fld a 31 25 + i) % 128⟩) / 64)

/-- TRAIN_DONE: the operation completes with its mismatch map, or MRR data. -/
def trainDone (n mismatch mrr : Nat) (s : State) : State :=
  if 16 ≤ n ∨ s.rf (.mc n) Off.TRAIN_CTL 7 7 = 0 then s else
  let w := s.rd (.mc n) Off.TRAIN_CTL
  let op := fld w 2 0
  let pat := (List.range 8).flatMap (fun i => leBytes 8 (s.rd (.mc n) (Off.TRAIN_PAT + 8 * i)).toNat)
  let s := if op = 0 then (trainLines s n w (s.rd (.mc n) Off.TRAIN_ADDR)).foldl (fun s ln => setMemLine ln (lineOfBytes pat) false s) s else s
  let r := (if op ≤ 1 then mismatch % 2 ^ 40 else 0) + 2 ^ 40 + (if op = 3 then mrr % 256 * 2 ^ 48 else 0)
  mcCause n 3 ((s.wr (.mc n) Off.TRAIN_RESULT (BitVec.ofNat 64 r)).wf (.mc n) Off.TRAIN_CTL 7 7 0)

/-- TRAIN_DONE (R329). -/
def execTrainDone (mc mismatch mrr : Nat) (s : State) : Res := finish s (trainDone mc mismatch mrr s)

/-! ## MEM commands (R331, R332) -/

def memChanInfo (c : Cmd) (s : State) : CmdRes :=
  let n := bytesAt c.body 0 0
  if 16 ≤ n then .fail stBadField s
  else .done stOk (leBytes 1 (mcState s n) ++ leBytes 1 (mcRate s n) ++ leBytes 1 (mcSet s n) ++ leBytes 1 (s.rf (.mc n) Off.MC_TEMP 7 0) ++
    leBytes 4 (s.rf (.mc n) Off.GEOM 31 0) ++ leBytes 8 (s.org.chanBytes.getD n 0) ++ leBytes 1 (s.rf (.mc n) Off.MC_TEMP 15 8)) s

/-- MEM_CHAN_INFO. -/
def execMemChanInfo (ch tag : Nat) (s : State) : Res := finish s (runBelet 0x0301 ch tag memChanInfo s)

/-- A lease holds some channel (R64). -/
def anyMcLeased (s : State) : Bool := (List.range 16).any (fun n => s.leased (mcInst n))

/-- Write one register of all 16 channels, in ascending order. -/
def allMcs (f : Nat → State → State) (s : State) : State := (List.range 16).foldl (fun s n => f n s) s

def memQosSet (c : Cmd) (s : State) : CmdRes :=
  let q := bytesAt c.body 0 0
  let ns := bytesAt c.body 3 2
  let k := bytesAt c.body 4 4
  if 64 ≤ q ∨ ns < 16 ∨ 1 < k then .fail stBadField s
  else if anyMcLeased s then .fail stLeaseHeld s
  else .done stOk [] (allMcs (fun n s => s.wr (.mc n) (Off.QOS_TARGET + 8 * q) (BitVec.ofNat 64 (ns + k * 65536))) s)

/-- MEM_QOS_SET. -/
def execMemQosSet (ch tag : Nat) (s : State) : Res := finish s (runBelet 0x0302 ch tag memQosSet s)

def memQosGet (c : Cmd) (s : State) : CmdRes :=
  let q := bytesAt c.body 0 0
  if 64 ≤ q then .fail stBadField s
  else
    let o := Off.QOS_TARGET + 8 * q
    let v := s.rd (.mc 0) o
    .done stOk (leBytes 2 (fld v 15 0) ++ leBytes 1 (fld v 16 16) ++ leBytes 1 (b2n ((List.range 16).all (fun n => s.rd (.mc n) o == v)))) s

/-- MEM_QOS_GET. -/
def execMemQosGet (ch tag : Nat) (s : State) : Res := finish s (runBelet 0x0303 ch tag memQosGet s)

def memRetune (c : Cmd) (s : State) : CmdRes :=
  let mask := bytesAt c.body 1 0
  let rate := bytesAt c.body 2 2
  let chs := (List.range 16).filter (fun k => mask.testBit k)
  if mask = 0 ∨ 9 < rate ∨ (rate ≠ 0 ∧ chs.any (fun k => (trainingOf s k rate).isNone)) then .fail stBadField s
  else if chs.any (fun k => s.leased (mcInst k)) then .fail stLeaseHeld s
  else if anyRetune s ∨ chs.any (fun k => (s.mcs' k).job != .idle) then .fail stBusy s
  else .run [mask, 0, 0, rate] (startChannel ((lowBit mask).getD 0) rate s)

/-- MEM_RETUNE. -/
def execMemRetune (ch tag : Nat) (s : State) : Res := finish s (runBelet 0x0304 ch tag memRetune s)

def memRetrainCfg (c : Cmd) (s : State) : CmdRes :=
  let d := bytesAt c.body 0 0
  let iv := bytesAt c.body 7 4
  if d < 2 ∨ 40 < d ∨ (iv ≠ 0 ∧ (iv < 3600 ∨ 2592000 < iv)) then .fail stBadField s
  else .commit [.retrainCfg d iv] s

/-- MEM_RETRAIN_CFG. -/
def execMemRetrainCfg (ch tag : Nat) (s : State) : Res := finish s (runBelet 0x0305 ch tag memRetrainCfg s)

def memSrCfg (c : Cmd) (s : State) : CmdRes :=
  let a := bytesAt c.body 0 0
  let u := bytesAt c.body 3 2
  if 1 < a ∨ u = 0 ∨ 10000 < u then .fail stBadField s
  else if anyMcLeased s then .fail stLeaseHeld s
  else .done stOk [] (allMcs (fun n s => (s.wf (.mc n) Off.MC_CTL 3 3 a).wf (.mc n) Off.MC_CTL 17 4 u) s)

/-- MEM_SR_CFG. -/
def execMemSrCfg (ch tag : Nat) (s : State) : Res := finish s (runBelet 0x0306 ch tag memSrCfg s)

/-- A SCHED value that R330 and R5 accept. -/
def schedOk (w : Word) : Bool :=
  decide (1 ≤ fld w 7 0) && decide (1 ≤ fld w 12 8) && decide (16 ≤ fld w 19 14) && decide (fld w 25 20 + 8 ≤ fld w 19 14) &&
    decide (fld w 34 27 ≤ fld w 42 35)

def memSchedSet (c : Cmd) (s : State) : CmdRes :=
  let w := BitVec.ofNat 64 (bytesAt c.body 7 0)
  if !schedOk w ∨ fld w 13 13 ≠ 0 ∨ fld w 63 43 ≠ 0 then .fail stBadField s
  else if anyMcLeased s then .fail stLeaseHeld s
  else .done stOk [] (allMcs (fun n s => s.wr (.mc n) Off.SCHED w) s)

/-- MEM_SCHED_SET. -/
def execMemSchedSet (ch tag : Nat) (s : State) : Res := finish s (runBelet 0x0307 ch tag memSchedSet s)

end Sys2Proof.Machine
end

