-- ==== Sys2Proof/Machine/LlcCmds.lean ====
section
/-! DEFINITION. Register rules of the slices (R251, R270, R298), operations on ranges of lines (R271), and the MEM commands
for the LLC and for coherence. -/
namespace Sys2Proof.Machine

/-! ## Register rules -/

/-- A value that FCLASS[k] of slice `h` may take (R251). -/
def fclassOk (s : State) (h k : Nat) (v : Word) : Bool :=
  let alloc := fun (j : Nat) => if j = k then fld v 11 0 else fld (fclassReg s h j) 11 0
  let lock := fun (j : Nat) => if j = k then fld v 27 16 else fld (fclassReg s h j) 27 16
  let js := List.range 32
  let locks := fun (p : Nat → Bool) => js.foldl (fun a j => if p j then a ||| lock j else a) 0
  decide (alloc k ≠ 0) && decide (lock k &&& alloc k = lock k) && decide (popcount 12 (lock k) ≤ 4) &&
    decide (lock k &&& locks (fun j => j != k) = 0) && decide (popcount 12 (locks (fun _ => true)) ≤ 8) &&
    js.all (fun j => (List.range 12).any (fun w => (alloc j).testBit w && !(locks (fun i => i != j)).testBit w))

/-- Ways that a value of LLC.WAYCFG maps: logical way and physical way. -/
def llcMap (v : Word) : List (Nat × Nat) :=
  (((List.range 12).map (fun w => (w, fld v (4 * w + 3) (4 * w)))).filter (fun (e : Nat × Nat) => decide (e.2 ≠ 15)))

/-- A write of LLC.WAYCFG that R270 admits. -/
def llcWaycfgOk (s : State) (h : Nat) (v : Word) : Bool :=
  let m := llcMap v
  (s.rf (.llc h) Off.LLC_STATUS 0 0 == 0) && m.all (fun (e : Nat × Nat) => decide (e.2 < 13) && !(bitOf v (48 + e.2))) &&
    (m.map (fun (e : Nat × Nat) => e.2)).Nodup && decide (9 ≤ m.length)

/-- A write of WARREN.WAYCFG that R270 admits. -/
def warWaycfgOk (s : State) (h : Nat) (v : Word) : Bool :=
  let n := popcount 26 (fld v 25 0)
  (s.rf (.warren h) Off.WARREN_STATUS 0 0 == 0) && decide (fld v 25 0 &&& fld v 57 32 = 0) && decide (20 ≤ n) && decide (n ≤ 24)

/-- Write LLC.WAYCFG (R270). A line keeps its physical way; a way that leaves service is swept, without R265's steps 3
to 5. -/
def llcWaycfgWrite (h : Nat) (v : Word) (s : State) : State :=
  if !llcWaycfgOk s h v then s else
  let old := s.rd (.llc h) Off.LLC_WAYCFG
  let logical := fun (p : Nat) => (((llcMap v).find? (fun (e : Nat × Nat) => e.2 == p)).map (fun (e : Nat × Nat) => e.1)).getD (16 + p)
  let gone := ((llcMap old).map (fun (e : Nat × Nat) => e.2)).filter (fun p => decide (16 ≤ logical p))
  let llc := s.fab.llc.map (fun e => if homeOf e.1 = h then (e.1, { e.2 with way := logical (llcPhys s h e.2.way) }) else e)
  let s := { s with fab := { s.fab with llc := llc } }
  let s := s.wr (.llc h) Off.LLC_WAYCFG v
  let s := match gone with
    | p :: _ => llcSweepStart h p false s
    | [] => s
  let s := { s with fab := { s.fab with llcSweepWait := s.fab.llcSweepWait ++ (gone.drop 1).map (fun p => (h, 100 + p)) } }
  let s := s.wf (.llc h) Off.LLC_STATUS 5 5 (b2n (llcSpare s h).isNone)
  s.wf (.llc h) Off.LLC_STATUS 12 8 (llcWays s h)

/-- Write WARREN.WAYCFG (R270). -/
def warWaycfgWrite (h : Nat) (v : Word) (s : State) : State :=
  if !warWaycfgOk s h v then s else
  let gone := (List.range 26).filter (fun w => bitOf (s.rd (.warren h) Off.WARREN_WAYCFG) w && !(bitOf v w))
  let s := s.wr (.warren h) Off.WARREN_WAYCFG v
  let s := match gone with
    | p :: _ => warSweepStart h p false s
    | [] => s
  let s := { s with fab := { s.fab with warrenSweepWait := s.fab.warrenSweepWait ++ (gone.drop 1).map (fun w => (h, 100 + w)) } }
  let s := s.wf (.warren h) Off.WARREN_STATUS 6 6 (b2n (warSpare s h).isNone)
  s.wf (.warren h) Off.WARREN_STATUS 12 8 (warInServ s h)

/-- A snoop timeout that R298 admits. -/
def snpTmoOk (s : State) (v : Nat) : Bool :=
  (List.range 170).all (fun st => decide (v + 1 < s.rf (.mesh st) Off.MESH_CTL 4 0))

/-! ## Ranges of lines (R253, R271, R454) -/

/-- A transaction, a tracker or a message has the line. -/
def lineMoving (s : State) (ln : Nat) : Bool := lineBusy s ln || s.fab.net.any (fun e => e.2.line == ln)

/-- Lines of a range that some cache holds. -/
def cachedLines (s : State) (lo hi : Nat) : List Nat :=
  let p := fun (ln : Nat) => decide (lo ≤ ln) && decide (ln < hi)
  (((s.cores.flatMap (fun (e : Nat × Core) => e.2.l2.map (·.1) ++ e.2.side.map (·.line))) ++ s.fab.llc.map (·.1)).filter p).eraseDups

/-- A copy whose line has been written back. -/
def cleanCopy (d : Line) (x : PLine) : PLine :=
  { x with st := .e, data := d, l1d := x.l1d.map (fun (k : L1Copy) => { k with m := false, data := d }) }

/-- One line of a range operation at an idle line: 0 clean, 1 flush, 2 invalidate without write-back. Answers whether it was
written back and whether it was invalidated. -/
def rangeLine (op ln : Nat) (s : State) : Bool × Bool × State :=
  let s := warCheck ln (llcCheck ln s)
  let (d, po) := cohLine s ln
  let mine := s.cores.any (fun (e : Nat × Core) => match smFind e.2.l2 ln with | some x => x.st == CSt.m | none => false)
  let dirty : Bool := mine || (match s.llcAt ln with | some e => e.dirty | none => false)
  let back := dirty && op != 2
  let s := if back then setMemLine ln d po s else s
  if op = 0 then
    let fc := fun (c : Core) => match smFind c.l2 ln with
      | some x => if x.st = CSt.m then { c with l2 := smPut c.l2 ln (cleanCopy d x) } else c
      | none => c
    let s := { s with cores := s.cores.map (fun (e : Nat × Core) => (e.1, fc e.2)) }
    let s := match s.llcAt ln with
      | some e => setLlc ln { e with data := d, poison := po, dirty := false } s
      | none => s
    (back, false, s)
  else
    let late := s.cores.flatMap (fun (e : Nat × Core) => if e.2.resv = some ln then e.2.deferred else [])
    let fc := fun (c : Core) => { coreLoses s.tick ln c with deferred := if c.resv = some ln then [] else c.deferred }
    let s := { s with
      cores := s.cores.map (fun (e : Nat × Core) => (e.1, fc e.2))
      fab := { s.fab with net := s.fab.net ++ late } }
    (back, true, delWar ln (delLlc ln s))

/-- The operation on every cached line of [lo, hi): lines written back, lines invalidated. -/
def rangeOp (op lo hi : Nat) (s : State) : Nat × Nat × State :=
  (cachedLines s lo hi).foldl (fun (a : Nat × Nat × State) ln =>
    if lineMoving a.2.2 ln then a
    else
      let (w, i, s) := rangeLine op ln a.2.2
      (a.1 + b2n w, a.2.1 + b2n i, s)) (0, 0, s)

/-! ## MEM commands for the LLC (R271, R272) -/

def anyLlcLeased (s : State) : Bool := (List.range 136).any (fun h => s.leased (Blk.llc h).inst)

/-- Write a register of all 136 slices in ascending order. -/
def allSlices (f : Nat → State → State) (s : State) : State := (List.range 136).foldl (fun s h => f h s) s

def memFclassSet (c : Cmd) (s : State) : CmdRes :=
  let b := fun hi lo => bytesAt c.body hi lo
  let k := b 0 0
  let v := BitVec.ofNat 64 (b 3 2 + (b 5 4 <<< 16) + (b 6 6 <<< 32))
  if 32 ≤ k ∨ 4096 ≤ b 3 2 ∨ 4096 ≤ b 5 4 ∨ !((List.range 136).all (fun h => fclassOk s h k v)) then .fail stBadField s
  else if anyLlcLeased s then .fail stLeaseHeld s
  else .done stOk [] (allSlices (fun h s => s.wr (.llc h) (Off.FCLASS + 8 * k) v) s)

/-- MEM_FCLASS_SET. -/
def execMemFclassSet (ch tag : Nat) (s : State) : Res := finish s (runBelet 0x0340 ch tag memFclassSet s)

def memFclassGet (c : Cmd) (s : State) : CmdRes :=
  let k := bytesAt c.body 0 0
  if 32 ≤ k then .fail stBadField s
  else
    let v := fclassReg s 0 k
    .done stOk (leBytes 2 (fld v 11 0) ++ leBytes 2 (fld v 27 16) ++ leBytes 1 (fld v 33 32) ++
      leBytes 1 (b2n ((List.range 136).all (fun h => fclassReg s h k == v)))) s

/-- MEM_FCLASS_GET. -/
def execMemFclassGet (ch tag : Nat) (s : State) : Res := finish s (runBelet 0x0341 ch tag memFclassGet s)

def memLlcRange (c : Cmd) (s : State) : CmdRes :=
  let b := fun hi lo => bytesAt c.body hi lo
  let a := b 7 0
  let n := b 15 8
  if a % 64 ≠ 0 ∨ n = 0 ∨ n % 64 ≠ 0 ∨ 2 ^ 43 < n ∨ 2 < b 16 16 ∨ !s.inBuffer a n then .fail stBadField s
  else if anyLlcLeased s then .fail stLeaseHeld s
  else
    let (w, i, s) := rangeOp (b 16 16) (a / 64) ((a + n) / 64) s
    .done stOk (leBytes 8 w ++ leBytes 8 i) s

/-- MEM_LLC_RANGE: it acts once no line of its range that a cache holds is in a transaction. -/
def execMemLlcRange (ch tag : Nat) (s : State) : Res :=
  finish s (match findCmd s ch tag 0x0342 with
    | some c =>
      let a := bytesAt c.body 7 0
      let n := bytesAt c.body 15 8
      if (cachedLines s (a / 64) ((a + n) / 64)).any (fun ln => lineMoving s ln) then s else runBelet 0x0342 ch tag memLlcRange s
    | none => s)

/-! ## MEM commands for coherence (R299, R300) -/

def memCohCfg (c : Cmd) (s : State) : CmdRes :=
  let v := bytesAt c.body 0 0
  if v < 14 ∨ 26 < v ∨ !snpTmoOk s v then .fail stBadField s
  else if s.leased (Blk.bchub).inst ∨ (List.range 136).any (fun h => s.leased (Blk.warren h).inst) then .fail stLeaseHeld s
  else .done stOk (leBytes 1 v)
    ((allSlices (fun h s => s.wf (.warren h) Off.WARREN_COH_CFG 4 0 v) s).wf .bchub Off.BCHUB_COH_CFG 4 0 v)

/-- MEM_COH_CFG. -/
def execMemCohCfg (ch tag : Nat) (s : State) : Res := finish s (runBelet 0x0350 ch tag memCohCfg s)

def memCohStatus (_c : Cmd) (s : State) : CmdRes :=
  .done stOk (leBytes 1 (s.rf .bchub Off.RECOVERY 0 0) ++ leBytes 2 (s.rf .bchub Off.RECOVERY 9 1) ++
    leBytes 1 (s.rf .bchub Off.RECOVERY 17 10) ++ leBytes 4 0 ++
    (List.range 8).flatMap (fun w => leBytes 8 (s.rd .bchub (Off.DEAD_SET + 8 * w)).toNat)) s

/-- MEM_COH_STATUS. -/
def execMemCohStatus (ch tag : Nat) (s : State) : Res := finish s (runBelet 0x0351 ch tag memCohStatus s)

end Sys2Proof.Machine
end

