-- ==== Sys2Proof/Machine/Hoard.lean ====
section
/-! DEFINITION. The Hoard (chapter 17): requests at its stops, ownership, clearing, march tests and the spare bank. Banks are
named by their logical number 0 to 63. -/
namespace Sys2Proof.Machine

def State.hoard (s : State) (n : Nat) : HoardSt := smGet (fun _ => ({} : HoardSt)) s.hoards n
def State.modHoard (s : State) (n : Nat) (f : HoardSt → HoardSt) : State :=
  { s with hoards := smSet (fun _ => ({} : HoardSt)) s.hoards n (f (s.hoard n)) }

/-- Logical bank of a line of the Hoard (R447). -/
def hbankOf (ln : Nat) : Nat := (ln * 64 - hoardBase) / 0x100000
/-- First line of a bank. -/
def bankLine (b : Nat) : Nat := (hoardBase + b * 0x100000) / 64
def bankBlk (b : Nat) : Blk := .hoard (b / 16)

/-- STATE[i].STATE: 0 OPEN, 1 CLOSED, 2 CLEARING, 3 TESTING. -/
def bankSt (s : State) (b : Nat) : Nat := s.rf (bankBlk b) (Off.BANK_STATE + 8 * (b % 16)) 1 0
def setBankSt (b v : Nat) (s : State) : State := s.wf (bankBlk b) (Off.BANK_STATE + 8 * (b % 16)) 1 0 v
def bankFailed (s : State) (b : Nat) : Bool := s.rf (bankBlk b) (Off.BANK_STATE + 8 * (b % 16)) 2 2 == 1

/-- OWNER[i] (R452): KIND 0 none, 1 Sett, 2 host, 3 lodge, 4 port. -/
def ownerReg (s : State) (b : Nat) : Word := s.rd (bankBlk b) (Off.OWNER + 8 * (b % 16))
def ownerKind (s : State) (b : Nat) : Nat := fld (ownerReg s b) 2 0
def ownerId (s : State) (b : Nat) : Nat := fld (ownerReg s b) 11 3

/-- A bank with an owner is open, one without is closed; CLEARING and TESTING last (R452). -/
def settleBank (b : Nat) (s : State) : State :=
  if 2 ≤ bankSt s b then s else setBankSt b (if ownerKind s b = 0 ∨ bankFailed s b then 1 else 0) s

/-- Set a bank's owner. Nothing is cleared (R453). -/
def setOwner (b : Nat) (v : Word) (s : State) : State := settleBank b (s.wr (bankBlk b) (Off.OWNER + 8 * (b % 16)) v)

/-- A bank that serves demand: open, or under a transparent march that found it open (R456). -/
def bankServes (s : State) (b : Nat) : Bool :=
  bankSt s b == 0 || (bankSt s b == 3 && (s.hoard (b / 16)).wasOpen && s.rf (bankBlk b) Off.MARCH_CTL 4 4 == 1)

/-- Count an access to a closed bank (R452), and source 200 + n (R462). -/
def closedAccess (n : Nat) (s : State) : State := driveLevel (200 + n) true (s.incSat (.hoard n) Off.CLOSED_ACC 31 0)

/-- A word corrected in a bank: the bank's count, the stop's counter and the report (R335, R449). -/
def hoardCorrected (ln : Nat) (s : State) : State :=
  let b := hbankOf ln
  let s := unc (bankBlk b) 5 1 (s.incSat (bankBlk b) (Off.BANK_STATE + 8 * (b % 16)) 31 16)
  report (bankBlk b).inst 15 0 2 ln (b % 16) 0x1FF 0 s

/-- Read a line's array through its checker: data and poison. -/
def hoardLine (ln : Nat) (s : State) : (Line × Bool) × State :=
  let b := hbankOf ln
  let (r, s) := eccRead (bankBlk b).stop 4 2 ln s
  let (d, po) := eccData r (memLine s ln) (s.poison.contains ln)
  match r with
  | .clean => ((d, po), s)
  | .uncorr => ((d, true), report (bankBlk b).inst 15 1 2 ln (b % 16) 0x1FF 0 (setMemLine ln d true s))
  | _ => ((d, po), hoardCorrected ln (setMemLine ln d po s))

/-- MRd at a Hoard stop (R450, R452). -/
def hoardRead (n : Nat) (m : Msg) (s : State) : State :=
  let b := hbankOf m.line
  if bankSt s b = 2 then s
  else
    let s := unc (.hoard n) 1 1 (takeNet 0x20 m s)
    if bankServes s b then
      let ((d, po), s) := hoardLine m.line s
      sendMData (.hoard n) m.line m.qport d po s
    else
      let (d, s) := freshLine (closedAccess n s)
      sendMData (.hoard n) m.line m.qport d true s

/-- MWr at a Hoard stop. -/
def hoardWrite (n : Nat) (m : Msg) (s : State) : State :=
  let b := hbankOf m.line
  if bankSt s b = 2 then s
  else
    let s := unc (.hoard n) 2 1 (takeNet 0x21 m s)
    let s := if bankServes s b then
        setMemLine m.line m.data m.poison (eccWrite (bankBlk b).stop 4 2 m.line s)
      else closedAccess n s
    if m.arg % 2 = 1 then post 0x88 { agent := m.agent, line := m.line } s else s

/-- A request in order at the ejection queue of a controller or a Hoard stop. -/
def memRequest (op : Nat) (m : Msg) (s : State) : State :=
  if !headOfStop s op m then s
  else if mcStops.contains m.agent then (if op = 0x20 then mcRead (mcStops.idxOf m.agent) m s else mcWrite (mcStops.idxOf m.agent) m s)
  else if hoardStops.contains m.agent then
    (if op = 0x20 then hoardRead (hoardStops.idxOf m.agent) m s else hoardWrite (hoardStops.idxOf m.agent) m s)
  else s

/-- MRD (R304). -/
def execMrd (m : Msg) (s : State) : Res := finish s (memRequest 0x20 m s)
/-- MWR (R305). -/
def execMwr (m : Msg) (s : State) : Res := finish s (memRequest 0x21 m s)

/-! ## Clearing (R454, R455) -/

/-- Start a clear: the bank enters CLEARING and its lines leave every cache without write-back. -/
def startClear (b : Nat) (s : State) : State :=
  let s := setBankSt b 2 s
  let (_, _, s) := rangeOp 2 (bankLine b) (bankLine (b + 1)) s
  s.modHoard (b / 16) (fun h => { h with clears := insNat b h.clears })

/-- Zero a bank's array. -/
def zeroBank (b : Nat) (s : State) : State :=
  let lo := hoardBase + b * 0x100000
  let hi := lo + 0x100000
  let here := fun (ln : Nat) => decide (lo ≤ ln * 64) && decide (ln * 64 < hi)
  { s with
    mem := s.mem.filter (fun (c : Nat × Byte) => decide (c.1 < lo) || decide (hi ≤ c.1))
    poison := s.poison.filter (fun ln => !(here ln))
    flips := s.flips.filter (fun f => !(f.checker == 2 && f.inst == (bankBlk b).stop + 4 * 256 && here f.key)) }

/-- The clear of a bank ends. -/
def clearEnd (b : Nat) (s : State) : State :=
  if !((s.hoard (b / 16)).clears.contains b) then s else
  let s := s.modHoard (b / 16) (fun h => { h with clears := h.clears.filter (· != b) })
  let s := settleBank b (setBankSt b 1 (zeroBank b s))
  match s.sett.cmds.find? (fun c => c.opcode == 0x0370 && c.phase == .running && c.aux == [b]) with
  | some c => respond c stOk (leBytes 4 (ownerReg s b).toNat ++ leBytes 1 (bankSt s b)) s
  | none => s

/-! ## March tests (R456 to R458) -/

/-- Why a march of a bank is refused (R457). -/
def marchRefused (s : State) (b algo : Nat) : Bool :=
  (b == 32 && !s.modeFlag 2) || bankSt s b == 2 ||
    (algo == 0 && ownerKind s b == 3) ||
    (ownerKind s b != 0 && b != 32 && s.rf (bankBlk b) (Off.OWNER + 8 * (b % 16)) 12 12 == 0)

/-- Start or refuse a march of local bank `i` of stop `n`. -/
def startMarch (n i algo : Nat) (s : State) : State :=
  let b := 16 * n + i
  let s := ((s.wf (.hoard n) Off.MARCH_CTL 3 0 i).wf (.hoard n) Off.MARCH_CTL 4 4 algo)
  if marchRefused s b algo then (s.wf (.hoard n) Off.MARCH_CTL 5 5 0).wr (.hoard n) Off.MARCH_RESULT 4
  else
    let open_ := bankSt s b = 0
    let s := (s.wf (.hoard n) Off.MARCH_CTL 5 5 1).wr (.hoard n) Off.MARCH_RESULT 0
    setBankSt b 3 (s.modHoard n (fun h => { h with march := some (b, s.tick), wasOpen := open_ }))

/-- A write of MARCH_CTL that would leave `v`: GO = 1 starts a march; nothing changes while one runs. -/
def marchWrite (n : Nat) (v : Word) (s : State) : State :=
  if (s.hoard n).march.isSome ∨ (s.hoard n).copy.isSome then s
  else if bitOf v 5 then startMarch n (fld v 3 0) (fld v 4 4) s
  else s.wr (.hoard n) Off.MARCH_CTL (setFld v 5 5 0)

/-- The march is over: GO reads 0, RESULT shows it, and a command that waits responds. -/
def marchOver (n : Nat) (s : State) : State :=
  let s := (s.wf (.hoard n) Off.MARCH_CTL 5 5 0).wf (.hoard n) Off.MARCH_RESULT 0 0 1
  match s.sett.cmds.find? (fun c => c.opcode == 0x0371 && c.phase == .running && c.aux.headD 64 / 16 == n) with
  | some c => respond c stOk (leBytes 4 (s.rd (.hoard n) Off.MARCH_RESULT).toNat ++ leBytes 4 ((s.tick - c.aux.getD 1 0) / us)) s
  | none => s

/-- The spare takes over, or there is none (R458). -/
def sparing (n b : Nat) (spared : Bool) (s : State) : State :=
  let i := b % 16
  let phys := if s.rf (.hoard n) Off.SPARE 4 4 = 1 ∧ s.rf (.hoard n) Off.SPARE 3 0 = i then 16 else i
  let ln := s.rf (.hoard n) Off.MARCH_RESULT 21 8
  let s := s.wf (.hoard n) Off.SPARE (8 + phys) (8 + phys) 1
  let s := if spared then
      ((s.wf (.hoard n) Off.SPARE 3 0 i).wf (.hoard n) Off.SPARE 4 4 1).wf (.hoard n) Off.MARCH_RESULT 3 3 1
    else setBankSt b 1 (s.wf (.hoard n) (Off.BANK_STATE + 8 * i) 2 2 1)
  let s := report ((Blk.hoard n).inst) 16 (if spared then 0 else 1) 23 0 phys 0x1FF 0 s
  emit [0, 1] 0x0383 0 0 (leBytes 1 b ++ leBytes 1 (b2n !spared) ++ leBytes 2 ln) s

/-- MARCH_END: a failure names the first failing line of the bank and the sub-arrays that failed. -/
def marchEnd (n : Nat) (bad : Option (Nat × Nat)) (s : State) : State :=
  match (s.hoard n).march with
  | none => s
  | some (b, _) =>
    let trans := s.rf (.hoard n) Off.MARCH_CTL 4 4 = 1
    let s := s.modHoard n (fun h => { h with march := none })
    let s := if trans then s else zeroBank b s
    let s := settleBank b (setBankSt b 1 s)
    match bad with
    | none => marchOver n s
    | some (ln, subs) =>
      let s := ((s.wf (.hoard n) Off.MARCH_RESULT 1 1 1).wf (.hoard n) Off.MARCH_RESULT 21 8 ln).wf (.hoard n) Off.MARCH_RESULT 29 22 subs
      let spare := s.rf (.hoard n) Off.SPARE 4 4 = 0 ∧ s.rf (.hoard n) Off.SPARE 24 24 = 0
      if spare then
        (if trans then s.modHoard n (fun h => { h with copy := some b }) else marchOver n (sparing n b true s))
      else marchOver n (sparing n b false s)

/-- HOARD_SPARE_COPY_END: every line has been copied through its checker, uncorrectable ones as poison. -/
def spareCopyEnd (n : Nat) (s : State) : State :=
  match (s.hoard n).copy with
  | none => s
  | some b =>
    let s := s.modHoard n (fun h => { h with copy := none })
    let ls := (s.flips.filter (fun f => f.checker == 2 && f.inst == (Blk.hoard n).stop + 4 * 256 && hbankOf f.key == b)).map (·.key)
    let s := ls.foldl (fun s ln => (hoardLine ln s).2) s
    marchOver n (sparing n b true s)

/-- MARCH_END (R458). -/
def execMarchEnd (hoard : Nat) (bad : Option (Nat × Nat)) (s : State) : Res := finish s (marchEnd hoard bad s)
/-- HOARD_SPARE_COPY_END (R458). -/
def execHoardSpareCopyEnd (hoard : Nat) (s : State) : Res := finish s (spareCopyEnd hoard s)

/-- A write of OWNER[i] that would leave `v` (R459): bank 32 keeps its owner, and only the Sett sets KIND 1. -/
def ownerWrite (bySett : Bool) (b : Nat) (v : Word) (s : State) : State :=
  if b = 32 then s
  else if fld v 2 0 = 1 ∧ !bySett then setOwner b (setFld v 2 0 (ownerKind s b)) s
  else setOwner b v s

/-! ## MEM commands for the Hoard (R460, R461) -/

/-- Channel 1 may write the bank's owner. -/
def ch1MayOwn (s : State) (b : Nat) : Bool :=
  let k := ownerKind s b
  k == 0 || k == 2 || (k == 3 && !(s.lodgeSt (ownerId s b)).twin)

def memHoardOwner (c : Cmd) (s : State) : CmdRes :=
  let f := fun hi lo => bytesAt c.body hi lo
  let b := f 0 0
  let kind := f 2 2
  let id := f 4 3
  let done := fun (s : State) => CmdRes.done stOk (leBytes 4 (ownerReg s b).toNat ++ leBytes 1 (bankSt s b)) s
  if 64 ≤ b ∨ 1 < f 1 1 then .fail stBadField s
  else if f 1 1 = 0 then done s
  else if 4 < kind ∨ (kind = 3 ∧ 512 ≤ id) ∨ (kind = 4 ∧ 8 < id) ∨ (kind < 3 ∧ id ≠ 0) then .fail stBadField s
  else if kind = 1 ∨ b = 32 ∨ (c.ch = 1 ∧ !ch1MayOwn s b) then .fail stDenied s
  else if (kind = 3) ≠ (ownerKind s b = 3) ∨ (kind = 3 ∧ id ≠ ownerId s b) then .fail stDenied s
  else if s.leased (bankBlk b).inst then .fail stLeaseHeld s
  else
    let s := setOwner b (BitVec.ofNat 64 (kind + id * 8 + (f 5 5 % 2) * 4096)) s
    if f 5 5 / 2 % 2 = 1 then .run [b] (startClear b s) else done s

/-- MEM_HOARD_OWNER: a write with CLEAR waits while the bank's engine is at work on it. -/
def execMemHoardOwner (ch tag : Nat) (s : State) : Res :=
  finish s (match findCmd s ch tag 0x0370 with
    | some c =>
      let b := bytesAt c.body 0 0
      if bytesAt c.body 1 1 = 1 ∧ bytesAt c.body 5 5 / 2 % 2 = 1 ∧ 2 ≤ bankSt s b then s else runBelet 0x0370 ch tag memHoardOwner s
    | none => s)

def memHoardMarch (c : Cmd) (s : State) : CmdRes :=
  let b := bytesAt c.body 0 0
  let algo := bytesAt c.body 1 1
  let n := b / 16
  if 64 ≤ b ∨ 1 < algo then .fail stBadField s
  else if s.leased (bankBlk b).inst then .fail stLeaseHeld s
  else if (s.hoard n).march.isSome ∨ (s.hoard n).copy.isSome then .fail stBusy s
  else if marchRefused s b algo then .fail stDenied s
  else .run [b, s.tick] (startMarch n (b % 16) algo s)

/-- MEM_HOARD_MARCH. -/
def execMemHoardMarch (ch tag : Nat) (s : State) : Res := finish s (runBelet 0x0371 ch tag memHoardMarch s)

end Sys2Proof.Machine
end

