-- ==== Sys2Proof/Machine/Integrity.lean ====
section
/-! DEFINITION. Memory integrity (chapter 12): the error log, scrub, the address maps, retirement, row repair and device
erasure. -/
namespace Sys2Proof.Machine

/-! ## The error log (R345, R346, R355) -/

/-- KIND of the record a report gives. -/
def recKind (r : Report) : Nat :=
  let consumed := (r.cls = 19 ∧ r.checker = 0) ∨ (r.agent ≠ 0x1FF ∧ (r.checker = 0 ∨ (r.cls = 2 ∧ r.checker = 12 ∧ r.line ≠ 0)))
  if consumed then 2
  else if r.cls = 7 ∧ r.checker = 22 then 3
  else if r.sev = 0 then (if r.how % 4 = 1 then 4 else if r.how % 4 = 2 then 6 else 0)
  else if r.how % 4 = 1 then 5 else 1

/-- SOURCE of the record. -/
def recSource (r : Report) : Nat :=
  if r.cls = 14 then 0 else if r.cls = 15 then 1 else if r.cls = 7 then 2
  else if r.cls = 3 ∧ (r.checker = 6 ∨ r.checker = 7) then 3 else if r.cls = 3 ∧ (r.checker = 4 ∨ r.checker = 5) then 4 else 5

/-- Bytes 32 to 39 for a DRAM line. -/
def cellBytes (s : State) (pa : Nat) : List Byte :=
  let n := channelOf (pa / 64)
  let c := cellAt s n (pa / 64)
  leBytes 1 n ++ leBytes 1 c.rankpos ++ leBytes 1 c.bankByte ++ leBytes 1 0 ++ leBytes 3 c.row ++ leBytes 1 c.col

/-- What a report adds to COUNT: one, and one more for a write-back that was dropped (R342). -/
def recCount (r : Report) : Nat := 1 + r.how / 4

/-- The 64 bytes of a record; `synd` are its 64 bits of syndrome. -/
def errBytes (s : State) (seq : Nat) (r : Report) (synd : Nat) : List Byte :=
  let src := recSource r
  leBytes 8 seq ++ leBytes 8 s.settTime ++ leBytes 1 (recKind r) ++ leBytes 1 src ++ leBytes 2 r.inst ++
    leBytes 1 (if src = 0 ∧ r.index < 10 then r.index else 0xFF) ++ leBytes 2 (if recKind r = 2 then r.agent else 0x1FF) ++ leBytes 1 0 ++
    leBytes 8 (if r.line = 0 then 2 ^ 64 - 1 else r.line * 64) ++
    (if src = 0 then cellBytes s (r.line * 64) else leBytes 8 0) ++ leBytes 2 (recCount r) ++ leBytes 8 synd ++ leBytes 14 0

/-- Whether a held record takes one more occurrence of a corrected DRAM error (R346). -/
def coalesces (s : State) (b : List Byte) (k : Nat) (e : ErrRec) : Bool :=
  let corr := fun (k : Nat) => k == 0 || k == 4 || k == 6
  corr k && corr e.kind && e.bytes.getD 17 0 == 0#8 && decide (s.settTime < e.time + 1000000) &&
    ((e.bytes.drop 32).take 7 == (b.drop 32).take 7) && (e.bytes.getD 20 0 == b.getD 20 0)

/-- Add a record; the log holds 4,096. -/
def logAdd (e : ErrRec) (l : ErrLog) : ErrLog :=
  if l.recs.length < 4096 then { l with recs := l.recs ++ [e], seq := e.seq }
  else
    let low := fun (x : ErrRec) => x.kind == 0 || x.kind == 4 || x.kind == 6
    let rest := if l.recs.any low then delFirst low l.recs else l.recs.drop 1
    { recs := rest ++ [e], seq := e.seq, lost := l.lost + 1 }

/-- Log a report: coalesce it or add a record, journal it, and raise MEM.ERR_LOGGED. The capture holds the low half of
the syndrome; the other half is open. -/
def logReport (r : Report) (s : State) : State :=
  let (w, s) := s.fresh
  let k := recKind r
  let seq := s.elog.seq + 1
  let b := errBytes s seq r (r.syndrome % 2 ^ 32 + (w % 2 ^ 32) * 2 ^ 32)
  if recSource r = 0 ∧ s.elog.recs.any (coalesces s b k) then
    let more := fun (e : ErrRec) => { e with bytes := putBytes e.bytes 40 (leBytes 2 (satAdd 0xFFFF (bytesAt e.bytes 41 40) (recCount r))) }
    { s with elog := { s.elog with recs := updFirst (coalesces s b k) more s.elog.recs } }
  else
    let e : ErrRec := ⟨k, s.settTime, seq, b⟩
    let s := { s with elog := logAdd e s.elog }
    let s := if k = 1 ∨ k = 2 ∨ k = 5 then journal (.errlog e) s else s
    if k = 1 ∨ k = 2 ∨ k = 3 ∨ k = 5 then
      emit [0, 1] 0x0382 0 0 (leBytes 8 seq ++ leBytes 1 k ++ leBytes 7 (bytesAt b 31 24 % 2 ^ 56)) s
    else s

def memErrlogRead (c : Cmd) (s : State) : CmdRes :=
  let first := bytesAt c.body 23 16
  if !bufOk s c then .fail stBadBuffer s
  else
    let rs := (s.elog.recs.filter (fun e => decide (first ≤ e.seq))).take (bufLen c / 64)
    let s := settWr (bufPa c) (rs.flatMap (fun (e : ErrRec) => e.bytes)) s
    .done stOk (leBytes 2 rs.length ++ leBytes 8 ((rs.head?.map (·.seq)).getD 0) ++ leBytes 8 ((rs.getLast?.map (·.seq)).getD 0) ++
      leBytes 4 s.elog.lost) s

/-- MEM_ERRLOG_READ. -/
def execMemErrlogRead (ch tag : Nat) (s : State) : Res := finish s (runBelet 0x0361 ch tag memErrlogRead s)

/-! ## Scrub (R343, R344, R352) -/

/-- Start a scrub on one channel; it ends self-refresh as any request does (R317). -/
def scrubStart (n ca lines : Nat) (s : State) : State :=
  let s := (s.wf (.mc n) Off.SCRUB_CTL 0 0 1).wf (.mc n) Off.SCRUB_CTL 1 1 0
  mcArrive n (s.modMc n (fun x => { x with scrub := some { ca := ca, left := lines, since := s.tick } }))

/-- A write of SCRUB_CTL that would leave `v`; ignored while GO reads 1, and writing GO = 0 has no effect. -/
def scrubWrite (n : Nat) (v : Word) (s : State) : State :=
  if s.rf (.mc n) Off.SCRUB_CTL 0 0 = 1 ∨ !bitOf v 0 then s
  else scrubStart n (s.rf (.mc n) Off.SCRUB_BASE 38 6 * 64) (s.rf (.mc n) Off.SCRUB_COUNT 31 0) s

/-- The summary of R344 over all channels. -/
def scrubSummary (s : State) (from_ : Nat) : List Byte :=
  let bs := (List.range 16).map (fun n => (n, (s.mcs' n).lastScrub))
  let sum := fun (f : ScrubSt → Nat) => bs.foldl (fun a (e : Nat × ScrubSt) => a + f e.2) 0
  let pas := fun (f : ScrubSt → Option Nat) => bs.filterMap (fun (e : Nat × ScrubSt) => (f e.2).map (fun ca => paOfCa e.1 ca))
  let ones := 2 ^ 64 - 1
  let lo := (pas (·.first)).foldl (fun a b => min a b) ones
  let hi := match pas (·.last) with | [] => ones | a :: l => l.foldl (fun a b => max a b) a
  leBytes 8 (sum (·.read)) ++ leBytes 8 (sum (·.ce)) ++ leBytes 8 (sum (·.ue)) ++ leBytes 8 lo ++ leBytes 8 hi ++
    leBytes 8 ((s.tick - from_) / us) ++ leBytes 2 (min 0xFFFF (sum (·.poisoned))) ++ leBytes 2 (min 0xFFFF (sum (·.dropped)))

/-- MEM.SCRUB responds once no channel scrubs. -/
def scrubRespond (s : State) : State :=
  match runningCmd s 0x0360 with
  | none => s
  | some c =>
    if (List.range 16).any (fun n => (s.mcs' n).scrub.isSome) then s
    else
      let cut := (List.range 16).any (fun n => s.rf (.mc n) Off.SCRUB_CTL 1 1 == 1)
      respond c (if cut then 0x8001 else stOk) (scrubSummary s (c.aux.headD 0)) s

/-- A scrub ends, complete or cut. -/
def scrubStop (n : Nat) (cut : Bool) (s : State) : State :=
  match (s.mcs' n).scrub with
  | none => s
  | some b =>
    let all := 2 ^ 39 - 1
    let s := s.modMc n (fun x => { x with scrub := none, lastScrub := b })
    let s := (s.wf (.mc n) Off.SCRUB_CTL 0 0 0).wf (.mc n) Off.SCRUB_CTL 1 1 (b2n cut)
    let s := s.wr (.mc n) Off.SCRUB_RESULT (BitVec.ofNat 64 (b.read % 2 ^ 32 + (min 0xFFFF b.ce <<< 32) + (min 0xFFFF b.ue <<< 48)))
    let s := (s.wf (.mc n) Off.SCRUB_FIRST 38 0 (b.first.getD all)).wf (.mc n) Off.SCRUB_LAST 38 0 (b.last.getD all)
    scrubRespond (mcCause n 1 s)

/-- Entry to DEN or HANDOVER cuts every scrub short (R344). -/
def scrubCut (s : State) : State := (List.range 16).foldl (fun s n => scrubStop n true s) s

/-- SCRUB_END: a scrub that has read its last line ends. -/
def execScrubEnd (mc : Nat) (s : State) : Res :=
  finish s (match (s.mcs' mc).scrub with
    | some b => if b.left = 0 then scrubStop mc false s else s
    | none => s)

/-- A 4 KiB-aligned range of DRAM. -/
def dramRange (s : State) (a n : Nat) : Bool :=
  decide (a % 4096 = 0) && decide (n % 4096 = 0) && decide (0 < n) && decide (a + n ≤ s.org.mapped)

/-- Start a scrub of a PA range on all 16 channels, through their scrub registers (R354). -/
def scrubAll (a n : Nat) (s : State) : State :=
  allMcs (fun k s => scrubStart k (caOf a) (n / 1024)
    ((s.wr (.mc k) Off.SCRUB_BASE (BitVec.ofNat 64 (caOf a))).wr (.mc k) Off.SCRUB_COUNT (BitVec.ofNat 64 (n / 1024)))) s

def memScrub (c : Cmd) (s : State) : CmdRes :=
  let a := bytesAt c.body 7 0
  let n := bytesAt c.body 15 8
  if !dramRange s a n ∨ 2 ^ 34 < n then .fail stBadField s
  else if anyMcLeased s then .fail stLeaseHeld s
  else .run [s.tick] (scrubAll a n s)

/-- MEM_SCRUB: it waits for a channel that still scrubs. -/
def execMemScrub (ch tag : Nat) (s : State) : Res :=
  finish s (if !anyMcLeased s ∧ (List.range 16).any (fun n => (s.mcs' n).scrub.isSome) then s else runBelet 0x0360 ch tag memScrub s)

/-! ## Address maps (R347) -/

def memMapPa (c : Cmd) (s : State) : CmdRes :=
  let a := bytesAt c.body 7 0
  if s.org.installed ≤ a then .fail stBadField s else .done stOk (cellBytes s a) s

/-- MEM_MAP_PA. -/
def execMemMapPa (ch tag : Nat) (s : State) : Res := finish s (runBelet 0x0362 ch tag memMapPa s)

/-- The subchannel, DIMM, rank, CID, bank group and bank that RANKPOS and BANK bytes name. -/
def placeOf (rp bk row : Nat) : DCell := ⟨rp % 2, rp / 2 % 2, rp / 4 % 2, rp / 8 % 8, bk % 8, bk / 8 % 4, row, 0⟩

/-- The place lies in the channel's geometry. -/
def placeOk (g : Geom) (rp bk : Nat) : Bool :=
  let c := placeOf rp bk 0
  decide (rp < 64) && decide (bk < 32) && decide (c.dimm < 2 ^ g.dimm) && decide (c.rank < 2 ^ g.rank) && decide (c.cid < 2 ^ g.cid)

/-- The 256 KiB block of a row. -/
def rowBlock (g : Geom) (c : DCell) : Nat :=
  let v := ((c.row * 2 ^ g.cid + c.cid) * 2 ^ g.dimm + c.dimm) * 2 ^ g.rank + c.rank
  v * 2 ^ 23 + (c.ba ^^^ (c.row / 8 % 4)) * 2 ^ 21 + (c.bg ^^^ (c.row % 8)) * 2 ^ 18

/-- Blocks in rising order, merged where adjacent; newest range first in the accumulator. -/
def mergeBlocks (acc : List (Nat × Nat)) (b : Nat) : List (Nat × Nat) :=
  match acc with
  | (a, n) :: l => if a + n = b then (a, n + 0x40000) :: l else (b, 0x40000) :: (a, n) :: l
  | [] => [(b, 0x40000)]

def memMapBank (c : Cmd) (s : State) : CmdRes :=
  let f := fun hi lo => bytesAt c.body hi lo
  let n := f 16 16
  let g := s.geom n
  let row := f 23 20
  let all : Bool := row == 0xFFFFFFFF
  if 16 ≤ n ∨ !placeOk g (f 17 17) (f 18 18) ∨ (!all ∧ 2 ^ g.row ≤ row) then .fail stBadField s
  else if !bufOk s c then .fail stBadBuffer s
  else
    let rows := if all then List.range (2 ^ g.row) else [row]
    let rs := ((rows.foldl (fun acc r => mergeBlocks acc (rowBlock g (placeOf (f 17 17) (f 18 18) r))) []).reverse).take (bufLen c / 16)
    .done stOk (leBytes 4 rs.length) (settWr (bufPa c) (rs.flatMap (fun (e : Nat × Nat) => leBytes 8 e.1 ++ leBytes 8 e.2)) s)

/-- MEM_MAP_BANK. -/
def execMemMapBank (ch tag : Nat) (s : State) : Res := finish s (runBelet 0x0363 ch tag memMapBank s)

/-! ## Retirement (R348) -/

def memRetire (c : Cmd) (s : State) : CmdRes :=
  let a := bytesAt c.body 7 0
  let n := bytesAt c.body 15 8
  if !dramRange s a n then .fail stBadField s
  else if 1024 ≤ s.flash.jst.retired.length then .fail stNoResource s
  else .commit [.memRetire a n] s

/-- MEM_RETIRE. -/
def execMemRetire (ch tag : Nat) (s : State) : Res := finish s (runBelet 0x0364 ch tag memRetire s)

def memRetireList (c : Cmd) (s : State) : CmdRes :=
  if !bufOk s c then .fail stBadBuffer s
  else
    let rs := s.flash.jst.retired.take (bufLen c / 16)
    .done stOk (leBytes 2 rs.length) (settWr (bufPa c) (rs.flatMap (fun (e : Nat × Nat) => leBytes 8 e.1 ++ leBytes 8 e.2)) s)

/-- MEM_RETIRE_LIST. -/
def execMemRetireList (ch tag : Nat) (s : State) : Res := finish s (runBelet 0x0365 ch tag memRetireList s)

/-! ## Row repair and device erasure (R349 to R351) -/

/-- The repair that a MEM.ROW_REPAIR names. -/
def repairOf (c : Cmd) (applied : Bool) : RowRepair :=
  let f := fun hi lo => bytesAt c.body hi lo
  let p := placeOf (f 1 1) (f 2 2) (f 7 4)
  ⟨f 0 0, p.sc, p.rk + 4 * p.cid, 0xFF, p.bg, p.ba, p.row, f 8 8 = 1, applied⟩

/-- The bank group's spare row has been used by a repair on record. -/
def spareRowUsed (s : State) (r : RowRepair) : Bool :=
  s.flash.jst.rowRepairs.any (fun x => x.applied && x.hard && x.ch == r.ch && x.sc == r.sc && x.rank == r.rank && x.bankGroup == r.bankGroup)

def repairBad (s : State) (c : Cmd) : Bool :=
  let f := fun hi lo => bytesAt c.body hi lo
  let g := s.geom (f 0 0)
  decide (16 ≤ f 0 0) || !placeOk g (f 1 1) (f 2 2) || decide (2 ^ g.row ≤ f 7 4) || decide (1 < f 8 8)

/-- Repairs run at once in BRINGUP and DIAGNOSTIC. -/
def repairNow (s : State) : Bool := s.modeFlag 2 || s.modeFlag 10

/-- In DIAGNOSTIC the row's lines of both rank positions are saved before a repair and restored after it; those that were
uncorrectable come back as poison (R349). -/
def restoreRow (c : Cmd) (s : State) : State :=
  if !s.modeFlag 10 then s else
  let n := bytesAt c.body 0 0
  let g := s.geom n
  let p := placeOf (bytesAt c.body 1 1) (bytesAt c.body 2 2) (bytesAt c.body 7 4)
  (List.range (2 ^ g.rank)).foldl (fun s k => (List.range 128).foldl (fun s col =>
    let ln := paOfCa n (caOfCell g { p with rank := k, col := col }) / 64
    let (_, (d, po), s) := readBurst n ln [] 0 s
    setMemLine ln d po (eccWrite (mcStops.getD n 0) 4 1 ln s)) s) s

def memRowRepair (c : Cmd) (s : State) : CmdRes :=
  let r := repairOf c (repairNow s)
  if repairBad s c then .fail stBadField s
  else if spareRowUsed s r then .fail stNoResource s
  else if repairNow s ∧ !r.hard then .done stOk (leBytes 1 0) (restoreRow c s)
  else .commit [.rowRepair r] (restoreRow c s)

/-- MEM_ROW_REPAIR: the repair sequence succeeds, or the repair is journalled as pending. -/
def execMemRowRepair (ch tag : Nat) (s : State) : Res := finish s (runBelet 0x0366 ch tag memRowRepair s)

/-- A repair sequence of channel `mc` that does not complete within 2 s (R350): `consumed` is what the DIMM's resource
registers show. -/
def repairTimeout (consumed : Bool) (c : Cmd) (s : State) : CmdRes :=
  if repairBad s c then .fail stBadField s
  else if spareRowUsed s (repairOf c false) then .fail stNoResource s
  else
    let applied := consumed && (repairOf c false).hard
    let s := restoreRow c { s with tick := s.tick + 2000 * ms }
    let s := report (mcInst (bytesAt c.body 0 0)) 13 1 24 0 0 0x1FF 0 (journal (.rowRepair (repairOf c applied)) s)
    .done stTimeout (leBytes 1 (b2n !applied)) s

/-- ROW_REPAIR_TIMEOUT: the outcome of the oldest accepted MEM.ROW_REPAIR of the channel, in the modes that repair at
once. -/
def execRowRepairTimeout (mc : Nat) (consumed : Bool) (s : State) : Res :=
  finish s (match s.sett.cmds.find? (fun c => c.opcode == 0x0366 && c.phase == .accepted && bytesAt c.body 0 0 == mc) with
    | some c => if repairNow s then runBelet 0x0366 c.ch c.tag (repairTimeout consumed) s else s
    | none => s)

def memErase (c : Cmd) (s : State) : CmdRes :=
  let f := fun hi lo => bytesAt c.body hi lo
  if 16 ≤ f 0 0 ∨ 4 ≤ f 1 1 ∨ 2 ≤ f 2 2 ∨ (10 ≤ f 3 3 ∧ f 3 3 ≠ 15) then .fail stBadField s
  else if s.leased (mcInst (f 0 0)) then .fail stLeaseHeld s
  else .commit [.dramErase (f 0 0) (f 1 1) (f 2 2) (f 3 3)] s

/-- MEM_ERASE. -/
def execMemErase (ch tag : Nat) (s : State) : Res := finish s (runBelet 0x0367 ch tag memErase s)

/-- Put an erasure in force (R338). -/
def setErase (ch rk sc dev : Nat) (s : State) : State := s.wf (.mc ch) (Off.ERASE + 8 * rk) (4 * sc + 3) (4 * sc) dev

/-- Effect of the commit of a MEM.RETIRE, MEM.ROW_REPAIR or MEM.ERASE. -/
def memCommit (c : Cmd) (s : State) : State :=
  let f := fun hi lo => bytesAt c.body hi lo
  if c.opcode = 0x0364 then respond c stOk (leBytes 2 s.flash.jst.retired.length) s
  else if c.opcode = 0x0366 then
    respond c stOk (leBytes 1 (b2n !(s.flash.jst.rowRepairs.contains (repairOf c true)))) s
  else respond c stOk [] (setErase (f 0 0) (f 1 1) (f 2 2) (f 3 3) s)

end Sys2Proof.Machine
end

