-- ==== Sys2Proof/Machine/Lodge.lean ====
section
/-! DEFINITION. Lodges (chapter 13): the attribute words, the pools, the LODGE commands and the steps of a reset, and the rows
whose events a lodge command may wait for. -/
namespace Sys2Proof.Machine

/-! ## The attribute words (R361, R365, R367) -/

/-- Where the ports hold a LID's word; the IDIST and the cores: `idistAttrOff`, `coreAttrOff`. -/
def portAttrOff (s : State) (lid n : Nat) : Nat := (portBlk s n).base + Off.RC_LODGE_ATTR + 4 * lid


/-- TP, RC0 to RC7, then the IDIST: the order of R369 steps 2 and 3. -/
def holdOffs (s : State) (lid : Nat) : List Nat := ((8 :: List.range 8).map (portAttrOff s lid)) ++ [idistAttrOff lid]
/-- Every copy of the word that has power: a core whose window is off takes it when it has power again (R35). -/
def allAttrOffs (s : State) (lid : Nat) : List Nat :=
  holdOffs s lid ++ (((List.range 272).filter (fun p => !coreOff s p)).map (coreAttrOff lid))

/-- An instance that a lodge command writes is leased (R64): the IDIST, the ports, and with `cores` the cores with power and
the Hoard stops of the lodge's banks. R64 is taken to hold for the registers that only the Sett writes too (DEDUCED, log
entry 11). -/
def lodgeLeased (s : State) (cores : Bool) (banks : List Nat) : Bool :=
  !s.sett.leases.isEmpty &&
    (s.leased Blk.idist.inst || (List.range 9).any (fun n => s.leased (portBlk s n).inst) ||
      (cores && ((List.range 272).any (fun p => !coreOff s p && s.leased (Blk.core p).inst) ||
        banks.any (fun b => s.leased (bankBlk b).inst))))

/-- Write a field of a word in several copies. -/
def putAttr (offs : List Nat) (hi lo v : Nat) (s : State) : State :=
  offs.foldl (fun s o => s.wrOff o (setFld (s.rdOff o) hi lo v)) s

/-- OLD_OUT in any copy. -/
def oldOut (s : State) (lid : Nat) : Bool := (holdOffs s lid).any (fun o => bitOf (s.rdOff o) 27)

/-- HOLD of a lodge; the twin port's rings follow it (R435). -/
def holdLodge (lid : Nat) (b : Bool) (s : State) : State := twinRefresh (putAttr (holdOffs s lid) 26 26 (b2n b) s)

/-- Raise the generation in every copy; blocks with older work set OLD_OUT (R364, R366). -/
def raiseGen (lid : Nat) (s : State) : State :=
  let g := ((s.lodgeSt lid).gen + 1) % 256
  let s := putAttr (allAttrOffs s lid) 7 0 g (s.setLodge lid { s.lodgeSt lid with gen := g })
  idistOld lid (markBells lid ((List.range 9).foldl (fun s n => portOld n lid s) s))

/-! ## The pools (R357, R358) -/

/-- LIDs with a lodge. -/
def liveLodges (s : State) : List (Nat × LodgeSt) := s.lodges.filter (fun e => e.2.state != .free)

/-- A number that no lodge uses, from a pool. -/
def takeFree (pool used : List Nat) : Option Nat := pool.find? (fun k => !used.contains k)

/-- A choice byte (R377): `new` asks for a free one, another value names one to share. -/
inductive Choice | take (k : Nat) | none_ | bad
deriving DecidableEq, Repr

def choose (v new top : Nat) (used : List Nat) : Choice :=
  if v = new then (match takeFree ((List.range top).map (· + 1)) used with | some k => .take k | none => .none_)
  else if 1 ≤ v ∧ v ≤ top then .take v else .bad

/-- What a lodge asks for. -/
structure LodgeReq where
  lid : Nat
  fc : Nat
  qCpu : Nat
  qIo : Nat
  log2 : Nat
  slots : Nat
  banks : Nat
  vfs : Nat
deriving DecidableEq, Repr

def usedQ (s : State) : List Nat := (liveLodges s).flatMap (fun (e : Nat × LodgeSt) => [e.2.qCpu, e.2.qIo])
def usedFc (s : State) : List Nat := (liveLodges s).map (fun (e : Nat × LodgeSt) => e.2.fclass)

/-- First SRCID of a free aligned block of the pool. -/
def takeSrcs (s : State) (k : Nat) : Option Nat :=
  let n := 2 ^ k
  let p := s.pools
  ((List.range (p.srcCount / n)).map (fun i => p.srcBase + i * n)).find? (fun b =>
    (liveLodges s).all (fun (e : Nat × LodgeSt) => decide (b + n ≤ e.2.srcBase) || decide (e.2.srcBase + 2 ^ e.2.log2Src ≤ b)))

/-- First of `n` contiguous free posting slots. -/
def takeSlots (s : State) (n : Nat) : Option Nat :=
  let ends := 0 :: (liveLodges s).map (fun (e : Nat × LodgeSt) => e.2.slotBase + e.2.slots)
  let ok := fun (b : Nat) => decide (b + n ≤ 4096) &&
    (liveLodges s).all (fun (e : Nat × LodgeSt) => decide (b + n ≤ e.2.slotBase) || decide (e.2.slotBase + e.2.slots ≤ b))
  let l := ends.filter ok
  match l with | [] => none | a :: m => some (m.foldl (fun x y => min x y) a)

/-- Hoard banks of the pool without an owner, and VFs without a lodge. -/
def freeBanks (s : State) : List Nat :=
  (List.range 64).filter (fun b => s.pools.hoardMask.testBit b && b != 32 && ownerKind s b == 0 && bankSt s b == 1 && !bankFailed s b)
def freeVfs (s : State) : List Nat := allVfs.filter (fun v => (vfLid s v).isNone)

/-- The shares a new lodge takes, or the status it fails with. -/
def planLodge (r : LodgeReq) (s : State) : Except Nat (Nat × LodgeSt) :=
  let fc := choose r.fc 0x20 31 (usedFc s)
  let qc := choose r.qCpu 0x40 63 (usedQ s)
  let qcs := match qc with | .take k => [k] | _ => []
  let qi := if r.qIo = 0x41 then qc else choose r.qIo 0x40 63 (usedQ s ++ qcs)
  if r.lid = 0 then .error stBadLid
  else if (511 < r.lid ∧ r.lid ≠ 0xFFFF) ∨ r.log2 < 4 ∨ 10 < r.log2 ∨ r.slots < 1 ∨ 256 < r.slots ∨ 16 < r.banks ∨ 16 < r.vfs ∨
      fc = .bad ∨ qc = .bad ∨ qi = .bad then .error stBadField
  else if r.lid ≠ 0xFFFF ∧ ((s.lodgeSt r.lid).state ≠ .free ∨ oldOut s r.lid) then .error stBusy
  else
    let lid := if r.lid = 0xFFFF then allLids.find? (fun l => (s.lodgeSt l).state == .free && !oldOut s l) else some r.lid
    let ext := takeFree (List.range s.pools.extSlots) ((liveLodges s).map (fun (e : Nat × LodgeSt) => e.2.extSlot))
    match lid, fc, qc, qi, ext, takeSrcs s r.log2, takeSlots s r.slots with
    | some l, .take f, .take a, .take b, some x, some sb, some sl =>
      if (freeBanks s).length < r.banks ∨ (freeVfs s).length < r.vfs ∨ (s.pwr.tpRoot ∧ 0 < r.vfs) then .error stNoResource
      else .ok (l, { s.lodgeSt l with
        state := .running, twin := false, timedOut := false, fclass := f, qCpu := a, qIo := b, srcBase := sb, log2Src := r.log2
        slotBase := sl, slots := r.slots, banks := (freeBanks s).take r.banks, vfs := (freeVfs s).take r.vfs, extSlot := x, count := 0 })
    | _, _, _, _, _, _, _ => .error stNoResource
where allLids : List Nat := (List.range 511).map (· + 1)

/-- The value HEXTBASE takes for the lodge (R178). -/
def hextOf (s : State) (l : LodgeSt) : Nat := s.pools.arena + l.extSlot * 0x10000 + l.count

/-- Set the extent table registers of the ports. -/
def putExt (lid v : Nat) (s : State) : State :=
  (List.range 9).foldl (fun s n => s.wr (portBlk s n) (Off.RC_LODGE_EXT + 8 * lid) (BitVec.ofNat 64 v)) s

/-- Take the shares: the registers that name the lodge, and its words; the generation rises (R364). -/
def takeLodge (lid : Nat) (l : LodgeSt) (hold : Bool) (s : State) : State :=
  let s := s.setLodge lid l
  let s := (List.range (2 ^ l.log2Src / 16)).foldl (fun s i => s.wr .idist (Off.SRC_LID + 4 * (l.srcBase / 16 + i)) (BitVec.ofNat 64 lid)) s
  let s := (List.range l.slots).foldl (fun s i =>
    s.wr .idist (Off.VSLOT_CFG + 16 * (l.slotBase + i)) (BitVec.ofNat 64 (lid * 2 ^ 20 + 2 ^ 29))) s
  let s := l.vfs.foldl (fun s v => s.wr .tp (Off.VF_BIND + 8 * v) (BitVec.ofNat 64 (lid + 512))) s
  let s := l.banks.foldl (fun s b => setOwner b (BitVec.ofNat 64 (3 + lid * 8)) s) s
  let s := putExt lid (hextOf s l) s
  let all := allAttrOffs s lid
  let s := putAttr (holdOffs s lid) 26 26 (b2n hold) s
  let s := putAttr all 24 20 l.fclass (putAttr all 19 14 l.qIo (putAttr all 13 8 l.qCpu (raiseGen lid s)))
  twinRefresh (putAttr all 25 25 1 s)

/-- Fields [39:3] of the CREATE response. -/
def lodgeFields (s : State) (l : LodgeSt) : List Byte :=
  let mask := fun (ks : List Nat) => ks.foldl (fun a k => a + 2 ^ k) 0
  leBytes 1 l.fclass ++ leBytes 1 l.qCpu ++ leBytes 1 l.qIo ++ leBytes 2 l.srcBase ++ leBytes 2 l.slotBase ++ leBytes 6 0 ++
    leBytes 8 (hextOf s l) ++ leBytes 8 (mask l.banks) ++ leBytes 8 (mask l.vfs)

def createRsp (s : State) (lid : Nat) : List Byte :=
  leBytes 2 lid ++ leBytes 1 (s.lodgeSt lid).gen ++ lodgeFields s (s.lodgeSt lid)

def lodgeCreate (c : Cmd) (s : State) : CmdRes :=
  let f := fun hi lo => bytesAt c.body hi lo
  match planLodge ⟨f 1 0, f 2 2, f 3 3, f 4 4, f 5 5, f 7 6, f 8 8, f 9 9⟩ s with
  | .error st => .fail st s
  | .ok (lid, l) =>
    if lodgeLeased s true l.banks then .fail stLeaseHeld s else
    let s := takeLodge lid l false s
    .done stOk (createRsp s lid) s

/-- LODGE_CREATE. -/
def execLodgeCreate (ch tag : Nat) (s : State) : Res := finish s (runBelet 0x0201 ch tag lodgeCreate s)

/-! ## Ending a lodge (R358, R363, R369) -/

/-- Return the shares (step 7 with RELEASE): released banks are always cleared. -/
def releaseLodge (lid : Nat) (s : State) : State :=
  let l := s.lodgeSt lid
  let s := l.vfs.foldl (fun s v => s.wr .tp (Off.VF_BIND + 8 * v) 0) s
  let s := l.vfs.foldl (fun s v => vfRefresh v s) s
  let s := l.banks.foldl (fun s b => setOwner b 0 (startClear b s)) s
  let reset := fun (o : Nat) (s : State) => s.wr .idist o (ocrReset (Blk.idist.base + o))
  let s := (List.range (2 ^ l.log2Src)).foldl (fun s i => reset (Off.SRC + 8 * (l.srcBase + i)) s) s
  let s := (List.range (2 ^ l.log2Src / 16)).foldl (fun s i => reset (Off.SRC_LID + 4 * (l.srcBase / 16 + i)) s) s
  let s := (List.range l.slots).foldl (fun s i =>
    reset (Off.VSLOT_AREA + 16 * (l.slotBase + i)) (reset (Off.VSLOT_CFG + 16 * (l.slotBase + i)) s)) s
  let s := putExt lid 0 s
  let s := s.setLodge lid { gen := l.gen }
  let s := if (usedFc s).contains l.fclass then s
    else allSlices (fun h s => s.wr (.llc h) (Off.FCLASS + 8 * l.fclass) 0x300000FFF) s
  let s := [l.qCpu, l.qIo].foldl (fun s q => if (usedQ s).contains q then s
    else allMcs (fun n s => s.wr (.mc n) (Off.QOS_TARGET + 8 * q) 0x103E8) s) s
  let s := putAttr (allAttrOffs s lid) 25 25 0 s
  holdLodge lid false s

/-- WARM and a power-up of the main domain end every lodge as a RESET with RELEASE, without an event (R363). -/
def endAllLodges (s : State) : State :=
  let s := { s with lodgeWork := [] }
  (liveLodges s).foldl (fun s e =>
    let s := raiseGen e.1 s
    let s := e.2.vfs.foldl (fun s v => startFlr v s) s
    releaseLodge e.1 (idistClearLodge e.1 s)) s

/-! ## LODGE.RESET (R368 to R371) -/

def findWork (s : State) (lid : Nat) : Option LodgeWork := s.lodgeWork.find? (fun w => w.lid == lid)
def setWork (w : LodgeWork) (s : State) : State :=
  { s with lodgeWork := s.lodgeWork.map (fun x => if x.lid = w.lid then w else x) }
def dropWork (lid : Nat) (s : State) : State := { s with lodgeWork := s.lodgeWork.filter (fun w => w.lid != lid) }

/-- Answer the command of a piece of work. -/
def workRespond (w : LodgeWork) (st : Nat) (rsp : List Byte) (s : State) : State :=
  match s.sett.cmds.find? (fun c => c.ord == w.ord) with
  | some c => respond c st rsp s
  | none => s

/-- The RELEASE and CLEAR_HOARD bits of the command. -/
def workFlags (s : State) (w : LodgeWork) : Nat := match s.sett.cmds.find? (fun c => c.ord == w.ord) with | some c => c.aux.headD 0 | none => 0

/-- A step has failed (R371): HOLD stays, nothing is returned. -/
def resetTimeout (w : LodgeWork) (step : Nat) (s : State) : State :=
  let l := s.lodgeSt w.lid
  let s := s.setLodge w.lid { l with state := .frozen, timedOut := true }
  let s := holdLodge w.lid true s
  let s := if step = 4 then report (Blk.tp).inst 18 2 24 0 0 0x1FF 0 s
    else if step = 6 then report (Blk.bchub).inst 11 2 24 0 0 0x1FF 0 s
    else report (Blk.idist).inst 12 2 24 0 0 0x1FF 0 s
  workRespond w stTimeout (leBytes 1 l.gen) (dropWork w.lid s)

/-- Steps 7 and 8, once the banks are clear. -/
def resetFinish (w : LodgeWork) (release : Bool) (s : State) : State :=
  let g := (s.lodgeSt w.lid).gen
  let s := if release then releaseLodge w.lid s
    else holdLodge w.lid false (s.setLodge w.lid { s.lodgeSt w.lid with state := .running, timedOut := false })
  workRespond w stOk (leBytes 1 g) (dropWork w.lid s)

/-- Banks of a lodge that are being cleared. -/
def clearing (s : State) (l : LodgeSt) : Bool := l.banks.any (fun b => (s.hoard (b / 16)).clears.contains b)

/-- A reset that has completed step 6: banks that stay are cleared if asked, banks that go are cleared always. -/
def resetStep7 (w : LodgeWork) (s : State) : State :=
  let fl := workFlags s w
  let l := s.lodgeSt w.lid
  if fl % 2 = 1 ∨ 2 ≤ fl then
    let s := l.banks.foldl (fun s b => startClear b s) s
    if clearing s l then setWork { w with step := 7, due := s.tick } s else resetFinish w (fl % 2 = 1) s
  else resetFinish w false s

/-- Step 5 at the IDIST, then the broadcast of step 6. -/
def resetStep5 (w : LodgeWork) (s : State) : State :=
  let s := idistClearLodge w.lid s
  setWork { w with step := 6, due := s.tick + 2 * us } (queueBcast 0x1FF 4 w.lid 0 0 0 s)

/-- The Sett's broadcast for a LID is still under way. -/
def bcastRuns (s : State) (lid : Nat) : Bool := s.fab.hub.bcasts.any (fun b => b.issuer == 0x1FF && b.lid == lid)

/-! ## LODGE.FREEZE (R372) -/

/-- Requests of the lodge's VFs that are outstanding at the partner. -/
def vfOut (s : State) (l : LodgeSt) : List (Nat × Nat) :=
  (s.port 8).reqs.filterMap (fun q => match q.owner with | .ring v r _ => if l.vfs.contains v ∧ !q.quar then some (v, r) else none | _ => none)

/-- DMA of the lodge that is outstanding. -/
def dmaOut (s : State) (lid : Nat) : Bool :=
  !(vfOut s (s.lodgeSt lid)).isEmpty ||
    (List.range 9).any (fun n => (s.port n).reads.any (fun r => r.lid == lid) || (s.port n).pieces.any (fun x => x.lid == lid))

/-- The lodge is FROZEN. -/
def freezeDone (w : LodgeWork) (ended : Nat) (s : State) : State :=
  workRespond w stOk (leBytes 4 ended) (dropWork w.lid (s.setLodge w.lid { s.lodgeSt w.lid with state := .frozen }))

/-! ## Going on -/

/-- One piece of work goes on as far as it can. -/
def workGo (lid : Nat) (s : State) : State :=
  match findWork s lid with
  | none => s
  | some w =>
    if w.step = 0 then (if dmaOut s lid then s else freezeDone w 0 s)
    else if w.step = 4 then (if (s.lodgeSt lid).vfs.any (fun v => (s.vf v).flr.isSome) then s else resetStep5 w s)
    else if w.step = 6 then (if bcastRuns s lid then s else resetStep7 w s)
    else if clearing s (s.lodgeSt lid) then s
    else resetFinish w (workFlags s w % 2 = 1) s

/-- Every piece of work goes on. -/
def lodgeGo (s : State) : State := (s.lodgeWork.map (·.lid)).foldl (fun s l => workGo l s) s

/-- Steps 1 to 4 of a reset. -/
def lodgeReset (c : Cmd) (s : State) : CmdRes :=
  let lid := c.lid % 512
  let fl := bytesAt c.body 0 0
  if oldOut s lid then .fail stBusy s
  else if lodgeLeased s true (s.lodgeSt lid).banks then .fail stLeaseHeld s
  else
    let vfs := (s.lodgeSt lid).vfs
    let s := raiseGen lid (holdLodge lid true s)
    let s := vfs.foldl (fun s v => startFlr v s) s
    .run [fl] { s with lodgeWork := (s.lodgeWork.filter (fun w => w.lid != lid)) ++ [⟨lid, c.ord, 4, s.tick + 200 * us * vfs.length⟩] }

/-- LODGE_RESET. -/
def execLodgeReset (ch tag : Nat) (s : State) : Res := finish s (lodgeGo (runBelet 0x0202 ch tag lodgeReset s))

/-- A reset whose IDIST read-back of step 2 fails. -/
def lodgeReset2 (c : Cmd) (s : State) : CmdRes :=
  let lid := c.lid % 512
  if oldOut s lid then .fail stBusy s
  else
    let s := resetTimeout ⟨lid, 2 ^ 64, 2, s.tick⟩ 2 { s with tick := s.tick + 20 * us }
    .done stTimeout (leBytes 1 (s.lodgeSt lid).gen) s

/-- LODGE_RESET_TIMEOUT (R371): step 2, 4, 5 or 6 of the reset of a lodge has not completed within twice its bound. -/
def lodgeTimeout (lid step : Nat) (s : State) : State :=
  if step = 2 then
    (match s.sett.cmds.find? (fun c => c.opcode == 0x0202 && c.phase == .accepted && c.lid % 512 == lid) with
    | some c => runBelet 0x0202 c.ch c.tag lodgeReset2 s
    | none => s)
  else match findWork s lid with
    | none => s
    | some w =>
      if w.step = 4 ∧ step = 4 then resetTimeout w 4 (s.toTick w.due)
      else if w.step = 4 ∧ step = 5 then
        -- the FLRs have completed, and the IDIST does not report
        let s := (s.lodgeSt lid).vfs.foldl (fun s v => flrComplete v s) s
        resetTimeout w 5 { s with tick := s.tick + 40 * us }
      else if w.step = 6 ∧ step = 6 then resetTimeout w 6 (s.toTick w.due)
      else s

/-- LODGE_RESET_TIMEOUT. -/
def execLodgeResetTimeout (lid step : Nat) (s : State) : Res := finish s (lodgeTimeout lid step s)

def lodgeFreeze (c : Cmd) (s : State) : CmdRes :=
  let lid := c.lid % 512
  let d := bytesAt c.body 3 0
  if d < 1 ∨ 10000 < d then .fail stBadField s
  else if (s.lodgeSt lid).state ≠ .running then .fail stBusy s
  else if lodgeLeased s false [] then .fail stLeaseHeld s
  else
    let s := holdLodge lid true s
    .run [d] { s with lodgeWork := s.lodgeWork ++ [⟨lid, c.ord, 0, s.tick + d * ms⟩] }

/-- LODGE_FREEZE. -/
def execLodgeFreeze (ch tag : Nat) (s : State) : Res := finish s (lodgeGo (runBelet 0x0203 ch tag lodgeFreeze s))

/-- Requests of the lodge's VFs end in error: their tags go into quarantine and their rings halt. -/
def vfCut (lid : Nat) (out : List (Nat × Nat)) (s : State) : State :=
  let mine := fun (q : OutReq) => match q.owner with | .ring v _ _ => (s.lodgeSt lid).vfs.contains v | _ => false
  let s := tagsReg 8 (s.modPort 8 (fun p => { p with reqs := p.reqs.map (fun q => if mine q then { q with quar := true } else q) }))
  out.eraseDups.foldl (fun s (e : Nat × Nat) => haltRing e.1 e.2 8 s) s

/-- LODGE_DRAIN_TIMEOUT (R372): what the lodge's VFs still have outstanding ends in error, and those rings halt. -/
def execLodgeDrainTimeout (lid : Nat) (s : State) : Res :=
  finish s (match findWork s lid with
    | none => s
    | some w =>
      if w.step ≠ 0 then s else
      let s := s.toTick w.due
      let out := vfOut s (s.lodgeSt lid)
      freezeDone w out.length (vfCut lid out s))

/-! ## RESUME, INFO, EXT_SET, POOLS (R376, R377) -/

/-- R379: what channel 3 does to a lodge is told on channel 1. -/
def twinAct (c : Cmd) (lid : Nat) (s : State) : State :=
  if c.ch = 3 then emit [1] 0x0280 0 0 (leBytes 1 (c.opcode % 256) ++ leBytes 2 lid) s else s

def lodgeResume (c : Cmd) (s : State) : CmdRes :=
  let lid := c.lid % 512
  let l := s.lodgeSt lid
  if l.state ≠ .frozen ∨ l.timedOut then .fail stBusy s
  else if lodgeLeased s false [] then .fail stLeaseHeld s
  else
    let s := holdLodge lid false (s.setLodge lid { l with state := .running })
    .done stOk [] (twinAct c lid s)

/-- LODGE_RESUME. -/
def execLodgeResume (ch tag : Nat) (s : State) : Res := finish s (runBelet 0x0206 ch tag lodgeResume s)

def stateCode : LodgeState → Nat | .free => 0 | .running => 1 | .frozen => 2

def lodgeInfo (c : Cmd) (s : State) : CmdRes :=
  let lid := c.lid % 512
  let l := s.lodgeSt lid
  .done stOk (leBytes 1 (stateCode l.state) ++ leBytes 1 l.gen ++ leBytes 1 (b2n (oldOut s lid)) ++
    (if l.state = .free then leBytes 37 0 else lodgeFields s l) ++ leBytes 1 (if l.twin then 3 else 0)) s

/-- LODGE_INFO. -/
def execLodgeInfo (ch tag : Nat) (s : State) : Res := finish s (runBelet 0x0207 ch tag lodgeInfo s)

def lodgeExtSet (c : Cmd) (s : State) : CmdRes :=
  let lid := c.lid % 512
  let n := bytesAt c.body 1 0
  if 4096 < n then .fail stBadField s
  else if lodgeLeased s false [] then .fail stLeaseHeld s
  else
    let s := s.setLodge lid { s.lodgeSt lid with count := n }
    let v := hextOf s (s.lodgeSt lid)
    .done stOk (leBytes 8 v) (putExt lid v s)

/-- LODGE_EXT_SET. -/
def execLodgeExtSet (ch tag : Nat) (s : State) : Res := finish s (runBelet 0x0208 ch tag lodgeExtSet s)

/-- Response of LODGE.POOLS. -/
def poolsRsp (s : State) : List Byte :=
  let p := s.pools
  leBytes 8 0 ++ leBytes 8 p.arena ++ leBytes 2 p.extSlots ++ leBytes 2 p.srcBase ++ leBytes 2 p.srcCount ++ leBytes 8 p.hoardMask ++
    leBytes 2 (liveLodges s).length

def lodgePools (c : Cmd) (s : State) : CmdRes :=
  let f := fun hi lo => bytesAt c.body hi lo
  let a := f 15 8
  let n := f 17 16
  let sb := f 19 18
  let sc := f 21 20
  let hm := f 29 22
  if 1 < f 0 0 then .fail stBadField s
  else if f 0 0 = 0 then .done stOk (poolsRsp s) s
  else if a % 0x10000 ≠ 0 ∨ n < 1 ∨ 511 < n ∨ s.org.mapped < a + n * 0x10000 ∨ sb % 1024 ≠ 0 ∨ sb < 1024 ∨ sc % 1024 ≠ 0 ∨ 8192 < sb + sc ∨
      hm.testBit 32 then .fail stBadField s
  else if !(liveLodges s).isEmpty then .fail stBusy s
  else .commit [.lodgePools a n sb sc hm] s

/-- LODGE_POOLS. -/
def execLodgePools (ch tag : Nat) (s : State) : Res := finish s (runBelet 0x0209 ch tag lodgePools s)

/-- The pools as journalled (R358). -/
def loadPools (s : State) : State :=
  match s.flash.jst.pools with
  | some (a, n, sb, sc, hm) => { s with pools := ⟨a, n, sb, sc, hm⟩ }
  | none => s

/-- The commit of a LODGE.POOLS. -/
def poolsCommit (c : Cmd) (s : State) : State :=
  let s := loadPools s
  respond c stOk (poolsRsp s) s

/-! ## SAVE and RESTORE (R374, R375) -/

/-- A source's record. -/
def srcRec (s : State) (id : Nat) : List Byte :=
  leBytes 1 (srcF s id 5 0 + srcF s id 32 32 * 64 + srcF s id 33 33 * 128) ++ leBytes 1 (srcF s id 23 16) ++ leBytes 2 0

/-- A VF's record. -/
def vfRec (s : State) (v : Nat) : List Byte :=
  let ring := fun (r : Nat) =>
    let b := s.rd (.vf v) (Off.RING_BASE + 0x20 * r)
    leBytes 8 (fld b 47 5 * 32) ++ leBytes 1 (fld b 3 0) ++ leBytes 3 0 ++ leBytes 4 (ringHead s v r) ++ leBytes 4 (ringTail s v r) ++
      leBytes 1 (b2n (ringState s v r == 2 || ringState s v r == 3)) ++ leBytes 11 0
  let win := fun (w : Nat) =>
    let x := winLive s v w
    leBytes 8 (fld x 47 12 * 4096) ++ leBytes 1 (fld x 6 1) ++ leBytes 1 (fld x 0 0) ++ leBytes 1 (winGen s v w) ++ leBytes 5 0
  let vec := fun (n : Nat) =>
    let (a, d, m, _) := smGet (fun _ => (0, 0, true, false)) (s.vf v).msix n
    leBytes 8 a ++ leBytes 4 d ++ leBytes 1 (b2n m) ++ leBytes 3 0
  leBytes 16 0 ++ (List.range 2).flatMap ring ++ (List.range 4).flatMap win ++ (List.range 4).flatMap vec ++ leBytes 48 0

/-- The blob of a lodge. -/
def lodgeBlob (s : State) (lid : Nat) : List Byte :=
  let l := s.lodgeSt lid
  let q := fun (k : Nat) =>
    let w := s.rd (.mc 0) (Off.QOS_TARGET + 8 * k)
    leBytes 2 (fld w 15 0) ++ leBytes 1 (fld w 16 16)
  let fc := fclassReg s 0 l.fclass
  let srcs := (List.range (2 ^ l.log2Src)).flatMap (fun i => srcRec s (l.srcBase + i))
  let vfs := l.vfs.flatMap (vfRec s)
  let len := 128 + 4 * 2 ^ l.log2Src + 256 * l.vfs.length
  let body := leBytes 4 (s.rd .sett Off.SETT_ID).toNat ++ leBytes 2 lid ++ leBytes 1 l.gen ++ leBytes 1 0 ++ leBytes 8 s.settTime ++
    leBytes 1 l.log2Src ++ leBytes 2 l.slots ++ leBytes 1 l.vfs.length ++ leBytes 1 l.banks.length ++ leBytes 27 0 ++
    q l.qCpu ++ q l.qIo ++ leBytes 2 (fld fc 11 0) ++ leBytes 2 (fld fc 27 16) ++ leBytes 1 (fld fc 33 32) ++ leBytes 1 0 ++
    leBytes 2 l.count ++ leBytes 2 0 ++ leBytes 8 (hextOf s l) ++ leBytes 40 0 ++ srcs ++ vfs
  leBytes 4 0x47444F4C ++ leBytes 2 1 ++ leBytes 2 0 ++ leBytes 4 len ++ leBytes 4 (crc32c body) ++ body

def lodgeSave (c : Cmd) (s : State) : CmdRes :=
  let lid := c.lid % 512
  let b := lodgeBlob s lid
  if (s.lodgeSt lid).state ≠ .frozen then .fail stBusy s
  else if !bufOk s c ∨ bufLen c < b.length then .fail stBadBuffer s
  else .done stOk (leBytes 4 b.length) (settWr (bufPa c) b s)

/-- LODGE_SAVE. -/
def execLodgeSave (ch tag : Nat) (s : State) : Res := finish s (runBelet 0x0204 ch tag lodgeSave s)

/-- Whether the bytes are a blob (R375). -/
def blobOk (b : List Byte) : Bool :=
  let f := fun hi lo => bytesAt b hi lo
  let len := f 11 8
  (f 3 0 == 0x47444F4C) && decide (f 5 4 ≤ 1) && decide (4 ≤ f 32 32) && decide (f 32 32 ≤ 10) && decide (f 35 35 ≤ 16) &&
    (len == 128 + 4 * 2 ^ f 32 32 + 256 * f 35 35) && decide (len ≤ b.length) && (f 15 12 == crc32c ((b.take len).drop 16))

/-- Write a source's saved state. -/
def putSrcRec (id : Nat) (b : List Byte) (s : State) : State :=
  let v := leNat b
  let s := setSrcF id 5 0 (v % 64) s
  let s := setSrcF id 9 9 1 (setSrcF id 23 16 (v / 256 % 256) s)
  setSrcF id 33 33 (v / 128 % 2) (setSrcF id 32 32 (v / 64 % 2) s)

/-- Write a VF's saved record: rings that were held or halted come back enabled and held, each window is committed. -/
def putVfRec (v : Nat) (b : List Byte) (s : State) : State :=
  let f := fun (o n : Nat) => leNat ((b.drop o).take n)
  let s := (List.range 2).foldl (fun s r =>
    let o := 16 + 32 * r
    let s := s.wr (.vf v) (Off.RING_BASE + 0x20 * r) (BitVec.ofNat 64 (f o 8 % 2 ^ 48 / 32 * 32 + f (o + 8) 1 % 16))
    let s := (s.wf (.vf v) (Off.RING_HEAD + 0x20 * r) 12 0 (f (o + 12) 4)).wf (.vf v) (Off.RING_TAIL + 0x20 * r) 12 0 (f (o + 16) 4)
    let s := s.modVf v (fun x => x.setNext r (f (o + 12) 4))
    s.wf (.vf v) Off.VF_CTL r r (f (o + 20) 1 % 2)) s
  let s := (List.range 4).foldl (fun s w =>
    let o := 80 + 16 * w
    s.wr (.vf v) (Off.WIN_STG + 0x20 * w) (BitVec.ofNat 64 (f o 8 % 2 ^ 48 / 4096 * 4096 + (f (o + 8) 1 % 64) * 2 + f (o + 9) 1 % 2))) s
  let s := winCommit v 15 s
  let msix := (List.range 4).foldl (fun m n =>
    let o := 144 + 16 * n
    smSet (fun _ => (0, 0, true, false)) m n (f o 8, f (o + 8) 4, f (o + 12) 1 % 2 == 1, false)) (s.vf v).msix
  s.modVf v (fun x => { x with msix := msix })

/-- Apply a blob's settings to a new class or port. -/
def putBlobPools (b : List Byte) (l : LodgeSt) (newFc newQc newQi : Bool) (s : State) : State :=
  let f := fun hi lo => bytesAt b hi lo
  let q := fun (k o : Nat) (s : State) =>
    allMcs (fun n s => s.wr (.mc n) (Off.QOS_TARGET + 8 * k) (BitVec.ofNat 64 (max 16 (f (o + 1) o) + (f (o + 2) (o + 2) % 2) * 65536))) s
  let fc := BitVec.ofNat 64 (f 0x47 0x46 % 4096 + (f 0x49 0x48 % 4096) * 2 ^ 16 + (f 0x4A 0x4A % 4) * 2 ^ 32)
  let s := if newFc then allSlices (fun h s => if fclassOk s h l.fclass fc then s.wr (.llc h) (Off.FCLASS + 8 * l.fclass) fc else s) s else s
  let s := if newQc then q l.qCpu 0x40 s else s
  if newQi then q l.qIo 0x43 s else s

/-- Make lodge `lid`, with the shares `l`, from a blob: frozen, held, and with the blob's settings (R375). -/
def restoreAs (c : Cmd) (b : List Byte) (lid : Nat) (l : LodgeSt) (s : State) : State :=
  let f := fun hi lo => bytesAt c.body hi lo
  let l := { l with state := .frozen, twin := c.ch = 3, count := min 4096 (bytesAt b 0x4D 0x4C) }
  let s := takeLodge lid l true s
  let s := putBlobPools b l (f 18 18 = 0x20) (f 19 19 = 0x40) (f 20 20 = 0x40) s
  let s := (List.range (2 ^ l.log2Src)).foldl (fun s i => putSrcRec (l.srcBase + i) ((b.drop (0x80 + 4 * i)).take 4) s) s
  let base := 0x80 + 4 * 2 ^ l.log2Src
  let s := (l.vfs.zipIdx).foldl (fun s (e : Nat × Nat) => putVfRec e.1 ((b.drop (base + 256 * e.2)).take 256) s) s
  twinAct c lid (twinRefresh s)

def lodgeRestore (c : Cmd) (s : State) : CmdRes :=
  let f := fun hi lo => bytesAt c.body hi lo
  if !bufOk s c then .fail stBadBuffer s
  else match bufPoisoned s (bufPa c) (bufLen c) with
  | some ln => poisonFail ln s
  | none =>
    let b := settRd s (bufPa c) (min (bufLen c) 8320)
    let s := cohLook (bufPa c) (min (bufLen c) 8320) s
    if !blobOk b then .fail stBadField s
    else
      let g := fun hi lo => bytesAt b hi lo
      match planLodge ⟨f 17 16, f 18 18, f 19 19, f 20 20, g 32 32, g 34 33, g 36 36, g 35 35⟩ s with
      | .error st => .fail st s
      | .ok (lid, l) =>
        if lodgeLeased s true l.banks then .fail stLeaseHeld s else
        let s := restoreAs c b lid l s
        .done stOk (createRsp s lid) s

/-- LODGE_RESTORE. -/
def execLodgeRestore (ch tag : Nat) (s : State) : Res := finish s (runBelet 0x0205 ch tag lodgeRestore s)

/-! ## Rows whose event a lodge command may wait for -/

/-- DATA (R280, R281). -/
def execData (m : Msg) (s : State) : Res := finish s (lodgeGo (dataArr m s))
/-- GNT_X (R280). -/
def execGntX (m : Msg) (s : State) : Res := finish s (lodgeGo (gntX m s))
/-- WR_GO (R283). -/
def execWrGo (m : Msg) (s : State) : Res := finish s (lodgeGo (wrGoArr m s))
/-- CMP (R283, R285). -/
def execCmp (m : Msg) (s : State) : Res := finish s (lodgeGo (cmpArr m s))
/-- UC_DATA (R283). -/
def execUcData (m : Msg) (s : State) : Res := finish s (lodgeGo (ucData m s))
/-- DEAD (R290). -/
def execDead (stop agent : Nat) (s : State) : Res := finish s (lodgeGo (deadAt stop agent s))
/-- BCAST_ACK (R189). -/
def execBcastAck (agent id : Nat) (s : State) : Res := finish s (lodgeGo (bcastAck agent id s))
/-- BCAST_ACK_TIMEOUT (R193, R289). -/
def execBcastAckTimeout (agent id : Nat) (s : State) : Res := finish s (lodgeGo (bcastAckTimeout agent id s))
/-- HOARD_CLEAR_END (R454). -/
def execHoardClearEnd (bank : Nat) (s : State) : Res := finish s (lodgeGo (clearEnd bank s))
/-- PCIE_COMPLETION: `status` 0 SC, 1 UR, 2 CRS, 4 CA, 3 for one that fails an enabled ECRC check; `low`: lower address (R406, R431). -/
def execPcieCompletion (port tag status low : Nat) (data : List Byte) (ep : Bool) (s : State) : Res :=
  finish s (lodgeGo (pcieCompletion port tag status low data ep s))
/-- COMPLETION_TIMEOUT (R413). -/
def execCompletionTimeout (port tag : Nat) (s : State) : Res := finish s (lodgeGo (cplTimeout port tag s))
/-- TAG_QUARANTINE_END (R413). -/
def execTagQuarantineEnd (port tag : Nat) (s : State) : Res := finish s (lodgeGo (tagQuarantineEnd port tag s))
/-- DESCRIPTOR_COMPLETE (R431). -/
def execDescriptorComplete (vf ring idx : Nat) (s : State) : Res := finish s (lodgeGo (descComplete vf ring idx s))
/-- FLR_COMPLETE (R437). -/
def execFlrComplete (vf : Nat) (s : State) : Res := finish s (lodgeGo (flrComplete vf s))

end Sys2Proof.Machine
end

