-- ==== Sys2Proof/Machine/Power.lean ====
section
/-! DEFINITION. Supplies, the power ceiling, clock grants, temperature and the registers of the PWRC and the islands
(chapter 21, R577, R578). -/
namespace Sys2Proof.Machine

/-! ## Domains (R519) -/

/-- The power domain of a window: 0 Sett, 1 main, 2 memory interface, 3 I/O. Detail windows belong to the Sett domain
(R485), and every router to the mesh island. -/
def domOf : Blk → Nat
  | .mesh _ => 1
  | .isl st => (match islKind st with | 2 => 2 | 3 => 3 | 5 => 0 | _ => 1)
  | .core _ | .llc _ | .warren _ | .hoard _ | .idist | .bchub => 1
  | .mc _ => 2
  | .rc _ | .tp | .vf _ => 3
  | .err _ _ | .sett | .owl | .pwrc => 0

/-- The window of the unit with an instance number (R60). -/
def unitBlk (inst : Nat) : Blk :=
  let st := inst % 256
  match inst / 256 with
  | 0 => .mesh st
  | 1 => .isl st
  | 2 => .err st 0
  | 4 => if isTileStop st then .core (2 * (st - 17)) else edgeBlk st
  | 5 => .core (2 * (st - 17) + 1)
  | 6 => .llc (st - 17)
  | _ => .warren (st - 17)



/-- A domain is powered. -/
def domOn (s : State) : Nat → Bool
  | 0 => !s.modeFlag 0
  | 1 => s.pwr.mainOn
  | 2 => s.pwr.memOn
  | _ => s.pwr.ioOn

/-- Tile island clocks are stopped: in SAFE, and from a power-fail warning until the domain is off. -/
def clocksStopped (s : State) : Bool := s.modeFlag 11

/-- CORE0 or CORE1 of PSTATE (R537). -/
def corePstate (s : State) (p : Nat) : Nat :=
  let c := s.core p
  if !c.on then 0
  else if c.dead || clocksStopped s then 5
  else match c.sleep with
    | .asleep 0 => 2
    | .asleep 1 => 3
    | .asleep _ => 4
    | _ => 1

/-- ISL.PSTATE of a stop, as it reads now. -/
def pstateReg (s : State) (st : Nat) : Word :=
  let d := domOf (.isl st)
  let i := if !domOn s d then 0 else if d = 1 ∧ inRetention s then 2 else 1
  let c := if isTileStop st ∧ s.pwr.mainOn then corePstate s (2 * (st - 17)) * 4 + corePstate s (2 * (st - 17) + 1) * 32 else 0
  BitVec.ofNat 64 (i + c)

/-! ## Feeds, pins and interrupt sources (R514, R515, R525, R541) -/

/-- VIN: the higher feed, in 10 mV units. -/
def State.vin (s : State) : Nat := max s.pwr.vinA s.pwr.vinB

/-- The PWRC's level sources 192 to 195; the IDIST sees them while it is powered. -/
def pwrIrqs (s : State) : State :=
  if !s.pwr.mainOn then s else
  let s := driveLevel 192 (s.modeFlag 4) s
  let s := driveLevel 193 (!s.pwr.hotN) s
  let s := driveLevel 194 (s.rf .pwrc Off.SUPPLY 4 4 == 1) s
  driveLevel 195 (s.rf .pwrc Off.SUPPLY 1 0 != 3) s

/-- HOT_N follows the tiles (R525, R528): it is deasserted in STANDBY and in DEN. -/
def hotPin (s : State) : State :=
  { s with pwr := { s.pwr with hotN := s.pwr.hot.isEmpty || !s.pwr.mainOn || s.modeFlag 8 } }

/-- The feed that carries VIN. -/
def carrying (s : State) : State := s.wf .pwrc Off.SUPPLY 2 2 (b2n (decide (s.pwr.vinA < s.pwr.vinB)))

def setFeeds (va vb : Nat) (s : State) : State := carrying { s with pwr := { s.pwr with vinA := va, vinB := vb } }
def setFeed (f v : Nat) (s : State) : State := if f = 0 then setFeeds v s.pwr.vinB s else setFeeds s.pwr.vinA v s

/-- The ratings of R569 are exceeded. -/
def overRated (v : Nat) : Bool := decide (7500 < v)

/-- A feed of the pair stops being OK while the other carries VIN (R515). -/
def feedLost (f v : Nat) (s : State) : State :=
  if 2 ≤ f ∨ 870 ≤ v ∨ s.modeFlag 0 ∨ s.pwr.coldHeld then s else
  let s := setFeed f v s
  if s.rf .pwrc Off.SUPPLY f f = 0 ∨ s.vin < 870 then s
  else
    let s := s.wf .pwrc Off.SUPPLY f f 0
    let s := { s with pwr := if f = 0 then { s.pwr with lostA := true } else { s.pwr with lostB := true } }
    let s := report (Blk.pwrc).inst 21 1 24 0 f 0x1FF 0 s
    pwrIrqs (emit [0, 1, 2] 0x0780 0 0 (leBytes 1 f ++ leBytes 1 0 ++ leBytes 2 v) s)

/-- A feed has stood at or above 8.8 V for 100 ms: it is OK, and a loss that was reported is reported over. -/
def feedRestored (f v : Nat) (s : State) : State :=
  if 2 ≤ f ∨ v < 880 ∨ s.modeFlag 0 ∨ s.pwr.coldHeld then s else
  let s := setFeed f v s
  if s.rf .pwrc Off.SUPPLY f f = 1 then s
  else
    let s := s.wf .pwrc Off.SUPPLY f f 1
    let was := if f = 0 then s.pwr.lostA else s.pwr.lostB
    let s := { s with pwr := if f = 0 then { s.pwr with lostA := false } else { s.pwr with lostB := false } }
    pwrIrqs (if was then emit [0, 1, 2] 0x0780 0 0 (leBytes 1 f ++ leBytes 1 1 ++ leBytes 2 v) s else s)

/-- FEED_LOST (R515). -/
def execFeedLost (feed v : Nat) (s : State) : Res := finish s (feedLost feed v s)

/-- FEED_RESTORED (R515). -/
def execFeedRestored (feed v : Nat) (s : State) : Res :=
  if overRated v then .fault .beyondRatings else finish s (feedRestored feed v s)

/-! ## Grants (R526) -/

def flimNow (s : State) : Nat := s.rf .pwrc Off.SUPPLY 13 8
def iinLimit (s : State) : Nat := s.rf .pwrc Off.PWRC_CFG 5 0
def tlimOf (s : State) (t : Nat) : Nat := smGet (fun _ => 36) s.pwr.tlim t

/-- Put a grant in force: the cycle counts of the tile's cores go on from where they stand. -/
def setGrant (t g : Nat) (s : State) : State :=
  if s.rf (.isl (tileStop t)) Off.ISL_FREQ 13 8 = g then s else
  let rebase := fun (p : Nat) (s : State) =>
    if (smFind s.cores p).isSome then
      let n := cycleNow s p
      s.modCore p (fun c => { c with cycBase := n, cycFrom := s.tick })
    else s
  (rebase (2 * t + 1) (rebase (2 * t) s)).wf (.isl (tileStop t)) Off.ISL_FREQ 13 8 g

/-- LIMIT and GRANT of a tile island. -/
def regrant (t : Nat) (s : State) : State :=
  let lim := min (flimNow s) (tlimOf s t)
  let s := s.wf (.isl (tileStop t)) Off.ISL_FREQ 21 16 lim
  setGrant t (min (s.rf (.isl (tileStop t)) Off.ISL_FREQ 5 0) lim) s

def regrantAll (s : State) : State := (List.range 136).foldl (fun s t => regrant t s) s

/-- A write of ISL.FREQ that would leave REQ at `r` (R526, R537). The two stops of the mesh island share one setting,
written at S(9,0). -/
def freqWrite (st r : Nat) (s : State) : State :=
  if isTileStop st then
    (if 12 ≤ r ∧ r ≤ 36 then regrant (st - 17) (s.wf (.isl st) Off.ISL_FREQ 5 0 r) else s)
  else if st = 9 then
    (if 10 ≤ r ∧ r ≤ 24 ∧ (s.modeFlag 2 ∨ s.modeFlag 10) then
      [8, 9].foldl (fun s k => (s.wf (.isl k) Off.ISL_FREQ 5 0 r).wf (.isl k) Off.ISL_FREQ 13 8 r) s
    else s)
  else s

/-! ## The measuring window (R516, R527, R528) -/

/-- The conditions under which FLIM keeps the all-core base. -/
def baseHolds (s : State) (vin : Nat) : Bool := decide (2000 ≤ vin) && iinLimit s == 32 && s.pwr.hot.isEmpty

/-- Enter or leave CAPPED (R514, R516), and tell. -/
def setCapped (b : Bool) (s : State) : State :=
  let s := setMode 4 b s
  pwrIrqs (emit [0, 1, 2] 0x0781 0 0 (leBytes 1 (b2n !b) ++ leBytes 2 (s.rf .pwrc Off.SUPPLY 25 16) ++ leBytes 1 (flimNow s)) s)

/-- CAPPED holds while VIN is below 20.0 V or IIN_LIMIT below 32; it ends once VIN has stood at 20.5 V for 10 ms. `from_`:
the tick from which a VIN at or above 20.5 V is known to have stood. -/
def capCheck (vin from_ : Nat) (s : State) : State :=
  let since := if vin < 2050 then none else some (s.pwr.uncapFrom.getD from_)
  let s := { s with pwr := { s.pwr with uncapFrom := since } }
  if vin < 2000 ∨ iinLimit s < 32 then (if s.modeFlag 4 then s else setCapped true s)
  else if s.modeFlag 4 then
    (match since with
    | some t => if t + 10 * ms ≤ s.tick then setCapped false s else s
    | none => s)
  else s

/-- FLIM at a closing tick (R527). -/
def nextFlim (s : State) (vin ceil p : Nat) : Nat :=
  let f := flimNow s
  let low := if baseHolds s vin then 24 else 12
  let g := if 98 * ceil ≤ 100 * p then f - 1 else if 100 * p < 90 * ceil then f + 1 else f
  max low (min 36 g)

/-- Quarter degrees of a TEMP field. -/
def tempOf (n : Nat) : Int := if n < 512 then (n : Int) else (n : Int) - 1024
def tempBits (t : Int) : Nat := (t % 1024).toNat

/-- TLIM of every tile (R528). -/
def nextTlim (s : State) : SMap Nat :=
  (List.range 136).foldl (fun m t =>
    let n := tempOf (s.rf (.isl (tileStop t)) Off.ISL_TEMP 9 0)
    let k := tlimOf s t
    smSet (fun _ => 36) m t (if 400 ≤ n then max 12 (k - 1) else if n < 380 then min 36 (k + 1) else k)) s.pwr.tlim

/-- The hottest tile of the window: the highest of what the sensors show and what they converted; ties go to the lower
tile. -/
def hottestTile (s : State) : Int × Nat :=
  let now := (List.range 136).map (fun t => (tempOf (s.rf (.isl (tileStop t)) Off.ISL_TEMP 9 0), t))
  let all := (match s.pwr.hottest with | some e => [e] | none => []) ++ now
  all.foldl (fun (a : Int × Nat) (e : Int × Nat) => if a.1 < e.1 ∨ (a.1 = e.1 ∧ e.2 < a.2) then e else a) (all.headD (0, 0))

/-- POWER_WINDOW_TICK: the averages of the window are `va`, `vb` (10 mV), `iin` (10 mA) and `p` (W). -/
def windowTick (va vb iin p : Nat) (s : State) : State :=
  if s.modeFlag 0 ∨ s.sett.timeStill ∨ s.pwr.coldHeld then s else
  let k := max s.pwr.window (s.settTime / 1000) + 1
  let s := s.toTick (s.tickOfTime (k * 1000))
  let vin := max va vb
  let lim := iinLimit s
  let ceil := min 560 (vin * lim * 92 / 10000)
  let s := { s with pwr := { s.pwr with window := k } }
  let s := s.wr .pwrc Off.PWRC_VIN (BitVec.ofNat 64 (min 0xFFFF va + (min 0xFFFF vb) <<< 16 + (min 0xFFFF iin) <<< 32 + (min 0xFFFF p) <<< 48))
  let s := s.wf .pwrc Off.SUPPLY 25 16 ceil
  let s := s.wf .pwrc Off.SUPPLY 13 8 (nextFlim s vin ceil p)
  let s := { s with pwr := { s.pwr with tlim := nextTlim s } }
  let quiet := s.pwr.clampQuiet && decide (100 * iin < 9500 * lim)
  let s := if s.rf .pwrc Off.SUPPLY 4 4 = 1 ∧ quiet ∧ !(flimNow s == 12 && decide (ceil < p)) then s.wf .pwrc Off.SUPPLY 4 4 0 else s
  let h := hottestTile s
  let s := { s with pwr := { s.pwr with clampQuiet := true, hottest := none } }
  let s := s.wr .pwrc Off.THERM (BitVec.ofNat 64 (tempBits h.1 + h.2 <<< 10 + (b2n !s.pwr.hotN) <<< 18))
  let s := if s.pwr.mainOn then regrantAll s else s
  let s := capCheck vin (s.tick - ms) s
  let s := if 6000 < vin ∧ vin ≤ 6500 then report (Blk.pwrc).inst 21 0 24 0 0 0x1FF 0 s else s
  pwrIrqs s

/-- POWER_WINDOW_TICK (R516). -/
def execPowerWindowTick (va vb iin pchip : Nat) (s : State) : Res :=
  if overRated va ∨ overRated vb then .fault .beyondRatings else finish s (windowTick va vb iin pchip s)

/-- CLAMP_SAMPLE (R527): `iin` in 10 mA units. -/
def clampSample (iin : Nat) (s : State) : State :=
  if s.modeFlag 0 ∨ s.sett.timeStill ∨ s.pwr.coldHeld then s else
  let lim := iinLimit s
  let s := if 95 * lim ≤ iin then { s with pwr := { s.pwr with clampQuiet := false } } else s
  if 100 * lim ≤ iin then pwrIrqs (s.wf .pwrc Off.SUPPLY 4 4 1) else s

/-- CLAMP_SAMPLE (R527). -/
def execClampSample (iin : Nat) (s : State) : Res := finish s (clampSample iin s)

/-! ## Spread spectrum (R529) -/

/-- A write of ISL.SSC that would leave `v`: it waits for the next period or relock. -/
def sscWrite (st : Nat) (v : Word) (s : State) : State :=
  let k := islKind st
  if k = 3 ∨ k = 5 then s else
  let old := s.rd (.isl st) Off.ISL_SSC
  let d := if fld v 3 0 ≤ (if k = 2 then 5 else 10) then fld v 3 0 else fld old 3 0
  s.wr (.isl st) Off.ISL_SSC (BitVec.ofNat 64 (d + (fld v 5 4) <<< 4 + (fld v 11 8) <<< 8 + 1 <<< 12))

/-- SSC_APPLY (R529): staged settings take effect. -/
def execSscApply (stop : Nat) (s : State) : Res :=
  finish s (if islKind stop = 3 ∨ islKind stop = 5 then s else s.wf (.isl stop) Off.ISL_SSC 12 12 0)

/-! ## PWR.STATUS, DVFS and SSC (R538) -/

def pwrStatus (_c : Cmd) (s : State) : CmdRes :=
  .done stOk (leBytes 1 s.mode ++ leBytes 1 0 ++ leBytes 2 (s.rf .pwrc Off.MODE_FLAGS 11 0) ++ leBytes 8 (s.rd .pwrc Off.PWRC_VIN).toNat ++
    leBytes 4 (s.rd .pwrc Off.SUPPLY).toNat ++ leBytes 4 (s.rd .pwrc Off.PWRC_WAKE_SRC).toNat ++ leBytes 8 (s.rd .pwrc Off.DEN_LAST).toNat) s

/-- PWR_STATUS. -/
def execPwrStatus (ch tag : Nat) (s : State) : Res := finish s (runBelet 0x0701 ch tag pwrStatus s)

/-- Instance of a stop's island (part 1). -/
def islInst (st : Nat) : Nat := (Blk.isl st).inst

def pwrDvfs (c : Cmd) (s : State) : CmdRes :=
  let f := fun hi lo => bytesAt c.body hi lo
  let tiles := (List.range (f 2 2)).map (fun i => f 1 1 + i)
  let grants := fun (s : State) => tiles.map (fun t => s.rf (.isl (tileStop t)) Off.ISL_FREQ 13 8)
  let rsp := fun (s : State) =>
    leBytes 1 ((grants s).foldl (fun a b => min a b) 63) ++ leBytes 1 ((grants s).foldl (fun a b => max a b) 0) ++ leBytes 1 (flimNow s)
  if 1 < f 0 0 ∨ f 2 2 = 0 ∨ 136 < f 1 1 + f 2 2 ∨ (f 0 0 = 1 ∧ (f 3 3 < 12 ∨ 36 < f 3 3)) then .fail stBadField s
  else if f 0 0 = 0 then .done stOk (rsp s) s
  else if tiles.any (fun t => s.leased (islInst (tileStop t))) then .fail stLeaseHeld s
  else
    let s := tiles.foldl (fun s t => freqWrite (tileStop t) (f 3 3) s) s
    .done stOk (rsp s) s

/-- PWR_DVFS. -/
def execPwrDvfs (ch tag : Nat) (s : State) : Res := finish s (runBelet 0x0703 ch tag pwrDvfs s)

/-- The island that an INSTANCE names for PWR.SSC. -/
def sscStop (i : Nat) : Option Nat :=
  if i / 256 = 1 ∧ i % 256 < 170 ∧ islKind (i % 256) ≠ 3 ∧ islKind (i % 256) ≠ 5 then some (i % 256) else none

def pwrSsc (c : Cmd) (s : State) : CmdRes :=
  let f := fun hi lo => bytesAt c.body hi lo
  let all : Bool := f 1 0 == 0xFFFF
  let stops := if all then (List.range 136).map tileStop else (sscStop (f 1 0)).toList
  let st := stops.headD 0
  let rsp := fun (s : State) => leBytes 4 (s.rd (.isl st) Off.ISL_SSC).toNat
  if stops.isEmpty ∨ 1 < f 2 2 then .fail stBadField s
  else if f 2 2 = 0 then .done stOk (rsp s) s
  else if (if islKind st = 2 then 5 else 10) < f 3 3 ∨ 3 < f 4 4 ∨ (15 < f 5 5 ∧ f 5 5 ≠ 0xFF) then .fail stBadField s
  else if stops.any (fun k => s.leased (islInst k)) then .fail stLeaseHeld s
  else
    let put := fun (s : State) (k : Nat) =>
      let ph := if f 5 5 = 0xFF then s.rf (.isl k) Off.ISL_SSC 11 8 else f 5 5
      sscWrite k (BitVec.ofNat 64 (f 3 3 + (f 4 4) <<< 4 + ph <<< 8)) s
    let s := stops.foldl put s
    .done stOk (rsp s) s

/-- PWR_SSC. -/
def execPwrSsc (ch tag : Nat) (s : State) : Res := finish s (runBelet 0x0704 ch tag pwrSsc s)

end Sys2Proof.Machine
end

