-- ==== Sys2Proof/Machine/Domains.lean ====
section
/-! DEFINITION. Power domains going off and on, COLD, bring-up, hand-off and WARM (chapters 20 to 22). -/
namespace Sys2Proof.Machine

/-! ## The sparing map (R500, R502, R510) -/

/-- Write back the registers of the sparing map whose window satisfies `p`. -/
def applySpare (p : Blk → Bool) (s : State) : State :=
  s.flash.jst.spareRegs.foldl (fun s (e : Nat × Word) =>
    match blkOf e.1 with
    | some (b, _) => if p b then s.wrOff e.1 e.2 else s
    | none => s) s

/-- Put a kind's thresholds into the WDCFG registers; a core whose window is off takes them when it has power again (R35). -/
def putWear (k : Nat) (w : WearCfg) (s : State) : State :=
  let v := BitVec.ofNat 64 (b2n w.autoEn + w.thresh <<< 8 + w.windowS <<< 16)
  if k = 0 then (List.range 272).foldl (fun s p => if coreOff s p then s else s.wr (.core p) Off.L2_WDCFG v) s
  else if k = 1 then (List.range 136).foldl (fun s h => s.wr (.llc h) Off.LLC_WDCFG v) s
  else if k = 2 then (List.range 136).foldl (fun s h => s.wr (.warren h) Off.WARREN_WDCFG v) s
  else s

/-- The journalled thresholds of some hardware kinds (R500). -/
def applyWear (ks : List Nat) (s : State) : State :=
  (s.flash.jst.wear.filter (fun (e : Nat × WearCfg) => ks.contains e.1)).foldl (fun (s : State) (e : Nat × WearCfg) => putWear e.1 e.2 s) s

def isMeshBlk : Blk → Bool | .mesh _ => true | _ => false
def isSliceBlk : Blk → Bool | .llc _ => true | .warren _ => true | _ => false
def isHoardBlk : Blk → Bool | .hoard _ => true | _ => false
def isCoreBlk : Blk → Bool | .core _ => true | _ => false

/-- L2_STATUS of every core whose ways are not as COLD leaves them follows its L2_WAYCFG (R222). -/
def waysAgain (s : State) : State :=
  (s.ocr.filterMap (fun (e : Nat × Word) => match blkOf e.1 with | some (.core p, o) => if o = Off.L2_WAYCFG then some p else none | _ => none)).foldl
    (fun s p => l2StatusSync p s) s

/-- Step 7 of R502: CORE_MAP into HART_MAP. -/
def loadMap (s : State) : State :=
  s.served.foldl (fun s (e : Nat × Nat) => s.wr .idist (Off.HART_MAP + 8 * e.1) (BitVec.ofNat 64 (e.2 + 512))) s

/-- A hart ID without a core. -/
def vacantHart (s : State) : Bool := (List.range 256).any (fun h => (s.pcnOf h).isNone)

/-- Ways in service of a map register. -/
def waysOf (s : State) (b : Blk) (o n : Nat) : Nat := popcount n (s.rf b o (n - 1) 0)

/-- A condition of R510 holds. -/
def degradedNow (s : State) : Bool :=
  vacantHart s ||
  s.org.coreMap.any (fun (e : Nat × Nat) => decide (waysOf s (.core e.2) Off.L2_WAYCFG 17 < 16)) ||
  (List.range 136).any (fun h => decide (llcWays s h < 12) || decide (warInServ s h < 24)) ||
  (List.range 64).any (fun b => bankFailed s b) ||
  (List.range 170).any (fun st => (List.range 4).any (fun p => linkPresent st p && sparesLeft s st p == 0)) ||
  !s.wear.second.isEmpty || spareLeft s == 0

/-- DEGRADED follows the sparing map while the main domain is on. -/
def setDegraded (s : State) : State :=
  if !s.pwr.mainOn then s else
  let d := degradedNow s
  if d = s.modeFlag 5 then s else setMode 5 d s

/-! ## Domains off (R519, R542, R544) -/

/-- Domain of a register by its offset. -/
def offDom (o : Nat) : Nat := match blkOf o with | some (b, _) => domOf b | none => 1

/-- Uncore counters of the ports and memory controllers hold while their domain is off (R560). -/
def uncHeld (o : Nat) : Bool :=
  match blkOf o with | some (b, k) => (domOf b == 2 || domOf b == 3) && decide (Off.UNC_CNT ≤ k) && decide (k ≤ Off.UNC_OVF) | none => false

/-- Registers of a domain that has lost power take their COLD values. -/
def coldRegs (d : Nat) (s : State) : State := { s with ocr := s.ocr.filter (fun e => offDom e.1 != d || uncHeld e.1) }

/-- A WARM's reach: registers of the main domain that no WARM keeps. -/
def warmRegs (s : State) : State := { s with ocr := s.ocr.filter (fun e => offDom e.1 != 1 || warmKept e.1) }

/-- What is left of the cores after a WARM: the correction history of their L2 ways (R218, R222). -/
def wayHistories (s : State) : SMap Core :=
  (s.cores.filter (fun (e : Nat × Core) => !e.2.wayHist.isEmpty)).map (fun e => (e.1, { wayHist := e.2.wayHist }))

/-- What is left of the slices: their wear histories, and the sweeps of ways that their STATUS goes on showing (R265, R267). -/
def sliceHistories (f : Fabric) : Fabric :=
  { llcHist := f.llcHist, warrenHist := f.warrenHist, llcSweep := f.llcSweep, llcSweepWait := f.llcSweepWait,
    warrenSweep := f.warrenSweep, warrenSweepWait := f.warrenSweepWait }

/-- The retry queues and trackers are empty (R267), and WARREN.STATUS says so. -/
def slicesIdle (s : State) : State :=
  (List.range 136).foldl (fun s h => s.wf (.warren h) Off.WARREN_STATUS 28 16 0) s

/-- What the main domain holds outside its registers. -/
def clearMain (s : State) : State :=
  { s with cores := [], fab := {}, idist := {}, hoards := [], lodgeWork := [] }

/-- Commands at work on hardware that has gone end ABORTED. -/
def dropRunning (p : Cmd → Bool) (s : State) : State :=
  (s.sett.cmds.filter (fun c => c.phase == .running && p c)).foldl (fun s c => respond c stAborted [] s) s

/-- The mailboxes of the listed channels, as their home has them, reach the array of bank 32: the Sett keeps its channels over
a WARM and a power-off (R72, R518; DESIGN CHOICE, log entry 9). Copies in private caches are lost (R224). -/
def saveMboxes (chs : List Nat) (s : State) : State :=
  let home := { s with cores := [] }
  chs.foldl (fun s ch =>
    (cachedLines home (mboxBase ch / 64) (mboxBase ch / 64 + 128)).foldl (fun s ln => setMemLine ln (cohLine home ln).1 false s) s) s

/-- DRAM and the Hoard lose their contents, but for channel 2's mailbox. -/
def loseMemory (s : State) : State :=
  { s with
    mem := s.mem.filter (fun (c : Nat × Byte) => decide (mboxBase 2 ≤ c.1) && decide (c.1 < mboxBase 2 + 0x2000))
    poison := []
    flips := s.flips.filter (fun f => f.checker == 20) }

/-- The Hoard alone loses its contents. -/
def loseHoard (s : State) : State :=
  { s with
    mem := s.mem.filter (fun (c : Nat × Byte) => decide (c.1 < hoardBase) || (decide (mboxBase 2 ≤ c.1) && decide (c.1 < mboxBase 2 + 0x2000)))
    poison := s.poison.filter (fun ln => decide (ln * 64 < hoardBase))
    flips := s.flips.filter (fun f => f.checker != 2) }

/-- The main, memory and I/O domains turn off: PERST# is asserted, the twin link goes down, contents are lost (R518). -/
def domainsOff (s : State) : State :=
  let s := if s.pwr.ioOn then twinLoss 4 s else s
  let s := loseMemory (saveMboxes [2] s)
  let s := coldRegs 3 (coldRegs 2 (coldRegs 1 (clearMain s)))
  let s := { s with
    ports := [], vfs := [], pf0 := {}, mcs := [], bw := []
    org := { s.org with mapped := 0, installed := 0, chanBytes := [], leftOut := [] }
    owl := { s.owl with domainDown := false }
    pwr := { s.pwr with
      mainOn := false, memOn := false, ioOn := false, den := .awake, wake := none, hot := [], hotN := true, hottest := none, converted := []
      handOff := false, operating := false, warmRunning := false, broughtUp := false, retiring := none } }
  -- during a hold-up the Sett writes no response (R475)
  if s.sett.holdUp then s else dropRunning (fun c => c.opcode != 0x0904 && c.opcode != 0x0708) s

/-- Flags of modes that outlive a phase: CAPPED and DEGRADED. -/
def lasting (s : State) : Nat := s.rf .pwrc Off.MODE_FLAGS 5 4 * 16

/-- The chip is in STANDBY: channels 0, 1 and 3 close (R71). -/
def toStandby (s : State) : State :=
  let s := setModeFlags (BitVec.ofNat 64 (2 + lasting s)) s
  closeChan 3 (closeChan 1 (closeChan 0 s))

/-- The journal's part of a power-fail warning (R475): an erase is suspended for good, the record in progress is
completed, and one PWRFAIL record follows. Records of no command wait until the warning ends. -/
def holdUpJournal (s : State) : State :=
  let later := (s.flash.queue.drop 1).filter (fun r => r.owner.isNone)
  let s := { s with
    flash := { s.flash with queue := s.flash.queue.take 1, erase := s.flash.erase.map (fun e => { e with suspended := true }) }
    sett := { s.sett with holdUp := true, holdUntil := s.tick + 3 * ms } }
  let s := journal .pwrFail s
  { s with flash := { s.flash with queue := s.flash.queue ++ later } }

/-- The Sett's clock and the cores' timebase go on after the Sett's WAIT: whole Den timer ticks of 1/32,768 s (R41, R133). -/
def denTicks (s : State) : Nat := (s.tick - s.pwr.denFrom) * 32768 / 100000000
def resumeTime (s : State) : State :=
  if !s.sett.timeStill then s else
  { s with
    sett := { s.sett with timeBase := s.sett.timeBase + denTicks s * 1000000 / 32768, timeFrom := s.tick, timeStill := false }
    pwr := { s.pwr with timeLag := s.pwr.timeLag + (s.tick - s.pwr.denFrom - denTicks s * 100000000 / 32768) } }

/-- POWER_FAIL_WARNING (R518, R535). -/
def powerFail (va vb : Nat) (s : State) : State :=
  if s.modeFlag 0 ∨ s.pwr.coldHeld ∨ 870 ≤ max va vb ∨ !s.pwr.pwrFailN then s else
  let s := setFeeds va vb s
  let s := { s with pwr := { s.pwr with pwrFailN := false, uncapFrom := none } }
  let s := (s.wf .pwrc Off.SUPPLY 3 3 1).wf .pwrc Off.SUPPLY 1 0 0
  let s := match s.pwr.den with
    | .armed _ => denAbort 2 s
    | .phaseB _ => denAbort 2 s
    | _ => resumeTime s
  let safe := s.modeFlag 11
  let s := if safe then s else holdUpJournal s
  let s := domainsOff s
  if safe then s else toStandby s

/-- POWER_FAIL_WARNING. -/
def execPowerFailWarning (va vb : Nat) (s : State) : Res := finish s (powerFail va vb s)

/-- POWER_FAIL_END (R475, R517): VIN stands at 8.8 V again. -/
def powerFailEnd (va vb : Nat) (s : State) : State :=
  if s.modeFlag 0 ∨ s.pwr.pwrFailN ∨ max va vb < 880 then s else
  let s := setFeeds va vb s
  let s := { s with pwr := { s.pwr with pwrFailN := true, offCmd := false } }
  if !s.sett.holdUp then s else
  let has := fun (c : Cmd) => c.phase == .committing && s.flash.queue.any (fun r => r.owner == some c.ord)
  let s := { s with
    sett := { s.sett with holdUp := false, cmds := (s.sett.cmds.filter has).map (fun c => { c with discard := true }) }
    flash := { s.flash with erase := none } }
  -- the block whose erase was suspended for good is erased again from its start
  (List.range 4).foldl (fun s ch => if s.chState ch = 0 then s else resetChan ch none s) (nextErase s)

/-- POWER_FAIL_END. -/
def execPowerFailEnd (va vb : Nat) (s : State) : Res :=
  if overRated va ∨ overRated vb then .fault .beyondRatings else finish s (powerFailEnd va vb s)

/-! ## OFF and COLD (R514, R542, R543) -/

/-- The harts as they leave the factory: 0 to 255 in ascending PCN order on the cores that are not spares (R20). -/
def Factory.coreMap (f : Factory) : List (Nat × Nat) :=
  ((((List.range 272).filter (fun p => !f.spares.contains p)).take 256).zipIdx).map (fun e => (e.2, e.1))

/-- Everything a COLD does not reach: the flash, the pins, and the model's own clocks. -/
def coldBase (va vb : Nat) (s : State) : State :=
  let fd := s.flash.factory
  { State.reset with
    pending := s.pending, freeIdx := s.freeIdx, readData := s.readData
    flash := { s.flash with queue := [], compact := none, erase := none, toErase := [], appends := [], jst := {} }
    org := { State.reset.org with coreMap := fd.coreMap, pcns := fd.spares.map (fun p => (p, PcnState.spare)) }
    sett := { State.reset.sett with mi2c := { addr := fd.mi2cAddr } }
    pwr := { State.reset.pwr with
      vinA := va, vinB := vb, extIrq := s.pwr.extIrq, twinPerst := s.pwr.twinPerst, tpRoot := s.pwr.tpRoot } }

/-- TURN_OFF (R514): VIN below 8.5 V. -/
def turnOff (va vb : Nat) (s : State) : State :=
  if 850 ≤ max va vb then s else
  let b := coldBase va vb s
  let b := { b with pwr := { b.pwr with vaux := false, coldHeld := s.pwr.coldHeld } }
  (b.wr .pwrc Off.MODE_FLAGS 1).wf .pwrc Off.PWRC_MODE 3 0 0

/-- TURN_OFF. -/
def execTurnOff (va vb : Nat) (s : State) : Res := coldFinish s (turnOff va vb s)

/-- COLD_RST_N_ASSERTED (R543): the whole chip is held in reset. -/
def execColdRstNAsserted (s : State) : Res :=
  coldFinish s (let b := coldBase s.pwr.vinA s.pwr.vinB s
    let t := s.modeFlag 0
    let b := { b with pwr := { b.pwr with coldHeld := true, vaux := !t } }
    if t then (b.wr .pwrc Off.MODE_FLAGS 1).wf .pwrc Off.PWRC_MODE 3 0 0 else b)

/-- The map of cores as journalled, or as the factory data have it. -/
def coreMapOf (j : JState) (o : Org) : Org :=
  if j.coreMap.isEmpty ∧ j.pcns.isEmpty then o
  else { o with coreMap := j.coreMap.filterMap (fun (e : Nat × Option Nat) => e.2.map (fun p => (e.1, p))), pcns := j.pcns }

/-- Board settings as journalled. -/
def pwrSettings (s : State) : State :=
  match s.flash.jst.pwr with
  | some (i, a) => (s.wf .pwrc Off.PWRC_CFG 5 0 i).wf .pwrc Off.PWRC_CFG 6 6 (b2n a)
  | none => s

/-- Stages 1 and 2 of R548: boot selection, replay, STANDBY, channel 2. Where both slots fail the Sett stays in BOOT
(R469). -/
def bootSett (s : State) : State :=
  let s := s.wf .pwrc Off.BRINGUP 3 0 1
  match bootSelect s with
  | (none, s) => s
  | (some slot, s) =>
    let s := replay (s.wf .pwrc Off.BRINGUP 3 0 2)
    let s := loadPools (pwrSettings { s with org := { coreMapOf s.flash.jst s.org with replayed := s.flash.nextSeq - 1 } })
    let s := (s.wf .sett Off.SETT_STATE 8 8 slot).wf .sett Off.SETT_STATE 1 0 1
    openChan 2 { s with sett := { s.sett with aliveAt := s.tick, pollAt := s.tick } }

/-- COLD_RESET: power applied (`cause` 0), or the release of COLD_RST_N (1). -/
def coldReset (cause va vb : Nat) (tpRoot : Bool) (s : State) : State :=
  let v := max va vb
  if 2 ≤ cause ∨ v < (if cause = 0 then 880 else 850) ∨ (cause = 1 ∧ s.modeFlag 0) then s
  else
    let held := decide (cause = 0) && s.pwr.coldHeld
    let b := coldBase va vb s
    let b := { b with pwr := { b.pwr with tpRoot := tpRoot, coldHeld := held } }
    let b := b.wf .pwrc Off.RESET_CAUSE 2 0 cause
    let b := carrying (b.wf .pwrc Off.SUPPLY 1 0 (b2n (decide (880 ≤ va)) + 2 * b2n (decide (880 ≤ vb))))
    if held then b else bootSett b

/-- COLD_RESET (R542). -/
def execColdReset (cause va vb : Nat) (tpRoot : Bool) (s : State) : Res :=
  if overRated va ∨ overRated vb then .fault .beyondRatings else coldFinish s (coldReset cause va vb tpRoot s)

/-! ## Bring-up (R547 to R551) -/

def setStage (n : Nat) (s : State) : State := s.wf .pwrc Off.BRINGUP 3 0 n
def stageNow (s : State) : Nat := s.rf .pwrc Off.BRINGUP 3 0

/-- STANDBY is left for BRINGUP (R520). -/
def enterBringup (s : State) : State :=
  let s := if s.pwr.fresh then s else s.wf .pwrc Off.RESET_CAUSE 2 0 4
  let s := (s.wf .pwrc Off.BRINGUP 11 4 0).wf .pwrc Off.BRINGUP 12 12 0
  setModeFlags (BitVec.ofNat 64 (4 + lasting s)) { s with pwr := { s.pwr with fresh := false, offCmd := false, cycleAt := none } }

/-- Bring-up may begin: PWR.POWER ON has been taken, or AUTO_ON leaves STANDBY. -/
def mayBringUp (s : State) : Bool :=
  let up := (s.rf .sett Off.SETT_STATE 1 0 == 1) && s.pwr.pwrFailN && !s.sett.holdUp && (s.rf .pwrc Off.SUPPLY 5 5 == 0) && !s.modeFlag 11
  let auto := s.modeFlag 1 && (s.rf .pwrc Off.PWRC_CFG 6 6 == 1) && !s.pwr.offCmd && decide (880 ≤ s.vin)
  up && (auto || (s.modeFlag 2 && !s.pwr.mainOn && (s.rf .pwrc Off.BRINGUP 11 4 == 0)))

/-- Bring-up stops (R550). -/
def stopBringup (code wher : Nat) (s : State) : State :=
  emit [2] 0x0784 0 0 (leBytes 1 code ++ leBytes 1 wher) (s.wf .pwrc Off.BRINGUP 11 4 code)



/-- Level sources show what their blocks drive, after the IDIST's registers were reset. -/
def redrive (s : State) : State :=
  let s := (List.range 8).foldl (fun s n => driveExt n true s) s
  let s := (List.range 16).foldl (fun s n => mcIrqs n s) s
  let s := (List.range 9).foldl (fun s n => portIrqs n s) s
  pwrIrqs ((boundVfs s).foldl (fun s v => haltIrq v s) s)

/-- Stage 5: the marches clear every bank; failing ones are spared, or fail (R456, R458). -/
def marchAll (bad : List Nat) (s : State) : State :=
  let s := loseHoard s
  let s := bad.foldl (fun s b =>
    if 64 ≤ b then s else
    let n := b / 16
    let spare := s.rf (.hoard n) Off.SPARE 4 4 = 0 ∧ s.rf (.hoard n) Off.SPARE 24 24 = 0
    sparing n b (decide spare) s) s
  (List.range 64).foldl (fun s b => settleBank b s) s

/-- One channel's part of stage 6: its geometry, its training results and its erasures. -/
def startMc (n : Nat) (c : ChanProbe) (s : State) : State :=
  let t := s.rf (.mc n) Off.MC_TEMP 7 0
  let words := fun (l : List (Nat × Nat)) => l.map (fun (e : Nat × Nat) => (e.1, BitVec.ofNat 64 e.2))
  let s := c.trained.foldl (fun s (e : Nat × List (Nat × Nat)) => journal (.training n e.1 (words e.2) t) s) s
  let j := c.trained.foldl (fun j (e : Nat × List (Nat × Nat)) => jApply (.training n e.1 (words e.2) t) j) s.flash.jst
  let s := { s with flash := { s.flash with jst := j } }
  let s := s.wr (.mc n) Off.GEOM (BitVec.ofNat 64 c.geom)
  let s := match c.trained.find? (fun e => e.1 == c.rate) with
    | some e => e.2.foldl (fun (s : State) (r : Nat × Nat) => s.wr (.mc n) r.1 (BitVec.ofNat 64 r.2)) s
    | none => s
  let s := s.wf (.mc n) Off.TIMING_A 3 0 c.rate
  let s := (s.wf (.mc n) Off.MC_CTL 0 0 1).wf (.mc n) Off.MC_TEMP 15 8 t
  let s := mcFreq n (setMcState n 2 (s.modMc n (fun x => { x with trainedAt := s.tick, lastReq := s.tick })))
  (s.flash.jst.erasures.filter (fun (e : Nat × Nat × Nat × Nat) => e.1 == n)).foldl (fun s e => setErase e.1 e.2.1 e.2.2.1 e.2.2.2 s) s

/-- Pending repairs that the probe says were applied are on record as applied; each of the others timed out, stays pending
and is reported (R350). -/
def applyRepairs (done : List Nat) (s : State) : State :=
  let pend := s.flash.jst.rowRepairs.filter (fun r => !r.applied)
  pend.zipIdx.foldl (fun s (e : RowRepair × Nat) =>
    if done.contains e.2 then journal (.rowRepair { e.1 with applied := true }) s
    else report (mcInst e.1.ch) 13 1 24 0 0 0x1FF 0 s) s

/-- Stage 6 as a whole: DRAM starts, and capacity is mapped (R30). -/
def startDram (pr : Probe) (s : State) : State :=
  let on := pr.chans.zipIdx.filter (fun (e : ChanProbe × Nat) => !e.1.disabled && decide (e.2 < 16))
  let s := on.foldl (fun s (e : ChanProbe × Nat) => startMc e.2 e.1 s) s
  let s := applyRepairs pr.repaired s
  let bs := on.map (fun (e : ChanProbe × Nat) => e.1.bytes)
  let least := match bs with | [] => 0 | a :: l => l.foldl (fun x y => min x y) a
  { s with org := { s.org with
      chanBytes := bs, installed := bs.foldl (fun a b => a + b) 0, mapped := 16 * least
      leftOut := (on.filter (fun (e : ChanProbe × Nat) => e.1.leftOut)).map (·.2) } }

/-- The first channel that is disabled or missing. -/
def disabledChan (pr : Probe) : Option Nat :=
  (List.range 16).find? (fun n => match pr.chans[n]? with | some c => c.disabled | none => true)

/-- Stage 7: the root complexes take BIFURC from the journal; PERST# is released 100 ms after VIN came (R403, R416). -/
def startPorts (s : State) : State :=
  (List.range 9).foldl (fun s n =>
    if !isRc s n then s else
    let s := match s.flash.jst.rcBifurc.find? (fun (e : Nat × Word) => e.1 == n) with
      | some e => if n = 8 then s else s.wr (.rc n) Off.RC_CFG e.2
      | none => (match s.flash.factory.bifurc.find? (fun e => e.1 == n) with | some e => s.wf (.rc n) Off.RC_CFG 2 0 e.2 | none => s)
    let s := bifurcApply n s
    let due := max s.tick (s.tickOfTime 100000)
    (List.range 4).foldl (fun s p =>
      if portLanes s n p = 0 then s else s.modPort n (fun x => { x with perstDue := smPut x.perstDue p due })) s) s

/-- The host firmware payload of the running image: the type-2 section (R466, R547). -/
def hostPayload (s : State) : Option (List Byte) :=
  let slot := runSlot s
  if flNat s (slotBase slot) 4 ≠ imgMagic then none
  else ((imgSections s slot).find? (fun (t, _, _) => t == 2)).map (fun (_, o, z) => flBytes s (slotBase slot + o) z)

/-- The report of R551. -/
def bringupReport (s : State) (payload : Nat) : List Byte :=
  let chan := fun (n : Nat) =>
    s.rf (.mc n) Off.GEOM 2 0 + (if s.org.leftOut.contains n then 8 else 0) + mcRate s n * 16
  let spared := (List.range 4).any (fun n => s.rf (.hoard n) Off.SPARE 4 4 == 1)
  let failed := (List.range 64).foldl (fun a b => if bankFailed s b then a + 2 ^ b else a) 0
  let flags := b2n (s.org.installed != s.org.mapped) + 2 * b2n (!s.org.leftOut.isEmpty) + 4 * b2n spared + 8 * b2n (failed != 0) +
    s.pwr.reportFlags + 32 * b2n (s.modeFlag 5)
  let boot := match s.served with | [] => 0 | a :: l => l.foldl (fun m (e : Nat × Nat) => min m e.1) a.1
  leBytes 4 0x50555242 ++ leBytes 2 1 ++ leBytes 1 (s.rf .pwrc Off.RESET_CAUSE 2 0) ++ leBytes 1 flags ++ leBytes 8 s.org.installed ++
    leBytes 8 s.org.mapped ++ leBytes 4 payload ++ leBytes 2 s.served.length ++ leBytes 1 (spareCores s) ++ leBytes 1 boot ++
    (List.range 16).flatMap (fun n => leBytes 1 (chan n)) ++ leBytes 8 failed ++ leBytes 8 s.org.replayed ++ leBytes 8 s.settTime ++ leBytes 184 0

/-- Every lodge ends at once, its FLRs and clears done before any core is released (R363); the words show every LID's
generation again. -/
def endLodgesNow (s : State) : State :=
  let s := endAllLodges s
  let s := allVfs.foldl (fun s v => flrComplete v s) s
  let s := (List.range 64).foldl (fun s b => clearEnd b s) s
  s.lodges.foldl (fun s (e : Nat × LodgeSt) => putAttr (allAttrOffs s e.1) 7 0 e.2.gen s) s

/-- Stage 8: the rest of the sparing map, the lodges, the payload and the report. -/
def stage8 (s : State) : State :=
  let s := setStage 8 s
  let s := loadMap (applyWear [0] (waysAgain (applySpare isCoreBlk s)))
  let s := endLodgesNow s
  let s := redrive (setDegraded s)
  match hostPayload s with
  | none => stopBringup 3 0xFF s
  | some l =>
    if s.served.isEmpty then stopBringup 4 0xFF s
    else
      let s := settWr 0x100000 l s
      let s := settWr 0 (bringupReport s l.length) s
      (s.wf .pwrc Off.BRINGUP 12 12 1)

/-- Stages 3 and 4: the main domain on, with the map of routers, slices and the Hoard; links train and run lane repair. -/
def mainUp (pr : Probe) (s : State) : State :=
  let s := setStage 4 (applyWear [1, 2] (applySpare (fun b => isMeshBlk b || isSliceBlk b || isHoardBlk b) s))
  linksRepair pr.laneBad (linksUp
    { s with pwr := { s.pwr with mainOn := true, reportFlags := if pr.laneBad.isEmpty then 0 else 16 } })

/-- Stages 5 and 6: the Hoard's marches, and the memory domain with its DRAM. -/
def dramUp (pr : Probe) (s : State) : State :=
  let s := marchAll pr.marchFail (setStage 5 s)
  startDram pr (setStage 6 { s with pwr := { s.pwr with memOn := true } })

/-- Stages 7 and 8: the I/O domain with its ports, then the payload. -/
def ioUp (s : State) : State :=
  let s := stage8 (startPorts (setStage 7 { s with pwr := { s.pwr with ioOn := true } }))
  { s with pwr := { s.pwr with broughtUp := true } }

/-- Stages 3 to 8 after COLD or STANDBY. -/
def bringUp (pr : Probe) (s : State) : State :=
  let s := mainUp pr s
  if pr.domainFail then stopBringup 5 0xFF s
  else match failedStop s with
    | some st => stopBringup 2 st s
    | none =>
      let s := dramUp pr s
      match disabledChan pr with
      | some n => stopBringup 1 n s
      | none => ioUp s

/-- BRINGUP_START (R548). -/
def execBringupStart (probe : Probe) (s : State) : Res :=
  finish s (if mayBringUp s then bringUp probe (if s.modeFlag 1 then enterBringup s else s) else s)

/-- A core as it is released from reset (R110, R547). -/
def coreReleased (h p start : Nat) : Core :=
  ({ on := true, pc := BitVec.ofNat 64 start, hhart := BitVec.ofNat 64 (h + p * 256), lfsr := p } : Core).setCsr 0x6D2 (BitVec.ofNat 64 h)

def releaseCore (h p start : Nat) (s : State) : State :=
  syncHart p (s.setCore p { coreReleased h p start with cycFrom := s.tick, wayHist := (s.core p).wayHist })

/-- HAND_OFF: every hart in service is released at M in ascending hart ID, and channel 0 opens. -/
def handOff (s : State) : State :=
  if stageNow s ≠ 8 ∨ s.rf .pwrc Off.BRINGUP 12 12 = 0 ∨ !s.modeFlag 2 ∨ s.modeFlag 11 ∨ s.pwr.handOff ∨ !s.pwr.pwrFailN then s else
  let hs := s.served.mergeSort (fun a b => decide (a.1 ≤ b.1))
  let s := hs.foldl (fun s (e : Nat × Nat) => releaseCore e.1 e.2 0x100000 s) s
  let s := setStage 9 s
  openChan 0 { s with pwr := { s.pwr with handOff := true, everHandOff := true, warmRunning := false } }

/-- HAND_OFF (R547). -/
def execHandOff (s : State) : Res := finish s (handOff s)

/-! ## WARM (R543 to R545, R552) -/

/-- A WARM is ignored (R543). -/
def warmIgnored (s : State) : Bool :=
  !s.pwr.everHandOff || s.modeFlag 1 || s.modeFlag 11 || (match s.pwr.den with | .awake => false | .armed _ => false | _ => true)

/-- Ports across a WARM: work that waited on a slice is asked for again; reads by the twin partner end unanswered by the
home. -/
def warmTwin (s : State) : State :=
  let s := (s.port 8).reads.foldl (fun s r => sendTlp 8 (.cpl r.rp r.tag 1 [] false) s) s
  (List.range 9).foldl (fun s n => s.modPort n (fun x => { x with
    pieces := x.pieces.map (fun y => { y with st := .fresh }), reads := if n = 8 then [] else x.reads, drains := [], dead := false })) s

/-- What a WARM ends and resets (R544, R552). -/
def warmDown (cause : Nat) (s : State) : State :=
  let s := (s.wf .pwrc Off.RESET_CAUSE 2 0 cause).incSat .pwrc Off.RESET_CAUSE 11 4
  let s := endLeases (fun _ => true) none s
  let s := { s with pwr := { s.pwr with
    den := .awake, wake := none, handOff := false, operating := false, warmRunning := true } }
  let s := setModeFlags (BitVec.ofNat 64 (4 + lasting s + 128 * b2n (s.modeFlag 7))) s
  let s := shutChan 1 (shutChan 0 s)
  let hist := wayHistories s
  let fab := sliceHistories s.fab
  let s := slicesIdle (warmRegs { clearMain (saveMboxes [0, 1, 2, 3] s) with cores := hist, fab := fab })
  let s := { s with
    flips := s.flips.filter (fun f => f.checker == 1 || f.checker == 2 || f.checker == 19 || f.checker == 20)
    bw := s.bw.filter (fun (e : Nat × BwSt) => offDom (e.1 <<< 24 + 0x400000) != 1)
    owl := { s.owl with domainDown := false, flits := s.owl.flits.filter (fun r => domOf (unitBlk r.inst) != 1) } }
  let s := dropRunning (fun c => [0x0202, 0x0203, 0x0370, 0x0371].contains c.opcode) s
  (s.wf .pwrc Off.BRINGUP 11 4 0).wf .pwrc Off.BRINGUP 12 12 0

/-- The stages 3 to 7 that a WARM goes through. -/
def warmUp (s : State) : State :=
  let s := linksRepair [] (linksUp (setStage 4 (applySpare isSliceBlk (setStage 3 s))))
  let s := warmTwin (warmPorts s)
  (List.range 64).foldl (fun s b => if 2 ≤ bankSt s b then settleBank b (setBankSt b 1 s) else s) s

/-- A WARM reset and the stages of R552. `cause`: 2 the pin, 3 the Owl. -/
def warmReset (cause : Nat) (s : State) : State :=
  if s.modeFlag 0 ∨ s.pwr.coldHeld then s
  else if warmIgnored s then s.incSat .pwrc Off.RESET_CAUSE 27 20
  else if s.pwr.warmRunning then s.incSat .pwrc Off.RESET_CAUSE 19 12
  else stage8 (warmUp (warmDown cause s))

/-- WARM_RST_N (R543). -/
def execWarmRstN (s : State) : Res := finish s (warmReset 2 s)

end Sys2Proof.Machine
end

