-- ==== Sys2Proof/Machine/Den.lean ====
section
/-! DEFINITION. Temperature and the thermal trip, the Den, and the PWR and SYS commands that change modes, domains or
channels (chapter 21, R577, R579). -/
namespace Sys2Proof.Machine

/-! ## Temperature (R528, R577, R578) -/

/-- The thermal trip: domains off, STANDBY, latched until COLD. `inst`: the unit that reports it. -/
def thermalTrip (inst : Nat) (s : State) : State :=
  if s.rf .pwrc Off.SUPPLY 5 5 = 1 ∨ !s.pwr.mainOn then s else
  let s := report inst 22 3 24 0 0 0x1FF 0 s
  let s := (s.wf .pwrc Off.SUPPLY 5 5 1)
  let s := domainsOff { s with pwr := { s.pwr with thermTripN := false } }
  if s.modeFlag 11 then s else toStandby s

/-- A tile's conversion. -/
def tileTemp (t : Nat) (v : Int) (s : State) : State :=
  let b := Blk.isl (tileStop t)
  let first := !s.pwr.converted.contains t
  let peak := tempOf (s.rf b Off.ISL_TEMP 25 16)
  let s := s.wf b Off.ISL_TEMP 9 0 (tempBits v)
  let s := if first ∨ peak < v then s.wf b Off.ISL_TEMP 25 16 (tempBits v) else s
  let best := match s.pwr.hottest with
    | some e => if e.1 < v ∨ (e.1 = v ∧ t < e.2) then (v, t) else e
    | none => (v, t)
  let s := { s with pwr := { s.pwr with
    hot := if 400 ≤ v then insNat t s.pwr.hot else s.pwr.hot.filter (· != t)
    hottest := some best
    converted := if first then insNat t s.pwr.converted else s.pwr.converted } }
  let s := hotPin s
  let s := pwrIrqs (s.wf .pwrc Off.THERM 18 18 (b2n (!s.pwr.hotN)))
  if 460 ≤ v then thermalTrip (islInst (tileStop t)) s else s

/-- TEMP_CONVERSION: `kind` 0 a tile island, 1 a memory PHY, 2 an I/O die; `v` in 0.25 °C. -/
def tempConversion (kind idx : Nat) (v : Int) (s : State) : State :=
  if s.modeFlag 0 ∨ s.pwr.coldHeld then s
  else match kind with
    | 0 => if 136 ≤ idx ∨ !s.pwr.mainOn ∨ inRetention s then s else tileTemp idx v s
    | 1 => if 16 ≤ idx ∨ !s.pwr.memOn then s else s.wf (.mc idx) Off.MC_TEMP 7 0 ((v / 4) % 256).toNat
    | 2 => if 460 ≤ v then thermalTrip (Blk.pwrc).inst s else s
    | _ => s

/-- TEMP_CONVERSION (R577). -/
def execTempConversion (kind idx : Nat) (temp : Int) (s : State) : Res :=
  if 500 < temp ∨ temp < -220 then .fault .beyondRatings else finish s (tempConversion kind idx temp s)

/-! ## Entering the Den (R530, R531, R535) -/

def denDrop (s : State) : Bool := s.rf .pwrc Off.DEN_CFG 0 0 == 1

def pwrDenPrepare (c : Cmd) (s : State) : CmdRes :=
  let f := fun hi lo => bytesAt c.body hi lo
  let src := f 1 1 % 16
  if 1 < f 0 0 ∨ (src = 0 ∧ f 2 2 = 0) ∨ (src.testBit 2 ∧ (f 5 4 < 90 ∨ 600 < f 5 4)) ∨ (src.testBit 3 ∧ f 11 8 = 0) ∨
      f 13 12 < 1 ∨ 10000 < f 13 12 then .fail stBadField s
  else if s.pwr.den ≠ .awake then .fail stBusy s
  else
    let e := s.settTime + f 13 12 * 1000
    let s := s.wr .pwrc Off.DEN_CFG (BitVec.ofNat 64 (f 0 0 + src * 2 + (f 2 2) <<< 8 + (f 5 4) <<< 16 + (f 11 8) <<< 32))
    .done stOk (leBytes 8 e) { s with pwr := { s.pwr with den := .armed e, wake := none } }

/-- PWR_DEN_PREPARE. -/
def execPwrDenPrepare (ch tag : Nat) (s : State) : Res := finish s (runBelet 0x0706 ch tag pwrDenPrepare s)

def pwrDenCancel (_c : Cmd) (s : State) : CmdRes :=
  match s.pwr.den with
  | .armed _ => .done stOk [] (denAbort 1 s)
  | .awake => .fail stNoTarget s
  | _ => .fail stBusy s

/-- PWR_DEN_CANCEL. -/
def execPwrDenCancel (ch tag : Nat) (s : State) : Res := finish s (runBelet 0x0707 ch tag pwrDenCancel s)

/-- DEN_PARK_TIMEOUT (R535): the window closes with a core not parked. -/
def execDenParkTimeout (s : State) : Res :=
  finish s (match s.pwr.den with
    | .armed e => if allParked s then s else denAbort 0 (s.toTick (s.tickOfTime e))
    | _ => s)

/-- No message or transaction is under way. -/
def fabricQuiet (s : State) : Bool :=
  s.fab.net.isEmpty && s.fab.txns.isEmpty && s.fab.trackers.isEmpty && s.fab.queue.isEmpty

/-- A root port goes to the state of a PORT reset with PERST# held. -/
def holdPort (n p : Nat) (s : State) : State :=
  if portLanes s n p = 0 then s else
  (portReset n p 0 s).modPort n (fun x => { x with perstDue := smDel x.perstDue p })

/-- One step of phase B; none: it has still to wait. -/
def denStep (k : Nat) (s : State) : Option State :=
  match k with
  | 1 =>
    let s := scrubCut (endLeases (fun _ => true) (some 3) (setMode 8 true s))
    let s := (s.sett.cmds.filter (fun c => c.phase == .accepted)).foldl (fun s c => respond c stAborted [] s) s
    some (hotPin { s with sett := { s.sett with fw := none } })
  | 2 =>
    if !s.sett.cmds.isEmpty then none else
    let s := twinLoss 4 s
    some ((List.range 4).foldl (fun s ch =>
      closeChan ch (s.setChan ch { s.chan ch with reopen := s.chState ch == 1 })) s)
  | 3 =>
    if (List.range 9).any (fun n => !(s.port n).pieces.isEmpty) then none else
    let s := (List.range 9).foldl (fun s n => if isRc s n then (List.range 4).foldl (fun s p => holdPort n p s) s else s) s
    some { s with pwr := { s.pwr with ioOn := false } }
  | 4 =>
    if !denDrop s then some s
    else if !fabricQuiet s then none
    else
      let s := s.fab.llc.foldl (fun s (e : Nat × LEnt) => if e.2.dirty then setMemLine e.1 e.2.data e.2.poison s else s) s
      some { s with fab := { s.fab with llc := [], warren := [] } }
  | 5 =>
    if !s.fab.net.isEmpty ∨ (List.range 16).any (fun n => !(s.mcs' n).rq.isEmpty) then none else
    let s := (List.range 16).foldl (fun s n =>
      let s := setMcState n 5 (mcOcc n (s.modMc n (fun x => { x with wq := [], drain := [], rows := [], hits := [], debt := [], ahead := [] })))
      (s.wf (.isl (mcStops.getD n 0)) Off.ISL_FREQ 5 0 0).wf (.isl (mcStops.getD n 0)) Off.ISL_FREQ 13 8 0) s
    some { s with pwr := { s.pwr with memOn := false } }
  | 6 => some (if denDrop s then loseHoard s else s)
  | _ =>
    let t := s.settTime
    some { s with
      sett := { s.sett with timeBase := t, timeFrom := s.tick, timeStill := true }
      pwr := { s.pwr with denFrom := s.tick } }

/-- Steps of phase B up to `upTo`, as far as they can go. -/
def denGo (upTo : Nat) : Nat → State → State
  | 0, s => s
  | fuel + 1, s =>
    match s.pwr.den with
    | .phaseB k =>
      if upTo ≤ k ∨ s.pwr.wake.isSome then s
      else match denStep (k + 1) s with
        | none => s
        | some t => denGo upTo fuel { t with pwr := { t.pwr with den := if k + 1 = 7 then .den else .phaseB (k + 1) } }
    | _ => s

/-- DEN_PHASE_B (R531): phase B begins once every core counts as parked, and goes on to step `upTo`. -/
def denPhaseB (upTo : Nat) (s : State) : State :=
  if s.modeFlag 11 ∨ 7 < upTo ∨ upTo = 0 then s else
  match s.pwr.den with
  | .armed e =>
    if allParked s ∧ s.settTime < e then denGo upTo 7 { s with pwr := { s.pwr with den := .phaseB 0 } } else s
  | .phaseB _ => denGo upTo 7 s
  | _ => s

/-- DEN_PHASE_B. -/
def execDenPhaseB (upTo : Nat) (s : State) : Res := finish s (denPhaseB upTo s)

/-! ## Waking (R533, R534) -/

/-- A source fires: it is latched in phase B and in the Den; of several in one cycle the lowest CAUSE is kept. -/
def latchWake (cause pin : Nat) (s : State) : State :=
  let put := fun (early : Bool) =>
    match s.pwr.wake with
    | some (c, _, _, t) => if t = s.tick ∧ cause < c then { s with pwr := { s.pwr with wake := some (cause, pin, early, s.tick) } } else s
    | none => { s with pwr := { s.pwr with wake := some (cause, pin, early, s.tick) } }
  if s.modeFlag 11 then s else
  match s.pwr.den with
  | .phaseB _ => put true
  | .den => put false
  | _ => s

/-- A wake source of DEN_CFG is armed. -/
def wakeArmed (s : State) (cause : Nat) : Bool := s.rf .pwrc Off.DEN_CFG cause cause == 1

/-- DEN_WAKE_PIN (R533). -/
def execDenWakePin (s : State) : Res := finish s (if wakeArmed s 1 then latchWake 1 0 s else s)

/-- DEN_WAKE_I2C (R533): the comparator acknowledges the address and stretches SCL. -/
def execDenWakeI2c (s : State) : Res :=
  finish s (if wakeArmed s 2 ∧ (s.pwr.den = .den ∨ (s.chState 2 = 0 ∧ s.modeFlag 8)) ∧ !s.modeFlag 11 then
      let s := latchWake 2 0 s
      { s with sett := { s.sett with mi2c := { s.sett.mi2c with stretching := true } } }
    else s)

/-- DEN_WAKE_VIN (R533). -/
def execDenWakeVin (s : State) : Res := finish s (if wakeArmed s 3 then latchWake 3 0 s else s)

/-- DEN_WAKE_TIMER (R533): the closing tick of the timer's window. -/
def execDenWakeTimer (s : State) : Res :=
  finish s (if wakeArmed s 4 ∧ s.pwr.den = .den then
      latchWake 4 0 (s.toTick (s.pwr.denFrom + s.rf .pwrc Off.DEN_CFG 63 32 * 1000 * ms))
    else s)

/-- DEN_WAKE_EXT_IRQ (R533): an armed pin at its active level. -/
def execDenWakeExtIrq (pin : Nat) (s : State) : Res :=
  finish s (if pin < 8 ∧ (s.rf .pwrc Off.DEN_CFG 15 8).testBit pin = true ∧ extActive s pin = true then latchWake 5 pin s else s)

/-- MI2C_STRETCH_TIMEOUT (R533): channel 2 has not opened within 10 ms; SCL is released and the first data byte NACKed. -/
def execMi2cStretchTimeout (s : State) : Res :=
  finish s (if s.sett.mi2c.stretching ∧ s.chState 2 ≠ 1 then
      let s := match s.pwr.wake with | some (_, _, _, t) => s.toTick (t + 10 * ms) | none => s
      { s with sett := { s.sett with mi2c := { s.sett.mi2c with stretching := false, nacked := true } } }
    else s)

/-- Reopen a channel that was open when the Den was entered (R71). -/
def reopenChan (ch : Nat) (s : State) : State :=
  if (s.chan ch).reopen then openChan ch (s.setChan ch { s.chan ch with reopen := false }) else s

/-- One step of the wake sequence, from the step of phase B that was reached; steps the state does not need are
skipped. -/
def wakeStep (from_ k cause pin : Nat) (early : Bool) (s : State) : State :=
  match k with
  | 1 =>
    let last := if s.sett.timeStill then denTicks s else 0
    let n := (s.rf .pwrc Off.PWRC_WAKE_SRC 31 16 + 1) % 65536
    let s := resumeTime s
    (s.wr .pwrc Off.DEN_LAST (BitVec.ofNat 64 last)).wr .pwrc Off.PWRC_WAKE_SRC
      (BitVec.ofNat 64 (cause + pin * 8 + (b2n early) * 64 + n * 65536))
  | 2 =>
    if from_ < 6 then s else
    let s := linksUp s
    if denDrop s then (List.range 64).foldl (fun s b => settleBank b s) (loseHoard s) else s
  | 3 =>
    let s := reopenChan 2 s
    { s with sett := { s.sett with mi2c := { s.sett.mi2c with stretching := false } } }
  | 4 =>
    if from_ < 5 then s else
    (List.range 16).foldl (fun s n => mcFreq n (setMcState n 2 (s.modMc n (fun x => { x with lastReq := s.tick }))))
      (bwResume (fun b => domOf b == 2) { s with pwr := { s.pwr with memOn := true } })
  | 5 => releaseParked s
  | 6 =>
    let s := reopenChan 3 (reopenChan 1 (reopenChan 0 s))
    let s := hotPin (setMode 8 false s)
    emit [0, 1, 2] 0x0783 0 0 (leBytes 1 cause ++ leBytes 1 pin ++ leBytes 1 (b2n (denDrop s)) ++ leBytes 1 (b2n early) ++ leBytes 4 0 ++
      leBytes 8 (s.rd .pwrc Off.DEN_LAST).toNat) s
  | _ =>
    let s := if from_ < 3 then s else
      (List.range 9).foldl (fun s n =>
        if !isRc s n then s else
        (List.range 4).foldl (fun s p =>
          if portLanes s n p = 0 then s else s.modPort n (fun x => { x with perstDue := smPut x.perstDue p (s.tick + 100 * ms) })) s)
        (bwResume (fun b => domOf b == 3) { s with pwr := { s.pwr with ioOn := true } })
    pwrIrqs s

/-- The wake sequence up to step `upTo`. -/
def wakeGo (upTo : Nat) : Nat → State → State
  | 0, s => s
  | fuel + 1, s =>
    match s.pwr.den, s.pwr.wake with
    | .waking f k, some (cause, pin, early, _) =>
      if upTo ≤ k then s
      else
        let t := wakeStep f (k + 1) cause pin early s
        if k + 1 = 7 then { t with pwr := { t.pwr with den := .awake, wake := none } }
        else wakeGo upTo fuel { t with pwr := { t.pwr with den := .waking f (k + 1) } }
    | _, _ => s

/-- DEN_WAKE (R534, R535): a latched wake runs its sequence from the state reached. -/
def denWake (upTo : Nat) (s : State) : State :=
  if s.modeFlag 11 ∨ 7 < upTo ∨ s.pwr.wake.isNone then s else
  match s.pwr.den with
  | .phaseB k => wakeGo upTo 7 { s with pwr := { s.pwr with den := .waking k 0 } }
  | .den => wakeGo upTo 7 { s with pwr := { s.pwr with den := .waking 7 0 } }
  | .waking _ _ => wakeGo upTo 7 s
  | _ => s

/-- DEN_WAKE. -/
def execDenWake (upTo : Nat) (s : State) : Res := finish s (denWake upTo s)

/-! ## Modes and power by command (R522 to R524, R538) -/

def modeRsp (s : State) : List Byte := leBytes 1 s.mode

/-- Any lodge exists. -/
def anyLodge (s : State) : Bool := !(liveLodges s).isEmpty

def modeReq (r : Nat) (s : State) : CmdRes :=
  let ok := fun (s : State) => CmdRes.done stOk (modeRsp s) s
  let opr := s.pwr.operating
  let entering := s.pwr.den != .awake
  match r with
  | 1 =>
    if opr then ok s
    else if s.modeFlag 2 ∧ s.pwr.handOff then
      let f := setFld (setFld (s.rd .pwrc Off.MODE_FLAGS) 2 2 0) 3 3 1
      ok (setModeFlags f (setStage 10 { s with pwr := { s.pwr with operating := true } }))
    else .fail stWrongMode s
  | 2 =>
    if s.modeFlag 9 then ok s
    else if !opr ∨ s.modeFlag 6 ∨ s.modeFlag 7 ∨ s.modeFlag 10 ∨ entering then .fail stWrongMode s
    else if s.chState 3 ≠ 1 then .fail stNoTarget s
    else ok (scrubCut (endLeases (fun _ => true) (some 3) (setMode 9 true s)))
  | 3 => if s.modeFlag 9 then ok (setMode 9 false s) else ok s
  | 4 =>
    if s.modeFlag 10 then ok s
    else if !((s.modeFlag 2 && s.pwr.handOff) || (opr && !s.modeFlag 9 && !entering)) then .fail stWrongMode s
    else if anyLodge s then .fail stBusy s
    else
      let s := setMode 10 true { s with pwr := { s.pwr with diagFromOp := opr } }
      ok (closeChan 3 (closeChan 1 (twinLoss 4 s)))
  | 5 => if s.modeFlag 10 then ok (setMode 10 false s) else ok s
  | _ => .fail stBadField s

def pwrModeReq (c : Cmd) (s : State) : CmdRes := modeReq (bytesAt c.body 0 0) s

/-- PWR_MODE_REQ. -/
def execPwrModeReq (ch tag : Nat) (s : State) : Res := finish s (runBelet 0x0705 ch tag pwrModeReq s)

def pwrConfigRsp (s : State) : List Byte := leBytes 1 (iinLimit s) ++ leBytes 1 (s.rf .pwrc Off.PWRC_CFG 6 6)

def pwrConfig (c : Cmd) (s : State) : CmdRes :=
  let f := fun hi lo => bytesAt c.body hi lo
  if 1 < f 0 0 ∨ (f 0 0 = 1 ∧ (f 1 1 < 8 ∨ 32 < f 1 1 ∨ 1 < f 2 2)) then .fail stBadField s
  else if f 0 0 = 0 then .done stOk (pwrConfigRsp s) s
  else .commit [.pwrConfig (f 1 1) (f 2 2 = 1)] s

/-- PWR_CONFIG. -/
def execPwrConfig (ch tag : Nat) (s : State) : Res := finish s (runBelet 0x0702 ch tag pwrConfig s)

/-- The commit of a PWR.CONFIG. -/
def pwrConfigCommit (c : Cmd) (s : State) : State :=
  let s := capCheck s.vin s.tick (pwrSettings { s with pwr := { s.pwr with offCmd := false } })
  respond c stOk (pwrConfigRsp s) s

/-- The sequence of PWR.POWER OFF: R518 without PWR_FAIL_N. -/
def powerOff (s : State) : State :=
  toStandby (domainsOff (journal .pwrFail { s with pwr := { s.pwr with offCmd := true } }))

def pwrPower (c : Cmd) (s : State) : CmdRes :=
  let op := bytesAt c.body 0 0
  if 2 < op then .fail stBadField s
  else if 1 ≤ op ∧ s.rf .pwrc Off.SUPPLY 5 5 = 1 then .fail 0x8000 s
  else if op = 1 then (let s := enterBringup s; .done stOk (modeRsp s) s)
  else
    -- on channel 0 the response comes first, and shows STANDBY
    let s := if c.ch = 0 then respond c stOk (leBytes 1 1) s else s
    let s := if s.modeFlag 1 then { s with pwr := { s.pwr with offCmd := true } } else powerOff s
    if op = 2 then .run [] { s with pwr := { s.pwr with cycleAt := some (s.tick + 1000 * ms) } }
    else if c.ch = 0 then .run [] s
    else .done stOk (modeRsp s) s

/-- PWR_POWER. -/
def execPwrPower (ch tag : Nat) (s : State) : Res := finish s (runBelet 0x0708 ch tag pwrPower s)

/-- POWER_CYCLE_ON (R538): the chip is turned on again. -/
def powerCycleOn (s : State) : State :=
  match s.pwr.cycleAt with
  | none => s
  | some t =>
    if !s.modeFlag 1 ∨ s.rf .pwrc Off.SUPPLY 5 5 = 1 ∨ !s.pwr.pwrFailN then s else
    let s := enterBringup (s.toTick t)
    match runningCmd s 0x0708 with
    | some c => respond c stOk (modeRsp s) s
    | none => s

/-- POWER_CYCLE_ON. -/
def execPowerCycleOn (s : State) : Res := finish s (powerCycleOn s)

/-! ## SYS.CHAN_CTL (R579) -/

def sysChanCtl (c : Cmd) (s : State) : CmdRes :=
  let ch := bytesAt c.body 0 0
  let op := bytesAt c.body 1 1
  let done := fun (s : State) => CmdRes.done stOk (leBytes 1 (s.chState ch)) s
  if (ch ≠ 1 ∧ ch ≠ 3) ∨ 1 < op then .fail stBadField s
  else if (op = 1 ∧ s.chState ch = 1) ∨ (op = 0 ∧ s.chState ch = 0) then done s
  else if op = 1 then
    if s.modeFlag 2 ∨ s.modeFlag 10 then .fail stWrongMode s
    else if ch = 3 ∧ s.pwr.tpRoot then .fail stNoTarget s
    else if s.chState ch = 0 then done (openChan ch s)
    else done (openAnew ch s)
  else .run [] (resetChan ch (some c.ord) (if ch = 3 then twinLoss 3 s else s))

/-- SYS_CHAN_CTL. -/
def execSysChanCtl (ch tag : Nat) (s : State) : Res := finish s (runBelet 0x0106 ch tag sysChanCtl s)

end Sys2Proof.Machine
end

