-- ==== Sys2Proof/Machine/Spare.lean ====
section
/-! DEFINITION. Wear thresholds, the sparing map's commands and the move of a hart to a spare core (chapter 20). -/
namespace Sys2Proof.Machine

/-! ## CORE.WEAR and the thresholds (R503, R511, R513) -/

/-- Event CORE.WEAR. -/
def wearEvent (kind action inst pa detail hart : Nat) (s : State) : State :=
  emit [0, 1] 0x0480 0 0 (leBytes 1 kind ++ leBytes 1 action ++ leBytes 2 inst ++ leBytes 8 pa ++ leBytes 2 detail ++ leBytes 1 hart) s

/-- No PA. -/
abbrev noPa : Nat := 2 ^ 64 - 1

/-- Hart ID of a PCN in an event; 0xFF where it has none. -/
def hartByte (s : State) (p : Nat) : Nat := (s.hartOf p).getD 0xFF

/-- Default thresholds of a kind (R222, R503). -/
def wearDefault (k : Nat) : WearCfg :=
  ⟨true, if k = 3 then 16 else if k = 4 then 4 else if k = 5 then 32 else 8, 86400⟩

/-- The thresholds in force. -/
def wearCfg (s : State) (k : Nat) : WearCfg := (smFind s.flash.jst.wear k).getD (wearDefault k)

/-- Seconds of SETT.TIME: the tick of R503. -/
def wearTick (s : State) : Nat := s.settTime / 1000000

/-- Whether an occurrence at tick `t` counts at tick `n` for a window of `w` ticks. -/
def inWindow (n w t : Nat) : Bool := decide (t ≤ n) && decide (n < t + w)

/-- Records of the error log that name one DRAM device or row. -/
def dramRec (e : ErrRec) : Bool := e.bytes.getD 17 1 == 0#8
def recCorr (e : ErrRec) : Bool := e.kind == 0 || e.kind == 4 || e.kind == 6
def recDev (e : ErrRec) : Nat := bytesAt e.bytes 20 20
def recRp (e : ErrRec) : Nat := bytesAt e.bytes 33 33

/-- Key of a row and device: channel, RANKPOS, BANK, row, device. -/
def rowKey (e : ErrRec) : Nat :=
  ((((bytesAt e.bytes 32 32 * 64 + recRp e) * 32 + bytesAt e.bytes 34 34) * 2 ^ 24) + bytesAt e.bytes 38 36) * 16 + recDev e % 16

/-- Key of a device: channel, rank position, subchannel, device. -/
def devKey (e : ErrRec) : Nat :=
  let rp := recRp e
  ((bytesAt e.bytes 32 32 * 4 + (rp / 2 % 2 * 2 + rp / 4 % 2)) * 2 + rp % 2) * 16 + recDev e % 16

/-- Keys in rising order, once each. -/
def keySet (l : List Nat) : List Nat := l.foldl (fun a k => insNat k a) []

/-- DRAM records in the window of a kind. -/
def wearRecs (s : State) (k : Nat) : List ErrRec :=
  s.elog.recs.filter (fun e => dramRec e && inWindow (wearTick s) (wearCfg s k).windowS (e.time / 1000000))

/-- Occurrences that the Sett itself counts: kinds 5 and 6. -/
def wearCount (s : State) (k key : Nat) : Nat :=
  (s.wear.hist.filter (fun (e : Nat × Nat × Nat) => e.1 == k && e.2.1 == key && inWindow (wearTick s) (wearCfg s k).windowS e.2.2)).length

/-- Keys of a kind that stand at their threshold. -/
def wearHits (s : State) (k : Nat) : List Nat :=
  let th := (wearCfg s k).thresh
  let rs := wearRecs s k
  if k = 3 then
    let cs := rs.filter (fun e => recCorr e && decide (recDev e < 10))
    (keySet (cs.map rowKey)).filter (fun q =>
      decide (th ≤ (cs.filter (fun e => rowKey e == q)).foldl (fun a e => a + bytesAt e.bytes 41 40) 0))
  else if k = 4 then
    let ds := rs.filter (fun e => decide (recDev e < 10))
    (keySet (ds.map devKey)).filter (fun q =>
      let mine := ds.filter (fun e => devKey e == q)
      mine.any (fun e => e.kind == 1 || e.kind == 5) || decide (th ≤ (keySet ((mine.filter recCorr).map rowKey)).length))
  else
    (keySet ((s.wear.hist.filter (fun (e : Nat × Nat × Nat) => e.1 == k)).map (fun e => e.2.1))).filter (fun q => decide (th ≤ wearCount s k q))

/-! ## What the Sett does at a threshold -/

/-- Kind 3: a pending hPPR, or advice with the 256 KiB block. -/
def actRow (act : Bool) (key : Nat) (s : State) : State :=
  let dev := key % 16
  let row := key / 16 % 2 ^ 24
  let bk := key / 2 ^ 28 % 32
  let rp := key / 2 ^ 33 % 64
  let n := key / 2 ^ 39
  let p := placeOf rp bk row
  let r : RowRepair := ⟨n, p.sc, p.rk + 4 * p.cid, dev, p.bg, p.ba, p.row, true, false⟩
  if act ∧ !spareRowUsed s r then wearEvent 5 0 (mcInst n) (rowBlock (s.geom n) p) dev 0 (journal (.rowRepair r) s)
  else wearEvent 5 1 (mcInst n) (rowBlock (s.geom n) p) dev 0 s

/-- Kind 4: the erasure, once no scrub runs on the channel; or advice and exhaustion where one is in force. -/
def actDev (act : Bool) (key : Nat) (s : State) : State :=
  let dev := key % 16
  let sc := key / 16 % 2
  let rk := key / 32 % 4
  let n := key / 128
  let cur := s.rf (.mc n) (Off.ERASE + 8 * rk) (4 * sc + 3) (4 * sc)
  if cur = dev then s
  else if cur ≠ 15 then
    let s := { s with wear := { s.wear with second := s.wear.second.filter (· != (n, rk, sc)) ++ [(n, rk, sc)] } }
    setDegraded (wearEvent 6 2 (mcInst n) noPa dev 0 (wearEvent 6 1 (mcInst n) noPa dev 0 s))
  else if !act then wearEvent 6 1 (mcInst n) noPa dev 0 s
  else { s with wear := { s.wear with erasePending := s.wear.erasePending ++ [(n, rk, sc, dev)] } }

/-- Erasures whose channel does not scrub are journalled; they take effect with their commit (R501, R504). -/
def startErasures (s : State) : State :=
  let go := s.wear.erasePending.filter (fun (e : Nat × Nat × Nat × Nat) => (s.mcs' e.1).scrub.isNone)
  let s := { s with wear := { s.wear with erasePending := s.wear.erasePending.filter (fun e => !go.contains e) } }
  go.foldl (fun s e => journal (.dramErase e.1 e.2.1 e.2.2.1 e.2.2.2) s) s

/-- Kind 5: advice to retire the hart. -/
def actCore (p : Nat) (s : State) : State := wearEvent 7 1 (Blk.core p).inst noPa (spareCores s) (hartByte s p) s

/-- Kind 6: a transparent march, or advice. -/
def actBank (act : Bool) (b : Nat) (s : State) : State :=
  let n := b / 16
  let free := (s.hoard n).march.isNone && (s.hoard n).copy.isNone
  let may := (ownerKind s b == 0 || ownerKind s b == 1 || s.rf (bankBlk b) (Off.OWNER + 8 * (b % 16)) 12 12 == 1) && !marchRefused s b 1
  if act ∧ may ∧ free then startMarch n (b % 16) 1 s else wearEvent 3 1 (bankBlk b).inst noPa b 0 s

/-- One threshold reached. In HANDOVER the Sett only advises (R523). -/
def wearAct (k key : Nat) (s : State) : State :=
  let act := (wearCfg s k).autoEn && !s.modeFlag 9
  if k = 3 then actRow act key s else if k = 4 then actDev act key s
  else if k = 5 then actCore key s else actBank act key s

/-- The once-per-second sample of the Hoard's counters. -/
def sampleHoard (s : State) : State :=
  if !s.pwr.mainOn then s else
  (List.range 64).foldl (fun s b =>
    let now := s.rf (bankBlk b) (Off.BANK_STATE + 8 * (b % 16)) 31 16
    let old := (smFind s.wear.sampled b).getD 0
    let new := min 256 (now - old)
    { s with wear := { s.wear with
        sampled := smSet (fun _ => 0) s.wear.sampled b now
        hist := s.wear.hist ++ List.replicate new (6, b, wearTick s) } }) s

/-- WEAR_EVALUATION: thresholds newly reached are acted on in rising order of kind and key (R504). -/
def wearEval (s : State) : State :=
  if !s.serving then s else
  let s := sampleHoard s
  let s := { s with wear := { s.wear with
    hist := s.wear.hist.filter (fun (e : Nat × Nat × Nat) => inWindow (wearTick s) (wearCfg s e.1).windowS e.2.2) } }
  let hits := [3, 4, 5, 6].flatMap (fun k => (wearHits s k).map (fun q => (k, q)))
  let new := hits.filter (fun h => !s.wear.acted.contains h)
  let s := { s with wear := { s.wear with acted := hits } }
  startErasures (new.foldl (fun s (h : Nat × Nat) => wearAct h.1 h.2 s) s)

/-- WEAR_EVALUATION (R503). -/
def execWearEvaluation (s : State) : Res := finish s (wearEval s)

/-- An erasure of the Sett's own takes effect at its commit. -/
def eraseCommit (ch rk sc dev : Nat) (s : State) : State :=
  wearEvent 6 0 (mcInst ch) noPa dev 0 (setErase ch rk sc dev s)

/-! ## CORE.INFO, SPARE_STATUS and WEAR_CFG (R511, R512) -/

/-- The state with the registers of the sparing map as the map has them, where the main domain is off. -/
def withMap (s : State) : State := if s.pwr.mainOn then s else applySpare (fun _ => true) s

def pcnCode : PcnState → Nat | .inService => 0 | .spare => 1 | .retired => 2 | .failed => 3

def coreInfo (c : Cmd) (s : State) : CmdRes :=
  let v := bytesAt c.body 1 0
  let byPcn : Bool := decide (0x8000 ≤ v)
  let pcn : Option Nat := if byPcn then some (v - 0x8000) else s.pcnOf v
  if (byPcn ∧ 272 ≤ v - 0x8000) ∨ (!byPcn ∧ 256 ≤ v) then .fail stBadField s
  else
    let hart := match pcn with | some p => hartByte s p | none => v
    let st := match pcn with | some p => pcnCode (s.pcnSt p) | none => 0
    let ways := match pcn with | some p => waysOf (withMap s) (.core p) Off.L2_WAYCFG 17 | none => 0
    let wk := match pcn with | some p => s.rf (.core p) Off.WAKE_SRC 7 6 | none => 0
    let n := match pcn with | some p => wearCount s 5 p | none => 0
    .done stOk (leBytes 1 hart ++ leBytes 2 (pcn.getD 0x1FF) ++ leBytes 1 st ++ leBytes 1 ways ++ leBytes 1 wk ++ leBytes 2 (min 0xFFFF n)) s

/-- CORE_INFO. -/
def execCoreInfo (ch tag : Nat) (s : State) : Res := finish s (runBelet 0x0401 ch tag coreInfo s)

def coreSpareStatus (_c : Cmd) (s : State) : CmdRes :=
  let m := withMap s
  let count := fun (n : Nat) (p : Nat → Bool) => ((List.range n).filter p).length
  let lanes := (List.range 170).foldl (fun a st => a + count 4 (fun p => linkPresent st p && sparesLeft m st p == 0)) 0
  .done stOk (leBytes 1 (spareCores s) ++ leBytes 1 (count 256 (fun h => (s.pcnOf h).isNone)) ++
    leBytes 2 ((s.served.filter (fun (e : Nat × Nat) => decide (waysOf m (.core e.2) Off.L2_WAYCFG 17 < 16))).length) ++
    leBytes 1 (count 136 (fun h => decide (llcWays m h < 12))) ++ leBytes 1 (count 136 (fun h => decide (warInServ m h < 24))) ++
    leBytes 1 (count 4 (fun n => m.rf (.hoard n) Off.SPARE 4 4 == 0 && m.rf (.hoard n) Off.SPARE 24 24 == 0)) ++
    leBytes 1 (count 64 (fun b => bankFailed m b)) ++ leBytes 2 lanes ++ leBytes 1 s.flash.jst.erasures.length ++
    leBytes 2 ((s.flash.jst.rowRepairs.filter (fun r => !r.applied)).length) ++ leBytes 1 (spareLeft s)) s

/-- CORE_SPARE_STATUS. -/
def execCoreSpareStatus (ch tag : Nat) (s : State) : Res := finish s (runBelet 0x0403 ch tag coreSpareStatus s)

def wearRsp (w : WearCfg) : List Byte := leBytes 1 (b2n w.autoEn) ++ leBytes 1 w.thresh ++ leBytes 4 w.windowS

/-- The instances whose WDCFG a kind sets. -/
def wearInsts : Nat → List Nat
  | 0 => (List.range 272).map (fun p => (Blk.core p).inst)
  | 1 => (List.range 136).map (fun h => (Blk.llc h).inst)
  | 2 => (List.range 136).map (fun h => (Blk.warren h).inst)
  | _ => []

/-- The thresholds that a CORE.WEAR_CFG write names. -/
def wearOf (c : Cmd) : WearCfg := ⟨bytesAt c.body 2 2 = 1, bytesAt c.body 3 3, bytesAt c.body 7 4⟩

def coreWearCfg (c : Cmd) (s : State) : CmdRes :=
  let k := bytesAt c.body 0 0
  let w := wearOf c
  let thOk := if k < 3 then decide (2 ≤ w.thresh) && decide (w.thresh ≤ 16) else decide (1 ≤ w.thresh)
  if 6 < k ∨ 1 < bytesAt c.body 1 1 then .fail stBadField s
  else if bytesAt c.body 1 1 = 0 then .done stOk (wearRsp (wearCfg s k)) s
  else if 1 < bytesAt c.body 2 2 ∨ !thOk ∨ w.windowS = 0 ∨ 1048575 < w.windowS then .fail stBadField s
  else if (wearInsts k).any (fun i => s.leased i) then .fail stLeaseHeld s
  else .commit [.wear k w] s

/-- CORE_WEAR_CFG. -/
def execCoreWearCfg (ch tag : Nat) (s : State) : Res := finish s (runBelet 0x0404 ch tag coreWearCfg s)

/-- Its commit. -/
def wearCommit (c : Cmd) (s : State) : State :=
  let k := bytesAt c.body 0 0
  respond c stOk (wearRsp (wearCfg s k)) (if s.pwr.mainOn then putWear k (wearOf c) s else s)

/-! ## CORE.RETIRE (R505 to R508) -/

/-- Mesh hops between two cores' tiles (R226). -/
def coreHops (p q : Nat) : Nat :=
  let d := fun (a b : Nat) => (a - b) + (b - a)
  let a := coreStop p
  let b := coreStop q
  d (a % 17) (b % 17) + d (a / 17) (b / 17)

/-- The spare that comes in for `old`. -/
def chooseSpare (s : State) (old : Nat) : Option Nat :=
  ((List.range 272).filter (fun p => s.pcnSt p == .spare)).foldl (fun (a : Option Nat) p =>
    match a with
    | none => some p
    | some q => if coreHops old p < coreHops old q then some p else a) none

/-- The core may be retired: parked, or dead; a PCN that the map already shows retired is dead since before a reset. -/
def mayRetire (s : State) (p : Nat) : Bool :=
  s.pcnSt p == .retired || s.hubDead p || ((s.core p).on && (s.core p).sleep == .asleep 2 && (s.core p).wbb.isEmpty)

/-- The map with hart `h` on `o`. -/
def moveHart (h : Nat) (o : Option Nat) (s : State) : State :=
  let rest := s.org.coreMap.filter (fun (e : Nat × Nat) => e.1 != h)
  match o with
  | none => { s with org := { s.org with coreMap := rest } }
  | some p => ({ s with org := { s.org with coreMap := putKey h p rest } } : State).setPcn p .inService

/-- Steps 3 to 5: choose and prepare a spare, and the record to commit. -/
def prepareSpare (h old : Nat) (oks : List Bool) (s : State) : JPayload × State :=
  match chooseSpare s old with
  | none => ((moveHart h none s).mapRec, { s with pwr := { s.pwr with retiring := none } })
  | some p =>
    let cfg := ((smFind s.flash.jst.spareRegs ((Blk.core p).base + Off.L2_WAYCFG)).getD 0xFFFF)
    let s := s.wr (.core p) Off.L2_WAYCFG cfg
    let s := refreshCore p (l2StatusSync p s)
    ((moveHart h (some p) s).mapRec, { s with pwr := { s.pwr with retiring := some (h, p, oks) } })

/-- Deliveries in the slots of a core that goes off return with reason 4. -/
def backSlots (p : Nat) (s : State) : State :=
  let ds := s.idist.slots.filter (fun d => d.pcn == p)
  let s := { s with idist := { s.idist with slots := s.idist.slots.filter (fun d => d.pcn != p) } }
  ds.foldl (fun s d => takeRefused d 4 s) s

def coreRetire (oks : List Bool) (c : Cmd) (s : State) : CmdRes :=
  let h := bytesAt c.body 0 0
  let pa := bytesAt c.body 15 8
  match s.pcnOf h with
  | none => .fail stBadField s
  | some old =>
    let held := s.leased (Blk.core old).inst || (match chooseSpare s old with | some p => s.leased (Blk.core p).inst | none => false)
    if pa % 4 ≠ 0 ∨ !s.isNormal pa then .fail stBadField s
    else if !mayRetire s old then .fail 0x8000 s
    else if held then .fail stLeaseHeld s
    else if !jrnHasRoom s then .fail stNoResource s
    else
      let s := backSlots old (s.wf .idist (Off.HART_MAP + 8 * h) 9 9 0)
      let s := s.setCore old { wayHist := (s.core old).wayHist }
      let (r, s) := prepareSpare h old oks (s.setPcn old .retired)
      .commit [r] s

/-- CORE_RETIRE: `spareOk` says of each spare tried whether it leaves reset. -/
def execCoreRetire (ch tag : Nat) (spareOk : List Bool) (s : State) : Res := finish s (runBelet 0x0402 ch tag (coreRetire spareOk) s)

/-- Steps 6 to 8, once the CORE_MAP record has committed. A spare that died meanwhile, or does not
leave reset, is failed, and the next one is tried. -/
def retireCommit (c : Cmd) (s : State) : State :=
  let h := bytesAt c.body 0 0
  let old := (s.pcnOf h).getD 0x1FF
  let finish := fun (new : Nat) (s : State) =>
    let left := spareCores s
    let s := respond c stOk (leBytes 1 (b2n (new == 0x1FF)) ++ leBytes 2 old ++ leBytes 2 new ++ leBytes 1 left) s
    let s := if new = 0x1FF then wearEvent 7 2 (Blk.core old).inst noPa 0 h s
      else emit [0, 1] 0x0481 0 0 (leBytes 1 h ++ leBytes 2 old ++ leBytes 2 new) s
    let s := if new ≠ 0x1FF ∧ left = 2 then wearEvent 7 2 (Blk.core old).inst noPa 2 h s else s
    setDegraded s
  match s.pwr.retiring with
  | none => finish 0x1FF (moveHart h none s)
  | some (_, p, oks) =>
    if s.pcnSt p = .failed ∨ s.hubDead p ∨ oks.headD true = false then
      let (r, s) := prepareSpare h old oks.tail (s.setPcn p .failed)
      enqueueRec (some c.ord) false r s
    else
      let s := moveHart h (some p) { s with pwr := { s.pwr with retiring := none } }
      let s := if s.pwr.mainOn then s.wr .idist (Off.HART_MAP + 8 * h) (BitVec.ofNat 64 (p + 512)) else s
      let s := if s.pwr.handOff then
          let s := releaseCore h p (bytesAt c.body 15 8) s
          (s.idist.owed.filter (fun (o : Nat × Nat) => o.2 == h)).foldl (fun s _ => drainOwed h s) s
        else s
      finish p s

end Sys2Proof.Machine
end

