-- ==== Sys2Proof/Machine/Owl.lean ====
section
/-! DEFINITION. The Owl: reports, the reaction table, the safe state, injection and the FAULT commands (chapter 19). -/
namespace Sys2Proof.Machine

/-! ## Captures (R485, R486) -/

/-- The detail window of a unit. -/
def detailBlk (inst : Nat) : Blk := .err (inst % 256) (inst / 256)

/-- Classes that blocks report by flit. -/
def classOk (c : Nat) : Bool := decide (2 ≤ c) && decide (c ≤ 22)

/-- Fill the capture. -/
def fillCapture (r : Report) (again : Bool) (s : State) : State :=
  let b := detailBlk r.inst
  let s := s.wr b Off.ERR_STATUS (BitVec.ofNat 64 (1 + r.sev <<< 1 + (b2n again) <<< 3 + (r.checker % 32) <<< 4 + r.cls <<< 16))
  let s := s.wr b Off.ERR_ADDR (BitVec.ofNat 64 ((r.line % 2 ^ 42) <<< 6))
  s.wr b Off.ERR_INFO (BitVec.ofNat 64 (r.index % 2 ^ 16 + (r.agent % 512) <<< 16 + (r.syndrome % 2 ^ 32) <<< 32))

/-- A report at its unit: it counts, and is captured if it finds the capture free or outranks it. -/
def capture (r : Report) (s : State) : Bool × State :=
  let b := detailBlk r.inst
  let s := if r.sev = 0 then s.incSat b Off.ERR_CNT 31 0 else s.incSat b Off.ERR_CNT 63 32
  if s.rf b Off.ERR_STATUS 0 0 = 0 then (true, fillCapture r false s)
  else if s.rf b Off.ERR_STATUS 2 1 < r.sev then (true, fillCapture r true s)
  else (false, s.wf b Off.ERR_STATUS 3 3 1)

/-- Clear the whole capture. -/
def clearCapture (inst : Nat) (s : State) : State :=
  let b := detailBlk inst
  ((s.wr b Off.ERR_STATUS 0).wr b Off.ERR_ADDR 0).wr b Off.ERR_INFO 0

/-- The report that a capture holds. -/
def captured (s : State) (inst : Nat) : Report :=
  let b := detailBlk inst
  { inst := inst, cls := s.rf b Off.ERR_STATUS 21 16, sev := s.rf b Off.ERR_STATUS 2 1, checker := s.rf b Off.ERR_STATUS 8 4
    line := s.rf b Off.ERR_ADDR 47 6, index := s.rf b Off.ERR_INFO 15 0, agent := s.rf b Off.ERR_INFO 24 16
    syndrome := s.rf b Off.ERR_INFO 63 32 }

/-! ## SAFE (R491 to R493) -/

/-- Entry to the safe state. -/
def enterSafe (cause cls sev inst : Nat) (s : State) : State :=
  if s.modeFlag 11 ∨ s.modeFlag 0 ∨ s.pwr.coldHeld then s else
  let s := s.wr .owl Off.SAFE_CAUSE (BitVec.ofNat 64 (cause + cls <<< 3 + sev <<< 9 + inst <<< 11))
  let s := setMode 11 true { s with pwr := { s.pwr with safeN := false, den := .awake, wake := none } }
  let s := if s.pwr.ioOn then
      let s := twinLoss 2 s
      (List.range 9).foldl (fun s n => if isRc s n then (List.range 4).foldl (fun s p => holdPort n p s) s else s) s
    else s
  let s := if s.pwr.memOn then (List.range 16).foldl (fun s n => setMcState n 6 s) s else s
  let s := { s with
    flash := { s.flash with queue := s.flash.queue.take 1 }
    sett := { s.sett with leases := [], relocks := [], unlocked := [] } }
  let s := s.wf .sett Off.LEASE_ACTIVE 31 0 0
  let s := [0, 1, 2, 3].foldl (fun s ch => closeChan ch s) s
  s.wf .sett Off.SETT_STATE 1 0 2

/-! ## Actions (R488 to R490) -/

/-- The core that a unit belongs to, for the classes CORE and PCACHE. -/
def coreOfInst (inst : Nat) : Option Nat :=
  match unitBlk inst with
  | .core p => if isTileStop (inst % 256) ∧ p < 272 then some p else none
  | _ => none

/-- FENCE. -/
def fence (r : Report) (s : State) : State :=
  if !s.pwr.mainOn then s
  else if r.cls = 2 ∨ r.cls = 3 then
    (match coreOfInst r.inst with
    | none => s
    | some p =>
      if s.hubDead p then s.modCore p (fun c => { c with dead := true })
      else (hubDeclareBy 0 p (coreLost p 0 s)).modCore p (fun c => { c with dead := true }))
  else if r.cls = 17 ∨ r.cls = 18 then
    let n := if r.inst % 256 = 7 then 8 else rcStops.idxOf (r.inst % 256)
    if 8 < n ∨ s.hubDead (480 + n) then s
    else
      let s := hubDeclareBy 0 (480 + n) s
      if isRc s n then (List.range 4).foldl (fun s p => holdPort n p s) s else twinLoss 2 s
  else s

/-- The window of 3,600 s is open. -/
def warmOpen (s : State) : Bool :=
  match s.owl.warmFrom with | some w => decide (s.settTime < w + 3600000000) | none => false

/-- A WARM action turns into SAFE at the limit. -/
def warmLimit (s : State) : Bool := warmOpen s && decide (s.rf .owl Off.OWL_CTL 3 0 ≤ s.rf .owl Off.OWL_CTL 7 4)

/-- A WARM action that is taken. -/
def takeWarm (s : State) : State :=
  let s := if warmOpen s then s.wf .owl Off.OWL_CTL 7 4 (s.rf .owl Off.OWL_CTL 7 4 + 1)
    else ({ s with owl := { s.owl with warmFrom := some s.settTime } } : State).wf .owl Off.OWL_CTL 7 4 1
  warmReset 3 s

/-- The actions that a report leads to: those of its byte, less what R489 leaves out. -/
def actionsOf (s : State) (r : Report) (new : Bool) : Nat :=
  let b := s.rf .owl (Off.REACT + 8 * r.cls) (8 * r.sev + 7) (8 * r.sev) % 128
  let b := if new then b else b - b / 2 % 8 * 2
  if s.modeFlag 11 then 0
  else if b.testBit 6 then b - b / 16 % 4 * 16
  else if b.testBit 5 then (if warmLimit s then b - b / 16 % 4 * 16 + 64 else b - b / 16 % 2 * 16)
  else b

/-- OWL_STATUS, CLASS_SEV and LAST take a report. -/
def latchReport (r : Report) (s : State) : Nat × State :=
  let cs := Off.CLASS_SEV + 8 * (r.cls / 32)
  let k := 2 * (r.cls % 32)
  let set := s.rf .owl Off.OWL_STATUS r.cls r.cls = 1
  let new := decide (¬ set ∨ s.rf .owl cs (k + 1) k < r.sev)
  let acts := actionsOf s r new
  let s := s.wf .owl Off.OWL_STATUS r.cls r.cls 1
  let s := if new then s.wf .owl cs (k + 1) k r.sev else s
  (acts, s.wr .owl Off.OWL_LAST (BitVec.ofNat 64 (r.cls + r.sev <<< 6 + r.inst <<< 8 + acts <<< 24)))

/-- Take the actions. `held`: the report stands in its capture. -/
def takeActions (r : Report) (held : Bool) (acts : Nat) (s : State) : State :=
  let s := if acts.testBit 0 ∧ s.serving then
      clearCapture r.inst (logReport (if held then r else captured s r.inst) s)
    else s
  let s := if acts.testBit 1 ∧ s.pwr.mainOn then fireEdge 16 s else s
  let s := if acts.testBit 2 ∧ s.pwr.mainOn then fireEdge 17 s else s
  let s := if acts.testBit 3 ∧ s.serving then
      emit [0, 1, 2, 3] 0x0680 0 0 (leBytes 1 r.cls ++ leBytes 1 r.sev ++ leBytes 2 r.inst ++ leBytes 1 acts) s
    else s
  if acts.testBit 6 then
    enterSafe (if s.rf .owl (Off.REACT + 8 * r.cls) (8 * r.sev + 6) (8 * r.sev + 6) = 1 then 3 else 4) r.cls r.sev r.inst s
  else if acts.testBit 5 then takeWarm s
  else if acts.testBit 4 then fence r s else s

/-! ## The sparing map follows the hardware's own changes (R501) -/

/-- Journal a register of the map where it differs from what is on record. -/
def mapReg (b : Blk) (o : Nat) (s : State) : State :=
  let off := b.base + o
  if (smFind s.flash.jst.spareRegs off).getD (ocrReset off) = s.rdOff off then s else journal (.spareReg off (s.rdOff off)) s

/-- CORE.WEAR's ACTION for a wear report: spared, exhausted, or refused at the floor. -/
def wearAction (sev : Nat) (failed : Bool) : Nat := if sev = 0 then 0 else if failed then 2 else 3

/-- What the Sett does with a report of wear. -/
def mapReport (r : Report) (s : State) : State :=
  let b := unitBlk r.inst
  let w := r.index
  let s := if r.cls = 4 then
      (match coreOfInst r.inst with
      | some p => wearEvent 0 (wearAction r.sev (s.rf b Off.L2_WAYCFG (32 + w) (32 + w) == 1)) r.inst noPa w (hartByte s p)
          (mapReg b Off.L2_WAYCFG s)
      | none => s)
    else if r.cls = 9 then
      (match b with
      | .llc h => wearEvent 1 (wearAction r.sev (s.rf (.llc h) Off.LLC_WAYCFG (48 + w) (48 + w) == 1)) r.inst noPa w 0 (mapReg b Off.LLC_WAYCFG s)
      | .warren h => wearEvent 2 (wearAction r.sev (s.rf (.warren h) Off.WARREN_WAYCFG (32 + w) (32 + w) == 1)) r.inst noPa w 0
          (mapReg b Off.WARREN_WAYCFG s)
      | _ => s)
    else if r.cls = 5 ∧ r.checker = 23 then
      let st := r.inst % 256
      let o := fun (p : Nat) => Off.LINK_LANEMAP + 0x40 * p
      let mapped := (List.range 4).any (fun p => linkPresent st p && (s.rf b (o p) 9 0 == w || s.rf b (o p) 25 16 == w))
      let s := (List.range 4).foldl (fun s p => if linkPresent st p then mapReg b (o p) s else s) s
      wearEvent 4 (if mapped then 0 else 2) r.inst noPa w 0 s
    else if r.cls = 16 then
      let bank := if w = 16 then s.rf b Off.SPARE 3 0 else w
      wearEvent 3 (if r.sev = 0 then 0 else 2) r.inst noPa (16 * hoardStops.idxOf (r.inst % 256) + bank) 0 (mapReg b Off.SPARE s)
    else if r.cls = 20 then wearEvent 8 (if spareLeft s = 0 then 2 else 0) r.inst noPa w 0 s
    else s
  let s := match coreOfInst r.inst with
    | some p => if (r.cls = 2 ∨ r.cls = 3) ∧ r.sev = 0 then
        { s with wear := { s.wear with hist := s.wear.hist ++ [(5, p, wearTick s)] } }
      else s
    | none => s
  if [4, 5, 9, 16, 20].contains r.cls then setDegraded s else s

/-! ## FAULT_REPORT and the dedicated wires -/

/-- A unit that is off sends no report. -/
def unitOn (s : State) (inst : Nat) : Bool := !instBad inst && domOn s (domOf (unitBlk inst))

/-- A report reaches the Owl: one in flight, or one that the unit has just found by itself. -/
def faultReport (r : Report) (s : State) : State :=
  let same := fun (x : Report) => { x with how := 0 } == { r with how := 0 }
  let fl := s.owl.flits.find? same
  if s.modeFlag 0 ∨ s.pwr.coldHeld ∨ !classOk r.cls ∨ 3 < r.sev ∨ (fl.isNone ∧ !unitOn s r.inst) then s
  else
    let r := fl.getD r
    let s := { s with owl := { s.owl with flits := delFirst same s.owl.flits } }
    let (held, s) := capture r s
    let (acts, s) := latchReport r s
    let s := if s.serving then mapReport r s else s
    takeActions r held acts s

/-- FAULT_REPORT (R488). -/
def execFaultReport (inst cls sev checker line index agent synd : Nat) (s : State) : Res :=
  finish s (faultReport { inst := inst, cls := cls, sev := sev, checker := checker, line := line, index := index, agent := agent, syndrome := synd } s)

/-- A report on a dedicated wire: it always leads to SAFE. -/
def wireReport (cls cause : Nat) (s : State) : State :=
  let r : Report := ⟨(Blk.owl).inst, cls, 3, 0, 0, 0, 0x1FF, 0, 0⟩
  let (_, s) := latchReport r s
  let s := s.wf .owl Off.OWL_LAST 30 24 (if s.modeFlag 11 then 0 else 64)
  enterSafe cause cls 3 (Blk.owl).inst s

/-- DOMAIN_DOWN_LINE (R240, R264, R492): the line has been driven and latched. -/
def execDomainDownLine (s : State) : Res :=
  finish s (if s.owl.domainDown ∧ !s.modeFlag 0 ∧ !s.pwr.coldHeld then
      wireReport 0 1 { s with owl := { s.owl with domainDown := false } } else s)

/-- OWL_SELF (R491). -/
def execOwlSelf (s : State) : Res := finish s (if s.modeFlag 0 ∨ s.pwr.coldHeld then s else wireReport 1 2 s)

/-- WARM_WINDOW_EXPIRY (R490). -/
def execWarmWindowExpiry (s : State) : Res :=
  finish s (match s.owl.warmFrom with
    | none => s
    | some w =>
      if s.sett.timeStill then s else
      let s := s.toTick (s.tickOfTime (w + 3600000000))
      ({ s with owl := { s.owl with warmFrom := none } } : State).wf .owl Off.OWL_CTL 7 4 0)

/-! ## Injection (R494) -/

/-- Checkers of a unit that INJECT can drive. -/
def injectable (inst : Nat) : List Nat :=
  match unitBlk inst with
  | .mesh _ => [17]
  | .core _ => [3, 4, 5, 6, 7, 8, 9, 10, 11, 12, 13]
  | .llc _ => [14, 15]
  | .warren _ => [16]
  | .mc _ => [1, 19]
  | .hoard _ => [2]
  | .sett => [20]
  | _ => []

/-- Parity checkers use FLIP bit 0 only. -/
def parityChk (c : Nat) : Bool := [3, 10, 11].contains c

/-- Checkers 15 and 16 are refused outside DIAGNOSTIC. -/
def injectMode (s : State) (c : Nat) : Bool := s.modeFlag 10 || !(c == 15 || c == 16)

/-- The value that a write of `v` leaves in INJECT: reserved encodings keep their field (R5). -/
def injectMerge (s : State) (inst : Nat) (v old : Word) : Word :=
  let c := if (injectable inst).contains (fld v 4 0) ∧ injectMode s (fld v 4 0) then fld v 4 0 else fld old 4 0
  let f := if parityChk c ∧ fld v 15 9 ≠ 0 then fld old 15 8 else fld v 15 8
  let arm := if injectMode s (fld v 4 0) then fld v 6 6 else fld old 6 6
  BitVec.ofNat 64 (c + (fld v 5 5) <<< 5 + arm <<< 6 + f <<< 8)

/-! ## FAULT commands (R496, R497) -/

def faultStatus (_c : Cmd) (s : State) : CmdRes :=
  .done stOk (leBytes 8 (s.rd .owl Off.OWL_STATUS).toNat ++ leBytes 8 (s.rd .owl Off.CLASS_SEV).toNat ++
    leBytes 8 (s.rd .owl (Off.CLASS_SEV + 8)).toNat ++ leBytes 8 (s.rd .owl Off.OWL_LAST).toNat ++ leBytes 1 (s.rf .owl Off.OWL_CTL 7 4)) s

/-- FAULT_STATUS. -/
def execFaultStatus (ch tag : Nat) (s : State) : Res := finish s (runBelet 0x0601 ch tag faultStatus s)

/-- Clear classes in OWL_STATUS, and their severities. -/
def clearClasses (m : Nat) (s : State) : State :=
  (List.range 23).foldl (fun s c =>
    if m.testBit c then
      (s.wf .owl Off.OWL_STATUS c c 0).wf .owl (Off.CLASS_SEV + 8 * (c / 32)) (2 * (c % 32) + 1) (2 * (c % 32)) 0
    else s) s

def owlLeased (s : State) : Bool := s.leased (Blk.owl).inst

def faultClear (c : Cmd) (s : State) : CmdRes :=
  if owlLeased s then .fail stLeaseHeld s
  else
    let s := clearClasses (bytesAt c.body 7 0) s
    .done stOk (leBytes 8 (s.rd .owl Off.OWL_STATUS).toNat) s

/-- FAULT_CLEAR. -/
def execFaultClear (ch tag : Nat) (s : State) : Res := finish s (runBelet 0x0602 ch tag faultClear s)

/-- Classes that FENCE may act on. -/
def fenceClass (c : Nat) : Bool := [2, 3, 17, 18].contains c

/-- An action byte is no reserved encoding. -/
def reactByteOk (c b : Nat) : Bool := !b.testBit 7 && (!b.testBit 4 || fenceClass c)

def faultReact (c : Cmd) (s : State) : CmdRes :=
  let k := bytesAt c.body 0 0
  let v := bytesAt c.body 7 4
  let rsp := fun (s : State) => leBytes 4 (s.rd .owl (Off.REACT + 8 * k)).toNat
  if 63 < k ∨ 1 < bytesAt c.body 1 1 then .fail stBadField s
  else if bytesAt c.body 1 1 = 0 then .done stOk (rsp s) s
  else if !classOk k ∨ (List.range 4).any (fun i => !reactByteOk k (v / 256 ^ i % 256)) then .fail stBadField s
  else if owlLeased s then .fail stLeaseHeld s
  else
    let s := s.wr .owl (Off.REACT + 8 * k) (BitVec.ofNat 64 v)
    .done stOk (rsp s) s

/-- FAULT_REACT. -/
def execFaultReact (ch tag : Nat) (s : State) : Res := finish s (runBelet 0x0603 ch tag faultReact s)

/-- An instance with no register window of its own. -/
def noUnit (inst : Nat) : Bool := decide (169 < inst % 256) || decide (7 < inst / 256)

def faultDetail (c : Cmd) (s : State) : CmdRes :=
  let i := bytesAt c.body 1 0
  let b := detailBlk i
  if noUnit i then .fail stBadField s
  else
    let rd := fun (o : Nat) => leBytes 8 (if errPart (i % 256) (i / 256) then s.rd b o else 0).toNat
    let rsp := rd Off.ERR_STATUS ++ rd Off.ERR_ADDR ++ rd Off.ERR_INFO ++ rd Off.ERR_CNT
    if bytesAt c.body 2 2 = 0 then .done stOk rsp s
    else if s.leased b.inst then .fail stLeaseHeld s
    else .done stOk rsp (clearCapture i s)

/-- FAULT_DETAIL. -/
def execFaultDetail (ch tag : Nat) (s : State) : Res := finish s (runBelet 0x0604 ch tag faultDetail s)

/-- The bits of INJECT that are not reserved. -/
def injectBits (v : Nat) : Nat := v % 128 + v / 256 % 256 * 256

def faultInject (c : Cmd) (s : State) : CmdRes :=
  let i := bytesAt c.body 1 0
  let v := injectBits (bytesAt c.body 7 4)
  let k := v % 32
  if noUnit i ∨ !errPart (i % 256) (i / 256) ∨ !(injectable i).contains k ∨ (parityChk k ∧ v / 512 % 128 ≠ 0) then .fail stBadField s
  else if !injectMode s k then .fail stWrongMode s
  else if s.leased (detailBlk i).inst then .fail stLeaseHeld s
  else
    let s := s.wr (detailBlk i) Off.INJECT (BitVec.ofNat 64 v)
    .done stOk (leBytes 4 v) s

/-- FAULT_INJECT. -/
def execFaultInject (ch tag : Nat) (s : State) : Res := finish s (runBelet 0x0605 ch tag faultInject s)

def faultCtl (c : Cmd) (s : State) : CmdRes :=
  let m := bytesAt c.body 1 1
  let rsp := fun (s : State) => leBytes 1 (s.rf .owl Off.OWL_CTL 3 0) ++ leBytes 1 (s.rf .owl Off.OWL_CTL 7 4)
  if 1 < bytesAt c.body 0 0 then .fail stBadField s
  else if bytesAt c.body 0 0 = 0 then .done stOk (rsp s) s
  else if m = 0 ∨ 15 < m then .fail stBadField s
  else if owlLeased s then .fail stLeaseHeld s
  else
    let s := s.wf .owl Off.OWL_CTL 3 0 m
    .done stOk (rsp s) s

/-- FAULT_CTL. -/
def execFaultCtl (ch tag : Nat) (s : State) : Res := finish s (runBelet 0x0606 ch tag faultCtl s)

end Sys2Proof.Machine
end

