-- ==== Sys2Proof/Machine/Perf.lean ====
section
/-! DEFINITION. Performance monitoring: bandwidth windows and the PERF commands (chapter 23), and which register windows are
powered (R35). -/
namespace Sys2Proof.Machine

/-! ## Windows that are powered off (R35) -/



/-- A window answers all ones. -/
def winOff (s : State) (b : Blk) : Bool :=
  match b with
  | .err _ _ => false
  | .core p => coreOff s p
  | _ => !domOn s (domOf b) || (domOf b == 1 && inRetention s)

/-- A register as the Sett reads it, without any side effect (R37, R580). -/
def settSees (s : State) (b : Blk) (o : Nat) : Word := if winOff s b then BitVec.allOnes 64 else s.rd b o

/-- Number of the accessing core; 0x1FF for another agent. -/
def agentPcn : Agent → Nat | .core p _ => p | _ => 0x1FF



/-- The stop records an access to a window that is off (R35, R243), and one to a dead core's also at the Owl (R143). -/
def recordOff (who : Agent) (off : Nat) (write : Bool) (s : State) : State :=
  if !s.pwr.mainOn then s else
  let s := match blkOf off with
    | some (.core p, _) => if s.hubDead p then deadAccess (coreStop p) p ((ocrBase + off) / 64) s else s
    | _ => s
  let st := off >>> 24
  let n := min 0xFFFF (s.rf (.mesh st) Off.OCR_ERR 55 40 + 1)
  driveLevel 208 true (s.wr (.mesh st) Off.OCR_ERR
    (BitVec.ofNat 64 (off % 2 ^ 24 + (b2n write) <<< 24 + (agentPcn who) <<< 25 + n <<< 40 + 2 ^ 63)))

/-- The Sett's accesses to a window that is off are recorded like any other agent's (R35, R37). -/
def settTouch (b : Blk) (offs : List Nat) (write : Bool) (s : State) : State :=
  if winOff s b then offs.foldl (fun s o => recordOff .sett (b.base + o) write s) s else s

/-! ## Bandwidth windows (R561, R562) -/

/-- BW_WINDOW_CLOSE: the window closes at the next multiple of its length after it opened. -/
def bwClose (st : Nat) (s : State) : State :=
  match (bwBlks s).find? (fun b => b.stop == st) with
  | none => s
  | some b =>
    if winOff s b ∨ s.rf b Off.BW_CTL 5 5 = 0 then s else
    bwCatch b (s.toTick (bwDue (bwOf s b)))

/-- BW_WINDOW_CLOSE (R561). -/
def execBwWindowClose (stop : Nat) (s : State) : Res := finish s (bwClose stop s)

/-! ## Counters of a core (R565, R566) -/

/-- What the Sett read, `look` being the trace of its reads, goes into the client's buffer if it fits. -/
def putBuffer (c : Cmd) (bytes rsp : List Byte) (look : State → State) (s : State) : CmdRes :=
  if !bufOk s c ∨ bufLen c < bytes.length then .fail stBadBuffer s else .done stOk rsp (settWr (bufPa c) bytes (look s))

def perfCoreRead (c : Cmd) (s : State) : CmdRes :=
  match s.pcnOf (bytesAt c.body 16 16) with
  | none => .fail stBadField s
  | some p =>
    let rd := fun (o : Nat) => leBytes 8 (settSees s (.core p) o).toNat
    let offs := (List.range 128).map (fun e => Off.PMC + 8 * e) ++ [Off.PMOVF, Off.PMOVF + 8]
    putBuffer c (offs.flatMap rd) (leBytes 4 1040) (settTouch (.core p) offs false) s

/-- PERF_CORE_READ. -/
def execPerfCoreRead (ch tag : Nat) (s : State) : Res := finish s (runBelet 0x0A01 ch tag perfCoreRead s)

/-- A write of registers of a core's window; a window that is off drops it. -/
def coreWr (p : Nat) (l : List (Nat × Word)) (s : State) : State :=
  if coreOff s p then settTouch (.core p) (l.map (·.1)) true s else l.foldl (fun (s : State) (e : Nat × Word) => s.wr (.core p) e.1 e.2) s

def perfCoreCfg (c : Cmd) (s : State) : CmdRes :=
  let f := fun hi lo => bytesAt c.body hi lo
  let t := f 2 2
  let e := f 3 3
  match s.pcnOf (f 0 0) with
  | none => .fail stBadField s
  | some p =>
    let cfg := BitVec.ofNat 64 (f 15 8)
    -- bits that the registers reserve
    let bad : Bool := if t = 4 then decide (fld cfg 63 7 ≠ 0) || decide (fld cfg 4 2 ≠ 0) || decide (2 ^ 48 ≤ f 39 32)
      else decide (fld cfg 63 27 ≠ 0) || decide (f 23 16 % 64 ≠ 0) || decide (f 31 24 % 64 ≠ 0) || decide (2 ^ 48 ≤ f 23 16) || decide (2 ^ 48 ≤ f 31 24)
    let look := settTouch (.core p) (if t = 4 then [Off.PMCTL + 4 * e, Off.PMC + 8 * e]
      else [Off.PMF_CFG + 32 * t, Off.PMF_LO + 32 * t, Off.PMF_HI + 32 * t]) false
    let rsp := fun (s : State) =>
      let rd := fun (o : Nat) => leBytes 8 (settSees s (.core p) o).toNat
      leBytes 1 (f 0 0) ++ leBytes 1 (f 1 1) ++ leBytes 1 t ++ leBytes 1 e ++ leBytes 1 (f 4 4) ++ leBytes 3 0 ++
        (if t = 4 then rd (Off.PMCTL + 4 * e) ++ leBytes 16 0 ++ rd (Off.PMC + 8 * e)
         else rd (Off.PMF_CFG + 32 * t) ++ rd (Off.PMF_LO + 32 * t) ++ rd (Off.PMF_HI + 32 * t) ++ leBytes 8 0)
    if 4 < t ∨ 1 < f 1 1 ∨ (t = 4 ∧ 127 < e) ∨ (t < 4 ∧ e ≠ 0) then .fail stBadField s
    else if f 1 1 = 0 then .done stOk (rsp s) (look s)
    else if bad ∨ (t < 4 ∧ f 4 4 ≠ 0) then .fail stBadField s
    else if s.leased (Blk.core p).inst then .fail stLeaseHeld s
    else
      let s := if t = 4 then
          coreWr p ([(Off.PMCTL + 4 * e, cfg)] ++ (if f 4 4 = 1 then [(Off.PMC + 8 * e, BitVec.ofNat 64 (f 39 32))] else [])) s
        else coreWr p [(Off.PMF_CFG + 32 * t, cfg), (Off.PMF_LO + 32 * t, BitVec.ofNat 64 (f 23 16)), (Off.PMF_HI + 32 * t, BitVec.ofNat 64 (f 31 24))] s
      .done stOk (rsp s) (look s)

/-- PERF_CORE_CFG. -/
def execPerfCoreCfg (ch tag : Nat) (s : State) : Res := finish s (runBelet 0x0A02 ch tag perfCoreCfg s)

/-! ## Spoor settings (R557, R559, R563) -/

/-- Legal values of SPOOR_CTL; 0 is its reset value. -/
def spoorCtlOk (v : Word) : Bool :=
  let n := fld v 7 3
  let e := fld v 16 12
  decide (fld v 63 19 = 0) && ((decide (6 ≤ n) && decide (n ≤ 24)) || (n == 0 && !bitOf v 0)) && decide (fld v 11 8 ≤ 12) &&
    (decide (fld v 11 8 < n) || fld v 11 8 == 0) && ((decide (6 ≤ e) && decide (e ≤ 20)) || (e == 0 && !bitOf v 0))

/-- A ring at `a` with 2^LOG2ENT records lies in DRAM, or in the Hoard outside bank 32. -/
def spoorBaseOk (s : State) (a log2ent : Nat) : Bool := s.inBuffer a (64 * 2 ^ log2ent)

/-- A write of SPOOR_CTL reloads the countdown. -/
def spoorCtlPut (p : Nat) (v : Word) (s : State) : State :=
  let s := s.wr (.core p) Off.SPOOR_CTL v
  if bitOf v 0 then spoorReload p s else s

def perfSpoor (c : Cmd) (s : State) : CmdRes :=
  let f := fun hi lo => bytesAt c.body hi lo
  match s.pcnOf (f 0 0) with
  | none => .fail stBadField s
  | some p =>
    let ctl := BitVec.ofNat 64 (f 15 8)
    let base := f 23 16
    let offs := [Off.SPOOR_CTL, Off.SPOOR_BASE, Off.SPOOR_HEAD, Off.SPOOR_LOST]
    let rsp := fun (s : State) =>
      let rd := fun (n o : Nat) => leBytes n (settSees s (.core p) o).toNat
      rd 8 Off.SPOOR_CTL ++ rd 8 Off.SPOOR_BASE ++ rd 4 Off.SPOOR_HEAD ++ rd 4 Off.SPOOR_LOST
    if 1 < f 1 1 then .fail stBadField s
    else if f 1 1 = 0 then .done stOk (rsp s) (settTouch (.core p) offs false s)
    else if !spoorCtlOk ctl ∨ base % 4096 ≠ 0 ∨ (bitOf ctl 0 ∧ !spoorBaseOk s base (fld ctl 16 12)) then .fail stBadField s
    else if s.leased (Blk.core p).inst then .fail stLeaseHeld s
    else
      let s := if coreOff s p then settTouch (.core p) [Off.SPOOR_BASE, Off.SPOOR_CTL] true s else
        let s := if spoorBaseOk s base (fld ctl 16 12) then s.wr (.core p) Off.SPOOR_BASE (BitVec.ofNat 64 base) else s
        spoorCtlPut p ctl s
      .done stOk (rsp s) (settTouch (.core p) offs false s)

/-- PERF_SPOOR. -/
def execPerfSpoor (ch tag : Nat) (s : State) : Res := finish s (runBelet 0x0A03 ch tag perfSpoor s)

/-! ## The uncore (R560, R565) -/

def perfBwCfg (c : Cmd) (s : State) : CmdRes :=
  let f := fun hi lo => bytesAt c.body hi lo
  let bs := bwBlks s
  let rsp := fun (s : State) =>
    let w := match bs with | b :: _ => settSees s b Off.BW_CTL | [] => 0
    leBytes 1 (fld w 4 0) ++ leBytes 1 (fld w 5 5)
  let look := fun (s : State) => match bs with | b :: _ => settTouch b [Off.BW_CTL] false s | [] => s
  if 1 < f 0 0 then .fail stBadField s
  else if f 0 0 = 0 then .done stOk (rsp s) (look s)
  else if 20 < f 1 1 ∨ 1 < f 2 2 then .fail stBadField s
  else if bs.any (fun b => s.leased b.inst) then .fail stLeaseHeld s
  else
    let s := bs.foldl (fun s b => if winOff s b then settTouch b [Off.BW_CTL] true s
      else bwCtlPut b (setFld (setFld (s.rd b Off.BW_CTL) 4 0 (f 1 1)) 5 5 (f 2 2)) s) s
    .done stOk (rsp s) (look s)

/-- PERF_BW_CFG. -/
def execPerfBwCfg (ch tag : Nat) (s : State) : Res := finish s (runBelet 0x0A04 ch tag perfBwCfg s)

/-- The block that an INSTANCE names: an edge block, a slice or a router. -/
def uncBlk (s : State) (i : Nat) : Option Blk :=
  if instBad i then none else
  match unitBlk i with
  | .mesh st => some (.mesh st)
  | .llc h => some (.llc h)
  | .mc n => some (.mc n)
  | .rc n => some (.rc n)
  | .tp => some (portBlk s 8)
  | .hoard n => some (.hoard n)
  | _ => none

def perfBwRead (c : Cmd) (s : State) : CmdRes :=
  match (uncBlk s (bytesAt c.body 17 16)).bind (fun b => (bwBlks s).find? (fun x => x == b)) with
  | none => .fail stBadField s
  | some b =>
    let offs := (List.range 128).map (fun i => Off.BW_SNAP + 8 * i)
    let bytes := offs.flatMap (fun o => leBytes 8 (settSees s b o).toNat)
    let st := settSees s b Off.BW_STAT
    putBuffer c bytes (leBytes 4 (fld st 31 0) ++ leBytes 1 (fld st 32 32) ++ leBytes 1 0 ++ leBytes 2 bytes.length)
      (settTouch b (offs ++ [Off.BW_STAT]) false) s

/-- PERF_BW_READ. -/
def execPerfBwRead (ch tag : Nat) (s : State) : Res := finish s (runBelet 0x0A05 ch tag perfBwRead s)

def perfUncRead (c : Cmd) (s : State) : CmdRes :=
  match uncBlk s (bytesAt c.body 17 16) with
  | none => .fail stBadField s
  | some b =>
    let rd := fun (o : Nat) => leBytes 8 (settSees s b o).toNat
    let offs := (List.range 16).map (fun i => Off.UNC_CNT + 8 * i) ++ [Off.UNC_OVF]
    putBuffer c (offs.flatMap rd) (leBytes 2 136) (settTouch b offs false) s

/-- PERF_UNC_READ. -/
def execPerfUncRead (ch tag : Nat) (s : State) : Res := finish s (runBelet 0x0A06 ch tag perfUncRead s)

end Sys2Proof.Machine
end

