-- ==== Sys2Proof/Machine/Commit.lean ====
section
/-! DEFINITION. The commit of a journal record, and what follows it (R474, R478, R501). -/
namespace Sys2Proof.Machine

/-- FW.ACTIVATE after its record: the boot-select record, and the session closes (R67, R468). -/
def activateCommit (slot : Nat) (c : Cmd) (s : State) : State :=
  let s := writeBsel slot true 0 s
  respond c stOk [] { s with sett := { s.sett with fw := none } }

/-- The effect of a command whose last record has committed. `seq`: the record's SEQ. -/
def commitEffect (c : Cmd) (p : JPayload) (seq : Nat) (s : State) : State :=
  match c.opcode with
  | 0x0804 => (match p with | .fwSlot slot => activateCommit slot c s | _ => s)
  | 0x0364 | 0x0366 | 0x0367 => memCommit c s
  | 0x0402 => retireCommit c s
  | 0x0404 => wearCommit c s
  | 0x0209 => poolsCommit c s
  | 0x0702 => pwrConfigCommit c s
  | 0x0501 =>
    let n := bytesAt c.body 0 0
    let s := match p with | .rcBifurc _ v => rcCfgWrite n v s | _ => s
    respond c stOk (rcCfgRsp s n) s
  | 0x0903 => respond c stOk (leBytes 8 seq) s
  | _ => respond c stOk [] s

/-- What a committed record without a waiting command sets going. -/
def recordEffect (p : JPayload) (s : State) : State :=
  match p with
  | .dramErase ch rk sc dev => if s.pwr.memOn then eraseCommit ch rk sc dev s else s
  | .snapEnd c _ => endCompaction (nextErase (startErases c s))
  | _ => s

/-- The record is on the flash: take it off its list, and let its effect follow. -/
def recordDone (r : JReq) (seq : Nat) (s : State) : State :=
  match r.owner with
  | none => if r.snap then s else recordEffect r.payload s
  | some o => (match s.sett.cmds.find? (fun c => c.ord == o) with
    | some c => commitEffect c r.payload seq s
    | none => s)

/-- A record that cannot be written ends: its command fails without an effect. -/
def recordFails (r : JReq) (st : Nat) (s : State) : State :=
  match r.owner with
  | none => s
  | some o => (match s.sett.cmds.find? (fun c => c.ord == o) with | some c => respond c st [] s | none => s)

/-- A program or read-back that fails (R478): the block is retired with a torn record in it, FLASH_BAD is written, and the
record is written again in a fresh block: once for a command, as often as it takes otherwise, and in a hold-up while its
3 ms last. -/
def commitFailed (r : JReq) (fromSnap : Bool) (s : State) : State :=
  let pg := recPages s.flash.nextSeq r.payload
  match openBlock pg s with
  | none => recordFails r stNoResource (dropReq fromSnap s)
  | some (blk, s) =>
    let s := retireBlock blk (putRec blk ⟨s.flash.nextSeq, r.time, r.snap, r.payload, pg, false⟩ s)
    let bad : JReq := ⟨.flashBad blk, false, s.settTime, none, 0⟩
    let again := { r with tries := r.tries + 1 }
    let late := s.sett.holdUp && decide (s.sett.holdUntil ≤ s.tick)
    if (r.owner.isSome ∧ 1 ≤ r.tries) ∨ late then
      let s := dropReq fromSnap s
      recordFails r stFlashError { s with flash := { s.flash with queue := bad :: s.flash.queue } }
    else if fromSnap then { s with flash := { s.flash with queue := bad :: s.flash.queue } }
    else { s with flash := { s.flash with queue := bad :: again :: s.flash.queue.tail } }

/-- The Sett writes records: while it runs, and in SAFE the one in progress (R71, R474). -/
def mayWrite (s : State) : Bool := !s.modeFlag 0 && !s.pwr.coldHeld && !s.sett.timeStill && decide (s.rf .sett Off.SETT_STATE 1 0 ≠ 0)

/-- JOURNAL_COMMIT: the oldest waiting record commits, or (`ok` false) its program or read-back fails. -/
def journalCommit (ok : Bool) (s : State) : State :=
  if !mayWrite s then s else
  match nextReq s with
  | none => s
  | some (r, fromSnap) =>
    let s := suspendErase s
    let seq := s.flash.nextSeq
    if !ok then commitFailed r fromSnap s
    else match commitRec r s with
      | none => recordFails r stNoResource (dropReq fromSnap s)
      | some s => recordDone r seq (dropReq fromSnap s)

/-- JOURNAL_COMMIT (R474). -/
def execJournalCommit (ok : Bool) (s : State) : Res := finish s (journalCommit ok s)

end Sys2Proof.Machine
end

