-- ==== Sys2Proof/Machine/RegFx.lean ====
section
/-! DEFINITION. Register accesses (R3 to R7, R32 to R37): where an access lands, what a powered-off window does, leases, and
what a write or a read of each register does. -/
namespace Sys2Proof.Machine

/-! ## Where an access lands (R32 to R34) -/

/-- The window and offset of byte `off` of the register space. In root mode the twin port's window holds a root
complex's map (R422). Nothing lies in the reserved range, nor above stop 169. -/
def landing (s : State) (off : Nat) : Option (Blk × Nat) :=
  if 170 ≤ off >>> 24 then none else
  match blkOf off with
  | some (.tp, o) => some (if s.pwr.tpRoot then .rc 8 else .tp, o)
  | some (.vf v, o) => if s.pwr.tpRoot then none else some (.vf v, o)
  | x => x

/-- Byte of the register space at which a register of a window answers. -/
def regOff (b : Blk) (o : Nat) : Nat := if b = .rc 8 then Blk.tp.base + o else b.base + o

/-- The register that an access of `size` bytes at `o` reaches: its definition, its offset, and the lowest bit and the
number of the bits it reaches (R33). -/
def reach (b : Blk) (o size : Nat) : Option (RegDef × Nat × Nat × Nat) :=
  match regAt b o with
  | some d => some (d, o, 0, if d.wide && size == 8 then 64 else 32)
  | none =>
    if size = 4 ∧ o % 8 = 4 then
      (match regAt b (o - 4) with
      | some d => if d.wide then some (d, o - 4, 32, 32) else none
      | none => none)
    else none

/-- A naturally aligned access of 4 or 8 bytes. -/
def accessOk (off size : Nat) : Bool := (size == 4 || size == 8) && off % size == 0

/-- The register value that a write of some of its bits asks for: bits it does not reach keep their fields (R33). -/
def fullValue (d : RegDef) (old v : Word) (lo w : Nat) : Word :=
  let m : Word := BitVec.ofNat 64 ((2 ^ w - 1) * 2 ^ lo)
  let keep := d.fields.foldl (fun (a : Word) (f : FieldDef) =>
    if f.acc = .w1c ∨ f.acc = .w1s ∨ f.acc = .wo then setFld a f.hi f.lo 0 else a) old
  (BitVec.ofNat 64 (v.toNat * 2 ^ lo) &&& m) ||| (keep &&& ~~~m)

/-! ## Powered-off windows (R35, R243) -/

def agentLvl : Agent → Nat | .core _ l => l.num | _ => 0

/-- Some stop holds a record of an access to a powered-off window. -/
def anyOcrErr (s : State) : Bool := (List.range 170).any (fun st => s.rf (.mesh st) Off.OCR_ERR 63 63 == 1)



/-! ## Leases (R7, R59, R64) -/

/-- The instance's RWL registers are open to the agent. -/
def leaseOpen (s : State) (who : Agent) (b : Blk) : Bool :=
  match who with
  | .sett => true
  | .core _ l => s.sett.unlocked.any (fun (e : Nat × Nat) => e.1 == b.inst && (l == .m || (e.2 == 1 && l == .h)))
  | _ => false

/-- Offset in its instance's window of byte `off` of the register space. -/
def instOff (b : Blk) (off : Nat) : Nat :=
  off % 2 ^ 24 - ([0, 0x100000, 0x200000, 0, 0x400000, 0x800000, 0xC00000, 0xE00000].getD (b.inst / 256) 0)

/-- An RWL write is ignored for lack of a lease. -/
def recordViol (who : Agent) (b : Blk) (off : Nat) (s : State) : State :=
  (s.incSat .sett Off.VIOL_COUNT 31 0).wr .sett Off.VIOL_LAST
    (BitVec.ofNat 64 (b.inst + (instOff b off) <<< 16 + (agentPcn who) <<< 40 + (agentLvl who) <<< 49 + 2 ^ 63))

/-- A register whose fields need a lease. REQ of an island that is neither a tile nor S(9,0)'s is read-only (R537). -/
def isRwl (b : Blk) (d : RegDef) (o : Nat) : Bool :=
  d.fields.any (fun f => f.acc == .rwl) &&
    (match b with
    | .isl st => o != Off.ISL_FREQ || isTileStop st || st == 9
    | _ => true)

/-- Registers of the IDIST that only a core at H or M, and the Sett, write (R399). -/
def idistGuarded (d : RegDef) : Bool := d.off == Off.IPI_SEND || d.fields.any (fun f => f.acc == .rw)

/-- The agent may write them. -/
def idistMay : Agent → Bool
  | .core _ l => l == .h || l == .m
  | .sett => true
  | _ => false

/-! ## Writes of single registers -/

/-- LINK_LANEMAP (R242). -/
def lanemapPut (st p : Nat) (w : Word) (s : State) : State :=
  let a := fld w 9 0
  if linkState s st p = 1 ∨ linkState s st p = 2 ∨ (a = fld w 25 16 ∧ a ≠ 0x3FF) then s
  else s.wr (.mesh st) (Off.LINK_LANEMAP + 0x40 * p) w

/-- ISL.FREQ: a change of the mesh frequency retrains every link (R242, R526). -/
def freqPut (st : Nat) (v : Word) (s : State) : State :=
  let t := freqWrite st (fld v 5 0) s
  if st = 9 ∧ t.rf (.isl 9) Off.ISL_FREQ 5 0 ≠ s.rf (.isl 9) Off.ISL_FREQ 5 0 then linksUp t else t

/-- CORE.L2_WAYCFG (R223). -/
def l2WaycfgPut (p : Nat) (w : Word) (s : State) : State :=
  let n := popcount 17 (fld w 16 0)
  if fld w 16 0 &&& fld w 48 32 ≠ 0 ∨ n < 12 ∨ 16 < n ∨ s.rf (.core p) Off.L2_STATUS 0 0 = 1 then s
  else
    let gone := (l2Ways s p).filter (fun x => !bitOf w x)
    let s := s.wr (.core p) Off.L2_WAYCFG w
    let s := match gone with
      | x :: _ => l2SweepStart p x false s
      | [] => s
    let s := s.modCore p (fun c => { c with sweepWait := c.sweepWait ++ (gone.drop 1).map (100 + ·) })
    let s := s.wf (.core p) Off.L2_STATUS 6 6 (b2n (!((List.range 17).any (fun x => !bitOf w x && !bitOf w (32 + x)))))
    s.wf (.core p) Off.L2_STATUS 12 8 n

/-- SPOOR_CTL: an RBITS that is not below LOG2N is a reserved encoding (R563). -/
def spoorCtlWrite (p : Nat) (w : Word) (s : State) : State :=
  let old := s.rd (.core p) Off.SPOOR_CTL
  spoorCtlPut p (if fld w 11 8 < fld w 7 3 then w else setFld w 11 8 (fld old 11 8)) s

/-- SPOOR_TAIL: an index that breaks R47 leaves it (R559). -/
def spoorTailWrite (p : Nat) (w : Word) (s : State) : State :=
  let m := 2 * 2 ^ s.rf (.core p) Off.SPOOR_CTL 16 12
  let h := s.rf (.core p) Off.SPOOR_HEAD 20 0
  let t := fld w 20 0
  if m ≤ t ∨ (h + m - s.rf (.core p) Off.SPOOR_TAIL 20 0) % m < (h + m - t) % m then s
  else s.wr (.core p) Off.SPOOR_TAIL w

/-- Entries of DELAY that exist (R328). -/
def delayOk (k : Nat) : Bool :=
  let j := k % 64
  decide (j < 50) || (decide (j < 60) && (k / 64 % 4 == 0 || k / 64 % 4 == 2))

/-- A register of timing set A or B (R326): its set. -/
def timingSet (o : Nat) : Option Nat :=
  if (0x1000 ≤ o ∧ o < 0x1040) ∨ (0x1100 ≤ o ∧ o < 0x1140) ∨ (0x2000 ≤ o ∧ o < 0x3000) then some 0
  else if (0x1040 ≤ o ∧ o < 0x1080) ∨ (0x1140 ≤ o ∧ o < 0x1180) ∨ (0x3000 ≤ o ∧ o < 0x4000) then some 1
  else none

/-- A register of a timing set: the active set changes in INIT only. -/
def timingPut (n o k : Nat) (w : Word) (s : State) : State :=
  let old := s.rd (.mc n) o
  if mcSet s n = k ∧ mcState s n ≠ 1 then s
  else if o = Off.TIMING_A ∨ o = Off.TIMING_B then
    s.wr (.mc n) o (setFld (if fld w 3 0 ≤ 9 then w else setFld w 3 0 (fld old 3 0)) 7 4 0)
  else if 0x2000 ≤ o then
    (let e := o % 0x1000 / 4
     if !delayOk e then s else s.wr (.mc n) o (if e % 64 < 40 then w else setFld w 30 24 0))
  else s.wr (.mc n) o w

/-- Registers of a memory controller (R326, R330, R334, R352); `v` is asked for, `w` what the fields accept. -/
def mcPut (n o : Nat) (v w : Word) (s : State) : State :=
  let put := s.wr (.mc n) o w
  if o = Off.GEOM then (if s.rf (.mc n) Off.MC_CTL 0 0 = 1 ∨ !geomOk (geomOf w) then s else put)
  else if o = Off.SCHED then (if schedOk w then put else s)
  else if o = Off.RETUNE then retuneWrite n v s
  else if o = Off.TRAIN_CTL then trainWrite n v s
  else if o = Off.MC_IRQ_STATUS ∨ o = Off.MC_IRQ_EN then mcIrqs n put
  else if o = Off.SCRUB_CTL then scrubWrite n v s
  else if o = Off.SCRUB_BASE ∨ o = Off.SCRUB_COUNT then (if s.rf (.mc n) Off.SCRUB_CTL 0 0 = 1 then s else put)
  else match timingSet o with
    | some k => timingPut n o k w s
    | none => put

/-- VF.CTL: the ring enables, and an FLR (R436, R444). -/
def vfCtlPut (v : Nat) (x : Word) (s : State) : State :=
  let s := vfCtlWrite v x s
  if bitOf x 2 ∧ (s.vf v).flr.isNone then startFlr v s else s

/-- Registers of a VF page, local face (R444). Ring 1's TAIL is read-only here. -/
def vfPut (v o : Nat) (x w : Word) (s : State) : State :=
  if o = Off.VF_CTL then vfCtlPut v x s
  else if o = Off.RING_BASE then ringBaseWrite v 0 x s
  else if o = Off.RING_BASE + 0x20 then ringBaseWrite v 1 x s
  else if o = Off.RING_TAIL then ringTailWrite v 0 (fld x 12 0) s
  else if o = Off.RING_TAIL + 0x20 then s
  else if o = Off.WIN_COMMIT then winCommit v (fld x 3 0) s
  else if 0x108 ≤ o ∧ o < 0x188 ∧ o % 0x20 = 8 then winLiveWrite v ((o - 0x108) / 0x20) x s
  else s.wr (.vf v) o w

/-- Registers of the IDIST. -/
def idistPut (o : Nat) (x w : Word) (s : State) : State :=
  if o = Off.IPI_SEND then ipiSend x s
  else if 0x20000 ≤ o ∧ o < 0x30000 then srcWrite ((o - 0x20000) / 8) x s
  else if 0x40000 ≤ o then
    (let k := (o - 0x40000) / 16
     if o % 16 = 0 then vslotCfgWrite k x s else vslotAreaWrite k x s)
  else s.wr .idist o w

/-- OWL.REACT[k]: reserved encodings keep their byte (R5, R488). -/
def reactPut (k : Nat) (x : Word) (s : State) : State :=
  if !classOk k then s
  else
    let o := Off.REACT + 8 * k
    let old := s.rd .owl o
    s.wr .owl o ((List.range 4).foldl (fun (a : Word) (i : Nat) =>
      let b := fld x (8 * i + 7) (8 * i)
      if reactByteOk k b then setFld a (8 * i + 7) (8 * i) b else a) old)

/-- What a write does to one register, past the lease and level checks: `x` is the value asked for. -/
def regPut (who : Agent) (b : Blk) (d : RegDef) (o : Nat) (x : Word) (s : State) : State :=
  let old := s.rd b o
  let w := mergeReg true d old x
  let put := s.wr b o w
  match b with
  | .mesh st => if d.off = Off.LINK_LANEMAP then lanemapPut st (d.idx o) w s else put
  | .isl st => if o = Off.ISL_FREQ then freqPut st x s else if o = Off.ISL_SSC then sscWrite st x s else put
  | .err st p =>
    if o = Off.ERR_STATUS then (if bitOf x 0 then clearCapture (st + 256 * p) s else s)
    else if o = Off.INJECT then s.wr b o (injectMerge s (st + 256 * p) x old)
    else put
  | .core p =>
    if o = Off.PRED_FLUSH then (if bitOf x 0 then predFlush p s else s)
    else if o = Off.L2_WAYCFG then l2WaycfgPut p w s
    else if o = Off.SPOOR_CTL then spoorCtlWrite p w s
    else if o = Off.SPOOR_BASE then
      (if spoorBaseOk s (fld w 47 12 * 4096) (s.rf b Off.SPOOR_CTL 16 12) then put else s)
    else if o = Off.SPOOR_TAIL then spoorTailWrite p w s
    else put
  | .llc h =>
    if o = Off.LLC_WAYCFG then llcWaycfgWrite h w s
    else if d.off = Off.FCLASS then (if fclassOk s h (d.idx o) w then put else s)
    else put
  | .warren h =>
    if o = Off.WARREN_WAYCFG then warWaycfgWrite h w s
    else if o = Off.WARREN_COH_CFG then (if snpTmoOk s (fld w 4 0) then put else s)
    else put
  | .bchub => if o = Off.BCHUB_COH_CFG then (if snpTmoOk s (fld w 4 0) then put else s) else put
  | .mc n => if o = Off.BW_CTL then bwCtlPut b w s else mcPut n o x w s
  | .rc n => if o = Off.BW_CTL then bwCtlPut b w s else if o = Off.RC_CFG then rcCfgWrite n x s else put
  | .tp => if o = Off.BW_CTL then bwCtlPut b w s else if o = Off.TP_LINK then portIrqs 8 put else put
  | .vf v => vfPut v o x w s
  | .hoard n =>
    if o = Off.SPARE then (if who = .sett then put else s)
    else if d.off = Off.OWNER then ownerWrite (who == .sett) (16 * n + d.idx o) w s
    else if o = Off.MARCH_CTL then marchWrite n w s
    else put
  | .idist => idistPut o x w s
  | .sett => if d.off = Off.DOORBELL then doorbellWrite who (d.idx o) x s else put
  | .owl =>
    if o = Off.OWL_STATUS then clearClasses (fld x 22 0) s
    else if d.off = Off.REACT then reactPut (d.idx o) x s
    else put
  | .pwrc => put

/-! ## Accesses -/

/-- Agents that write registers: the cores and the Sett (R27, R37, R493). -/
def mayWriteOcr : Agent → Bool
  | .core _ _ => true
  | .sett => true
  | _ => false

/-- A store of the core's that waits for the acknowledgement of this register access gets it (R141). -/
def ackWrite (who : Agent) (off : Nat) (s : State) : State :=
  match who with
  | .core p _ => (match (s.core p).dev with
    | some d => if d.write ∧ d.pa = ocrBase + off then devAck p s else s
    | none => s)
  | _ => s

/-- A write at a window's block, past R33 to R35. -/
def blkWrite (who : Agent) (b : Blk) (o size : Nat) (v : Word) (s : State) : State :=
  match reach b o size with
  | none => s
  | some (d, o, lo, w) =>
    if isRwl b d o ∧ !leaseOpen s who b then recordViol who b (regOff b o + lo / 8) s
    else if b = .idist ∧ idistGuarded d ∧ !idistMay who then s.incSat .idist Off.DENIED 31 0
    else regPut who b d o (fullValue d (s.rd b o) v lo w) s

/-- A write of `size` bytes at byte `off` of the register space (R33 to R37). -/
def regWrite (who : Agent) (off size : Nat) (v : Word) (s : State) : State :=
  if !mayWriteOcr who ∨ !accessOk off size then s
  else match landing s off with
    | none => ackWrite who off s
    | some (b, o) => ackWrite who off (if winOff s b then recordOff who off true s else blkWrite who b o size v s)

/-- Agents that read: the JTAG TAP only in SAFE, the Owl's window, the detail windows and the counters (R493, R555). -/
def mayReadOcr (s : State) (who : Agent) (b : Blk) : Bool :=
  match who with
  | .core _ _ => true
  | .sett => true
  | .jtag => s.modeFlag 11 && (match b with | .owl => true | .err _ _ => true | .core _ => true | _ => false)
  | .partner _ => false

/-- Bytes of an MSI-X table: address, data and vector control of each entry (R423). -/
def msixImage (m : SMap (Nat × Nat × Bool × Bool)) (n : Nat) : List Byte :=
  (List.range n).flatMap (fun i =>
    let (a, d, k, _) := smGet (fun _ => (0, 0, true, false)) m i
    leBytes 8 a ++ leBytes 4 d ++ leBytes 4 (b2n k))

/-- The PBA of an MSI-X table. -/
def msixPba (m : SMap (Nat × Nat × Bool × Bool)) (n : Nat) : Nat :=
  (List.range n).foldl (fun a i => let (_, _, _, q) := smGet (fun _ => (0, 0, true, false)) m i
                                   if q then a + 2 ^ i else a) 0

/-- WIN_COUNT of a WAYERR register as it reads now: corrections leave the window as time passes (R218, R265). -/
def wayErrNow (s : State) (w : Word) (secs : List Nat) (win : Nat) : Word :=
  setFld w 4 0 (min 16 (secs.filter (fun t => decide (s.settTime / 1000000 < t + win))).length)

/-- What a register holds as it reads now; some are computed at the read. -/
def readValue (s : State) (b : Blk) (d : RegDef) (o : Nat) : Word :=
  match b with
  | .sett => if o = Off.SETT_TIME then BitVec.ofNat 64 s.settTime else if o = Off.LEASE_ACTIVE then leaseActive s else if d.off = Off.LEASE then leaseReg s (d.idx o) else s.rd b o
  | .isl st => if o = Off.ISL_PSTATE then pstateReg s st else s.rd b o
  | .core p => if d.off = Off.L2_WAYERR then
      wayErrNow s (s.rd b o) (((s.core p).wayHist.filter (fun e => e.1 == d.idx o)).map (·.2)) (s.rf b Off.L2_WDCFG 35 16) else s.rd b o
  | .llc h => if d.off = Off.LLC_WAYERR then
      wayErrNow s (s.rd b o) ((s.fab.llcHist.filter (fun e => e.1 == h && e.2.1 == d.idx o)).map (·.2.2)) (wdWindow (s.rd b Off.LLC_WDCFG)) else s.rd b o
  | .warren h => if d.off = Off.WARREN_WAYERR then
      wayErrNow s (s.rd b o) ((s.fab.warrenHist.filter (fun e => e.1 == h && e.2.1 == d.idx o)).map (·.2.2)) (wdWindow (s.rd b Off.WARREN_WDCFG)) else s.rd b o
  | .rc n => if o = Off.RC_FAULT_LOG then (takeFault n s).1 else s.rd b o
  | .tp => if o = Off.TP_FAULT_LOG then (takeFault 8 s).1 else s.rd b o
  | _ => s.rd b o

/-- Clear the read-to-clear fields of a register. -/
def clearRc (b : Blk) (d : RegDef) (o : Nat) (s : State) : State :=
  if d.fields.any (fun f => f.acc == .rc) then
    s.wr b o (d.fields.foldl (fun (a : Word) (f : FieldDef) => if f.acc = .rc then setFld a f.hi f.lo 0 else a) (s.rd b o))
  else s

/-- What a read of a register does (R3, R243, R418, R462). -/
def readEffect (b : Blk) (d : RegDef) (o : Nat) (s : State) : State :=
  match b with
  | .rc n => if o = Off.RC_FAULT_LOG then (takeFault n s).2 else clearRc b d o s
  | .tp => if o = Off.TP_FAULT_LOG then (takeFault 8 s).2 else clearRc b d o s
  | .hoard n => if o = Off.CLOSED_ACC then driveLevel (200 + n) false (clearRc b d o s) else clearRc b d o s
  | .mesh _ => if o = Off.OCR_ERR then (let s := clearRc b d o s; driveLevel 208 (anyOcrErr s) s) else clearRc b d o s
  | _ => clearRc b d o s

/-- A read at a window's block, past R35. The MSI-X tables of a VF page have no entry in its register map. -/
def blkRead (b : Blk) (o size : Nat) (s : State) : Word × State :=
  match reach b o size with
  | some (d, o, lo, w) =>
    (BitVec.ofNat 64 ((readValue s b d o).toNat / 2 ^ lo % 2 ^ w), readEffect b d o s)
  | none =>
    match b with
    | .vf v =>
      if 0x2000 ≤ o ∧ o < 0x2040 then (BitVec.ofNat 64 (bytesAt (msixImage (s.vf v).msix 4) (o - 0x2000 + size - 1) (o - 0x2000)), s)
      else if o = 0x3000 then (BitVec.ofNat 64 (msixPba (s.vf v).msix 4), s)
      else (0, s)
    | _ => (0, s)

/-- A read of `size` bytes at byte `off` of the register space (R33 to R37). -/
def regRead (who : Agent) (off size : Nat) (s : State) : Word × State :=
  if !accessOk off size then (0, s)
  else match landing s off with
    | none => (0, s)
    | some (b, o) =>
      if !mayReadOcr s who b then (0, s)
      else if winOff s b then (BitVec.ofNat 64 (2 ^ (8 * size) - 1), recordOff who off false s)
      else blkRead b o size s

/-! ## The partner's faces (R423, R443, R444) -/

/-- Write bytes of an MSI-X table; pending bits stay. -/
def msixPoke (m : SMap (Nat × Nat × Bool × Bool)) (n o : Nat) (l : List Byte) : SMap (Nat × Nat × Bool × Bool) :=
  let im := putBytes (msixImage m n) o l
  (List.range n).foldl (fun (m : SMap (Nat × Nat × Bool × Bool)) (i : Nat) =>
    let (_, _, _, q) := smGet (fun _ => (0, 0, true, false)) m i
    smSet (fun _ => (0, 0, true, false)) m i
      (bytesAt im (16 * i + 7) (16 * i), bytesAt im (16 * i + 11) (16 * i + 8), bytesAt im (16 * i + 12) (16 * i + 12) % 2 == 1, q)) m

/-- Vectors that are pending and no longer masked. -/
def msixFree (m : SMap (Nat × Nat × Bool × Bool)) (n : Nat) : List Nat :=
  (List.range n).filter (fun i => let (_, _, k, q) := smGet (fun _ => (0, 0, true, false)) m i; q && !k)

def msixDone (m : SMap (Nat × Nat × Bool × Bool)) (i : Nat) : SMap (Nat × Nat × Bool × Bool) :=
  let (a, d, k, _) := smGet (fun _ => (0, 0, true, false)) m i
  smSet (fun _ => (0, 0, true, false)) m i (a, d, k, false)

/-- The partner writes a PF0 register: the doorbell, or the MSI-X table. -/
def pf0Write (o size : Nat) (v : Word) (s : State) : State :=
  if o = 0x18 then (if bitOf v 31 then ringReset 3 s else ringDoorbell 3 (fld v 15 0) s)
  else if 0x2000 ≤ o ∧ o + size ≤ 0x2030 then
    let s := { s with pf0 := { s.pf0 with msix := msixPoke s.pf0.msix 3 (o - 0x2000) (leBytes size v.toNat) } }
    if s.pf0.msixEn then (msixFree s.pf0.msix 3).foldl (fun s i =>
      raiseTwin i { s with pf0 := { s.pf0 with msix := msixDone s.pf0.msix i } }) s else s
  else s

/-- The partner writes a VF page: ring 1's TAIL, RAISE, or the MSI-X table. -/
def vfPartnerWrite (v o size : Nat) (x : Word) (s : State) : State :=
  if o = Off.RING_TAIL + 0x20 then ringTailWrite v 1 (fld x 12 0) s
  else if o = Off.VF_RAISE then
    (match vfLid s v with
    | some lid => portGo 8 (queuePiece 8 ⟨v, v, lid, none, false⟩ (.raise (fld x 9 0)) id s).2
    | none => s)
  else if 0x2000 ≤ o ∧ o + size ≤ 0x2040 then
    let s := s.modVf v (fun y => { y with msix := msixPoke y.msix 4 (o - 0x2000) (leBytes size x.toNat) })
    if (s.vf v).msixEn then (msixFree (s.vf v).msix 4).foldl (fun s i =>
      vfVector v i (s.modVf v (fun y => { y with msix := msixDone y.msix i }))) s else s
  else s

end Sys2Proof.Machine
end

