-- ==== Sys2Proof/Machine/RegRows.lean ====
section
/-! DEFINITION. The rows that are accesses to registers. -/
namespace Sys2Proof.Machine

/-! ## System registers (R109) -/

/-- The level whose registers `n` belongs to, when it is LCPRI (0xD) or LEOI (0xE) of that level. -/
def lvlOfCsr (n k : Nat) : Option Lvl :=
  if n = csrBase .k + k then some .k else if n = csrBase .h + k then some .h else if n = csrBase .m + k then some .m else none

/-- What a write of a system register does. -/
def csrEffect (p n : Nat) (v : Word) (s : State) : State :=
  match lvlOfCsr n 0xD with
  | some l => cpriWrite p l v s
  | none =>
    match lvlOfCsr n 0xE with
    | some l => eoiWrite p l v s
    | none =>
      let s := csrWrite p n v s
      if n = ATOMCTL ∧ bitOf v 3 then s.modCore p (fun c => { c with cpred := [] })
      else if n = BOOTWALK then dropMw p s
      else match lvlOfCsr n 1 with
        | some l => syncLvl p l s
        | none => s

/-- The value that a CSR instruction writes. -/
def csrNew (op : CsrOp) (old v : Word) : Word :=
  match op with | .write => v | .set => old ||| v | .clear => old &&& ~~~v | .read => old

/-- An instruction that accesses a system register. One that writes is serialising (R81), and every one reads the old value into
`rd`, if its level may (R109, R115). -/
def csrGo (i : Ins) (n rd : Nat) (op : CsrOp) (v : Word) (s : State) : State :=
  let p := i.pcn
  let c := s.core p
  let w := op != .read
  if !atHead s i ∨ (w ∧ !sbEmpty c i.seq) then s
  else if !csrPermitted c n w then illegal i s
  else
    let old := csrRead s p n
    let s := issue p 0 s
    completeX i rd old 0 (if w then flushFrom p (i.seq + 1) (csrEffect p n (csrNew op old v) (bump p 19 1 (pNow s p) s)) else s)

/-- A register write that has no row of its own. -/
def anyRegWrite (who : Agent) (t : RegTarget) (v : Word) (s : State) : State :=
  match t with
  | .ocr off size => regWrite who off size v s
  | .csr i n rd op => if (match who with | .core p _ => p == i.pcn | _ => false) then csrGo i n rd op v s else s
  | .pf0 off size => if who = .partner 0 ∧ accessOk off size ∧ twinUp s ∧ !s.pf0.d3 then pf0Write off size v s else s
  | .vf n off size =>
    if who = .partner n ∧ accessOk off size ∧ isVf n ∧ twinUp s ∧ vfEnabled s n ∧ !(s.vf n).d3 then vfPartnerWrite n off size v s else s

/-- REG_WRITE (R3). -/
def execRegWrite (who : Agent) (t : RegTarget) (v : Word) (s : State) : Res := finish s (anyRegWrite who t v s)

/-- LOAD (R89): the on-chip registers answer a device load. -/
def execLoad (i : Ins) (va : Word) (size : Nat) (dst : Dst) (signed fetch : Bool) (s : State) : Res :=
  finish s (runLoad regRead i va size dst signed fetch s)

/-! ## Registers with rows of their own -/

/-- The window exists (R16, R32, R444). -/
def blkExists : Blk → Bool
  | .mesh st => decide (st < 170)
  | .isl st => decide (st < 170)
  | .err st p => decide (st < 170) && decide (p < 8)
  | .core p => decide (p < 272)
  | .llc t => decide (t < 136)
  | .warren t => decide (t < 136)
  | .mc n => decide (n < 16)
  | .rc n => decide (n < 9)
  | .vf v => isVf v
  | .hoard n => decide (n < 4)
  | _ => true

/-- A whole write of the register at `o` of a window, and a whole read; the value read stands in `readData`. -/
def regRow (who : Agent) (b : Blk) (o size : Nat) (v : Word) (s : State) : Res :=
  finish s (if blkExists b then regWrite who (regOff b o) size v s else s)
def wr4 (who : Agent) (b : Blk) (o : Nat) (v : Word) (s : State) : Res := regRow who b o 4 v s
def wr8 (who : Agent) (b : Blk) (o : Nat) (v : Word) (s : State) : Res := regRow who b o 8 v s
def rdReg (who : Agent) (b : Blk) (o size : Nat) (s : State) : Res :=
  finish s (if blkExists b then
    (let (v, t) := regRead who (regOff b o) size s
     { t with readData := v })
  else s)

/-- Window of port `n`; none above 8. -/
def portWin (s : State) (n : Nat) : Blk := if n ≤ 8 then portBlk s n else .rc 9

/-- PRED_FLUSH (R103). -/
def execPredFlush (who : Agent) (pcn : Nat) (v : Word) (s : State) : Res := wr4 who (.core pcn) Off.PRED_FLUSH v s
/-- L2_WAYCFG_WRITE (R223). -/
def execL2WaycfgWrite (who : Agent) (pcn : Nat) (v : Word) (s : State) : Res := wr8 who (.core pcn) Off.L2_WAYCFG v s
/-- PMOVF_CLEAR (R554). -/
def execPmovfClear (who : Agent) (pcn i : Nat) (v : Word) (s : State) : Res := wr8 who (.core pcn) (Off.PMOVF + 8 * (i % 2)) v s
/-- SPOOR_TAIL_WRITE (R559). -/
def execSpoorTailWrite (who : Agent) (pcn : Nat) (v : Word) (s : State) : Res := wr4 who (.core pcn) Off.SPOOR_TAIL v s
/-- SPOOR_LOST_READ (R563). -/
def execSpoorLostRead (who : Agent) (pcn : Nat) (s : State) : Res := rdReg who (.core pcn) Off.SPOOR_LOST 4 s

/-- LANEMAP_WRITE (R242). -/
def execLanemapWrite (who : Agent) (stop link : Nat) (v : Word) (s : State) : Res :=
  wr8 who (.mesh stop) (Off.LINK_LANEMAP + 0x40 * (link % 4)) v s
/-- OCR_ERR_READ (R243). -/
def execOcrErrRead (who : Agent) (stop : Nat) (s : State) : Res := rdReg who (.mesh stop) Off.OCR_ERR 8 s
/-- FREQ_WRITE (R526). -/
def execFreqWrite (who : Agent) (stop : Nat) (v : Word) (s : State) : Res := wr4 who (.isl stop) Off.ISL_FREQ v s
/-- SSC_WRITE (R529). -/
def execSscWrite (who : Agent) (stop : Nat) (v : Word) (s : State) : Res := wr4 who (.isl stop) Off.ISL_SSC v s
/-- ERR_STATUS_CLEAR (R485). -/
def execErrStatusClear (who : Agent) (stop part : Nat) (s : State) : Res := wr8 who (.err stop (part % 16)) Off.ERR_STATUS 1 s
/-- ERR_CNT_READ (R485). -/
def execErrCntRead (who : Agent) (stop part : Nat) (s : State) : Res := rdReg who (.err stop (part % 16)) Off.ERR_CNT 8 s
/-- INJECT_WRITE (R494). -/
def execInjectWrite (who : Agent) (stop part : Nat) (v : Word) (s : State) : Res := wr4 who (.err stop (part % 16)) Off.INJECT v s

/-- FCLASS_WRITE (R251). -/
def execFclassWrite (who : Agent) (slice k : Nat) (v : Word) (s : State) : Res := wr8 who (.llc slice) (Off.FCLASS + 8 * (k % 32)) v s
/-- LLC_WAYCFG_WRITE (R270). -/
def execLlcWaycfgWrite (who : Agent) (slice : Nat) (v : Word) (s : State) : Res := wr8 who (.llc slice) Off.LLC_WAYCFG v s
/-- WARREN_WAYCFG_WRITE (R270). -/
def execWarrenWaycfgWrite (who : Agent) (slice : Nat) (v : Word) (s : State) : Res := wr8 who (.warren slice) Off.WARREN_WAYCFG v s
/-- WARREN_RQ_MAXWAIT_READ (R269). -/
def execWarrenRqMaxwaitRead (who : Agent) (slice : Nat) (s : State) : Res := rdReg who (.warren slice) Off.RQ_MAXWAIT 4 s
/-- DEAD_DISCARD_READ (R296). -/
def execDeadDiscardRead (who : Agent) (slice : Nat) (s : State) : Res := rdReg who (.warren slice) Off.DEAD_DISCARD 4 s

/-- RETUNE_GO (R320). -/
def execRetuneGo (who : Agent) (mc : Nat) (v : Word) (s : State) : Res := wr4 who (.mc mc) Off.RETUNE v s
/-- TRAIN_GO (R322). -/
def execTrainGo (who : Agent) (mc : Nat) (v : Word) (s : State) : Res := wr8 who (.mc mc) Off.TRAIN_CTL v s
/-- IRQ_STATUS_CLEAR (R334). -/
def execIrqStatusClear (who : Agent) (mc : Nat) (v : Word) (s : State) : Res := wr4 who (.mc mc) Off.MC_IRQ_STATUS v s
/-- SCRUB_GO (R352). -/
def execScrubGo (who : Agent) (mc : Nat) (v : Word) (s : State) : Res := wr4 who (.mc mc) Off.SCRUB_CTL v s
/-- MC_ERASE_WRITE (R338). -/
def execMcEraseWrite (who : Agent) (mc rk : Nat) (v : Word) (s : State) : Res := wr4 who (.mc mc) (Off.ERASE + 8 * (rk % 4)) v s

/-- IPI_SEND (R399). -/
def execIpiSend (who : Agent) (v : Word) (s : State) : Res := wr4 who .idist Off.IPI_SEND v s
/-- SRC_WRITE (R388). -/
def execSrcWrite (who : Agent) (src : Nat) (v : Word) (s : State) : Res := wr8 who .idist (Off.SRC + 8 * (src % 8192)) v s
/-- VSLOT_RECALL (R395): a write of VSLOT_CFG that clears RESIDENT. -/
def execVslotRecall (who : Agent) (slot : Nat) (v : Word) (s : State) : Res :=
  wr8 who .idist (Off.VSLOT_CFG + 16 * (slot % 4096)) (setFld v 0 0 0) s
/-- VSLOT_REPLAY (R395): a write of VSLOT_CFG that sets RESIDENT with REPLAY. -/
def execVslotReplay (who : Agent) (slot : Nat) (v : Word) (s : State) : Res :=
  wr8 who .idist (Off.VSLOT_CFG + 16 * (slot % 4096)) (setFld (setFld v 0 0 1) 17 17 1) s
/-- IDIST_COUNTER_READ (R399): the counts lie at 0x10 to 0x30. -/
def execIdistCounterRead (who : Agent) (off : Nat) (s : State) : Res := rdReg who .idist (0x10 + off % 8 * 8) 4 s

/-- RC_CFG_WRITE (R404). -/
def execRcCfgWrite (who : Agent) (port : Nat) (v : Word) (s : State) : Res := wr4 who (portWin s port) Off.RC_CFG v s
/-- FAULT_LOG_READ (R418). -/
def execFaultLogRead (who : Agent) (port : Nat) (s : State) : Res := rdReg who (portWin s port) Off.RC_FAULT_LOG 8 s
/-- PORT_COUNTER_READ (R418): LATE_DISCARD, UNEXP_CPL, FAULT_LOST or SFAULT_CNT[i]. -/
def execPortCounterRead (who : Agent) (port off : Nat) (s : State) : Res := rdReg who (portWin s port) off 4 s

/-- WIN_COMMIT (R427). -/
def execWinCommit (who : Agent) (vf : Nat) (v : Word) (s : State) : Res := wr4 who (.vf vf) Off.WIN_COMMIT v s
/-- WIN_LIVE_WRITE (R428). -/
def execWinLiveWrite (who : Agent) (vf w : Nat) (v : Word) (s : State) : Res := wr8 who (.vf vf) (Off.WIN_LIVE + 0x20 * (w % 4)) v s
/-- RING_TAIL_WRITE (R429): ring 0 through the local face, ring 1 by the partner. -/
def execRingTailWrite (who : Agent) (vf ring : Nat) (v : Word) (s : State) : Res :=
  finish s
    (if ring = 0 then (if isVf vf then regWrite who (regOff (.vf vf) Off.RING_TAIL) 4 v s else s)
     else anyRegWrite who (.vf vf (Off.RING_TAIL + 0x20) 4) v s)
/-- VF_FLR (R436). -/
def execVfFlr (who : Agent) (vf : Nat) (v : Word) (s : State) : Res := wr4 who (.vf vf) Off.VF_CTL v s
/-- VF_COUNTER_READ (R444). -/
def execVfCounterRead (who : Agent) (vf off : Nat) (s : State) : Res := rdReg who (.vf vf) off 4 s
/-- LINK_CHANGED_CLEAR (R442). -/
def execLinkChangedClear (who : Agent) (v : Word) (s : State) : Res := wr4 who .tp Off.TP_LINK v s

/-- MARCH_GO (R457). -/
def execMarchGo (who : Agent) (hoard : Nat) (v : Word) (s : State) : Res := wr4 who (.hoard (hoard % 4)) Off.MARCH_CTL v s
/-- OWNER_WRITE (R453). -/
def execOwnerWrite (who : Agent) (bank : Nat) (v : Word) (s : State) : Res :=
  wr4 who (.hoard (bank / 16 % 4)) (Off.OWNER + 8 * (bank % 16)) v s
/-- CLOSED_ACC_READ (R462). -/
def execClosedAccRead (who : Agent) (hoard : Nat) (s : State) : Res := rdReg who (.hoard (hoard % 4)) Off.CLOSED_ACC 4 s

/-- VIOL_COUNT_READ (R41). -/
def execViolCountRead (who : Agent) (s : State) : Res := rdReg who .sett Off.VIOL_COUNT 4 s
/-- OWL_STATUS_CLEAR (R489). -/
def execOwlStatusClear (who : Agent) (mask : Word) (s : State) : Res := wr8 who .owl Off.OWL_STATUS mask s

/-! ## Level sources (R380, R382) -/

/-- The input of a level source as its owner's state drives it: RC0 to RC7 (R415), TP (R434, R442), MC (R334), PWRC (R541),
Hoard (R462) and mesh (R243). `none` for a source that no chapter assigns. -/
def levelInput (s : State) (id : Nat) : Option Bool :=
  if id < 32 then none
  else if id < 64 then
    let n := (id - 32) / 4
    some (match (id - 32) % 4 with
      | 0 => (List.range 4).any (fun p => rootErrOn s n p)
      | 1 => (List.range 4).any (fun p => slotOn s n p)
      | 2 => !(s.port n).log.isEmpty
      | _ => (List.range 4).any (fun p => decide (0 < cfgGet s n p 0x1010 / 2 ^ 30)))
  else if id = 64 then some (!(s.port 8).log.isEmpty || s.rf .tp Off.TP_LINK 18 18 == 1)
  else if id < 128 then some (vfHalted s (id - 64))
  else if id < 192 then
    let n := (id - 128) / 4
    let k := (id - 128) % 4
    some (s.rf (.mc n) Off.MC_IRQ_STATUS k k == 1 && s.rf (.mc n) Off.MC_IRQ_EN k k == 1)
  else if id = 192 then some (s.modeFlag 4)
  else if id = 193 then some (!s.pwr.hotN)
  else if id = 194 then some (s.rf .pwrc Off.SUPPLY 4 4 == 1)
  else if id = 195 then some (s.rf .pwrc Off.SUPPLY 1 0 != 3)
  else if 200 ≤ id ∧ id < 204 then some (s.rf (.hoard (id - 200)) Off.CLOSED_ACC 31 0 != 0)
  else if id = 208 then some (anyOcrErr s)
  else none

/-- SOURCE_LEVEL_CHANGE (R382): the input of an internal level source, which follows its owner's condition. -/
def execSourceLevelChange (src : Nat) (asserted : Bool) (s : State) : Res :=
  finish s (if levelInput s src = some asserted then driveLevel src asserted s else s)

end Sys2Proof.Machine
end

