-- ==== Sys2Proof/Machine/Dispatch.lean ====
section
/-! DEFINITION. One arm per command: a direct call of its meaning, or a rejection by name. -/
namespace Sys2Proof.Machine

/-- The effect of a command on everything but the queue. -/
def exec (i : Instr) (s : State) : Host.Outcome State Fault Refusal :=
  match i with
  | .coldReset cause va vb tpRoot => Sys2Proof.Machine.execColdReset cause va vb tpRoot s
  | .bringupStart probe => Sys2Proof.Machine.execBringupStart probe s
  | .handOff => Sys2Proof.Machine.execHandOff s
  | .warmRstN => Sys2Proof.Machine.execWarmRstN s
  | .regWrite who t v => Sys2Proof.Machine.execRegWrite who t v s
  | .doorbell who ch tag => Sys2Proof.Machine.execDoorbell who ch tag s
  | .chreset who ch => Sys2Proof.Machine.execChreset who ch s
  | .channelPoll => Sys2Proof.Machine.execChannelPoll s
  | .requestAccept => Sys2Proof.Machine.execRequestAccept s
  | .aliveToggle => Sys2Proof.Machine.execAliveToggle s
  | .leaseExpiry slot => Sys2Proof.Machine.execLeaseExpiry slot s
  | .relock inst => Sys2Proof.Machine.execRelock inst s
  | .mi2cWrite off data stop => Sys2Proof.Machine.execMi2cWrite off data stop s
  | .mi2cRead off len => Sys2Proof.Machine.execMi2cRead off len s
  | .mi2cDoorbell tag => Sys2Proof.Machine.execMi2cDoorbell tag s
  | .mi2cChreset => Sys2Proof.Machine.execMi2cChreset s
  | .mi2cClockLowTimeout => Sys2Proof.Machine.execMi2cClockLowTimeout s
  | .sysNop ch tag => Sys2Proof.Machine.execSysNop ch tag s
  | .sysIdent ch tag => Sys2Proof.Machine.execSysIdent ch tag s
  | .sysStatus ch tag => Sys2Proof.Machine.execSysStatus ch tag s
  | .sysAbort ch tag => Sys2Proof.Machine.execSysAbort ch tag s
  | .sysEventMask ch tag => Sys2Proof.Machine.execSysEventMask ch tag s
  | .sysChanCtl ch tag => Sys2Proof.Machine.execSysChanCtl ch tag s
  | .expertGrant ch tag => Sys2Proof.Machine.execExpertGrant ch tag s
  | .expertRenew ch tag => Sys2Proof.Machine.execExpertRenew ch tag s
  | .expertRelease ch tag => Sys2Proof.Machine.execExpertRelease ch tag s
  | .fwInfo ch tag => Sys2Proof.Machine.execFwInfo ch tag s
  | .fwStage ch tag flashOk => Sys2Proof.Machine.execFwStage ch tag flashOk s
  | .fwVerify ch tag => Sys2Proof.Machine.execFwVerify ch tag s
  | .fwActivate ch tag flashOk => Sys2Proof.Machine.execFwActivate ch tag flashOk s
  | .fwAbandon ch tag => Sys2Proof.Machine.execFwAbandon ch tag s
  | .load ix va size dst signed fetch => Sys2Proof.Machine.execLoad ix va size dst signed fetch s
  | .store ix va bytes fwd => Sys2Proof.Machine.execStore ix va bytes fwd s
  | .storeCommit pcn => Sys2Proof.Machine.execStoreCommit pcn s
  | .shadowRelease pcn seq => Sys2Proof.Machine.execShadowRelease pcn seq s
  | .branch ix taken target mispred call ret => Sys2Proof.Machine.execBranch ix taken target mispred call ret s
  | .amo ix va op w64 src rd => Sys2Proof.Machine.execAmo ix va op w64 src rd s
  | .lr ix va w64 rd => Sys2Proof.Machine.execLr ix va w64 rd s
  | .sc ix va w64 src rd => Sys2Proof.Machine.execSc ix va w64 src rd s
  | .fence ix prd scc => Sys2Proof.Machine.execFence ix prd scc s
  | .fenceI ix => Sys2Proof.Machine.execFenceI ix s
  | .pause ix => Sys2Proof.Machine.execPause ix s
  | .pauseHoldEnd pcn => Sys2Proof.Machine.execPauseHoldEnd pcn s
  | .cboClean ix va => Sys2Proof.Machine.execCboClean ix va s
  | .cboFlush ix va => Sys2Proof.Machine.execCboFlush ix va s
  | .cboInval ix va => Sys2Proof.Machine.execCboInval ix va s
  | .cboZero ix va => Sys2Proof.Machine.execCboZero ix va s
  | .prefetchHint ix va kind => Sys2Proof.Machine.execPrefetchHint ix va kind s
  | .ecall ix => Sys2Proof.Machine.execEcall ix s
  | .ebreak ix => Sys2Proof.Machine.execEbreak ix s
  | .tret ix => Sys2Proof.Machine.execTret ix s
  | .wait ix => Sys2Proof.Machine.execWait ix s
  | .sleepEntryDone pcn => Sys2Proof.Machine.execSleepEntryDone pcn s
  | .coreWake pcn => Sys2Proof.Machine.execCoreWake pcn s
  | .interruptTake pcn => Sys2Proof.Machine.execInterruptTake pcn s
  | .timerCompare pcn lvl => Sys2Proof.Machine.execTimerCompare pcn lvl s
  | .claim ix lvl rd => Sys2Proof.Machine.execClaim ix lvl rd s
  | .cpriWrite ix lvl v => Sys2Proof.Machine.execCpriWrite ix lvl v s
  | .eoi ix lvl v => Sys2Proof.Machine.execEoi ix lvl v s
  | .atomctlClear ix v => Sys2Proof.Machine.execAtomctlClear ix v s
  | .amoTrainingWindowEnd pcn line => Sys2Proof.Machine.execAmoTrainingWindowEnd pcn line s
  | .lrWindowEnd pcn => Sys2Proof.Machine.execLrWindowEnd pcn s
  | .wcWindowEnd pcn line => Sys2Proof.Machine.execWcWindowEnd pcn line s
  | .predFlush who pcn v => Sys2Proof.Machine.execPredFlush who pcn v s
  | .tlbw ix slot rd => Sys2Proof.Machine.execTlbw ix slot rd s
  | .tlbr ix rs1 rd => Sys2Proof.Machine.execTlbr ix rs1 rd s
  | .tlbp ix rs1 rs2 rd => Sys2Proof.Machine.execTlbp ix rs1 rs2 rd s
  | .tlbinvVa ix rs1 rs2 rd => Sys2Proof.Machine.execTlbinvVa ix rs1 rs2 rd s
  | .tlbinvAsid ix rs1 rs2 rd => Sys2Proof.Machine.execTlbinvAsid ix rs1 rs2 rd s
  | .tlbinvLid ix rs1 rs2 rd => Sys2Proof.Machine.execTlbinvLid ix rs1 rs2 rd s
  | .tlbinvAll ix rs1 rs2 rd => Sys2Proof.Machine.execTlbinvAll ix rs1 rs2 rd s
  | .extinvLid ix rs1 rs2 rd => Sys2Proof.Machine.execExtinvLid ix rs1 rs2 rd s
  | .extinvRange ix rs1 rs2 rd => Sys2Proof.Machine.execExtinvRange ix rs1 rs2 rd s
  | .fbr ix n rd => Sys2Proof.Machine.execFbr ix n rd s
  | .fbw ix n v => Sys2Proof.Machine.execFbw ix n v s
  | .adUpdate pcn => Sys2Proof.Machine.execAdUpdate pcn s
  | .bootwalkWrite ix v => Sys2Proof.Machine.execBootwalkWrite ix v s
  | .bootWalk ix va kind => Sys2Proof.Machine.execBootWalk ix va kind s
  | .bcastAdmit => Sys2Proof.Machine.execBcastAdmit s
  | .bcastReceive agent id => Sys2Proof.Machine.execBcastReceive agent id s
  | .bcastAck agent id => Sys2Proof.Machine.execBcastAck agent id s
  | .sidebufAgeOut pcn line => Sys2Proof.Machine.execSidebufAgeOut pcn line s
  | .l2WaycfgWrite who pcn v => Sys2Proof.Machine.execL2WaycfgWrite who pcn v s
  | .l2SweepEnd pcn => Sys2Proof.Machine.execL2SweepEnd pcn s
  | .linkCycle stop link eFlit eCrc eSeq eFv eAck eNak eCrd eRsv => Sys2Proof.Machine.execLinkCycle stop link eFlit eCrc eSeq eFv eAck eNak eCrd eRsv s
  | .nak stop link ackSeq => Sys2Proof.Machine.execNak stop link ackSeq s
  | .laneRepairEnd stop link bad => Sys2Proof.Machine.execLaneRepairEnd stop link bad s
  | .creditTimeout stop link cls => Sys2Proof.Machine.execCreditTimeout stop link cls s
  | .lanemapWrite who stop link v => Sys2Proof.Machine.execLanemapWrite who stop link v s
  | .ocrErrRead who stop => Sys2Proof.Machine.execOcrErrRead who stop s
  | .homeRetryAdmit slice => Sys2Proof.Machine.execHomeRetryAdmit slice s
  | .trackerComplete line => Sys2Proof.Machine.execTrackerComplete line s
  | .fclassWrite who slice k v => Sys2Proof.Machine.execFclassWrite who slice k v s
  | .llcWaycfgWrite who slice v => Sys2Proof.Machine.execLlcWaycfgWrite who slice v s
  | .warrenWaycfgWrite who slice v => Sys2Proof.Machine.execWarrenWaycfgWrite who slice v s
  | .llcSweepEnd slice => Sys2Proof.Machine.execLlcSweepEnd slice s
  | .warrenSweepEnd slice => Sys2Proof.Machine.execWarrenSweepEnd slice s
  | .warrenRqMaxwaitRead who slice => Sys2Proof.Machine.execWarrenRqMaxwaitRead who slice s
  | .memFclassSet ch tag => Sys2Proof.Machine.execMemFclassSet ch tag s
  | .memFclassGet ch tag => Sys2Proof.Machine.execMemFclassGet ch tag s
  | .memLlcRange ch tag => Sys2Proof.Machine.execMemLlcRange ch tag s
  | .rds m => Sys2Proof.Machine.execRds m s
  | .rdx m => Sys2Proof.Machine.execRdx m s
  | .upg m => Sys2Proof.Machine.execUpg m s
  | .ownNd m => Sys2Proof.Machine.execOwnNd m s
  | .evc m => Sys2Proof.Machine.execEvc m s
  | .evd m => Sys2Proof.Machine.execEvd m s
  | .cbClean m => Sys2Proof.Machine.execCbClean m s
  | .cbFlush m => Sys2Proof.Machine.execCbFlush m s
  | .cbInval m => Sys2Proof.Machine.execCbInval m s
  | .famo m => Sys2Proof.Machine.execFamo m s
  | .ucRd m => Sys2Proof.Machine.execUcRd m s
  | .ucWr m => Sys2Proof.Machine.execUcWr m s
  | .ucWrM m => Sys2Proof.Machine.execUcWrM m s
  | .ioRd m => Sys2Proof.Machine.execIoRd m s
  | .ioWr m => Sys2Proof.Machine.execIoWr m s
  | .ioOwn m => Sys2Proof.Machine.execIoOwn m s
  | .ioOwnD m => Sys2Proof.Machine.execIoOwnD m s
  | .ioWb m => Sys2Proof.Machine.execIoWb m s
  | .snpS m => Sys2Proof.Machine.execSnpS m s
  | .snpX m => Sys2Proof.Machine.execSnpX m s
  | .snpInv m => Sys2Proof.Machine.execSnpInv m s
  | .snpInvNd m => Sys2Proof.Machine.execSnpInvNd m s
  | .snpClean m => Sys2Proof.Machine.execSnpClean m s
  | .snpCur m => Sys2Proof.Machine.execSnpCur m s
  | .snpRsp m => Sys2Proof.Machine.execSnpRsp m s
  | .cmpAck m => Sys2Proof.Machine.execCmpAck m s
  | .gntX m => Sys2Proof.Machine.execGntX m s
  | .wrGo m => Sys2Proof.Machine.execWrGo m s
  | .cmp m => Sys2Proof.Machine.execCmp m s
  | .evAck m => Sys2Proof.Machine.execEvAck m s
  | .data m => Sys2Proof.Machine.execData m s
  | .wbData m => Sys2Proof.Machine.execWbData m s
  | .wrData m => Sys2Proof.Machine.execWrData m s
  | .amoRsp m => Sys2Proof.Machine.execAmoRsp m s
  | .ucData m => Sys2Proof.Machine.execUcData m s
  | .snoopTimeout line agent => Sys2Proof.Machine.execSnoopTimeout line agent s
  | .requesterTimeout agent txn => Sys2Proof.Machine.execRequesterTimeout agent txn s
  | .deadNote slice agent => Sys2Proof.Machine.execDeadNote slice agent s
  | .dead stop agent => Sys2Proof.Machine.execDead stop agent s
  | .reclaimSweepEnd slice => Sys2Proof.Machine.execReclaimSweepEnd slice s
  | .sweepDone slice agent => Sys2Proof.Machine.execSweepDone slice agent s
  | .deadDiscardRead who slice => Sys2Proof.Machine.execDeadDiscardRead who slice s
  | .memCohCfg ch tag => Sys2Proof.Machine.execMemCohCfg ch tag s
  | .memCohStatus ch tag => Sys2Proof.Machine.execMemCohStatus ch tag s
  | .mrd m => Sys2Proof.Machine.execMrd m s
  | .mwr m => Sys2Proof.Machine.execMwr m s
  | .mcmp m => Sys2Proof.Machine.execMcmp m s
  | .mdata m => Sys2Proof.Machine.execMdata m s
  | .dramCommandIssue mc sc busy bad => Sys2Proof.Machine.execDramCommandIssue mc sc busy bad s
  | .urgencyRise mc line => Sys2Proof.Machine.execUrgencyRise mc line s
  | .refreshDue mc rk => Sys2Proof.Machine.execRefreshDue mc rk s
  | .zqCalDue mc rk => Sys2Proof.Machine.execZqCalDue mc rk s
  | .selfRefreshEntry mc => Sys2Proof.Machine.execSelfRefreshEntry mc s
  | .alertN mc => Sys2Proof.Machine.execAlertN mc s
  | .retuneGo who mc v => Sys2Proof.Machine.execRetuneGo who mc v s
  | .retunePhaseEnd mc => Sys2Proof.Machine.execRetunePhaseEnd mc s
  | .retuneLockTimeout mc => Sys2Proof.Machine.execRetuneLockTimeout mc s
  | .retuneEnd mc => Sys2Proof.Machine.execRetuneEnd mc s
  | .trainGo who mc v => Sys2Proof.Machine.execTrainGo who mc v s
  | .trainDone mc mismatch mrr => Sys2Proof.Machine.execTrainDone mc mismatch mrr s
  | .retrainDue mc delays => Sys2Proof.Machine.execRetrainDue mc delays s
  | .irqStatusClear who mc v => Sys2Proof.Machine.execIrqStatusClear who mc v s
  | .memChanInfo ch tag => Sys2Proof.Machine.execMemChanInfo ch tag s
  | .memQosSet ch tag => Sys2Proof.Machine.execMemQosSet ch tag s
  | .memQosGet ch tag => Sys2Proof.Machine.execMemQosGet ch tag s
  | .memRetune ch tag => Sys2Proof.Machine.execMemRetune ch tag s
  | .memRetrainCfg ch tag => Sys2Proof.Machine.execMemRetrainCfg ch tag s
  | .memSrCfg ch tag => Sys2Proof.Machine.execMemSrCfg ch tag s
  | .memSchedSet ch tag => Sys2Proof.Machine.execMemSchedSet ch tag s
  | .scrubGo who mc v => Sys2Proof.Machine.execScrubGo who mc v s
  | .scrubEnd mc => Sys2Proof.Machine.execScrubEnd mc s
  | .mcEraseWrite who mc rk v => Sys2Proof.Machine.execMcEraseWrite who mc rk v s
  | .memScrub ch tag => Sys2Proof.Machine.execMemScrub ch tag s
  | .memErrlogRead ch tag => Sys2Proof.Machine.execMemErrlogRead ch tag s
  | .memMapPa ch tag => Sys2Proof.Machine.execMemMapPa ch tag s
  | .memMapBank ch tag => Sys2Proof.Machine.execMemMapBank ch tag s
  | .memRetire ch tag => Sys2Proof.Machine.execMemRetire ch tag s
  | .memRetireList ch tag => Sys2Proof.Machine.execMemRetireList ch tag s
  | .memRowRepair ch tag => Sys2Proof.Machine.execMemRowRepair ch tag s
  | .rowRepairTimeout mc consumed => Sys2Proof.Machine.execRowRepairTimeout mc consumed s
  | .memErase ch tag => Sys2Proof.Machine.execMemErase ch tag s
  | .lodgeCreate ch tag => Sys2Proof.Machine.execLodgeCreate ch tag s
  | .lodgeReset ch tag => Sys2Proof.Machine.execLodgeReset ch tag s
  | .lodgeResetTimeout lid step => Sys2Proof.Machine.execLodgeResetTimeout lid step s
  | .lodgeFreeze ch tag => Sys2Proof.Machine.execLodgeFreeze ch tag s
  | .lodgeDrainTimeout lid => Sys2Proof.Machine.execLodgeDrainTimeout lid s
  | .lodgeSave ch tag => Sys2Proof.Machine.execLodgeSave ch tag s
  | .lodgeRestore ch tag => Sys2Proof.Machine.execLodgeRestore ch tag s
  | .lodgeResume ch tag => Sys2Proof.Machine.execLodgeResume ch tag s
  | .lodgeInfo ch tag => Sys2Proof.Machine.execLodgeInfo ch tag s
  | .lodgeExtSet ch tag => Sys2Proof.Machine.execLodgeExtSet ch tag s
  | .lodgePools ch tag => Sys2Proof.Machine.execLodgePools ch tag s
  | .msiMessage m => Sys2Proof.Machine.execMsiMessage m s
  | .extIrq pin high => Sys2Proof.Machine.execExtIrq pin high s
  | .sourceLevelChange src asserted => Sys2Proof.Machine.execSourceLevelChange src asserted s
  | .ipiSend who v => Sys2Proof.Machine.execIpiSend who v s
  | .deliveryCommit => Sys2Proof.Machine.execDeliveryCommit s
  | .holdoffExpiry group => Sys2Proof.Machine.execHoldoffExpiry group s
  | .deliver pcn => Sys2Proof.Machine.execDeliver pcn s
  | .deliveryRefused => Sys2Proof.Machine.execDeliveryRefused s
  | .postedDoorbell slot => Sys2Proof.Machine.execPostedDoorbell slot s
  | .srcWrite who src v => Sys2Proof.Machine.execSrcWrite who src v s
  | .vslotRecall who slot v => Sys2Proof.Machine.execVslotRecall who slot v s
  | .recall slot => Sys2Proof.Machine.execRecall slot s
  | .vslotReplay who slot v => Sys2Proof.Machine.execVslotReplay who slot v s
  | .idistCounterRead who off => Sys2Proof.Machine.execIdistCounterRead who off s
  | .ioIrqSrcSet ch tag => Sys2Proof.Machine.execIoIrqSrcSet ch tag s
  | .ioIrqSrcGet ch tag => Sys2Proof.Machine.execIoIrqSrcGet ch tag s
  | .ioIrqTset ch tag => Sys2Proof.Machine.execIoIrqTset ch tag s
  | .ioIrqGroup ch tag => Sys2Proof.Machine.execIoIrqGroup ch tag s
  | .outboundRequest pcn => Sys2Proof.Machine.execOutboundRequest pcn s
  | .pcieCompletion port tag status low data ep => Sys2Proof.Machine.execPcieCompletion port tag status low data ep s
  | .completionTimeout port tag => Sys2Proof.Machine.execCompletionTimeout port tag s
  | .tagQuarantineEnd port tag => Sys2Proof.Machine.execTagQuarantineEnd port tag s
  | .inboundRead port rp rid tag addr len atype pasid => Sys2Proof.Machine.execInboundRead port rp rid tag addr len atype pasid s
  | .inboundWrite port rp rid addr atype pasid ep data => Sys2Proof.Machine.execInboundWrite port rp rid addr atype pasid ep data s
  | .inboundMsi port rp rid v => Sys2Proof.Machine.execInboundMsi port rp rid v s
  | .errorMessage port rp kind bit rid hdr => Sys2Proof.Machine.execErrorMessage port rp kind bit rid hdr s
  | .linkUp port rp speed width => Sys2Proof.Machine.execLinkUp port rp speed width s
  | .linkDown port rp => Sys2Proof.Machine.execLinkDown port rp s
  | .perstRelease port rp => Sys2Proof.Machine.execPerstRelease port rp s
  | .rcCfgWrite who port v => Sys2Proof.Machine.execRcCfgWrite who port v s
  | .faultLogRead who port => Sys2Proof.Machine.execFaultLogRead who port s
  | .portCounterRead who port off => Sys2Proof.Machine.execPortCounterRead who port off s
  | .ioRcCfg ch tag => Sys2Proof.Machine.execIoRcCfg ch tag s
  | .ioStreamSet ch tag => Sys2Proof.Machine.execIoStreamSet ch tag s
  | .ioStreamGet ch tag => Sys2Proof.Machine.execIoStreamGet ch tag s
  | .ioPortReset ch tag => Sys2Proof.Machine.execIoPortReset ch tag s
  | .ioDmaFaults ch tag => Sys2Proof.Machine.execIoDmaFaults ch tag s
  | .pf0MailboxAccess wr off len tag data => Sys2Proof.Machine.execPf0MailboxAccess wr off len tag data s
  | .pf0Doorbell tag => Sys2Proof.Machine.execPf0Doorbell tag s
  | .pf0Chreset => Sys2Proof.Machine.execPf0Chreset s
  | .vfWindowRequest vf off len tag wr ep data => Sys2Proof.Machine.execVfWindowRequest vf off len tag wr ep data s
  | .winCommit who vf v => Sys2Proof.Machine.execWinCommit who vf v s
  | .winCommitDrain vf => Sys2Proof.Machine.execWinCommitDrain vf s
  | .winLiveWrite who vf w v => Sys2Proof.Machine.execWinLiveWrite who vf w v s
  | .ringTailWrite who vf ring v => Sys2Proof.Machine.execRingTailWrite who vf ring v s
  | .descriptorStart vf ring => Sys2Proof.Machine.execDescriptorStart vf ring s
  | .descriptorComplete vf ring idx => Sys2Proof.Machine.execDescriptorComplete vf ring idx s
  | .vfFlr who vf v => Sys2Proof.Machine.execVfFlr who vf v s
  | .partnerFlr fn => Sys2Proof.Machine.execPartnerFlr fn s
  | .flrComplete vf => Sys2Proof.Machine.execFlrComplete vf s
  | .partnerConfigWrite fn field => Sys2Proof.Machine.execPartnerConfigWrite fn field s
  | .vfRaise vf index => Sys2Proof.Machine.execVfRaise vf index s
  | .vfCounterRead who vf off => Sys2Proof.Machine.execVfCounterRead who vf off s
  | .heartbeatTick => Sys2Proof.Machine.execHeartbeatTick s
  | .twinPerstN asserted => Sys2Proof.Machine.execTwinPerstN asserted s
  | .twinLinkLoss cause => Sys2Proof.Machine.execTwinLinkLoss cause s
  | .linkChangedClear who v => Sys2Proof.Machine.execLinkChangedClear who v s
  | .ioTwinInfo ch tag => Sys2Proof.Machine.execIoTwinInfo ch tag s
  | .ioTwinVfReset ch tag => Sys2Proof.Machine.execIoTwinVfReset ch tag s
  | .hoardClearEnd bank => Sys2Proof.Machine.execHoardClearEnd bank s
  | .marchGo who hoard v => Sys2Proof.Machine.execMarchGo who hoard v s
  | .marchEnd hoard bad => Sys2Proof.Machine.execMarchEnd hoard bad s
  | .hoardSpareCopyEnd hoard => Sys2Proof.Machine.execHoardSpareCopyEnd hoard s
  | .ownerWrite who bank v => Sys2Proof.Machine.execOwnerWrite who bank v s
  | .closedAccRead who hoard => Sys2Proof.Machine.execClosedAccRead who hoard s
  | .memHoardOwner ch tag => Sys2Proof.Machine.execMemHoardOwner ch tag s
  | .memHoardMarch ch tag => Sys2Proof.Machine.execMemHoardMarch ch tag s
  | .journalCommit ok => Sys2Proof.Machine.execJournalCommit ok s
  | .compactionStart => Sys2Proof.Machine.execCompactionStart s
  | .eraseComplete ok => Sys2Proof.Machine.execEraseComplete ok s
  | .eraseResume => Sys2Proof.Machine.execEraseResume s
  | .jtagFlashAccess op => Sys2Proof.Machine.execJtagFlashAccess op s
  | .jrnInfo ch tag => Sys2Proof.Machine.execJrnInfo ch tag s
  | .jrnRead ch tag => Sys2Proof.Machine.execJrnRead ch tag s
  | .jrnAppend ch tag => Sys2Proof.Machine.execJrnAppend ch tag s
  | .jrnCompact ch tag => Sys2Proof.Machine.execJrnCompact ch tag s
  | .faultReport inst cls sev checker line index agent synd => Sys2Proof.Machine.execFaultReport inst cls sev checker line index agent synd s
  | .domainDownLine => Sys2Proof.Machine.execDomainDownLine s
  | .owlSelf => Sys2Proof.Machine.execOwlSelf s
  | .warmWindowExpiry => Sys2Proof.Machine.execWarmWindowExpiry s
  | .errStatusClear who stop part => Sys2Proof.Machine.execErrStatusClear who stop part s
  | .errCntRead who stop part => Sys2Proof.Machine.execErrCntRead who stop part s
  | .owlStatusClear who mask => Sys2Proof.Machine.execOwlStatusClear who mask s
  | .injectWrite who stop part v => Sys2Proof.Machine.execInjectWrite who stop part v s
  | .faultStatus ch tag => Sys2Proof.Machine.execFaultStatus ch tag s
  | .faultClear ch tag => Sys2Proof.Machine.execFaultClear ch tag s
  | .faultReact ch tag => Sys2Proof.Machine.execFaultReact ch tag s
  | .faultDetail ch tag => Sys2Proof.Machine.execFaultDetail ch tag s
  | .faultInject ch tag => Sys2Proof.Machine.execFaultInject ch tag s
  | .faultCtl ch tag => Sys2Proof.Machine.execFaultCtl ch tag s
  | .wearEvaluation => Sys2Proof.Machine.execWearEvaluation s
  | .coreInfo ch tag => Sys2Proof.Machine.execCoreInfo ch tag s
  | .coreRetire ch tag spareOk => Sys2Proof.Machine.execCoreRetire ch tag spareOk s
  | .coreSpareStatus ch tag => Sys2Proof.Machine.execCoreSpareStatus ch tag s
  | .coreWearCfg ch tag => Sys2Proof.Machine.execCoreWearCfg ch tag s
  | .powerFailWarning va vb => Sys2Proof.Machine.execPowerFailWarning va vb s
  | .powerFailEnd va vb => Sys2Proof.Machine.execPowerFailEnd va vb s
  | .turnOff va vb => Sys2Proof.Machine.execTurnOff va vb s
  | .feedLost feed v => Sys2Proof.Machine.execFeedLost feed v s
  | .feedRestored feed v => Sys2Proof.Machine.execFeedRestored feed v s
  | .powerWindowTick va vb iin pchip => Sys2Proof.Machine.execPowerWindowTick va vb iin pchip s
  | .clampSample iin => Sys2Proof.Machine.execClampSample iin s
  | .tempConversion kind idx temp => Sys2Proof.Machine.execTempConversion kind idx temp s
  | .freqWrite who stop v => Sys2Proof.Machine.execFreqWrite who stop v s
  | .sscWrite who stop v => Sys2Proof.Machine.execSscWrite who stop v s
  | .sscApply stop => Sys2Proof.Machine.execSscApply stop s
  | .denPhaseB upTo => Sys2Proof.Machine.execDenPhaseB upTo s
  | .denParkTimeout => Sys2Proof.Machine.execDenParkTimeout s
  | .denWakePin => Sys2Proof.Machine.execDenWakePin s
  | .denWakeI2c => Sys2Proof.Machine.execDenWakeI2c s
  | .mi2cStretchTimeout => Sys2Proof.Machine.execMi2cStretchTimeout s
  | .denWakeVin => Sys2Proof.Machine.execDenWakeVin s
  | .denWakeTimer => Sys2Proof.Machine.execDenWakeTimer s
  | .denWakeExtIrq pin => Sys2Proof.Machine.execDenWakeExtIrq pin s
  | .denWake upTo => Sys2Proof.Machine.execDenWake upTo s
  | .pwrStatus ch tag => Sys2Proof.Machine.execPwrStatus ch tag s
  | .pwrConfig ch tag => Sys2Proof.Machine.execPwrConfig ch tag s
  | .pwrDvfs ch tag => Sys2Proof.Machine.execPwrDvfs ch tag s
  | .pwrSsc ch tag => Sys2Proof.Machine.execPwrSsc ch tag s
  | .pwrModeReq ch tag => Sys2Proof.Machine.execPwrModeReq ch tag s
  | .pwrDenPrepare ch tag => Sys2Proof.Machine.execPwrDenPrepare ch tag s
  | .pwrDenCancel ch tag => Sys2Proof.Machine.execPwrDenCancel ch tag s
  | .pwrPower ch tag => Sys2Proof.Machine.execPwrPower ch tag s
  | .powerCycleOn => Sys2Proof.Machine.execPowerCycleOn s
  | .pmovfClear who pcn ix v => Sys2Proof.Machine.execPmovfClear who pcn ix v s
  | .spoorTailWrite who pcn v => Sys2Proof.Machine.execSpoorTailWrite who pcn v s
  | .spoorLostRead who pcn => Sys2Proof.Machine.execSpoorLostRead who pcn s
  | .bwWindowClose stop => Sys2Proof.Machine.execBwWindowClose stop s
  | .perfCoreRead ch tag => Sys2Proof.Machine.execPerfCoreRead ch tag s
  | .perfCoreCfg ch tag => Sys2Proof.Machine.execPerfCoreCfg ch tag s
  | .perfSpoor ch tag => Sys2Proof.Machine.execPerfSpoor ch tag s
  | .perfBwCfg ch tag => Sys2Proof.Machine.execPerfBwCfg ch tag s
  | .perfBwRead ch tag => Sys2Proof.Machine.execPerfBwRead ch tag s
  | .perfUncRead ch tag => Sys2Proof.Machine.execPerfUncRead ch tag s
  | .coldRstNAsserted => Sys2Proof.Machine.execColdRstNAsserted s
  | .twinLinkUp speed width => Sys2Proof.Machine.execTwinLinkUp speed width s
  | .bcastAckTimeout agent id => Sys2Proof.Machine.execBcastAckTimeout agent id s
  | .violCountRead who => Sys2Proof.Machine.execViolCountRead who s
  | .illegalInstruction ix => Sys2Proof.Machine.execIllegalInstruction ix s

end Sys2Proof.Machine
end

