-- ==== Sys2Proof/WellFormed.lean ====
section
/-! DEFINITION. Which commands are well formed: every operand lies in the range that the spec gives what it names. The
machine answers for every command; an ill-formed one names something that does not exist. -/
namespace Sys2Proof

/-- Belet channels with a mailbox (R43). -/
def okCh (n : Nat) : Bool := decide (n < 4)
def ok16 (n : Nat) : Bool := decide (n < 65536)
/-- Stops (R15). -/
def okStop (n : Nat) : Bool := decide (n < 170)
/-- Memory channels (R302). -/
def okMc (n : Nat) : Bool := decide (n < 16)
/-- Physical core numbers (R16). -/
def okPcn (n : Nat) : Bool := decide (n < 272)
/-- Slices (R16). -/
def okSlice (n : Nat) : Bool := decide (n < 136)
/-- Virtual functions (R423). -/
def okVf (n : Nat) : Bool := decide (1 ≤ n) && decide (n ≤ 63)
/-- Hoard controllers (R448). -/
def okHoard (n : Nat) : Bool := decide (n < 4)
/-- Hoard banks. -/
def okBank (n : Nat) : Bool := decide (n < 64)
/-- PCIe ports (R26). -/
def okPort (n : Nat) : Bool := decide (n ≤ 8)
/-- One of four: root ports, links of a stop, ranks of a channel, severities. -/
def okQuad (n : Nat) : Bool := decide (n < 4)
/-- One of two: rings, feeds, subchannels. -/
def okRing (n : Nat) : Bool := decide (n < 2)
def okPin (n : Nat) : Bool := decide (n < 8)
/-- Requesting agents (R256). -/
def okAgentNo (n : Nat) : Bool := decide (n < 512)
/-- Interrupt sources (R379). -/
def okSrc (n : Nat) : Bool := decide (n < 8192)
def okGroup (n : Nat) : Bool := decide (n < 64)
/-- Posting slots (R394). -/
def okSlot (n : Nat) : Bool := decide (n < 4096)
/-- Parts of a stop (R60). -/
def okPart (n : Nat) : Bool := decide (n < 8)
/-- PA[47:6]. -/
def okLine (n : Nat) : Bool := decide (n < 2 ^ 42)
def okFn (n : Nat) : Bool := decide (n < 64)
/-- Lodge IDs (R353). -/
def okLid (n : Nat) : Bool := decide (n < 512)
/-- One of 32: fill classes, lease slots, flit sequence numbers. -/
def okFill (n : Nat) : Bool := decide (n < 32)
/-- Message classes of the mesh (R227). -/
def okVc (n : Nat) : Bool := decide (n < 5)
/-- Fault classes (R483). -/
def okClass (n : Nat) : Bool := decide (n < 64)
/-- 10-bit tags (R406). -/
def okTag10 (n : Nat) : Bool := decide (n < 1024)
/-- Integer registers. -/
def okReg (n : Nat) : Bool := decide (n < 32)
/-- Bytes of a load: a scalar, or an element group of at most a line. -/
def okSize (n : Nat) : Bool := decide (1 ≤ n) && decide (n ≤ 64)
def okStore (l : List Byte) : Bool := okSize l.length

/-- An instruction of a core: 2 or 4 bytes long. -/
def okIns (i : Ins) : Bool := okPcn i.pcn && (i.ilen == 2 || i.ilen == 4)

/-- Where a result goes. -/
def okDst : Dst → Bool
  | .none => true
  | .x n => okReg n
  | .f n => okReg n
  | .v n off => okReg n && decide (off < 64)

/-- A message: its agent, line, lodge, port class and fill class lie in their ranges. -/
def okMsg (m : Msg) : Bool :=
  okAgentNo m.agent && okLine m.line && okLid m.lid && decide (m.gen < 256) && decide (m.qport < 64) && okFill m.fclass

/-- Who accesses a register. -/
def okAgent : Agent → Bool
  | .core p _ => okPcn p
  | .partner f => okFn f
  | _ => true

/-- What a register write names. -/
def okTarget : RegTarget → Bool
  | .ocr off size => decide (off < 170 * 2 ^ 24) && (size == 4 || size == 8) && off % size == 0
  | .csr i n rd _ => okIns i && decide (n < 4096) && okReg rd
  | .pf0 off size => decide (off < 65536) && (size == 4 || size == 8) && off % size == 0
  | .vf v off size => okVf v && decide (off < 16384) && (size == 4 || size == 8) && off % size == 0

/-- Every operand of a command is in range. -/
def Instr.wellFormed : Instr → Bool
  | .coldReset _ _ _ _ => true
  | .bringupStart _ => true
  | .handOff => true
  | .warmRstN => true
  | .regWrite who t _ => okAgent who && okTarget t
  | .doorbell who ch tag => okAgent who && okCh ch && ok16 tag
  | .chreset who ch => okAgent who && okCh ch
  | .channelPoll => true
  | .requestAccept => true
  | .aliveToggle => true
  | .leaseExpiry slot => okFill slot
  | .relock inst => ok16 inst
  | .mi2cWrite _ _ _ => true
  | .mi2cRead _ _ => true
  | .mi2cDoorbell tag => ok16 tag
  | .mi2cChreset => true
  | .mi2cClockLowTimeout => true
  | .sysNop ch tag => okCh ch && ok16 tag
  | .sysIdent ch tag => okCh ch && ok16 tag
  | .sysStatus ch tag => okCh ch && ok16 tag
  | .sysAbort ch tag => okCh ch && ok16 tag
  | .sysEventMask ch tag => okCh ch && ok16 tag
  | .sysChanCtl ch tag => okCh ch && ok16 tag
  | .expertGrant ch tag => okCh ch && ok16 tag
  | .expertRenew ch tag => okCh ch && ok16 tag
  | .expertRelease ch tag => okCh ch && ok16 tag
  | .fwInfo ch tag => okCh ch && ok16 tag
  | .fwStage ch tag _ => okCh ch && ok16 tag
  | .fwVerify ch tag => okCh ch && ok16 tag
  | .fwActivate ch tag _ => okCh ch && ok16 tag
  | .fwAbandon ch tag => okCh ch && ok16 tag
  | .load i _ size dst _ _ => okIns i && okSize size && okDst dst
  | .store i _ bytes _ => okIns i && okStore bytes
  | .storeCommit pcn => okPcn pcn
  | .shadowRelease pcn _ => okPcn pcn
  | .branch i _ _ _ _ _ => okIns i
  | .amo i _ _ _ _ rd => okIns i && okReg rd
  | .lr i _ _ rd => okIns i && okReg rd
  | .sc i _ _ _ rd => okIns i && okReg rd
  | .fence i _ _ => okIns i
  | .fenceI i => okIns i
  | .pause i => okIns i
  | .pauseHoldEnd pcn => okPcn pcn
  | .cboClean i _ => okIns i
  | .cboFlush i _ => okIns i
  | .cboInval i _ => okIns i
  | .cboZero i _ => okIns i
  | .prefetchHint i _ _ => okIns i
  | .ecall i => okIns i
  | .ebreak i => okIns i
  | .tret i => okIns i
  | .wait i => okIns i
  | .sleepEntryDone pcn => okPcn pcn
  | .coreWake pcn => okPcn pcn
  | .interruptTake pcn => okPcn pcn
  | .timerCompare pcn _ => okPcn pcn
  | .claim i _ rd => okIns i && okReg rd
  | .cpriWrite i _ _ => okIns i
  | .eoi i _ _ => okIns i
  | .atomctlClear i _ => okIns i
  | .amoTrainingWindowEnd pcn line => okPcn pcn && okLine line
  | .lrWindowEnd pcn => okPcn pcn
  | .wcWindowEnd pcn line => okPcn pcn && okLine line
  | .predFlush who pcn _ => okAgent who && okPcn pcn
  | .tlbw i _ rd => okIns i && okReg rd
  | .tlbr i _ rd => okIns i && okReg rd
  | .tlbp i _ _ rd => okIns i && okReg rd
  | .tlbinvVa i _ _ rd => okIns i && okReg rd
  | .tlbinvAsid i _ _ rd => okIns i && okReg rd
  | .tlbinvLid i _ _ rd => okIns i && okReg rd
  | .tlbinvAll i _ _ rd => okIns i && okReg rd
  | .extinvLid i _ _ rd => okIns i && okReg rd
  | .extinvRange i _ _ rd => okIns i && okReg rd
  | .fbr i _ rd => okIns i && okReg rd
  | .fbw i _ _ => okIns i
  | .adUpdate pcn => okPcn pcn
  | .bootwalkWrite i _ => okIns i
  | .bootWalk i _ _ => okIns i
  | .bcastAdmit => true
  | .bcastReceive agent _ => okAgentNo agent
  | .bcastAck agent _ => okAgentNo agent
  | .sidebufAgeOut pcn line => okPcn pcn && okLine line
  | .l2WaycfgWrite who pcn _ => okAgent who && okPcn pcn
  | .l2SweepEnd pcn => okPcn pcn
  | .linkCycle stop link _ _ _ _ _ _ _ _ => okStop stop && okQuad link
  | .nak stop link ackSeq => okStop stop && okQuad link && okFill ackSeq
  | .laneRepairEnd stop link _ => okStop stop && okQuad link
  | .creditTimeout stop link cls => okStop stop && okQuad link && okVc cls
  | .lanemapWrite who stop link _ => okAgent who && okStop stop && okQuad link
  | .ocrErrRead who stop => okAgent who && okStop stop
  | .homeRetryAdmit slice => okSlice slice
  | .trackerComplete line => okLine line
  | .fclassWrite who slice k _ => okAgent who && okSlice slice && okFill k
  | .llcWaycfgWrite who slice _ => okAgent who && okSlice slice
  | .warrenWaycfgWrite who slice _ => okAgent who && okSlice slice
  | .llcSweepEnd slice => okSlice slice
  | .warrenSweepEnd slice => okSlice slice
  | .warrenRqMaxwaitRead who slice => okAgent who && okSlice slice
  | .memFclassSet ch tag => okCh ch && ok16 tag
  | .memFclassGet ch tag => okCh ch && ok16 tag
  | .memLlcRange ch tag => okCh ch && ok16 tag
  | .rds m => okMsg m
  | .rdx m => okMsg m
  | .upg m => okMsg m
  | .ownNd m => okMsg m
  | .evc m => okMsg m
  | .evd m => okMsg m
  | .cbClean m => okMsg m
  | .cbFlush m => okMsg m
  | .cbInval m => okMsg m
  | .famo m => okMsg m
  | .ucRd m => okMsg m
  | .ucWr m => okMsg m
  | .ucWrM m => okMsg m
  | .ioRd m => okMsg m
  | .ioWr m => okMsg m
  | .ioOwn m => okMsg m
  | .ioOwnD m => okMsg m
  | .ioWb m => okMsg m
  | .snpS m => okMsg m
  | .snpX m => okMsg m
  | .snpInv m => okMsg m
  | .snpInvNd m => okMsg m
  | .snpClean m => okMsg m
  | .snpCur m => okMsg m
  | .snpRsp m => okMsg m
  | .cmpAck m => okMsg m
  | .gntX m => okMsg m
  | .wrGo m => okMsg m
  | .cmp m => okMsg m
  | .evAck m => okMsg m
  | .data m => okMsg m
  | .wbData m => okMsg m
  | .wrData m => okMsg m
  | .amoRsp m => okMsg m
  | .ucData m => okMsg m
  | .snoopTimeout line agent => okLine line && okAgentNo agent
  | .requesterTimeout agent _ => okAgentNo agent
  | .deadNote slice agent => okSlice slice && okAgentNo agent
  | .dead stop agent => okStop stop && okAgentNo agent
  | .reclaimSweepEnd slice => okSlice slice
  | .sweepDone slice agent => okSlice slice && okAgentNo agent
  | .deadDiscardRead who slice => okAgent who && okSlice slice
  | .memCohCfg ch tag => okCh ch && ok16 tag
  | .memCohStatus ch tag => okCh ch && ok16 tag
  | .mrd m => okMsg m
  | .mwr m => okMsg m
  | .mcmp m => okMsg m
  | .mdata m => okMsg m
  | .dramCommandIssue mc sc' _ _ => okMc mc && okRing sc'
  | .urgencyRise mc line => okMc mc && okLine line
  | .refreshDue mc rk => okMc mc && okQuad rk
  | .zqCalDue mc rk => okMc mc && okQuad rk
  | .selfRefreshEntry mc => okMc mc
  | .alertN mc => okMc mc
  | .retuneGo who mc _ => okAgent who && okMc mc
  | .retunePhaseEnd mc => okMc mc
  | .retuneLockTimeout mc => okMc mc
  | .retuneEnd mc => okMc mc
  | .trainGo who mc _ => okAgent who && okMc mc
  | .trainDone mc _ _ => okMc mc
  | .retrainDue mc _ => okMc mc
  | .irqStatusClear who mc _ => okAgent who && okMc mc
  | .memChanInfo ch tag => okCh ch && ok16 tag
  | .memQosSet ch tag => okCh ch && ok16 tag
  | .memQosGet ch tag => okCh ch && ok16 tag
  | .memRetune ch tag => okCh ch && ok16 tag
  | .memRetrainCfg ch tag => okCh ch && ok16 tag
  | .memSrCfg ch tag => okCh ch && ok16 tag
  | .memSchedSet ch tag => okCh ch && ok16 tag
  | .scrubGo who mc _ => okAgent who && okMc mc
  | .scrubEnd mc => okMc mc
  | .mcEraseWrite who mc rk _ => okAgent who && okMc mc && okQuad rk
  | .memScrub ch tag => okCh ch && ok16 tag
  | .memErrlogRead ch tag => okCh ch && ok16 tag
  | .memMapPa ch tag => okCh ch && ok16 tag
  | .memMapBank ch tag => okCh ch && ok16 tag
  | .memRetire ch tag => okCh ch && ok16 tag
  | .memRetireList ch tag => okCh ch && ok16 tag
  | .memRowRepair ch tag => okCh ch && ok16 tag
  | .rowRepairTimeout mc _ => okMc mc
  | .memErase ch tag => okCh ch && ok16 tag
  | .lodgeCreate ch tag => okCh ch && ok16 tag
  | .lodgeReset ch tag => okCh ch && ok16 tag
  | .lodgeResetTimeout lid _ => okLid lid
  | .lodgeFreeze ch tag => okCh ch && ok16 tag
  | .lodgeDrainTimeout lid => okLid lid
  | .lodgeSave ch tag => okCh ch && ok16 tag
  | .lodgeRestore ch tag => okCh ch && ok16 tag
  | .lodgeResume ch tag => okCh ch && ok16 tag
  | .lodgeInfo ch tag => okCh ch && ok16 tag
  | .lodgeExtSet ch tag => okCh ch && ok16 tag
  | .lodgePools ch tag => okCh ch && ok16 tag
  | .msiMessage m => okMsg m
  | .extIrq pin _ => okPin pin
  | .sourceLevelChange src _ => okSrc src
  | .ipiSend who _ => okAgent who
  | .deliveryCommit => true
  | .holdoffExpiry group => okGroup group
  | .deliver pcn => okPcn pcn
  | .deliveryRefused => true
  | .postedDoorbell slot => okSlot slot
  | .srcWrite who src _ => okAgent who && okSrc src
  | .vslotRecall who slot _ => okAgent who && okSlot slot
  | .recall slot => okSlot slot
  | .vslotReplay who slot _ => okAgent who && okSlot slot
  | .idistCounterRead who _ => okAgent who
  | .ioIrqSrcSet ch tag => okCh ch && ok16 tag
  | .ioIrqSrcGet ch tag => okCh ch && ok16 tag
  | .ioIrqTset ch tag => okCh ch && ok16 tag
  | .ioIrqGroup ch tag => okCh ch && ok16 tag
  | .outboundRequest pcn => okPcn pcn
  | .pcieCompletion port tag _ _ _ _ => okPort port && okTag10 tag
  | .completionTimeout port tag => okPort port && okTag10 tag
  | .tagQuarantineEnd port tag => okPort port && okTag10 tag
  | .inboundRead port rp rid tag _ _ _ _ => okPort port && okQuad rp && ok16 rid && ok16 tag
  | .inboundWrite port rp rid _ _ _ _ _ => okPort port && okQuad rp && ok16 rid
  | .inboundMsi port rp rid _ => okPort port && okQuad rp && ok16 rid
  | .errorMessage port rp _ _ rid _ => okPort port && okQuad rp && ok16 rid
  | .linkUp port rp _ _ => okPort port && okQuad rp
  | .linkDown port rp => okPort port && okQuad rp
  | .perstRelease port rp => okPort port && okQuad rp
  | .rcCfgWrite who port _ => okAgent who && okPort port
  | .faultLogRead who port => okAgent who && okPort port
  | .portCounterRead who port _ => okAgent who && okPort port
  | .ioRcCfg ch tag => okCh ch && ok16 tag
  | .ioStreamSet ch tag => okCh ch && ok16 tag
  | .ioStreamGet ch tag => okCh ch && ok16 tag
  | .ioPortReset ch tag => okCh ch && ok16 tag
  | .ioDmaFaults ch tag => okCh ch && ok16 tag
  | .pf0MailboxAccess _ _ _ tag _ => ok16 tag
  | .pf0Doorbell tag => ok16 tag
  | .pf0Chreset => true
  | .vfWindowRequest vf _ _ tag _ _ _ => okVf vf && ok16 tag
  | .winCommit who vf _ => okAgent who && okVf vf
  | .winCommitDrain vf => okVf vf
  | .winLiveWrite who vf w _ => okAgent who && okVf vf && okQuad w
  | .ringTailWrite who vf ring _ => okAgent who && okVf vf && okRing ring
  | .descriptorStart vf ring => okVf vf && okRing ring
  | .descriptorComplete vf ring idx => okVf vf && okRing ring && ok16 idx
  | .vfFlr who vf _ => okAgent who && okVf vf
  | .partnerFlr fn => okFn fn
  | .flrComplete vf => okVf vf
  | .partnerConfigWrite fn _ => okFn fn
  | .vfRaise vf index => okVf vf && ok16 index
  | .vfCounterRead who vf _ => okAgent who && okVf vf
  | .heartbeatTick => true
  | .twinPerstN _ => true
  | .twinLinkLoss _ => true
  | .linkChangedClear who _ => okAgent who
  | .ioTwinInfo ch tag => okCh ch && ok16 tag
  | .ioTwinVfReset ch tag => okCh ch && ok16 tag
  | .hoardClearEnd bank => okBank bank
  | .marchGo who hoard _ => okAgent who && okHoard hoard
  | .marchEnd hoard _ => okHoard hoard
  | .hoardSpareCopyEnd hoard => okHoard hoard
  | .ownerWrite who bank _ => okAgent who && okBank bank
  | .closedAccRead who hoard => okAgent who && okHoard hoard
  | .memHoardOwner ch tag => okCh ch && ok16 tag
  | .memHoardMarch ch tag => okCh ch && ok16 tag
  | .journalCommit _ => true
  | .compactionStart => true
  | .eraseComplete _ => true
  | .eraseResume => true
  | .jtagFlashAccess _ => true
  | .jrnInfo ch tag => okCh ch && ok16 tag
  | .jrnRead ch tag => okCh ch && ok16 tag
  | .jrnAppend ch tag => okCh ch && ok16 tag
  | .jrnCompact ch tag => okCh ch && ok16 tag
  | .faultReport inst cls sev _ line index agent _ => ok16 inst && okClass cls && okQuad sev && okLine line && ok16 index && okAgentNo agent
  | .domainDownLine => true
  | .owlSelf => true
  | .warmWindowExpiry => true
  | .errStatusClear who stop part => okAgent who && okStop stop && okPart part
  | .errCntRead who stop part => okAgent who && okStop stop && okPart part
  | .owlStatusClear who _ => okAgent who
  | .injectWrite who stop part _ => okAgent who && okStop stop && okPart part
  | .faultStatus ch tag => okCh ch && ok16 tag
  | .faultClear ch tag => okCh ch && ok16 tag
  | .faultReact ch tag => okCh ch && ok16 tag
  | .faultDetail ch tag => okCh ch && ok16 tag
  | .faultInject ch tag => okCh ch && ok16 tag
  | .faultCtl ch tag => okCh ch && ok16 tag
  | .wearEvaluation => true
  | .coreInfo ch tag => okCh ch && ok16 tag
  | .coreRetire ch tag _ => okCh ch && ok16 tag
  | .coreSpareStatus ch tag => okCh ch && ok16 tag
  | .coreWearCfg ch tag => okCh ch && ok16 tag
  | .powerFailWarning _ _ => true
  | .powerFailEnd _ _ => true
  | .turnOff _ _ => true
  | .feedLost feed _ => okRing feed
  | .feedRestored feed _ => okRing feed
  | .powerWindowTick _ _ _ _ => true
  | .clampSample _ => true
  | .tempConversion _ idx _ => ok16 idx
  | .freqWrite who stop _ => okAgent who && okStop stop
  | .sscWrite who stop _ => okAgent who && okStop stop
  | .sscApply stop => okStop stop
  | .denPhaseB _ => true
  | .denParkTimeout => true
  | .denWakePin => true
  | .denWakeI2c => true
  | .mi2cStretchTimeout => true
  | .denWakeVin => true
  | .denWakeTimer => true
  | .denWakeExtIrq pin => okPin pin
  | .denWake _ => true
  | .pwrStatus ch tag => okCh ch && ok16 tag
  | .pwrConfig ch tag => okCh ch && ok16 tag
  | .pwrDvfs ch tag => okCh ch && ok16 tag
  | .pwrSsc ch tag => okCh ch && ok16 tag
  | .pwrModeReq ch tag => okCh ch && ok16 tag
  | .pwrDenPrepare ch tag => okCh ch && ok16 tag
  | .pwrDenCancel ch tag => okCh ch && ok16 tag
  | .pwrPower ch tag => okCh ch && ok16 tag
  | .powerCycleOn => true
  | .pmovfClear who pcn i _ => okAgent who && okPcn pcn && okRing i
  | .spoorTailWrite who pcn _ => okAgent who && okPcn pcn
  | .spoorLostRead who pcn => okAgent who && okPcn pcn
  | .bwWindowClose stop => okStop stop
  | .perfCoreRead ch tag => okCh ch && ok16 tag
  | .perfCoreCfg ch tag => okCh ch && ok16 tag
  | .perfSpoor ch tag => okCh ch && ok16 tag
  | .perfBwCfg ch tag => okCh ch && ok16 tag
  | .perfBwRead ch tag => okCh ch && ok16 tag
  | .perfUncRead ch tag => okCh ch && ok16 tag
  | .coldRstNAsserted => true
  | .twinLinkUp _ _ => true
  | .bcastAckTimeout agent _ => okAgentNo agent
  | .violCountRead who => okAgent who
  | .illegalInstruction i => okIns i

end Sys2Proof
end

