-- ==== Sys2Proof/Safety.lean ====
section
/-! DEFINITION. The terms claims are stated in: a chip that runs, a queue that names things that exist, a Belet command
that is ready to start. -/
namespace Sys2Proof.Machine

/-- The chip runs: it is not off, not held in reset, and not in SAFE. -/
def State.Live (s : State) : Prop := s.inert = false ∧ s.inSafe = false

/-- Every waiting command names things that exist. -/
def State.queueOk (s : State) : Bool := s.pending.all Instr.wellFormed

/-- Command `c` of opcode `op`, with tag `tag` on channel `ch`, is accepted, may start now (R54), and names a lodge it
may act on where it names one (R52). -/
structure Ready (s : State) (ch tag op : Nat) (c : Cmd) : Prop where
  found : findCmd s ch tag op = some c
  starts : mayStart s c = true
  lid : lidBad s op c = none

/-- No LLC tag and no Warren entry holds an error that cannot be corrected. -/
def State.tagsGood (s : State) : Prop := ∀ ln : Nat, s.badAt 15 ln (fun _ => true) = false ∧ s.badAt 16 ln (fun _ => true) = false

/-- A command of channel `ch` with this tag and opcode can start, be it to fail its lodge check. -/
def canStart (s : State) (ch tag op : Nat) : Bool :=
  match findCmd s ch tag op with
  | some c => mayStart s c
  | none => false

/-- The commands that start, hold or end a COLD (R514, R543). -/
def isCold : Instr → Bool
  | .coldReset _ _ _ _ => true
  | .turnOff _ _ => true
  | .coldRstNAsserted => true
  | _ => false

/-- The commands that carry a measured voltage or temperature, which can lie beyond the ratings of R569. -/
def isStress : Instr → Bool
  | .coldReset _ _ _ _ => true
  | .powerFailEnd _ _ => true
  | .feedRestored _ _ => true
  | .powerWindowTick _ _ _ _ => true
  | .tempConversion _ _ _ => true
  | _ => false

/-- An instruction that may execute now and whose access of `n` bytes at `va` translates and passes its checks, with no
A/D update to make: `m` is where it goes, `s'` the state after the translation. -/
structure Reaches (s : State) (i : Ins) (a : Acc') (va : Word) (n : Nat) (quiet atomic : Bool) (write : Nat → Bool) (m : Mapped) (s' : State) : Prop where
  maps : mapAccess i.pcn a va n quiet atomic write s = (.ok m, s')

/-- The instruction is the core's oldest, and every older store has committed. -/
def Oldest (s : State) (i : Ins) : Prop := atHead s i = true ∧ sbEmpty (s.core i.pcn) i.seq = true

/-- The value that a whole write of `size` bytes asks of register `d`, over its old value. -/
def asked (d : RegDef) (old v : Word) (size : Nat) : Word := fullValue d old v 0 (if d.wide && size == 8 then 64 else 32)

/-- A whole write of the register `d` at `o` of window `b` reaches it: the agent writes registers, the window is there
and powered, a lease stands where the register needs one, and the IDIST lets the agent in. -/
structure OpenWrite (s : State) (who : Agent) (b : Blk) (o size : Nat) (d : RegDef) : Prop where
  may : mayWriteOcr who = true
  sized : accessOk (regOff b o) size = true
  there : blkExists b = true
  lands : landing s (regOff b o) = some (b, o)
  on : winOff s b = false
  reg : regAt b o = some d
  lease : isRwl b d o = true → leaseOpen s who b = true
  idist : b = .idist → idistGuarded d = true → idistMay who = true

/-- A whole read of the register `d` at `o` of window `b` reaches it. -/
structure OpenRead (s : State) (who : Agent) (b : Blk) (o size : Nat) (d : RegDef) : Prop where
  may : mayReadOcr s who b = true
  sized : accessOk (regOff b o) size = true
  there : blkExists b = true
  lands : landing s (regOff b o) = some (b, o)
  on : winOff s b = false
  reg : regAt b o = some d

/-- What that read returns. -/
def seen (s : State) (b : Blk) (d : RegDef) (o size : Nat) : Word :=
  BitVec.ofNat 64 ((readValue s b d o).toNat / 2 ^ 0 % 2 ^ (if d.wide && size == 8 then 64 else 32))

/-- A request at its home's ejection port that the home takes: none of the same agent's is ahead of it, its encoding is
sound (R279), the slice has not recorded its agent as dead, and the queue has room. -/
structure Arrives (s : State) (op : Nat) (m : Msg) : Prop where
  here : inTransit s op m = false
  inOrder : overtakes s op m = false
  sound : ¬((op = 0x15 ∧ 64 < m.arg % 64 + 2 ^ (m.arg / 64 % 4)) ∨ (op = 0x10 ∧ 9 < m.arg % 16))
  live : s.deadAtSlice (homeOf m.line) m.agent = false
  turn : aheadOf s (homeOf m.line) 4 = false
  room : (s.fab.queue.filter (fun e => e.slice == homeOf m.line)).length < 64

/-- An earlier request of the queue waits for the same set. -/
def setAhead (s : State) (m : Msg) : Bool :=
  s.fab.queue.any (fun e => e.slice == homeOf m.line && lineSet e.msg.line == lineSet m.line)

/-- The home requests (R278): operation code and command. -/
def homeRows : List (Nat × (Msg → Instr)) :=
  [(0x01, .rds), (0x02, .rdx), (0x03, .upg), (0x04, .ownNd), (0x08, .evc), (0x09, .evd), (0x0C, .cbClean), (0x0D, .cbFlush),
   (0x0E, .cbInval), (0x10, .famo), (0x14, .ucRd), (0x15, .ucWr), (0x16, .ucWrM), (0x18, .ioRd), (0x19, .ioWr), (0x1A, .ioOwn),
   (0x1B, .ioOwnD), (0x1C, .ioWb)]

/-- The snoops (R280): operation code and command. -/
def snoopRows : List (Nat × (Msg → Instr)) :=
  [(0x40, .snpS), (0x41, .snpX), (0x42, .snpInv), (0x43, .snpInvNd), (0x44, .snpClean), (0x45, .snpCur)]

/-- The commands of the Belet tables that only wait to start: opcode and command. -/
def BeletRow (op : Nat) (row : Nat → Nat → Instr) : Prop :=
  (op, row) ∈ ([(0x0101, .sysNop), (0x0102, .sysIdent), (0x0103, .sysStatus), (0x0104, .sysAbort), (0x0105, .sysEventMask),
    (0x0106, .sysChanCtl), (0x0201, .lodgeCreate), (0x0204, .lodgeSave), (0x0205, .lodgeRestore),
    (0x0206, .lodgeResume), (0x0207, .lodgeInfo), (0x0208, .lodgeExtSet), (0x0209, .lodgePools),
    (0x0301, .memChanInfo), (0x0302, .memQosSet), (0x0303, .memQosGet), (0x0304, .memRetune),
    (0x0305, .memRetrainCfg), (0x0306, .memSrCfg), (0x0307, .memSchedSet)] : List (Nat × (Nat → Nat → Instr))) ∨
  (op, row) ∈ ([(0x0340, .memFclassSet), (0x0341, .memFclassGet), (0x0350, .memCohCfg), (0x0351, .memCohStatus),
    (0x0361, .memErrlogRead), (0x0362, .memMapPa), (0x0363, .memMapBank), (0x0364, .memRetire),
    (0x0365, .memRetireList), (0x0366, .memRowRepair), (0x0367, .memErase), (0x0371, .memHoardMarch),
    (0x0401, .coreInfo), (0x0403, .coreSpareStatus), (0x0404, .coreWearCfg), (0x0501, .ioRcCfg),
    (0x0502, .ioStreamSet), (0x0503, .ioStreamGet), (0x0504, .ioPortReset), (0x0505, .ioDmaFaults)] : List (Nat × (Nat → Nat → Instr))) ∨
  (op, row) ∈ ([(0x0520, .ioIrqSrcSet), (0x0521, .ioIrqSrcGet), (0x0522, .ioIrqTset), (0x0523, .ioIrqGroup),
    (0x0540, .ioTwinInfo), (0x0541, .ioTwinVfReset), (0x0601, .faultStatus), (0x0602, .faultClear),
    (0x0603, .faultReact), (0x0604, .faultDetail), (0x0605, .faultInject), (0x0606, .faultCtl),
    (0x0701, .pwrStatus), (0x0702, .pwrConfig), (0x0703, .pwrDvfs), (0x0704, .pwrSsc), (0x0705, .pwrModeReq),
    (0x0706, .pwrDenPrepare), (0x0707, .pwrDenCancel), (0x0708, .pwrPower)] : List (Nat × (Nat → Nat → Instr))) ∨
  (op, row) ∈ ([(0x0801, .fwInfo), (0x0803, .fwVerify), (0x0805, .fwAbandon), (0x0901, .jrnInfo), (0x0902, .jrnRead),
    (0x0903, .jrnAppend), (0x0904, .jrnCompact), (0x0A01, .perfCoreRead), (0x0A02, .perfCoreCfg),
    (0x0A03, .perfSpoor), (0x0A04, .perfBwCfg), (0x0A05, .perfBwRead), (0x0A06, .perfUncRead),
    (0x0B01, .expertGrant), (0x0B02, .expertRenew), (0x0B03, .expertRelease)] : List (Nat × (Nat → Nat → Instr)))

/-- The fields of a register lie inside it and share no bit. -/
def RegDef.apart (d : RegDef) : Bool :=
  d.fields.all (fun f => decide (f.lo ≤ f.hi) && decide (f.hi < 64)) &&
  decide (d.fields.Pairwise (fun f g => f.hi < g.lo ∨ g.hi < f.lo))

/-- A run that never faults or is refused, for `n` steps. -/
def safeFor : Nat → State → Prop
  | 0, _ => True
  | n + 1, s => ∃ t, step s = .next t ∧ safeFor n t

end Sys2Proof.Machine
end

