-- ==== Sys2Proof/Certificates/Slice0/Obligations.lean ====
section
/-! DEFINITION. The statements about the block, for the provers. -/

open Sys2Proof Sys2Proof.Machine


/-- O1. A step runs the command at the front of the queue. With a command c at the front of the queue and the commands
rest behind it, a step answers exactly what exec of c answers on the state whose queue is rest, whatever the
outcome; with an empty queue a step answers the same state one timebase tick later (the model's choice, log entry
1). Rules: R1, R36. -/
def Obligations.StepRunsFrontCommand : Prop :=
  (∀ (s : State) (c : Instr) (rest : List Instr), s.pending = c :: rest → step s = exec c { s with pending := rest }) ∧
  (∀ s : State, s.pending = [] → step s = .next { s with tick := s.tick + 1 })

/-- O2. No command is refused, few can fault, and none adds to the queue or takes from it. Whatever the command and the
state, exec is never refused; only the five commands that carry a measured voltage or temperature can fault (beyond
the ratings of R569: the model's choice, log entry 2); and where exec answers a next state, the queue of that state
is the queue exec was given. Rules: spec/00_scope.md, R569. -/
def Obligations.CommandsKeepTheQueue : Prop :=
  ∀ (c : Instr) (s : State),
    (∀ r, exec c s ≠ .refused r) ∧ (∀ f, exec c s = .fault f → isStress c = true) ∧
    (∀ t, exec c s = .next t → t.pending = s.pending)

/-- O3. SAFE stands over every step that is not an event of a COLD. In a chip that is in SAFE, every step that answers a
next state leaves it in SAFE, unless the command it took is one of the three events that start, hold or end a COLD:
COLD_RESET, COLD_RST_N_ASSERTED and TURN_OFF. Rules: R493, R514, R543. -/
def Obligations.OnlyColdLeavesSafe : Prop :=
  ∀ s t : State, s.inSafe = true → (∀ c rest, s.pending = c :: rest → isCold c = false) → step s = .next t → t.inSafe = true

/-- O4. Every step keeps the queue's commands well formed. If every waiting command names things that exist (its
channel, stop, core, slice, VF, port and message fields are in their ranges), then after any step that answers a
next state the same holds, and the queue has lost its front command and nothing else. Rules: spec/00_scope.md,
spec/01_organization.md. -/
def Obligations.StepKeepsQueueWellFormed : Prop :=
  ∀ s t : State, s.queueOk = true → step s = .next t → t.queueOk = true ∧ t.pending = s.pending.tail

/-- O5. Nothing happens in a chip that is off or held in reset. While the chip is in OFF or COLD_RST_N is asserted,
every command other than COLD_RESET, COLD_RST_N_ASSERTED and TURN_OFF leaves every register, queue, buffer, memory
byte and core as it was: only the model's clock and the levels the board drives on EXT_IRQ and TWIN_PERST_N may
change. Rules: R519, R520, R543. -/
def Obligations.OffOrHeldChipStaysStill : Prop :=
  ∀ (c : Instr) (s t : State), s.inert = true → isCold c = false → exec c s = .next t →
    ∃ (n : Nat) (pins : List Nat) (perst : Bool),
      t = { s with tick := n, pwr := { s.pwr with extIrq := pins, twinPerst := perst } }

/-- O6. SYS.NOP, IDENT, STATUS, ABORT and EVENT_MASK do their work and respond OK. A SYS command that is ready
(accepted, free to start) answers a next state. NOP responds OK and does nothing else. IDENT responds with SETT.ID,
the firmware version, the serial number, the harts in service, the spare cores and the mapped DRAM bytes. STATUS
responds with the mode, MODE_FLAGS[11:0], OWL_STATUS and SETT.TIME. ABORT of another command of the channel that has
not started answers that command ABORTED and responds OK; of a started one, BUSY; of a tag that names none,
NO_TARGET. EVENT_MASK puts the written bits 1 to 11, with bit 1 set, in force and, while the channel is OPEN, in the
header copy, and responds with them. Here exec answers a next state, on conditions on the state and the operands
alone, for: sysNop, sysIdent, sysStatus, sysAbort, sysEventMask. Rules: R65, R68, R56, R55. -/
def Obligations.SysCommandsRespond : Prop :=
  (∀ (s : State) (ch tag : Nat) (c : Cmd), Ready s ch tag 0x0101 c →
    exec (.sysNop ch tag) s = .next (settle s (respond c 0 [] s))) ∧
  (∀ (s : State) (ch tag : Nat) (c : Cmd), Ready s ch tag 0x0102 c →
    exec (.sysIdent ch tag) s = .next (settle s (respond c 0
      (leBytes 4 (s.rd .sett Off.SETT_ID).toNat ++ leBytes 4 (slotVersion s (runSlot s)) ++ leBytes 8 s.flash.factory.serial ++
        leBytes 2 s.served.length ++ leBytes 2 (spareCores s) ++ leBytes 8 s.org.mapped) s))) ∧
  (∀ (s : State) (ch tag : Nat) (c : Cmd), Ready s ch tag 0x0103 c →
    exec (.sysStatus ch tag) s = .next (settle s (respond c 0
      (leBytes 1 s.mode ++ [0] ++ leBytes 2 (s.rf .pwrc Off.MODE_FLAGS 11 0) ++ leBytes 8 (s.rd .owl Off.OWL_STATUS).toNat ++
        leBytes 8 s.settTime) s))) ∧
  (∀ (s : State) (ch tag : Nat) (c d : Cmd), Ready s ch tag 0x0104 c →
    s.sett.cmds.find? (fun x => x.ch == c.ch && x.tag == bytesAt c.body 1 0 && !x.discard) = some d →
    d.phase = .accepted → d.ord ≠ c.ord →
    exec (.sysAbort ch tag) s = .next (settle s (respond c 0 [] (respond d 0xE [] s)))) ∧
  (∀ (s : State) (ch tag : Nat) (c d : Cmd), Ready s ch tag 0x0104 c →
    s.sett.cmds.find? (fun x => x.ch == c.ch && x.tag == bytesAt c.body 1 0 && !x.discard) = some d → d.phase ≠ .accepted →
    exec (.sysAbort ch tag) s = .next (settle s (respond c 0xA [] s))) ∧
  (∀ (s : State) (ch tag : Nat) (c : Cmd), Ready s ch tag 0x0104 c →
    s.sett.cmds.find? (fun x => x.ch == c.ch && x.tag == bytesAt c.body 1 0 && !x.discard) = none →
    exec (.sysAbort ch tag) s = .next (settle s (respond c 0xD [] s))) ∧
  (∀ (s : State) (ch tag : Nat) (c : Cmd), Ready s ch tag 0x0105 c →
    exec (.sysEventMask ch tag) s = .next (settle s
      (let m := (bytesAt c.body 3 0 &&& 0xFFE) ||| 2
       let t := s.setChan c.ch { s.chan c.ch with evtMask := m }
       respond c 0 (leBytes 4 m) (if t.chState c.ch = 1 then hdrPut c.ch 0x0C m t else t))))

/-- O7. EXPERT.GRANT, RENEW and RELEASE make, extend and end a lease. Once the leases past their expiry tick have ended,
a ready GRANT of 1 to 60,000 ms on an instance the channel may lease, with the instance free, fewer than 16 leases
on the channel and a free slot, takes the lowest free slot, lets the instance's relocks take effect, opens the
instance to the channel, sets the slot's ACTIVE bit and responds with the slot and the expiry (SETT.TIME plus the
duration); on a leased instance it fails LEASE_HELD, and with 16 leases on the channel or 32 in all it fails
NO_RESOURCE. RENEW of a lease of its own channel that has not expired sets the expiry to now plus the duration;
RELEASE ends it with cause 1; both fail DENIED on another channel's lease and NO_TARGET on a free slot or at or
after the expiry tick. Here exec answers a next state, on conditions on the state and the operands alone, for:
expertGrant, expertRenew, expertRelease. Rules: R60, R61, R62, R63. -/
def Obligations.LeaseCommands : Prop :=
  (∀ (s : State) (ch tag i : Nat) (c : Cmd), Ready s ch tag 0x0B01 c → instBad (bytesAt c.body 1 0) = false →
    1 ≤ bytesAt c.body 7 4 → bytesAt c.body 7 4 ≤ 60000 → instDenied c.ch (bytesAt c.body 1 0) = false →
    (endExpired s).leased (bytesAt c.body 1 0) = false → ((endExpired s).sett.leases.filter (fun l => l.ch == c.ch)).length < 16 →
    freeSlot (endExpired s) = some i →
    exec (.expertGrant ch tag) s = .next (settle s
      (respond c 0 (leBytes 1 i ++ [0, 0, 0] ++ leBytes 8 (s.settTime + bytesAt c.body 7 4 * 1000))
        (let t := ((endExpired s).sett.relocks.filter (fun r => r.inst == bytesAt c.body 1 0)).foldl (fun s r => relockNow r s) (endExpired s)
         ({ t with sett := { t.sett with
            leases := t.sett.leases ++ [⟨i, bytesAt c.body 1 0, c.ch, s.settTime + bytesAt c.body 7 4 * 1000⟩],
            unlocked := (t.sett.unlocked.filter (fun u => u.1 != bytesAt c.body 1 0)) ++ [(bytesAt c.body 1 0, c.ch)] } } :
          State).wf .sett Off.LEASE_ACTIVE i i 1)))) ∧
  (∀ (s : State) (ch tag : Nat) (c : Cmd), Ready s ch tag 0x0B01 c → instBad (bytesAt c.body 1 0) = false →
    1 ≤ bytesAt c.body 7 4 → bytesAt c.body 7 4 ≤ 60000 → instDenied c.ch (bytesAt c.body 1 0) = false →
    ((endExpired s).leased (bytesAt c.body 1 0) = true → exec (.expertGrant ch tag) s = .next (settle s (respond c 0xB [] (endExpired s)))) ∧
    ((endExpired s).leased (bytesAt c.body 1 0) = false →
      16 ≤ ((endExpired s).sett.leases.filter (fun l => l.ch == c.ch)).length ∨ freeSlot (endExpired s) = none →
      exec (.expertGrant ch tag) s = .next (settle s (respond c 0xC [] (endExpired s))))) ∧
  (∀ (s : State) (ch tag : Nat) (c : Cmd) (l : Lease), Ready s ch tag 0x0B02 c → bytesAt c.body 0 0 < 32 →
    1 ≤ bytesAt c.body 7 4 → bytesAt c.body 7 4 ≤ 60000 →
    s.sett.leases.find? (fun l => l.slot == bytesAt c.body 0 0) = some l → s.settTime < l.expiry →
    (l.ch = c.ch → exec (.expertRenew ch tag) s = .next (settle s
      (respond c 0 (leBytes 1 (bytesAt c.body 0 0) ++ [0, 0, 0] ++ leBytes 8 (s.settTime + bytesAt c.body 7 4 * 1000))
        { s with sett := { s.sett with leases := s.sett.leases.map (fun x =>
            if x.slot = bytesAt c.body 0 0 then { x with expiry := s.settTime + bytesAt c.body 7 4 * 1000 } else x) } }))) ∧
    (l.ch ≠ c.ch → exec (.expertRenew ch tag) s = .next (settle s (respond c 2 [] s)))) ∧
  (∀ (s : State) (ch tag : Nat) (c : Cmd) (l : Lease), Ready s ch tag 0x0B03 c → bytesAt c.body 0 0 < 32 →
    s.sett.leases.find? (fun l => l.slot == bytesAt c.body 0 0) = some l → s.settTime < l.expiry →
    (l.ch = c.ch → exec (.expertRelease ch tag) s = .next (settle s (respond c 0 [] (endLease l (some 1) s)))) ∧
    (l.ch ≠ c.ch → exec (.expertRelease ch tag) s = .next (settle s (respond c 2 [] s)))) ∧
  (∀ (s : State) (ch tag : Nat) (c : Cmd), bytesAt c.body 0 0 < 32 → 1 ≤ bytesAt c.body 7 4 → bytesAt c.body 7 4 ≤ 60000 →
    (∀ l, s.sett.leases.find? (fun l => l.slot == bytesAt c.body 0 0) = some l → l.expiry ≤ s.settTime) →
    (Ready s ch tag 0x0B02 c → exec (.expertRenew ch tag) s = .next (settle s (respond c 0xD [] s))) ∧
    (Ready s ch tag 0x0B03 c → exec (.expertRelease ch tag) s = .next (settle s (respond c 0xD [] s))))

/-- O8. Doorbells, channel resets, polls and acceptance. On a channel that is not CLOSED, a doorbell from an agent the
table admits records its tag and, while the Sett serves, has the ring examined; CHRESET from such an agent, by the
Sett's register, by MI2C or by PF0, resets an OPEN or FAULTED channel while the Sett serves. A doorbell or reset
from an agent the table does not admit does nothing. A poll, one millisecond after the last, examines every channel.
Acceptance takes one request of the channel whose turn it is, and does nothing when no channel has a request that
may be accepted. Here exec answers a next state, on conditions on the state and the operands alone, for: doorbell,
chreset, channelPoll, requestAccept, mi2cChreset, mi2cDoorbell, pf0Doorbell, pf0Chreset. Rules: R42, R51, R52, R53,
R70, R71, R72, R424. -/
def Obligations.ChannelsAreRungPolledAndServed : Prop :=
  (∀ (s : State) (who : Agent) (ch tag : Nat), doorbellAdmitted who ch = true → tag < 65536 → s.chState ch ≠ 0 →
    exec (.doorbell who ch tag) s = .next (settle s (ringDoorbell ch tag s)) ∧
    (s.serving = true → ch < 8 → ringDoorbell ch tag s = examine ch (s.wf .sett (Off.CHAN_STATE + 8 * ch) 31 16 tag))) ∧
  (∀ (s : State) (who : Agent) (ch : Nat), doorbellAdmitted who ch = true → s.serving = true → s.chState ch ≠ 0 → s.chState ch ≠ 2 →
    exec (.chreset who ch) s = .next (settle s (resetChan ch none s))) ∧
  (∀ (s : State) (who : Agent) (ch tag : Nat), doorbellAdmitted who ch = false →
    exec (.doorbell who ch tag) s = .next (settle s s) ∧ exec (.chreset who ch) s = .next (settle s s)) ∧
  (∀ s : State, s.serving = true →
    exec .channelPoll s = .next (settle s ((List.range 4).foldl (fun t ch => examine ch t)
      { s with tick := max s.tick (s.sett.pollAt + 100000), sett := { s.sett with pollAt := max s.tick (s.sett.pollAt + 100000) } }))) ∧
  (∀ (s : State) (ch : Nat), s.serving = true → acceptTurn s = some ch →
    exec .requestAccept s = .next (settle s (acceptFrom ch (reqLook ch (sramCheck s))))) ∧
  (∀ s : State, acceptTurn s = none → exec .requestAccept s = .next (settle s s)) ∧
  (∀ s : State, mi2cUp s = true → s.serving = true → s.chState 2 ≠ 2 →
    exec .mi2cChreset s = .next (settle s (resetChan 2 none
      { s with sett := { s.sett with mi2c := { s.sett.mi2c with part := none, nacked := false } } }))) ∧
  (∀ (s : State) (tag : Nat), mi2cUp s = true → tag < 65536 →
    exec (.mi2cDoorbell tag) s = .next (settle s (ringDoorbell 2 tag
      { s with sett := { s.sett with mi2c := { s.sett.mi2c with part := none, nacked := false } } }))) ∧
  (∀ (s : State) (tag : Nat), twinUp s = true → s.pf0.d3 = false →
    exec (.pf0Doorbell tag) s = .next (settle s (ringDoorbell 3 tag s)) ∧
    (s.serving = true → s.chState 3 ≠ 0 → s.chState 3 ≠ 2 → exec .pf0Chreset s = .next (settle s (resetChan 3 none s))))

/-- O9. A ring index that breaks the rules faults its channel, and a good one is taken over. When the Sett examines an
OPEN channel, it takes over REQ_PROD, RSP_CONS and EVT_CONS if all three are below their limits (32, 32, 96), the
request ring holds at most 16 entries, and neither consumer index passes its producer; otherwise the channel's STATE
becomes FAULTED and its indices stay as they were. A channel that is not OPEN is left as it is. Rules: R47, R51. -/
def Obligations.BadRingIndexFaultsChannel : Prop :=
  (∀ (s : State) (ch : Nat), s.chState ch ≠ 1 → examine ch s = s) ∧
  (∀ (s : State) (ch : Nat), s.chState ch = 1 → ch < 8 →
    hdrGet s ch 0x10 ≥ 32 ∨ hdrGet s ch 0x1C ≥ 32 ∨ hdrGet s ch 0x24 ≥ 96 ∨
      (hdrGet s ch 0x10 + 32 - (s.chan ch).reqCons) % 32 > 16 ∨
      ((s.chan ch).rspProd + 32 - hdrGet s ch 0x1C) % 32 > ((s.chan ch).rspProd + 32 - (s.chan ch).rspSeen) % 32 ∨
      ((s.chan ch).evtProd + 96 - hdrGet s ch 0x24) % 96 > ((s.chan ch).evtProd + 96 - (s.chan ch).evtSeen) % 96 →
    (examine ch s).chState ch = 3 ∧ (examine ch s).sett = s.sett) ∧
  (∀ (s : State) (ch : Nat), s.chState ch = 1 →
    ¬ (hdrGet s ch 0x10 ≥ 32 ∨ hdrGet s ch 0x1C ≥ 32 ∨ hdrGet s ch 0x24 ≥ 96 ∨
      (hdrGet s ch 0x10 + 32 - (s.chan ch).reqCons) % 32 > 16 ∨
      ((s.chan ch).rspProd + 32 - hdrGet s ch 0x1C) % 32 > ((s.chan ch).rspProd + 32 - (s.chan ch).rspSeen) % 32 ∨
      ((s.chan ch).evtProd + 96 - hdrGet s ch 0x24) % 96 > ((s.chan ch).evtProd + 96 - (s.chan ch).evtSeen) % 96) →
    examine ch s = evtOverflow ch (s.setChan ch { s.chan ch with
      reqSeen := hdrGet s ch 0x10, rspSeen := hdrGet s ch 0x1C, evtSeen := hdrGet s ch 0x24 }))

/-- O10. ALIVE, lease expiry, relock, MI2C transactions and SYS.CHAN_CTL. ALIVE is inverted 500 ms after its last
inversion while the Sett serves outside DEN and SAFE. At a lease's expiry tick the lease ends with cause 0. A relock
write in flight takes effect: the instance's RWL registers close, and the channel that held the lease is sent
EXPERT.LEASE_END with the cause, or is owed it while it is RESETTING. An MI2C write shows its bytes at its STOP and
is held until then; a read returns the mailbox bytes, 0x00 at 0x2000 to 0x2002 and 0xFF above; SCL held low for 25
ms discards the partial transaction. A ready SYS.CHAN_CTL opens a CLOSED channel 1 or 3 outside BRINGUP and
DIAGNOSTIC and responds with STATE, starts the close of an open one, and answers a request that is already satisfied
OK. Here exec answers a next state, on conditions on the state and the operands alone, for: aliveToggle,
leaseExpiry, relock, mi2cWrite, mi2cRead, mi2cClockLowTimeout, sysChanCtl. Rules: R40, R62, R63, R69, R70, R579. -/
def Obligations.SettTimedEventsAndMi2c : Prop :=
  (∀ s : State, s.rf .sett Off.SETT_STATE 1 0 = 1 → s.modeFlag 8 = false → s.modeFlag 11 = false →
    exec .aliveToggle s = .next (settle s { s with
      tick := max s.tick (s.sett.aliveAt + 50000000)
      sett := { s.sett with alive := !s.sett.alive, aliveAt := max s.tick (s.sett.aliveAt + 50000000) } })) ∧
  (∀ (s : State) (slot : Nat) (l : Lease), s.sett.leases.find? (fun l => l.slot == slot) = some l →
    exec (.leaseExpiry slot) s = .next (settle s (endLease l (some 0) { s with tick := max s.tick (s.tickOfTime l.expiry) }))) ∧
  (∀ (s : State) (inst : Nat) (r : Relock), s.sett.relocks.find? (fun r => r.inst == inst) = some r →
    exec (.relock inst) s = .next (settle s
      (let u := { s with sett := { s.sett with
         relocks := s.sett.relocks.erase r, unlocked := s.sett.unlocked.filter (fun u => u.1 != r.inst) } }
       let body := fun k => leBytes 1 r.slot ++ leBytes 1 k ++ leBytes 2 r.inst
       match r.cause with
       | none => u
       | some k => if u.chState r.ch = 2 then u.setChan r.ch { u.chan r.ch with owedEnds := (u.chan r.ch).owedEnds ++ [body k] }
         else emit [r.ch] 0x0B80 0 0 (body k) u))) ∧
  (∀ (s : State) (off : Nat) (d : List Byte), mi2cUp s = true →
    exec (.mi2cWrite off d false) s = .next (settle s { s with sett := { s.sett with mi2c := { s.sett.mi2c with part := some (off, d) } } }) ∧
    (off + d.length ≤ 0x2000 →
      exec (.mi2cWrite off d true) s = .next (settle s
        (let t := { s with sett := { s.sett with mi2c := { s.sett.mi2c with part := none, nacked := false } } }
         if off < 0x2000 then settWr (mboxBase 2 + off) d t else t)))) ∧
  (∀ (s : State) (off len : Nat), mi2cUp s = true →
    exec (.mi2cRead off len) s = .next (settle s { s with sett := { s.sett with mi2c := { s.sett.mi2c with
      readData := (List.range len).map (fun i => if off + i < 0x2000 then (settRd s (mboxBase 2 + (off + i)) 1).headD 0
        else if off + i < 0x2003 then 0 else 0xFF)
      nacked := false } } })) ∧
  (∀ s : State, exec .mi2cClockLowTimeout s = .next (settle s { s with sett := { s.sett with mi2c := { s.sett.mi2c with part := none } } })) ∧
  (∀ (s : State) (ch tag : Nat) (c : Cmd), Ready s ch tag 0x0106 c → bytesAt c.body 0 0 = 1 ∨ bytesAt c.body 0 0 = 3 →
    (bytesAt c.body 1 1 = 1 → s.chState (bytesAt c.body 0 0) = 0 → s.modeFlag 2 = false → s.modeFlag 10 = false →
      (bytesAt c.body 0 0 = 3 → s.pwr.tpRoot = false) →
      exec (.sysChanCtl ch tag) s = .next (settle s (respond c 0
        (leBytes 1 ((openChan (bytesAt c.body 0 0) s).chState (bytesAt c.body 0 0))) (openChan (bytesAt c.body 0 0) s)))) ∧
    (bytesAt c.body 1 1 = 0 → s.chState (bytesAt c.body 0 0) ≠ 0 →
      exec (.sysChanCtl ch tag) s = .next (settle s (setPhase c.ord .running []
        (resetChan (bytesAt c.body 0 0) (some c.ord) (if bytesAt c.body 0 0 = 3 then twinLoss 3 s else s))))) ∧
    (bytesAt c.body 1 1 < 2 → s.chState (bytesAt c.body 0 0) = bytesAt c.body 1 1 →
      exec (.sysChanCtl ch tag) s = .next (settle s (respond c 0 (leBytes 1 (bytesAt c.body 1 1)) s))))

/-- O11. A response reaches its slot and the client, and nothing else changes. When a command of an OPEN channel that
was not reset responds, the command leaves the accepted list, OUTSTANDING falls by one, RSP_PROD advances by one
modulo 32, and the client is notified. Every register but CHAN_STATE of the channel and, on channels 0 and 1, SRC of
SETT_RSP is as before; every byte of memory outside the channel's 8 KiB mailbox is as before; the Owl hears nothing,
unless an LLC tag or a Warren entry holds an error that cannot be corrected; the core map, the flash, power, lodges,
the memory controllers, the Hoard, the VFs and the model's clock are as before. Rules: R55, R56, R43, R45. -/
def Obligations.ResponseReachesItsSlotAlone : Prop :=
  ∀ (s : State) (c : Cmd) (st : Nat) (rsp : List Byte), c.discard = false → c.ch < 4 → s.chState c.ch = 1 → 1 ≤ s.outstanding c.ch →
    let t := respond c st rsp s
    t.sett.cmds = s.sett.cmds.filter (fun x => x.ord != c.ord) ∧
    t.outstanding c.ch = s.outstanding c.ch - 1 ∧ t.chState c.ch = 1 ∧
    (t.chan c.ch).rspProd = ((s.chan c.ch).rspProd + 1) % 32 ∧
    (c.ch < 2 → t.rf .idist (Off.SRC + 8 * (8 + c.ch)) 32 32 = 1) ∧
    (∀ (b : Blk) (o : Nat), b.base + o ≠ Blk.sett.base + (Off.CHAN_STATE + 8 * c.ch) →
      (c.ch < 2 → b.base + o ≠ Blk.idist.base + (Off.SRC + 8 * (8 + c.ch))) → t.rd b o = s.rd b o) ∧
    (∀ x : Nat, x < mboxBase c.ch ∨ mboxBase c.ch + 0x2000 ≤ x → t.memByte x = s.memByte x) ∧
    t.org = s.org ∧ t.flash = s.flash ∧ (s.tagsGood → t.owl = s.owl) ∧ t.wear = s.wear ∧ t.pwr = s.pwr ∧ t.lodges = s.lodges ∧ t.pools = s.pools ∧
    t.idist = s.idist ∧ t.vfs = s.vfs ∧ t.mcs = s.mcs ∧ t.hoards = s.hoards ∧ t.elog = s.elog ∧ t.tick = s.tick

/-- O12. The FW commands stage, verify, activate and abandon an image. A ready FW.INFO responds with the running slot,
the slot for the next COLD, the session channel, the slot flags, both versions and the staged bytes. FW.STAGE with a
good, clean buffer inside the slot, no other channel's session, and a 4 KiB-aligned offset (0 opens the session and
erases the first block; another needs a session) erases every block it writes and programs the bytes, or answers
FLASH_ERROR where the flash fails. FW.VERIFY of a session passes the image test or answers AUTH_FAIL. FW.ACTIVATE of
a verified session journals the slot, and its effect waits on the commit, or answers FLASH_ERROR where the
boot-select page fails (the model's choice, log entry 23). FW.ABANDON closes the session. Each answers BUSY while
another channel holds the session, and all but STAGE at offset 0 answer NO_TARGET or BAD_FIELD without one. Here
exec answers a next state, on conditions on the state and the operands alone, for: fwInfo, fwStage, fwVerify,
fwActivate, fwAbandon. Rules: R65, R66, R67, R466, R467, R468. -/
def Obligations.FirmwareCommands : Prop :=
  (∀ (s : State) (ch tag : Nat) (c : Cmd), Ready s ch tag 0x0801 c →
    exec (.fwInfo ch tag) s = .next (settle s (respond c 0
      (let (sess, staged) := match s.sett.fw with | some f => (f.ch, f.staged) | none => (0xFF, 0)
       leBytes 1 (runSlot s) ++ leBytes 1 (bselSlot s).1 ++ leBytes 1 sess ++
        leBytes 1 (b2n (flNat s (slotBase 0) 4 == imgMagic) + 2 * b2n (flNat s (slotBase 1) 4 == imgMagic) + 4 * b2n s.sett.testedA + 8 * b2n s.sett.testedB) ++
        leBytes 4 (slotVersion s 0) ++ leBytes 4 (slotVersion s 1) ++ leBytes 4 staged) s))) ∧
  (∀ (s : State) (ch tag : Nat) (ok : Bool) (c : Cmd), Ready s ch tag 0x0802 c → fwBusy s c.ch = false → bufOk s c = true →
    bytesAt c.body 19 16 % 4096 = 0 → bytesAt c.body 19 16 + bufLen c ≤ 0x1000000 →
    (bytesAt c.body 19 16 ≠ 0 → s.sett.fw ≠ none) → bufPoisoned s (bufPa c) (bufLen c) = none →
    exec (.fwStage ch tag ok) s = .next (settle s
      (let off := bytesAt c.body 19 16
       let slot := 1 - runSlot s
       let t := flProgram (slotBase slot + off) (settRd s (bufPa c) (bufLen c)) (stageErase slot off (bufLen c) c.ch (cohLook (bufPa c) (bufLen c) s))
       if ok then respond c 0 (leBytes 4 (stagedTo (off + bufLen c) t)) (setStaged (stagedTo (off + bufLen c) t) t)
       else respond c 0x11 [] (stageErase slot off (bufLen c) c.ch s)))) ∧
  (∀ (s : State) (ch tag : Nat) (c : Cmd), Ready s ch tag 0x0803 c → fwBusy s c.ch = false → s.sett.fw.isSome = true →
    exec (.fwVerify ch tag) s = .next (settle s
      (let t := setTested (1 - runSlot s) true s
       if imageValid s (1 - runSlot s) then respond c 0 (leBytes 4 (slotVersion t (1 - runSlot s)))
         { t with sett := { t.sett with fw := t.sett.fw.map (fun f => { f with verified := true }) } }
       else respond c 0x12 [] s))) ∧
  (∀ (s : State) (ch tag : Nat) (c : Cmd) (f : FwSession), Ready s ch tag 0x0804 c → fwBusy s c.ch = false → s.sett.fw = some f →
    f.verified = true → jrnHasRoom s = true →
    exec (.fwActivate ch tag true) s = .next (settle s
      (enqueueRec (some c.ord) false (.fwSlot (1 - runSlot s)) (setPhase c.ord .committing [] s))) ∧
    exec (.fwActivate ch tag false) s = .next (settle s (respond c 0x11 [] s))) ∧
  (∀ (s : State) (ch tag : Nat) (c : Cmd), Ready s ch tag 0x0805 c → fwBusy s c.ch = false → s.sett.fw.isSome = true →
    exec (.fwAbandon ch tag) s = .next (settle s (respond c 0 [] { s with sett := { s.sett with fw := none } }))) ∧
  (∀ (s : State) (ch tag : Nat) (ok : Bool) (c : Cmd), fwBusy s c.ch = true →
    (Ready s ch tag 0x0802 c → exec (.fwStage ch tag ok) s = .next (settle s (respond c 0xA [] s))) ∧
    (Ready s ch tag 0x0803 c → exec (.fwVerify ch tag) s = .next (settle s (respond c 0xA [] s))) ∧
    (Ready s ch tag 0x0804 c → exec (.fwActivate ch tag ok) s = .next (settle s (respond c 0xA [] s))) ∧
    (Ready s ch tag 0x0805 c → exec (.fwAbandon ch tag) s = .next (settle s (respond c 0xA [] s)))) ∧
  (∀ (s : State) (ch tag : Nat) (ok : Bool) (c : Cmd), s.sett.fw = none →
    (Ready s ch tag 0x0803 c → exec (.fwVerify ch tag) s = .next (settle s (respond c 0xD [] s))) ∧
    (Ready s ch tag 0x0804 c → exec (.fwActivate ch tag ok) s = .next (settle s (respond c 0xD [] s))) ∧
    (Ready s ch tag 0x0805 c → exec (.fwAbandon ch tag) s = .next (settle s (respond c 0xD [] s))))

/-- O13. The JRN commands, and how a record commits, a compaction runs and an erase ends. A ready JRN.INFO responds with
the journal's state; JRN.READ with the records copied, or NO_TARGET where the sequence number lies below the oldest
held. JRN.APPEND, below 64 in the second, queues a CLIENT record, and waits on its commit. JRN.COMPACT starts a
compaction if none runs, else BUSY; one starts by itself with 192 blocks in use outside HANDOVER and a hold-up.
Outside a hold-up, a record that no command waits on and whose block has room commits with the next SEQ and becomes
part of the journalled state; a running erase is suspended for it. Outside a hold-up, an erase that completes frees
its block; a suspended one resumes when nothing waits. In BOOT alone, the TAP erases, programs and reads the flash;
elsewhere its accesses do nothing. Here exec answers a next state, on conditions on the state and the operands
alone, for: jrnInfo, jrnRead, jrnAppend, jrnCompact, compactionStart, eraseComplete, eraseResume, journalCommit,
jtagFlashAccess. Rules: R474, R477, R479, R480, R481, R464, R472, R473. -/
def Obligations.JournalAndFlashEvents : Prop :=
  (∀ (s : State) (ch tag : Nat) (c : Cmd), Ready s ch tag 0x0901 c → ∃ oldest : Nat,
    exec (.jrnInfo ch tag) s = .next (settle s (respond c 0 (leBytes 1 (b2n s.flash.compact.isSome) ++ leBytes 2 (blocksInUse s) ++
      leBytes 2 (spareLeft s) ++ leBytes 3 0 ++ leBytes 8 oldest ++ leBytes 8 (s.flash.nextSeq - 1) ++
      leBytes 4 s.flash.compactions ++ leBytes 2 s.flash.torn ++ leBytes 2 s.flash.unknownTypes) s))) ∧
  (∀ (s : State) (ch tag : Nat) (c : Cmd), Ready s ch tag 0x0902 c → bufOk s c = true →
    (goneSeq s (bytesAt c.body 23 16) = true → exec (.jrnRead ch tag) s = .next (settle s (respond c 0xD [] s))) ∧
    (∀ bytes q stop, goneSeq s (bytesAt c.body 23 16) = false → jrnCopy c s = (bytes, some q, stop) →
      exec (.jrnRead ch tag) s = .next (settle s (respond c 0 (leBytes 4 bytes.length ++ leBytes 8 q ++
        leBytes 8 (stop.getD (max (bytesAt c.body 23 16) s.flash.nextSeq))) (settWr (bufPa c) bytes s)))) ∧
    (∀ bytes stop, goneSeq s (bytesAt c.body 23 16) = false → jrnCopy c s = (bytes, none, stop) →
      ∃ last : Nat, exec (.jrnRead ch tag) s = .next (settle s (respond c 0 (leBytes 4 0 ++ leBytes 8 last ++
        leBytes 8 (stop.getD (max (bytesAt c.body 23 16) s.flash.nextSeq))) s.fresh.2)))) ∧
  (∀ (s : State) (ch tag : Nat) (c : Cmd), Ready s ch tag 0x0903 c → s.flash.appends = [] → jrnHasRoom s = true →
    exec (.jrnAppend ch tag) s = .next (settle s (enqueueRec (some c.ord) false (.client c.ch (c.body.take c.len))
      (setPhase c.ord .committing [] { s with flash := { s.flash with appends := [(c.ch, s.settTime / 1000000, 1)] } })))) ∧
  (∀ (s : State) (ch tag : Nat) (c : Cmd), Ready s ch tag 0x0904 c →
    (s.flash.compact = none → exec (.jrnCompact ch tag) s = .next (settle s (setPhase c.ord .running [] (beginCompaction (some c.ord) s)))) ∧
    (s.flash.compact ≠ none → exec (.jrnCompact ch tag) s = .next (settle s (respond c 0xA [] s)))) ∧
  (∀ s : State, s.flash.compact = none → 192 ≤ blocksInUse s → s.modeFlag 9 = false → s.sett.holdUp = false →
    s.rf .sett Off.SETT_STATE 1 0 = 1 → exec .compactionStart s = .next (settle s (beginCompaction none s))) ∧
  (∀ (s : State) (e : FlashErase), s.flash.erase = some e → e.suspended = false → s.sett.holdUp = false →
    exec (.eraseComplete true) s = .next (settle s (endCompaction (nextErase
      { s with flash := { s.flash with erase := none, toErase := s.flash.toErase.filter (· != e.blk) } })))) ∧
  (∀ (s : State) (e : FlashErase), s.flash.erase = some e → e.suspended = true → s.flash.queue = [] → s.sett.holdUp = false →
    exec .eraseResume s = .next (settle s { s with flash := { s.flash with erase := some ⟨e.blk, false, s.tick + 10000⟩ } })) ∧
  (∀ (s t : State) (r : JReq) (q : List JReq), mayWrite s = true → s.sett.holdUp = false → s.flash.queue = r :: q → r.owner = none → r.snap = false →
    commitRec r (suspendErase s) = some t →
    exec (.journalCommit true) s = .next (settle s (recordEffect r.payload { t with flash := { t.flash with queue := t.flash.queue.tail } })) ∧
    t.flash.nextSeq = s.flash.nextSeq + 1 ∧ t.flash.jst = jApply r.payload s.flash.jst) ∧
  (∀ s : State, s.rf .sett Off.SETT_STATE 1 0 = 0 →
    (∀ a d, exec (.jtagFlashAccess (.program a d)) s = .next (settle s (flProgram a d s))) ∧
    (∀ a n, exec (.jtagFlashAccess (.read a n)) s = .next (settle s { s with flash := { s.flash with jtagData := flBytes s a n } })) ∧
    (∀ b, exec (.jtagFlashAccess (.eraseBlock b)) s = .next (settle s
      { flErase b s with flash := { (flErase b s).flash with blocks := (flErase b s).flash.blocks.filter (fun k => k.blk != b) } }))) ∧
  (∀ (s : State) (op : JtagOp), s.rf .sett Off.SETT_STATE 1 0 ≠ 0 → exec (.jtagFlashAccess op) s = .next (settle s s))

/-- O14. Branches, pause, ECALL, EBREAK, illegal instructions, TRET and interrupts at a core. At a core where the
instruction may act: a branch resolves and, on a misprediction, discards everything younger; without a BTB entry for
its PC it was predicted not taken; PAUSE completes and holds dispatch for 64 cycles unless an enabled interrupt is
pending, and the hold ends at its tick or at such an interrupt; an exception goes behind an interrupt that can be
taken; ECALL takes exception 8 plus the level, EBREAK takes BREAKPOINT with the PC as TVAL, an illegal instruction
takes ILLEGAL with its bits as TVAL; TRET at K, H or M completes, clears the reservation, discards what is younger
and returns by the fast or the normal form, and at U, or with a word that R125 does not define, takes ILLEGAL; the
first takeable interrupt is taken before the instruction at the PC, NOBANK and offset by its class; the tick at
which `time` reaches a TIMECMP is reached. Here exec answers a next state, on conditions on the state and the
operands alone, for: branch, pause, pauseHoldEnd, ecall, ebreak, illegalInstruction, tret, interruptTake,
timerCompare. Rules: R78, R88, R102, R113, R116, R117, R119, R123, R125. -/
def Obligations.ControlFlowTrapsAndInterrupts : Prop :=
  (∀ (s : State) (i : Ins) (taken : Bool) (target : Word) (given call ret : Bool), mayRun s i = true →
    exec (.branch i taken target given call ret) s = .next (settle s
      (let mis := mispredicted s i taken target ret given
       passOn i (fun e => { e with npc := if taken then target else e.npc, branch := some (brOf i taken mis target call ret) }) 3
         (if mis then bump i.pcn 17 1 (pNow s i.pcn) (flushFrom i.pcn (i.seq + 1) s) else s))) ∧
    ((s.core i.pcn).pred.btbAt i.pc = none → mispredicted s i taken target ret given = taken)) ∧
  (∀ (s : State) (i : Ins), atHead s i = true →
    ((enabledPending (complete i 0 s) i.pcn).isEmpty = true → exec (.pause i) s = .next (settle s
      ((complete i 0 s).modCore i.pcn (fun c => { c with pauseUntil := some (s.tick + cycTicks s i.pcn 64) })))) ∧
    ((enabledPending (complete i 0 s) i.pcn).isEmpty = false → exec (.pause i) s = .next (settle s (complete i 0 s)))) ∧
  (∀ (s : State) (p n : Nat), (s.core p).pauseUntil = some n →
    ((enabledPending s p).isEmpty = true → exec (.pauseHoldEnd p) s = .next (settle s
      ((s.toTick n).modCore p (fun c => { c with pauseUntil := none })))) ∧
    ((enabledPending s p).isEmpty = false → exec (.pauseHoldEnd p) s = .next (settle s
      (s.modCore p (fun c => { c with pauseUntil := none }))))) ∧
  (∀ (s : State) (p code : Nat) (tval : Word) (gpa : Option Nat) (pc : Word),
    takeTrap p code tval gpa pc s = if takeable s p = [] then trapNow p code tval gpa pc s else takeIntr p s) ∧
  (∀ (s : State) (i : Ins), atHead s i = true →
    exec (.ecall i) s = .next (settle s (takeTrap i.pcn (0x08 + (s.core i.pcn).lvl.num) 0 none i.pc s)) ∧
    exec (.ebreak i) s = .next (settle s (takeTrap i.pcn 0x03 i.pc none i.pc s)) ∧
    exec (.illegalInstruction i) s = .next (settle s (takeTrap i.pcn 0x02 i.bits none i.pc s))) ∧
  (∀ (s : State) (i : Ins), atHead s i = true → (s.core i.pcn).lvl = .u ∨ raermienBad i.bits = true →
    exec (.tret i) s = .next (settle s (takeTrap i.pcn 0x02 i.bits none i.pc s))) ∧
  (∀ (s : State) (i : Ins), atHead s i = true → (s.core i.pcn).lvl ≠ .u → raermienBad i.bits = false →
    let c := s.core i.pcn
    exec (.tret i) s = .next (settle s (levelChanged i.pcn c.lvl
      ((complete i 0 (flushFrom i.pcn (i.seq + 1) (clearResv i.pcn s))).modCore i.pcn (fun x =>
        { x with csr := smSet csrReset (tretRegs c).csr 0xC02 (x.csr' 0xC02), lvl := tretLvl c, pc := tretPc c }))))) ∧
  (∀ (s : State) (p : Nat) (l : Lvl) (k : Nat) (rest : List (Lvl × Nat)), s.runs p = true → nonRevocable (s.core p) = false → takeable s p = (l, k) :: rest →
    exec (.interruptTake p) s = .next (settle s
      (enterTrap p l (2 ^ 63 + k) (if k = 2 then 0x180 else 0x100) (k = 2) 0 (s.core p).pc (bump p 13 1 (pNow s p) s)))) ∧
  (∀ (s : State) (p : Nat) (l : Lvl), (s.core p).on = true → l ≠ .u → ((s.core p).csr' (csrBase l + 0xC)).toNat < 2 ^ 64 - 1 →
    exec (.timerCompare p l) s = .next (settle s (s.toTick (((s.core p).csr' (csrBase l + 0xC)).toNat + s.pwr.timeLag))))

/-- O15. WAIT sleeps, wakes, or retires at once. A WAIT at the head with every older store committed, nothing
write-combined and every miss register free clears the reservation, and retires at once if an enabled interrupt is
pending, else enters the state of SLEEPCFG (NAP at K). At U, or with a word that R125 does not define, it takes
ILLEGAL, and at K with TWK set WAIT_TRAP. The end of entry, with no enabled interrupt pending, puts the core to
sleep in that state, after emptying the L1s and TLBs for DOZE and PARK; for PARK the sweeps of ways end first, and
the L2 leaves as far as the writeback buffer has room, until it is empty. With an enabled interrupt pending the
entry is abandoned at the end of a step, and the core wakes with that interrupt as its cause. A sleeping core wakes
on an enabled pending interrupt (a parked core in DEN does not). The sweep of an L2 way of a core that is not dead
writes lines back as far as the writeback buffer has room; with the last one gone it ends, clears BUSY, and the next
one starts. Here exec answers a next state, on conditions on the state and the operands alone, for: wait,
sleepEntryDone, coreWake, l2SweepEnd. Rules: R99, R100, R101, R125, R130, R132, R219. -/
def Obligations.WaitSleepAndWake : Prop :=
  (∀ (s : State) (i : Ins), atHead s i = true → (s.core i.pcn).lvl = .u ∨ raermienBad i.bits = true →
    exec (.wait i) s = .next (settle s (takeTrap i.pcn 0x02 i.bits none i.pc s))) ∧
  (∀ (s : State) (i : Ins), atHead s i = true → (s.core i.pcn).lvl = .k → (s.core i.pcn).csrF 0x6C0 12 12 = 1 → raermienBad i.bits = false →
    exec (.wait i) s = .next (settle s (takeTrap i.pcn 0x17 0 none i.pc s))) ∧
  (∀ (s : State) (i : Ins), atHead s i = true → (s.core i.pcn).lvl ≠ .u → raermienBad i.bits = false →
    ((s.core i.pcn).lvl = .k → (s.core i.pcn).csrF 0x6C0 12 12 ≠ 1) → sbEmpty (s.core i.pcn) i.seq = true →
    (s.core i.pcn).wc = [] → (s.core i.pcn).mrs = [] →
    ((enabledPending s i.pcn).isEmpty = false → exec (.wait i) s = .next (settle s (complete i 0 (clearResv i.pcn s)))) ∧
    ((enabledPending s i.pcn).isEmpty = true → exec (.wait i) s = .next (settle s ((clearResv i.pcn s).modCore i.pcn (fun c =>
      { c with sleep := .entering (if (s.core i.pcn).lvl = .k then 0 else (s.core i.pcn).csrF SLEEPCFG 1 0), stall := some i }))))) ∧
  (∀ (s : State) (p st : Nat), (s.core p).sleep = .entering st →
    (∀ w l, enabledPending s p = w :: l →
      exec (.sleepEntryDone p) s = .next (settle s (wakeCore p (wakeCode w).1 (wakeCode w).2 st true (cutEntry p st s)))) ∧
    (enabledPending s p = [] →
      (st = 0 → exec (.sleepEntryDone p) s = .next (settle s (sleepNow p 0 s))) ∧
      (st = 1 → exec (.sleepEntryDone p) s = .next (settle s (sleepNow p 1 (dozeEntry p s)))) ∧
      (2 ≤ st → exec (.sleepEntryDone p) s = .next (settle s
        (let t := endSweeps p 20 s
         if (t.core p).sweep.isSome then t else parkStep p ((dozeEntry p t).modCore p (fun c => { c with sleep := .parking }))))))) ∧
  (∀ (s : State) (p : Nat), (s.core p).sleep = .parking →
    exec (.sleepEntryDone p) s = .next (settle s
      (let t := parkEntry p s
       if l2Empty (t.core p) then
         match enabledPending t p with
         | w :: _ => wakeCore p (wakeCode w).1 (wakeCode w).2 2 true t
         | [] => sleepNow p 2 t
       else t))) ∧
  (∀ (s : State) (p st : Nat) (w : Lvl × Nat) (l : List (Lvl × Nat)), (s.core p).sleep = .asleep st → enabledPending s p = w :: l →
    ¬(s.modeFlag 8 = true ∧ st = 2) →
    exec (.coreWake p) s = .next (settle s (wakeCore p (wakeCode w).1 (wakeCode w).2 st false s))) ∧
  (∀ (s : State) (p w : Nat) (steps : Bool), (s.core p).sweep = some (w, steps) → (s.core p).dead = false →
    exec (.l2SweepEnd p) s = .next (settle s
      (let t := evictLines p (wayLines (s.core p) w) s
       if wayLines (t.core p) w = [] then nextSweep p (t.core p).sweepWait (sweepStatus p (if steps then sweepDisable p w t else t))
       else t)))

/-- O16. A normal trap saves the PC, the enable, the level and the bank flag, and enters at the vector. Entering a trap
at level K, H or M that is not a fast-bank trap, or a fast-bank trap while some level holds the bank, from address
pc at level P: LEPC is pc, PIE is the old IE, IE is 0, PPL is P, PFB is the old FB, FB is 0; LCAUSE holds the cause
(with NOBANK for a fast-bank trap), LTVAL the trap value; the core is at level L and fetches at BASE plus the offset
(0x080 REFILL, 0x200 machine checks, 0x000 other exceptions; 0x180 FAST, 0x100 other interrupts). The fast bank and
HBANK.OWNER keep their contents, as do every other system register, every integer, floating-point and vector
register, and memory. Rules: R122. -/
def Obligations.NormalTrapEntry : Prop :=
  (∀ (s : State) (p : Nat) (l : Lvl) (cause off : Nat) (fast : Bool) (tval pc : Word), l ≠ .u → (fast = true → (s.core p).owner ≠ 0) →
    let c := s.core p
    let t := enterTrap p l cause off fast tval pc s
    let d := t.core p
    let b := csrBase l
    d.csr' (b + 5) = pc ∧ d.csrF b 1 1 = c.csrF b 0 0 ∧ d.csrF b 0 0 = 0 ∧ d.csrF b 3 2 = c.lvl.num ∧
    d.csrF b 6 6 = c.csrF b 5 5 ∧ d.csrF b 5 5 = 0 ∧
    d.csr' (b + 6) = BitVec.ofNat 64 (cause + if fast then 2 ^ 62 else 0) ∧ d.csr' (b + 7) = tval ∧
    d.lvl = l ∧ d.pc = BitVec.ofNat 64 ((c.csr' (b + 3)).toNat / 4096 * 4096 + off) ∧
    d.fast = c.fast ∧ d.owner = c.owner ∧ d.x = c.x ∧ d.f = c.f ∧ d.v = c.v ∧
    (∀ n : Nat, n ≠ b → n ≠ b + 5 → n ≠ b + 6 → n ≠ b + 7 → d.csr' n = c.csr' n) ∧
    (∀ q : Nat, q ≠ p → t.core q = s.core q) ∧ t.mem = s.mem ∧ t.ocr = s.ocr) ∧
  (∀ (code : Nat), vecOff code = if code = 0x10 then 0x080 else if 0x18 ≤ code then 0x200 else 0x000) ∧
  (∀ (s : State) (p : Nat) (l : Lvl) (k : Nat) (rest : List (Lvl × Nat)), takeable s p = (l, k) :: rest →
    takeIntr p s = enterTrap p l (2 ^ 63 + k) (if k = 2 then 0x180 else 0x100) (k = 2) 0 (s.core p).pc (bump p 13 1 (pNow s p) s))

/-- O17. TRET restores what the trap saved. TRET as the oldest instruction at K, H or M, in a word that R125 defines,
answers a next state in which: with FB set, the core is at LFEPC and level FPPL, IE is FPIE, FB is 0 and HBANK.OWNER
is 0; with FB clear, it is at LEPC and level PPL, IE is PIE, and FB is PFB if this level holds the bank, else 0, and
HBANK is as it was. The reservation is gone; the place in program order moves past TRET; every system register but
LSTATUS, HBANK and instret, every integer, fast-bank, floating-point and vector register, every other core and all
of memory are as they were. Here exec answers a next state, on conditions on the state and the operands alone, for:
tret. Rules: R123, R160. -/
def Obligations.TretRestores : Prop :=
  ∀ (s : State) (i : Ins), atHead s i = true → (s.core i.pcn).lvl ≠ .u → raermienBad i.bits = false →
    ∃ t : State, exec (.tret i) s = .next (settle s t) ∧
      (let c := s.core i.pcn
       let d := t.core i.pcn
       let b := csrBase c.lvl
       (c.csrF b 5 5 = 1 → d.pc = c.csr' (b + 8) ∧ d.lvl = lvlOf (c.csrF b 9 8) ∧ d.csrF b 0 0 = c.csrF b 7 7 ∧ d.csrF b 5 5 = 0 ∧ d.owner = 0) ∧
       (c.csrF b 5 5 ≠ 1 → d.pc = c.csr' (b + 5) ∧ d.lvl = lvlOf (c.csrF b 3 2) ∧ d.csrF b 0 0 = c.csrF b 1 1 ∧
         d.csrF b 5 5 = (if c.owner = c.lvl.num then c.csrF b 6 6 else 0) ∧ d.csr' HBANK = c.csr' HBANK) ∧
       d.resv = none ∧ d.next = i.seq + 1 ∧ d.x = c.x ∧ d.fast = c.fast ∧ d.f = c.f ∧ d.v = c.v ∧
       (∀ n : Nat, n ≠ b → n ≠ HBANK → n ≠ 0xC02 → d.csr' n = c.csr' n)) ∧
      (∀ q : Nat, q ≠ i.pcn → t.core q = s.core q) ∧ t.mem = s.mem

/-- O18. Loads, stores and held loads. A load that may execute, has a place in the load queue and a register, and
translates, whose lines the write-combining buffer does not hold: a DEV load that is ready (the oldest, older stores
committed, no device access outstanding) reads an on-chip register and retires, or asks what it addresses;
otherwise, unless it waits for older store addresses, one with older overlapping stores takes their bytes where one
store covers it, else waits; with none, a WC load asks for its pieces and a WB load reads the L1D or sends its
misses. A translation that fails traps at the head, and one that needs an A/D update begins it. A fetch reads its
lines. A store goes into the reorder and store buffers with its two halves, is checked against younger loads, and
asks for its missing lines, unless QUIET holds it. The oldest retired store of the buffer acts: a device store is
sent once, a WC store merges, a WB store with what commits with it writes its owned lines or asks for them. When a
held load or store leaves the shadow, its deferred updates are made and its requests proceed; a load that retired
while held makes its updates then. Here exec answers a next state, on conditions on the state and the operands
alone, for: load, store, storeCommit, shadowRelease. Rules: R81, R85, R87, R88, R89, R92, R96, R142, R144, R184. -/
def Obligations.LoadsAndStores : Prop :=
  (∀ (s s' : State) (i : Ins) (va : Word) (n : Nat) (dst : Dst) (sg : Bool) (m : Mapped), mayRun s i = true →
    lqFree (s.core i.pcn) i.seq = true → pregFree (s.core i.pcn) i.seq dst = true →
    Reaches s i accLoad va n (quietNow (s.core i.pcn) && inShadow (s.core i.pcn) i.seq) false (fun _ => false) m s' →
    let x := dispatch i 1 (accOf i m va s') s'
    let e := loadEnt i m va n dst sg x.1 s'
    let u := drainLines i.pcn e.lines x.2
    wcHolds (u.core i.pcn) e.lines = false →
    (m.ty = .dev → devReady s' i m = true →
      exec (.load i va n dst sg false) s = .next (settle s (loadDev regRead i e (bump i.pcn 78 1 (accOf i m va s') u)))) ∧
    (m.ty ≠ .dev → s'.isNormal m.pa = true → depWaits s' i = false →
      (olderOverlap (s'.core i.pcn) i.seq e.pieces ≠ [] →
        exec (.load i va n dst sg false) s = .next (settle s
          (match forwardFrom (s'.core i.pcn) e with
           | some b => retireAll i.pcn (bump i.pcn 22 1 (accOf i m va s') (putRob i.pcn (e.forwarded b) u))
           | none => bump i.pcn 23 1 (accOf i m va s') (putRob i.pcn { e with waitFwd := true } u)))) ∧
      (olderOverlap (s'.core i.pcn) i.seq e.pieces = [] → m.ty = .wc → l2FreeN (u.core i.pcn) e.pieces.length = true →
        exec (.load i va n dst sg false) s = .next (settle s (sendUcReads i.pcn i.seq e (putRob i.pcn e u)))) ∧
      (olderOverlap (s'.core i.pcn) i.seq e.pieces = [] → m.ty = .wb →
        ∀ t, accessCache i.pcn i.seq e.held (putRob i.pcn e (if e.held then u else strideSee i.pcn i.pc m.pa u)) = some t →
        exec (.load i va n dst sg false) s = .next (settle s (retireAll i.pcn t))))) ∧
  (∀ (s s' : State) (i : Ins) (va v : Word) (n : Nat) (dst : Dst) (sg : Bool), atHead s i = true → mayRun s i = true →
    lqFree (s.core i.pcn) i.seq = true → pregFree (s.core i.pcn) i.seq dst = true →
    (∀ up x low, mapAccess i.pcn accLoad va n (quietNow (s.core i.pcn) && inShadow (s.core i.pcn) i.seq) false (fun _ => false) s =
        (.fail v up x low, s') → x ≠ .wait → (x = .miss → sbEmpty (s.core i.pcn) i.seq = true) →
      exec (.load i va n dst sg false) s = .next (settle s (faultAt i accLoad v up x low s')) ∧
      (low = none → faultAt i accLoad v up x low s' = xlTrap i accLoad v up x s')) ∧
    (∀ sl, mapAccess i.pcn accLoad va n (quietNow (s.core i.pcn) && inShadow (s.core i.pcn) i.seq) false (fun _ => false) s = (.ad sl v, s') →
      exec (.load i va n dst sg false) s = .next (settle s (needAd i sl v false s')))) ∧
  (∀ (s s' : State) (i : Ins) (va : Word) (n : Nat) (dst : Dst) (sg : Bool) (m : Mapped), s.runs i.pcn = true →
    Reaches s i accFetch va n false false (fun _ => false) m s' →
    let e := { robOf i (s.core i.pcn).lvl (s.core i.pcn).lidNow s.tick with pa := m.pa, size := n, n1 := m.n1, pa2 := m.pa2 }
    let u := e.lines.foldl (fun s ln => (lookLine i.pcn ln i.seq true false s).2) s'
    poisonedPiece (u.core i.pcn) e = none → exec (.load i va n dst sg true) s = .next (settle s u)) ∧
  (∀ (s s' : State) (i : Ins) (va : Word) (bytes : List Byte) (fwd : Bool) (m : Mapped), mayRun s i = true →
    sbFree (s.core i.pcn) i.seq = true → bytes ≠ [] → Reaches s i accStore va bytes.length false false (fun _ => true) m s' →
    let x := dispatch i 2 (storeAcc i m va s) s'
    let e := storeEnt i m va bytes.length false x.1 s
    let u := orderCheck i.pcn i e.pieces (eccWrite (coreStop i.pcn) (corePart i.pcn) 13 i.seq (putStore i m va bytes fwd false e s x.2))
    exec (.store i va bytes fwd) s = .next (settle s (retireAll i.pcn
      (if m.ty = .wb ∧ s.isNormal m.pa = true ∧ e.held = false then storeReads i e u else u)))) ∧
  (∀ (s : State) (p : Nat) (b : SbEnt) (l : List SbEnt), (s.core p).on = true → (s.core p).dead = false →
    (sbCheck p s).1 = false → ((sbCheck p s).2.core p).sb = b :: l → b.retired = true → b.sent = false →
    let s' := (sbCheck p s).2
    (b.ty = .dev → (s'.core p).dev.isSome = false → exec (.storeCommit p) s = .next (settle s (commitDev p b s'))) ∧
    (b.ty = .wc → s'.isNormal b.pa = true → exec (.storeCommit p) s = .next (settle s (commitWc p b s'))) ∧
    (b.ty = .wb → s'.isNormal b.pa = true → exec (.storeCommit p) s = .next (settle s (commitWb p b (commitGroup (s'.core p) b) s')))) ∧
  (∀ (s : State) (p n : Nat) (e : RobEnt), (s.core p).late.find? (fun e => e.seq == n) = some e →
    exec (.shadowRelease p n) s = .next (settle s
      (deferredUpdates p e (s.setCore p { s.core p with late := delFirst (fun x => x.seq == n) (s.core p).late })))) ∧
  (∀ (s : State) (p n : Nat) (e : RobEnt), (s.core p).late.find? (fun e => e.seq == n) = none →
    (s.core p).rob.find? (fun e => e.seq == n && e.held) = some e → inShadow (s.core p) n = false → s.runs p = true →
    (e.isStore = true → exec (.shadowRelease p n) s = .next (settle s
      (e.lines.foldl (fun s ln => (lookLine p ln n false false s).2) (unheldAt p n s)))) ∧
    (e.isStore = false → e.done = true ∨ olderOverlap (s.core p) n e.pieces ≠ [] →
      exec (.shadowRelease p n) s = .next (settle s (deferredUpdates p e (unheldAt p n s)))) ∧
    (e.isStore = false → e.done = false → olderOverlap (s.core p) n e.pieces = [] →
      ∀ t, accessCache p n false (deferredUpdates p e (unheldAt p n s)) = some t →
      exec (.shadowRelease p n) s = .next (settle s (retireAll p t))))

/-- O19. AMO, LR and SC, and the ends of their windows. For an atomic that is the oldest instruction with every older
store committed, that translates and whose line the write-combining buffer does not hold: an AMO that executes near
on an owned clean line writes the result of its operation, trains, and returns the old value; on a line it does not
own it asks for it; a far AMO is sent to its home once a miss register is free, and misaligned it takes
STORE_ACCESS. LR of an owned clean line sets the reservation and returns the value, and asks for a line it does not
own; on a type other than WB it takes STORE_ACCESS. SC with a valid reservation on an owned line writes its value
and returns 0; otherwise it writes nothing and returns 1; both clear the reservation. The AMO training, LR,
write-combining and side-buffer windows end as given. Here exec answers a next state, on conditions on the state and
the operands alone, for: amo, lr, sc, amoTrainingWindowEnd, lrWindowEnd, wcWindowEnd, sidebufAgeOut. Rules: R145,
R151, R152, R153, R156, R158, R159, R160, R161, R212. -/
def Obligations.AtomicsAndTheirWindows : Prop :=
  (∀ (s s' : State) (i : Ins) (va src : Word) (op rd : Nat) (w : Bool) (m : Mapped), Oldest s i →
    Reaches s i accAmo va (if w then 8 else 4) false true (fun _ => true) m s' →
    let n := if w then 8 else 4
    let p := i.pcn
    let u := drainLines p [m.pa / 64] s'
    let x := amoPlan i m u
    wcHolds (u.core p) [m.pa / 64] = false →
    (x.1.1 = true → ownedL1d (x.2.core p) (m.pa / 64) = true →
      exec (.amo i va op w src rd) s = .next (settle s (amoNear i m op n src rd x.1.2 x.2)) ∧
      (∀ e, smFind ((l1dCheck p (m.pa / 64) x.2).core p).l2 (m.pa / 64) = some e → e.poison = false →
        let old := lineNat e.cur (m.pa % 64) n
        let v := writeL1d p (m.pa / 64) (m.pa % 64) (leBytes n (amoOp op n old src.toNat)) (l1dCheck p (m.pa / 64) x.2)
        exec (.amo i va op w src rd) s = .next (settle s (amoFinish i m n old rd x.1.2 v)))) ∧
    (x.1.1 = true → ownedL1d (x.2.core p) (m.pa / 64) = false →
      exec (.amo i va op w src rd) s = .next (settle s (askOwn p (m.pa / 64) false x.2))) ∧
    (x.1.1 = false → l2Free (x.2.core p) false = true →
      exec (.amo i va op w src rd) s = .next (settle s (amoFar i m op w src rd x.2)))) ∧
  (∀ (s s' : State) (i : Ins) (va src : Word) (op rd pa : Nat) (w : Bool) (ty : MTy) (sl : Option Nat), Oldest s i →
    va.toNat % (if w then 8 else 4) ≠ 0 → translate i.pcn accAmo va false s = (.ok pa ty sl, s') →
    exec (.amo i va op w src rd) s = .next (settle s (takeTrap i.pcn accAmo.access va none i.pc s'))) ∧
  (∀ (s s' : State) (i : Ins) (va : Word) (rd : Nat) (w : Bool) (m : Mapped), Oldest s i → (s.core i.pcn).deferred = [] →
    Reaches s i accLr va (if w then 8 else 4) false true (fun _ => false) m s' →
    let p := i.pcn
    let u := drainLines p [m.pa / 64] s'
    wcHolds (u.core p) [m.pa / 64] = false →
    (m.ty ≠ .wb → exec (.lr i va w rd) s = .next (settle s (takeTrap p 0x07 va none i.pc u))) ∧
    (m.ty = .wb → ownedL1d (u.core p) (m.pa / 64) = false →
      exec (.lr i va w rd) s = .next (settle s (askOwn p (m.pa / 64) false u))) ∧
    (m.ty = .wb → ownedL1d (u.core p) (m.pa / 64) = true →
      ∀ e, smFind ((l1dCheck p (m.pa / 64) u).core p).l2 (m.pa / 64) = some e → e.poison = false →
      exec (.lr i va w rd) s = .next (settle s
        (completeX i rd (sext (if w then 8 else 4) (lineNat e.cur (m.pa % 64) (if w then 8 else 4))) 0
          (reserve p (m.pa / 64) (issue p 8 (l1dCheck p (m.pa / 64) u))))))) ∧
  (∀ (s s' : State) (i : Ins) (va src : Word) (rd : Nat) (w : Bool) (m : Mapped), Oldest s i →
    Reaches s i accStore va (if w then 8 else 4) false true (fun pa => scHolds (s.core i.pcn) (pa / 64)) m s' → m.ty = .wb →
    let p := i.pcn
    let u := drainLines p [m.pa / 64] s'
    wcHolds (u.core p) [m.pa / 64] = false →
    exec (.sc i va w src rd) s = .next (settle s (clearResv p
      (if (u.core p).resv = some (m.pa / 64) ∧ ownedL1d (u.core p) (m.pa / 64) = true then
        completeX i rd 0 0 (issue p 8 (writeL1d p (m.pa / 64) (m.pa % 64) (leBytes (if w then 8 else 4) src.toNat) u))
      else completeX i rd 1 0 (issue p 8 (bump p 10 1 (pNow u p) u)))))) ∧
  (∀ (s : State) (p ln : Nat) (t : Track), (s.core p).tracks.find? (fun t => t.line == ln) = some t →
    exec (.amoTrainingWindowEnd p ln) s = .next (settle s ((s.toTick t.due).modCore p (trainedDown t)))) ∧
  (∀ (s : State) (p : Nat), (s.core p).lrOpen = true →
    exec (.lrWindowEnd p) s = .next (settle s (closeLr p (s.toTick (s.core p).lrDue)))) ∧
  (∀ (s : State) (p ln : Nat) (w : WcEnt), (s.core p).wc.find? (fun w => w.line == ln) = some w →
    exec (.wcWindowEnd p ln) s = .next (settle s (drainWc p ln (s.toTick w.due)))) ∧
  (∀ (s : State) (p ln : Nat) (e : SideEnt), (s.core p).sideAt ln = some e →
    exec (.sidebufAgeOut p ln) s = .next (settle s (dropSide p ln (bump p 55 1 (pNow s p) (s.toTick e.due)))))

/-- O20. Fences, cache-block operations and prefetch hints. A FENCE at the head with an empty predecessor or successor
set completes at once; with older stores committed, nothing write-combined and no device access out, it discards
what is younger where its predecessor set holds w or o, re-executes what r and i name where it does not, and
completes; with write-combined data and w in the set it drains it. FENCE.I at the head with older stores committed
and nothing write-combined discards what is younger, empties the L1I and completes. A Zicbom operation at the head
with its line in no miss register acts on the core's own copies, sends its request and holds; cbo.inval acts as
cbo.flush at U and K. cbo.zero is a store of 64 zero bytes to its block. A prefetch hint issues at most a prefetch
and never traps. Here exec answers a next state, on conditions on the state and the operands alone, for: fence,
fenceI, cboClean, cboFlush, cboInval, cboZero, prefetchHint. Rules: R88, R105, R138, R211, R215, R216, R217. -/
def Obligations.FencesAndCacheBlocks : Prop :=
  (∀ (s : State) (i : Ins) (pr sc : BitVec 4), atHead s i = true → (pr = 0 ∨ sc = 0) →
    exec (.fence i pr sc) s = .next (settle s (complete i 0 s))) ∧
  (∀ (s : State) (i : Ins) (pr sc : BitVec 4), Oldest s i → pr ≠ 0 → sc ≠ 0 →
    (wcPending (s.core i.pcn) = false → (s.core i.pcn).dev.isSome = false →
      exec (.fence i pr sc) s = .next (settle s (complete i 0
        (if pr.getLsbD 0 ∨ pr.getLsbD 2 then flushFrom i.pcn (i.seq + 1) s
         else if pr.getLsbD 1 then replaySnooped i.pcn i.seq (if pr.getLsbD 3 then replayNormal i s else s)
         else if pr.getLsbD 3 then replayNormal i s else s)))) ∧
    (wcPending (s.core i.pcn) = true → pr.getLsbD 0 = true →
      exec (.fence i pr sc) s = .next (settle s (drainAllWc i.pcn s)))) ∧
  (∀ (s : State) (i : Ins), Oldest s i → wcPending (s.core i.pcn) = false →
    exec (.fenceI i) s = .next (settle s (complete i 0 ((flushFrom i.pcn (i.seq + 1) s).modCore i.pcn (fun c =>
      { c with l2 := c.l2.map (fun e => (e.1, { e.2 with l1i := none })) }))))) ∧
  (∀ (s s' : State) (i : Ins) (va : Word) (m : Mapped), Oldest s i → Reaches s i accCbo va 1 false true (fun _ => decide (accCbo.kind = 2)) m s' →
    let u := drainLines i.pcn [m.pa / 64] s'
    wcHolds (u.core i.pcn) [m.pa / 64] = false → cboRoom (u.core i.pcn) (m.pa / 64) = true →
    exec (.cboClean i va) s = .next (settle s (cboSend i (m.pa / 64) 0x0C (cboLocal i (m.pa / 64) m.ty 0x0C u))) ∧
    exec (.cboFlush i va) s = .next (settle s (cboSend i (m.pa / 64) 0x0D (cboLocal i (m.pa / 64) m.ty 0x0D u))) ∧
    ((s.core i.pcn).lvl = .u ∨ (s.core i.pcn).lvl = .k →
      exec (.cboInval i va) s = .next (settle s (cboSend i (m.pa / 64) 0x0D (cboLocal i (m.pa / 64) m.ty 0x0D u))))) ∧
  (∀ (s s' : State) (i : Ins) (va : Word) (m : Mapped), Oldest s i → ((s.core i.pcn).lvl = .h ∨ (s.core i.pcn).lvl = .m) →
    Reaches s i accStore va 1 false true (fun _ => decide (accStore.kind = 2)) m s' →
    let u := drainLines i.pcn [m.pa / 64] s'
    wcHolds (u.core i.pcn) [m.pa / 64] = false → cboRoom (u.core i.pcn) (m.pa / 64) = true →
    exec (.cboInval i va) s = .next (settle s (cboSend i (m.pa / 64) 0x0E (cboLocal i (m.pa / 64) m.ty 0x0E u)))) ∧
  (∀ (s s' : State) (i : Ins) (va : Word) (m : Mapped), mayRun s i = true → sbFree (s.core i.pcn) i.seq = true →
    let a := BitVec.ofNat 64 (va.toNat / 64 * 64)
    let z : List Byte := List.replicate 64 0
    Reaches s i accStore a 64 false true (fun _ => true) m s' →
    let x := dispatch i 2 (storeAcc i m a s) s'
    let e := storeEnt i m a 64 true x.1 s
    exec (.cboZero i va) s = .next (settle s (retireAll i.pcn
      (orderCheck i.pcn i e.pieces (eccWrite (coreStop i.pcn) (corePart i.pcn) 13 i.seq (putStore i m a z false true e s x.2)))))) ∧
  (∀ (s : State) (i : Ins) (va : Word) (kind : Nat), mayRun s i = true →
    exec (.prefetchHint i va kind) s = .next (settle s (passOn i id 0 (hintOf i va kind s))))

/-- O21. TLB instructions, the fast bank, ATOMCTL.CLEAR and BOOTWALK. As the oldest instruction with older stores
committed: TLBW at K, H or M of a staged entry that passes R175 writes the chosen slot (no operand) or the named
slot (clearing it where V is 0) and returns the slot's number, and one that fails writes nothing and returns all
ones; TLBR loads the staging registers and returns 1, returns 0 for an entry that is not valid or not the hart's,
and all ones beyond the last bank; TLBP returns the matching slot or all ones; FBR and FBW at H and M read and write
a fast-bank register. All of these take ILLEGAL at U (the bank pair below H), and where their word is one that R125
does not define. A permitted ATOMCTL write with CLEAR empties the predictor, and a BOOTWALK write removes the MW
entries. Here exec answers a next state, on conditions on the state and the operands alone, for: tlbw, tlbr, tlbp,
fbr, fbw, atomctlClear, bootwalkWrite. Rules: R125, R127, R128, R130, R157, R173, R175, R194, R201. -/
def Obligations.TlbAndBankInstructions : Prop :=
  (∀ (s : State) (i : Ins) (sl : Option Word) (rd : Nat) (x y : Word), Oldest s i → (s.core i.pcn).lvl = .u →
    exec (.tlbw i sl rd) s = .next (settle s (takeTrap i.pcn 0x02 i.bits none i.pc s)) ∧
    exec (.tlbr i x rd) s = .next (settle s (takeTrap i.pcn 0x02 i.bits none i.pc s)) ∧
    exec (.tlbp i x y rd) s = .next (settle s (takeTrap i.pcn 0x02 i.bits none i.pc s))) ∧
  (∀ (s : State) (i : Ins) (rd : Nat), Oldest s i → (s.core i.pcn).lvl ≠ .u → raermienBad i.bits = false →
    let p := i.pcn
    let e := staged (s.core p)
    let u := bump p 70 1 (pNow s p) s
    let n := bankOf e.size * 512
    (tlbwOk (s.core p) e = true → e.v = true →
      exec (.tlbw i none rd) s = .next (settle s
        (let k := chooseSlot (s.core p) e
         completeX i rd (BitVec.ofNat 64 k.1) 0 (eccWrite (coreStop p) (corePart p) 10 k.1 (u.modCore p (fun c => { k.2.setTlb k.1 e with csr := c.csr })))))) ∧
    (∀ w, tlbwOk (s.core p) e = true → fld w 8 0 / 8 = tlbSet (bankOf e.size) e.va e.lid →
      exec (.tlbw i (some w) rd) s = .next (settle s (completeX i rd (BitVec.ofNat 64 (n + fld w 8 0)) 0
        (eccWrite (coreStop p) (corePart p) 10 (n + fld w 8 0)
          ((bump p 70 1 (pNow (flushFrom p (i.seq + 1) s) p) (flushFrom p (i.seq + 1) s)).modCore p
            (fun c => c.setTlb (n + fld w 8 0) (if e.v then e else {}))))))) ∧
    (∀ sl, tlbwOk (s.core p) e = false →
      let f := if sl.isSome then flushFrom p (i.seq + 1) s else s
      let v := bump p 70 1 (pNow f p) f
      exec (.tlbw i sl rd) s = .next (settle s (completeX i rd (BitVec.allOnes 64) 0 (bump p 71 1 (pNow v p) v))))) ∧
  (∀ (s : State) (i : Ins) (w : Word) (rd : Nat), Oldest s i → (s.core i.pcn).lvl ≠ .u → raermienBad i.bits = false →
    let c := s.core i.pcn
    let n := fld w 11 0
    (6 ≤ n / 512 → exec (.tlbr i w rd) s = .next (settle s (completeX i rd (BitVec.allOnes 64) 0 s))) ∧
    (n / 512 < 6 → ((c.tlbAt n).v && (c.lvl != .k || (c.tlbAt n).lid == c.csrF HLID 8 0)) = true →
      exec (.tlbr i w rd) s = .next (settle s (completeX i rd 1 0 (s.setCore i.pcn (unstage c (c.tlbAt n)))))) ∧
    (n / 512 < 6 → ((c.tlbAt n).v && (c.lvl != .k || (c.tlbAt n).lid == c.csrF HLID 8 0)) = false →
      exec (.tlbr i w rd) s = .next (settle s (completeX i rd 0 0 (s.setCore i.pcn (unstage c {})))))) ∧
  (∀ (s : State) (i : Ins) (va ctx : Word) (rd : Nat), Oldest s i → raermienBad i.bits = false →
    ((s.core i.pcn).lvl = .k → exec (.tlbp i va ctx rd) s = .next (settle s (completeX i rd
      (match (s.core i.pcn).tlbFind false ((s.core i.pcn).csrF HLID 8 0) ((s.core i.pcn).csrF KASID 15 0) va.toNat with
        | some n => BitVec.ofNat 64 n | none => BitVec.allOnes 64) 0 s))) ∧
    ((s.core i.pcn).lvl = .h ∨ (s.core i.pcn).lvl = .m → exec (.tlbp i va ctx rd) s = .next (settle s (completeX i rd
      (match (s.core i.pcn).tlbFind false (fld ctx 24 16) (fld ctx 15 0) va.toNat with
        | some n => BitVec.ofNat 64 n | none => BitVec.allOnes 64) 0 s)))) ∧
  (∀ (s : State) (i : Ins) (n rd : Nat) (v : Word), Oldest s i →
    (2 ≤ (s.core i.pcn).lvl.num → 10 ≤ n → n ≤ 17 → raermienBad i.bits = false →
      let u := issue i.pcn (if fastCluster i (s.core i.pcn) = .b then 4 else 0) s
      exec (.fbr i n rd) s = .next (settle s (completeX i rd (smGet (fun _ => (0 : Word)) (u.core i.pcn).fast n) 0 u)) ∧
      exec (.fbw i n v) s = .next (settle s (complete i 0
        (u.modCore i.pcn (fun c => { c with fast := smSet (fun _ => (0 : Word)) c.fast n v }))))) ∧
    ((s.core i.pcn).lvl.num < 2 ∨ n < 10 ∨ 17 < n →
      exec (.fbr i n rd) s = .next (settle s (takeTrap i.pcn 0x02 i.bits none i.pc s)) ∧
      exec (.fbw i n v) s = .next (settle s (takeTrap i.pcn 0x02 i.bits none i.pc s)))) ∧
  (∀ (s : State) (i : Ins) (sl : Option Word) (x y : Word) (n rd : Nat), atHead s i = true → raermienBad i.bits = true →
    exec (.tlbw i sl rd) s = .next (settle s (takeTrap i.pcn 0x02 i.bits none i.pc s)) ∧
    exec (.tlbr i x rd) s = .next (settle s (takeTrap i.pcn 0x02 i.bits none i.pc s)) ∧
    exec (.tlbp i x y rd) s = .next (settle s (takeTrap i.pcn 0x02 i.bits none i.pc s)) ∧
    exec (.fbr i n rd) s = .next (settle s (takeTrap i.pcn 0x02 i.bits none i.pc s)) ∧
    exec (.fbw i n x) s = .next (settle s (takeTrap i.pcn 0x02 i.bits none i.pc s))) ∧
  (∀ (s : State) (i : Ins) (v : Word), Oldest s i →
    let u := issue i.pcn 0 (bump i.pcn 19 1 (pNow s i.pcn) s)
    (2 ≤ (s.core i.pcn).lvl.num → csrPermitted (s.core i.pcn) ATOMCTL true = true → bitOf v 3 = true →
      exec (.atomctlClear i v) s = .next (settle s (complete i 0 (flushFrom i.pcn (i.seq + 1)
        ((csrWrite i.pcn ATOMCTL v u).modCore i.pcn (fun c => { c with cpred := [] })))))) ∧
    (3 ≤ (s.core i.pcn).lvl.num → csrPermitted (s.core i.pcn) BOOTWALK true = true →
      exec (.bootwalkWrite i v) s = .next (settle s (complete i 0 (flushFrom i.pcn (i.seq + 1)
        (dropMw i.pcn (csrWrite i.pcn BOOTWALK v u)))))) ∧
    ((s.core i.pcn).lvl.num < 2 → exec (.atomctlClear i v) s = .next (settle s (takeTrap i.pcn 0x02 i.bits none i.pc s))) ∧
    ((s.core i.pcn).lvl.num < 3 → exec (.bootwalkWrite i v) s = .next (settle s (takeTrap i.pcn 0x02 i.bits none i.pc s))))

/-- O22. Broadcast invalidations, A/D updates and the boot walker. TLBINV and EXTINV at a level that may issue them put
one broadcast of their kind in BCHUB's queue and hold the instruction; below it they take ILLEGAL (as an
EXTINV.RANGE of a size outside 12 to 46, and a word that R125 does not define). BCHUB admits the oldest queued
broadcast while fewer than 32 are in flight, waiting for every core (and, for EXTINV, every port); an
acknowledgement that was sent is counted, and a timeout at the close of its window declares the agent dead. The A/D
update of the oldest instruction is sent to its word's home, takes WALK_ACCESS at a device or EXT_STORE where no
extent allows it, and is given up when its entry is gone. The boot walker loads its leaf, takes the fault or the
machine check it found, or waits for a descriptor on its way to the L2. Here exec answers a next state, on
conditions on the state and the operands alone, for: tlbinvVa, tlbinvAsid, tlbinvLid, tlbinvAll, extinvLid,
extinvRange, bcastAdmit, bcastAck, bcastAckTimeout, adUpdate, bootWalk. Rules: R125, R129, R184, R185, R189, R190,
R193, R198, R200. -/
def Obligations.BroadcastsAndWalks : Prop :=
  (∀ (s : State) (i : Ins) (a b : Word) (rd : Nat), Oldest s i → 1 ≤ (s.core i.pcn).lvl.num → raermienBad i.bits = false →
    exec (.tlbinvVa i a b rd) s = .next (settle s (startBcast i 0 (invLid (s.core i.pcn) b) (fld b 15 0) a.toNat 0 rd s)) ∧
    exec (.tlbinvAsid i a b rd) s = .next (settle s (startBcast i 1 (invLid (s.core i.pcn) b) (fld b 15 0) 0 0 rd s))) ∧
  (∀ (s : State) (i : Ins) (a b : Word) (rd : Nat), Oldest s i → 2 ≤ (s.core i.pcn).lvl.num → raermienBad i.bits = false →
    exec (.tlbinvLid i a b rd) s = .next (settle s (startBcast i 2 (fld a 8 0) 0 0 0 rd s)) ∧
    exec (.tlbinvAll i a b rd) s = .next (settle s (startBcast i 3 0 0 0 0 rd s)) ∧
    exec (.extinvLid i a b rd) s = .next (settle s (startBcast i 4 (fld a 8 0) 0 0 0 rd s)) ∧
    (12 ≤ fld b 21 16 → fld b 21 16 ≤ 46 →
      exec (.extinvRange i a b rd) s = .next (settle s (startBcast i 5 (fld b 8 0) 0 a.toNat (fld b 21 16) rd s))) ∧
    (fld b 21 16 < 12 ∨ 46 < fld b 21 16 →
      exec (.extinvRange i a b rd) s = .next (settle s (takeTrap i.pcn 0x02 i.bits none i.pc s)))) ∧
  (∀ (s : State) (i : Ins) (a b : Word) (rd : Nat), Oldest s i → (s.core i.pcn).lvl = .u →
    exec (.tlbinvVa i a b rd) s = .next (settle s (takeTrap i.pcn 0x02 i.bits none i.pc s)) ∧
    exec (.tlbinvLid i a b rd) s = .next (settle s (takeTrap i.pcn 0x02 i.bits none i.pc s)) ∧
    exec (.extinvLid i a b rd) s = .next (settle s (takeTrap i.pcn 0x02 i.bits none i.pc s))) ∧
  (∀ (s : State) (i : Ins) (a b : Word) (rd : Nat), atHead s i = true → raermienBad i.bits = true →
    exec (.tlbinvVa i a b rd) s = .next (settle s (takeTrap i.pcn 0x02 i.bits none i.pc s)) ∧
    exec (.tlbinvAsid i a b rd) s = .next (settle s (takeTrap i.pcn 0x02 i.bits none i.pc s)) ∧
    exec (.tlbinvLid i a b rd) s = .next (settle s (takeTrap i.pcn 0x02 i.bits none i.pc s)) ∧
    exec (.tlbinvAll i a b rd) s = .next (settle s (takeTrap i.pcn 0x02 i.bits none i.pc s)) ∧
    exec (.extinvLid i a b rd) s = .next (settle s (takeTrap i.pcn 0x02 i.bits none i.pc s)) ∧
    exec (.extinvRange i a b rd) s = .next (settle s (takeTrap i.pcn 0x02 i.bits none i.pc s))) ∧
  (∀ (s : State) (b : Bcast), (s.fab.hub.bcasts.filter (·.admitted)).length < 32 → s.fab.hub.bcasts.find? (fun b => !b.admitted) = some b →
    exec .bcastAdmit s = .next (settle s
      (let agents := List.range 272 ++ (if 4 ≤ b.kind then (List.range 9).map (· + 480) else [])
       let s := match s.fab.hub.last with | some t => s.toTick (t + meshTicks s 16) | none => s
       let s := { s with fab := { s.fab with hub := { s.fab.hub with last := some s.tick } } }
       let s := setInBuf 9 4 4 (inBuf s 9 4 4 ++ [⟨opBcast, { agent := b.issuer, line := 0, txn := b.id }, bcastOuts 9 4⟩]) s
       setBcast { b with admitted := true, waits := agents, since := s.tick, tmo := s.rf .bchub Off.BCHUB_COH_CFG 4 0 } s))) ∧
  (∀ (s : State) (agent id : Nat) (b : Bcast), s.fab.hub.bcasts.find? (fun b => b.id == id) = some b → b.acked.contains agent = true →
    exec (.bcastAck agent id) s = .next (settle s (lodgeGo
      (let c := { b with waits := b.waits.filter (· != agent), acked := b.acked.filter (· != agent), lost := b.lost + 0 }
       if c.waits.isEmpty && c.acked.isEmpty then bcastDone c (setBcast c s) else setBcast c s)))) ∧
  (∀ (s : State) (agent id : Nat) (b : Bcast), s.fab.hub.bcasts.find? (fun b => b.id == id) = some b → b.admitted = true →
    (b.waits.contains agent || b.acked.contains agent) = true →
    let u := hubDeclare agent (s.toTick (b.since + meshTicks s (2 ^ b.tmo)))
    (∀ c, u.fab.hub.bcasts.find? (fun b => b.id == id) = some c → (c.waits.isEmpty && c.acked.isEmpty) = true →
      exec (.bcastAckTimeout agent id) s = .next (settle s (lodgeGo (bcastDone c u)))) ∧
    (∀ c, u.fab.hub.bcasts.find? (fun b => b.id == id) = some c → (c.waits.isEmpty && c.acked.isEmpty) = false →
      exec (.bcastAckTimeout agent id) s = .next (settle s (lodgeGo u)))) ∧
  (∀ (s : State) (p : Nat) (a : AdPend), (s.core p).ad = some a → a.sent = false → s.runs p = true → a.seq = (s.core p).next →
    let e := (s.core p).tlbAt a.slot
    let x := adTarget p e s
    (e.v = false → exec (.adUpdate p) s = .next (settle s (s.setCore p { s.core p with ad := none }))) ∧
    (e.v = true → x.1 = some none → exec (.adUpdate p) s = .next (settle s (takeTrap p 0x16 a.va (some e.addr) a.pc x.2))) ∧
    (∀ pa, e.v = true → x.1 = some (some pa) → (x.2.isNormal pa = false ∨ unreachable x.2 (s.core p).lvl pa = true) →
      exec (.adUpdate p) s = .next (settle s (takeTrap p 0x12 (BitVec.ofNat 64 pa) none a.pc x.2))) ∧
    (∀ pa, e.v = true → x.1 = some (some pa) → x.2.isNormal pa = true → unreachable x.2 (s.core p).lvl pa = false →
      l2Free (x.2.core p) false = true → exec (.adUpdate p) s = .next (settle s (adSend p pa a e x.2)))) ∧
  (∀ (s : State) (i : Ins) (va : Word) (kind : Nat), Oldest s i → (s.core i.pcn).lvl = .m → (s.core i.pcn).csrF BOOTWALK 0 0 = 1 →
    ((s.core i.pcn).tlbFind true 0 0 (va.toNat % 2 ^ 48)).isSome = false → (va.toNat < 2 ^ 47 ∨ 2 ^ 64 - 2 ^ 47 ≤ va.toNat) →
    let w := walkFrom i.pcn (walkAcc kind) va 4 0 ((s.core i.pcn).csrF BOOTWALK 47 12 * 4096) s
    (∀ e, w.1 = .leaf e → exec (.bootWalk i va kind) s = .next (settle s
      (let k := chooseSlot (w.2.core i.pcn) e
       eccWrite (coreStop i.pcn) (corePart i.pcn) 10 k.1 (w.2.setCore i.pcn (k.2.setTlb k.1 e))))) ∧
    (∀ code tval, w.1 = .fault code tval →
      exec (.bootWalk i va kind) s = .next (settle s (takeTrap i.pcn code tval none i.pc w.2))) ∧
    (∀ pa, w.1 = .bad pa → exec (.bootWalk i va kind) s = .next (settle s (takeMcheck i.pcn 0x1A pa i.pc w.2))) ∧
    (w.1 = .wait → exec (.bootWalk i va kind) s = .next (settle s w.2)))

/-- O23. Writes of core, mesh, island, error, LLC and Warren registers. A whole write that reaches one of these
registers (the window exists, is powered, a lease stands where one is needed) acknowledges the store and acts:
PRED_FLUSH flushes prediction state, L2_WAYCFG sweeps removed ways, PMOVF clears the written overflow bits,
SPOOR_TAIL moves the tail, LINK_LANEMAP remaps a link, ISL.FREQ and ISL.SSC change the island, ERR_STATUS frees the
capture, INJECT arms an injection, FCLASS takes a legal class, LLC_WAYCFG and WARREN_WAYCFG change the ways; x is
the value asked for, w what the fields accept. Here exec answers a next state, on conditions on the state and the
operands alone, for: predFlush, l2WaycfgWrite, pmovfClear, spoorTailWrite, lanemapWrite, freqWrite, sscWrite,
errStatusClear, injectWrite, fclassWrite, llcWaycfgWrite, warrenWaycfgWrite. Rules: R3, R33, R103, R223, R242, R251,
R270, R485, R494, R526, R529, R554. -/
def Obligations.CoreAndFabricRegisterWrites : Prop :=
  (∀ (s : State) (who : Agent) (p : Nat) (v : Word) (d : RegDef),
    let b : Blk := .core p
    let o := Off.PRED_FLUSH
    let x := asked d (s.rd b o) v 4
    let w := mergeReg true d (s.rd b o) x
    OpenWrite s who b o 4 d →
    exec (.predFlush who p v) s = .next (settle s (ackWrite who (regOff b o) (if bitOf x 0 then predFlush p s else s)))) ∧
  (∀ (s : State) (who : Agent) (p : Nat) (v : Word) (d : RegDef),
    let b : Blk := .core p
    let o := Off.L2_WAYCFG
    let x := asked d (s.rd b o) v 8
    let w := mergeReg true d (s.rd b o) x
    OpenWrite s who b o 8 d →
    exec (.l2WaycfgWrite who p v) s = .next (settle s (ackWrite who (regOff b o) (l2WaycfgPut p w s)))) ∧
  (∀ (s : State) (who : Agent) (p k : Nat) (v : Word) (d : RegDef),
    let b : Blk := .core p
    let o := (Off.PMOVF + 8 * (k % 2))
    let x := asked d (s.rd b o) v 8
    let w := mergeReg true d (s.rd b o) x
    OpenWrite s who b o 8 d →
    exec (.pmovfClear who p k v) s = .next (settle s (ackWrite who (regOff b o) (s.wr b o w)))) ∧
  (∀ (s : State) (who : Agent) (p : Nat) (v : Word) (d : RegDef),
    let b : Blk := .core p
    let o := Off.SPOOR_TAIL
    let x := asked d (s.rd b o) v 4
    let w := mergeReg true d (s.rd b o) x
    OpenWrite s who b o 4 d →
    exec (.spoorTailWrite who p v) s = .next (settle s (ackWrite who (regOff b o) (spoorTailWrite p w s)))) ∧
  (∀ (s : State) (who : Agent) (p k : Nat) (v : Word) (d : RegDef),
    let b : Blk := .mesh p
    let o := (Off.LINK_LANEMAP + 0x40 * (k % 4))
    let x := asked d (s.rd b o) v 8
    let w := mergeReg true d (s.rd b o) x
    OpenWrite s who b o 8 d →
    exec (.lanemapWrite who p k v) s = .next (settle s (ackWrite who (regOff b o) (lanemapPut p (k % 4) w s)))) ∧
  (∀ (s : State) (who : Agent) (p : Nat) (v : Word) (d : RegDef),
    let b : Blk := .isl p
    let o := Off.ISL_FREQ
    let x := asked d (s.rd b o) v 4
    let w := mergeReg true d (s.rd b o) x
    OpenWrite s who b o 4 d →
    exec (.freqWrite who p v) s = .next (settle s (ackWrite who (regOff b o) (freqPut p x s)))) ∧
  (∀ (s : State) (who : Agent) (p : Nat) (v : Word) (d : RegDef),
    let b : Blk := .isl p
    let o := Off.ISL_SSC
    let x := asked d (s.rd b o) v 4
    let w := mergeReg true d (s.rd b o) x
    OpenWrite s who b o 4 d →
    exec (.sscWrite who p v) s = .next (settle s (ackWrite who (regOff b o) (sscWrite p x s)))) ∧
  (∀ (s : State) (who : Agent) (p k : Nat) (v : Word) (d : RegDef),
    let b : Blk := .err p (k % 16)
    let o := Off.ERR_STATUS
    let x := asked d (s.rd b o) 1 8
    let w := mergeReg true d (s.rd b o) x
    OpenWrite s who b o 8 d →
    exec (.errStatusClear who p k) s = .next (settle s (ackWrite who (regOff b o) (if bitOf x 0 then clearCapture (p + 256 * (k % 16)) s else s)))) ∧
  (∀ (s : State) (who : Agent) (p k : Nat) (v : Word) (d : RegDef),
    let b : Blk := .err p (k % 16)
    let o := Off.INJECT
    let x := asked d (s.rd b o) v 4
    let w := mergeReg true d (s.rd b o) x
    OpenWrite s who b o 4 d →
    exec (.injectWrite who p k v) s = .next (settle s (ackWrite who (regOff b o) (s.wr b o (injectMerge s (p + 256 * (k % 16)) x (s.rd b o)))))) ∧
  (∀ (s : State) (who : Agent) (p k : Nat) (v : Word) (d : RegDef),
    let b : Blk := .llc p
    let o := (Off.FCLASS + 8 * (k % 32))
    let x := asked d (s.rd b o) v 8
    let w := mergeReg true d (s.rd b o) x
    OpenWrite s who b o 8 d →
    exec (.fclassWrite who p k v) s = .next (settle s (ackWrite who (regOff b o) (if fclassOk s p (k % 32) w then s.wr b o w else s)))) ∧
  (∀ (s : State) (who : Agent) (p : Nat) (v : Word) (d : RegDef),
    let b : Blk := .llc p
    let o := Off.LLC_WAYCFG
    let x := asked d (s.rd b o) v 8
    let w := mergeReg true d (s.rd b o) x
    OpenWrite s who b o 8 d →
    exec (.llcWaycfgWrite who p v) s = .next (settle s (ackWrite who (regOff b o) (llcWaycfgWrite p w s)))) ∧
  (∀ (s : State) (who : Agent) (p : Nat) (v : Word) (d : RegDef),
    let b : Blk := .warren p
    let o := Off.WARREN_WAYCFG
    let x := asked d (s.rd b o) v 8
    let w := mergeReg true d (s.rd b o) x
    OpenWrite s who b o 8 d →
    exec (.warrenWaycfgWrite who p v) s = .next (settle s (ackWrite who (regOff b o) (warWaycfgWrite p w s))))

/-- O24. Writes of memory controller, IDIST, VF, twin, Hoard and Owl registers. A whole write that reaches one of these
registers acknowledges the store and acts: RETUNE and TRAIN_CTL begin a sequence, MC_IRQ_STATUS clears bits and
drives the line, SCRUB_CTL starts a scrub, ERASE arms an erasure, IPI_SEND sends, SRC and VSLOT_CFG write a source
and a slot (recall and replay), WIN_COMMIT and WIN.LIVE change windows, RING.TAIL of ring 0 publishes, VF.CTL may
start an FLR, TP.LINK clears CHANGED, MARCH_CTL starts a march, OWNER changes a bank owner, OWL_STATUS clears
classes. Here exec answers a next state, on conditions on the state and the operands alone, for: retuneGo, trainGo,
irqStatusClear, scrubGo, mcEraseWrite, ipiSend, srcWrite, vslotRecall, vslotReplay, winCommit, winLiveWrite,
ringTailWrite, vfFlr, linkChangedClear, marchGo, ownerWrite, owlStatusClear. Rules: R3, R33, R320, R322, R334, R338,
R352, R388, R395, R399, R453, R457. -/
def Obligations.EdgeRegisterWrites : Prop :=
  (∀ (s : State) (who : Agent) (p : Nat) (v : Word) (d : RegDef),
    let b : Blk := .mc p
    let o := Off.RETUNE
    let x := asked d (s.rd b o) v 4
    let w := mergeReg true d (s.rd b o) x
    OpenWrite s who b o 4 d →
    exec (.retuneGo who p v) s = .next (settle s (ackWrite who (regOff b o) (retuneWrite p x s)))) ∧
  (∀ (s : State) (who : Agent) (p : Nat) (v : Word) (d : RegDef),
    let b : Blk := .mc p
    let o := Off.TRAIN_CTL
    let x := asked d (s.rd b o) v 8
    let w := mergeReg true d (s.rd b o) x
    OpenWrite s who b o 8 d →
    exec (.trainGo who p v) s = .next (settle s (ackWrite who (regOff b o) (trainWrite p x s)))) ∧
  (∀ (s : State) (who : Agent) (p : Nat) (v : Word) (d : RegDef),
    let b : Blk := .mc p
    let o := Off.MC_IRQ_STATUS
    let x := asked d (s.rd b o) v 4
    let w := mergeReg true d (s.rd b o) x
    OpenWrite s who b o 4 d →
    exec (.irqStatusClear who p v) s = .next (settle s (ackWrite who (regOff b o) (mcIrqs p (s.wr b o w))))) ∧
  (∀ (s : State) (who : Agent) (p : Nat) (v : Word) (d : RegDef),
    let b : Blk := .mc p
    let o := Off.SCRUB_CTL
    let x := asked d (s.rd b o) v 4
    let w := mergeReg true d (s.rd b o) x
    OpenWrite s who b o 4 d →
    exec (.scrubGo who p v) s = .next (settle s (ackWrite who (regOff b o) (scrubWrite p x s)))) ∧
  (∀ (s : State) (who : Agent) (p k : Nat) (v : Word) (d : RegDef),
    let b : Blk := .mc p
    let o := (Off.ERASE + 8 * (k % 4))
    let x := asked d (s.rd b o) v 4
    let w := mergeReg true d (s.rd b o) x
    OpenWrite s who b o 4 d →
    exec (.mcEraseWrite who p k v) s = .next (settle s (ackWrite who (regOff b o) (s.wr b o w)))) ∧
  (∀ (s : State) (who : Agent) (v : Word) (d : RegDef),
    let b : Blk := .idist
    let o := Off.IPI_SEND
    let x := asked d (s.rd b o) v 4
    let w := mergeReg true d (s.rd b o) x
    OpenWrite s who b o 4 d →
    exec (.ipiSend who v) s = .next (settle s (ackWrite who (regOff b o) (ipiSend x s)))) ∧
  (∀ (s : State) (who : Agent) (k : Nat) (v : Word) (d : RegDef),
    let b : Blk := .idist
    let o := (Off.SRC + 8 * (k % 8192))
    let x := asked d (s.rd b o) v 8
    let w := mergeReg true d (s.rd b o) x
    OpenWrite s who b o 8 d →
    exec (.srcWrite who k v) s = .next (settle s (ackWrite who (regOff b o) (srcWrite (k % 8192) x s)))) ∧
  (∀ (s : State) (who : Agent) (k : Nat) (v : Word) (d : RegDef),
    let b : Blk := .idist
    let o := (Off.VSLOT_CFG + 16 * (k % 4096))
    let x := asked d (s.rd b o) (setFld v 0 0 0) 8
    let w := mergeReg true d (s.rd b o) x
    OpenWrite s who b o 8 d →
    exec (.vslotRecall who k v) s = .next (settle s (ackWrite who (regOff b o) (vslotCfgWrite (k % 4096) x s)))) ∧
  (∀ (s : State) (who : Agent) (k : Nat) (v : Word) (d : RegDef),
    let b : Blk := .idist
    let o := (Off.VSLOT_CFG + 16 * (k % 4096))
    let x := asked d (s.rd b o) (setFld (setFld v 0 0 1) 17 17 1) 8
    let w := mergeReg true d (s.rd b o) x
    OpenWrite s who b o 8 d →
    exec (.vslotReplay who k v) s = .next (settle s (ackWrite who (regOff b o) (vslotCfgWrite (k % 4096) x s)))) ∧
  (∀ (s : State) (who : Agent) (p : Nat) (v : Word) (d : RegDef),
    let b : Blk := .vf p
    let o := Off.WIN_COMMIT
    let x := asked d (s.rd b o) v 4
    let w := mergeReg true d (s.rd b o) x
    OpenWrite s who b o 4 d →
    exec (.winCommit who p v) s = .next (settle s (ackWrite who (regOff b o) (winCommit p (fld x 3 0) s)))) ∧
  (∀ (s : State) (who : Agent) (p k : Nat) (v : Word) (d : RegDef),
    let b : Blk := .vf p
    let o := (Off.WIN_LIVE + 0x20 * (k % 4))
    let x := asked d (s.rd b o) v 8
    let w := mergeReg true d (s.rd b o) x
    OpenWrite s who b o 8 d →
    exec (.winLiveWrite who p k v) s = .next (settle s (ackWrite who (regOff b o) (winLiveWrite p (k % 4) x s)))) ∧
  (∀ (s : State) (who : Agent) (p : Nat) (v : Word) (d : RegDef),
    let b : Blk := .vf p
    let o := Off.RING_TAIL
    let x := asked d (s.rd b o) v 4
    let w := mergeReg true d (s.rd b o) x
    OpenWrite s who b o 4 d →
    exec (.ringTailWrite who p 0 v) s = .next (settle s (ackWrite who (regOff b o) (ringTailWrite p 0 (fld x 12 0) s)))) ∧
  (∀ (s : State) (who : Agent) (p : Nat) (v : Word) (d : RegDef),
    let b : Blk := .vf p
    let o := Off.VF_CTL
    let x := asked d (s.rd b o) v 4
    let w := mergeReg true d (s.rd b o) x
    OpenWrite s who b o 4 d →
    exec (.vfFlr who p v) s = .next (settle s (ackWrite who (regOff b o) (vfCtlPut p x s)))) ∧
  (∀ (s : State) (who : Agent) (v : Word) (d : RegDef),
    let b : Blk := .tp
    let o := Off.TP_LINK
    let x := asked d (s.rd b o) v 4
    let w := mergeReg true d (s.rd b o) x
    OpenWrite s who b o 4 d →
    exec (.linkChangedClear who v) s = .next (settle s (ackWrite who (regOff b o) (portIrqs 8 (s.wr b o w))))) ∧
  (∀ (s : State) (who : Agent) (p : Nat) (v : Word) (d : RegDef),
    let b : Blk := .hoard (p % 4)
    let o := Off.MARCH_CTL
    let x := asked d (s.rd b o) v 4
    let w := mergeReg true d (s.rd b o) x
    OpenWrite s who b o 4 d →
    exec (.marchGo who p v) s = .next (settle s (ackWrite who (regOff b o) (marchWrite (p % 4) w s)))) ∧
  (∀ (s : State) (who : Agent) (k : Nat) (v : Word) (d : RegDef),
    let b : Blk := .hoard (k / 16 % 4)
    let o := (Off.OWNER + 8 * (k % 16))
    let x := asked d (s.rd b o) v 4
    let w := mergeReg true d (s.rd b o) x
    OpenWrite s who b o 4 d →
    exec (.ownerWrite who k v) s = .next (settle s (ackWrite who (regOff b o) (ownerWrite (who == .sett) (16 * (k / 16 % 4) + k % 16) w s)))) ∧
  (∀ (s : State) (who : Agent) (v : Word) (d : RegDef),
    let b : Blk := .owl
    let o := Off.OWL_STATUS
    let x := asked d (s.rd b o) v 8
    let w := mergeReg true d (s.rd b o) x
    OpenWrite s who b o 8 d →
    exec (.owlStatusClear who v) s = .next (settle s (ackWrite who (regOff b o) (clearClasses (fld x 22 0) s))))

/-- O25. RC.CFG, ring 1, general register writes and system registers. A whole write of RC.CFG that reaches it
configures its root complex and its ports; the partner publishes descriptors of ring 1 of a VF that is up, enabled
and awake; a general register write that reaches a register does what a write of that register does and is
acknowledged; a system register write permitted at the level, as the oldest instruction with older stores committed,
has its effect, refetches what is younger and returns the old value, and a permitted read returns it; one that is
not permitted takes ILLEGAL. Here exec answers a next state, on conditions on the state and the operands alone, for:
rcCfgWrite, ringTailWrite, regWrite. Rules: R3, R33, R109, R117, R404, R429. -/
def Obligations.RegisterWriteForms : Prop :=
  (∀ (s : State) (who : Agent) (p n : Nat) (v : Word) (d : RegDef), portWin s p = .rc n → OpenWrite s who (.rc n) Off.RC_CFG 4 d →
      exec (.rcCfgWrite who p v) s = .next (settle s (ackWrite who (regOff (.rc n) Off.RC_CFG)
        (rcCfgWrite n (asked d (s.rd (.rc n) Off.RC_CFG) v 4) s)))) ∧
    (∀ (s : State) (n : Nat) (v : Word), isVf n = true → twinUp s = true → vfEnabled s n = true → (s.vf n).d3 = false →
      exec (.ringTailWrite (.partner n) n 1 v) s = .next (settle s (ringTailWrite n 1 (fld v 12 0) s))) ∧
    (∀ (s : State) (who : Agent) (b : Blk) (o size : Nat) (v : Word) (d : RegDef), OpenWrite s who b o size d →
      exec (.regWrite who (.ocr (regOff b o) size) v) s = .next (settle s (ackWrite who (regOff b o)
        (regPut who b d o (asked d (s.rd b o) v size) s)))) ∧
    (∀ (s : State) (i : Ins) (n rd : Nat) (l : Lvl) (v : Word), Oldest s i → csrPermitted (s.core i.pcn) n true = true →
      exec (.regWrite (.core i.pcn l) (.csr i n rd .write) v) s = .next (settle s
        (completeX i rd (csrRead s i.pcn n) 0 (flushFrom i.pcn (i.seq + 1) (csrEffect i.pcn n v
          (bump i.pcn 19 1 (pNow (issue i.pcn 0 s) i.pcn) (issue i.pcn 0 s))))))) ∧
    (∀ (s : State) (i : Ins) (n rd : Nat) (l : Lvl) (v : Word), atHead s i = true → csrPermitted (s.core i.pcn) n false = true →
      exec (.regWrite (.core i.pcn l) (.csr i n rd .read) v) s = .next (settle s
        (completeX i rd (csrRead s i.pcn n) 0 (issue i.pcn 0 s)))) ∧
    (∀ (s : State) (i : Ins) (n rd : Nat) (l : Lvl) (v : Word) (op : CsrOp), Oldest s i → csrPermitted (s.core i.pcn) n (op != .read) = false →
      exec (.regWrite (.core i.pcn l) (.csr i n rd op) v) s = .next (settle s (takeTrap i.pcn 0x02 i.bits none i.pc s)))

/-- O26. Reads of counters, logs and read-to-clear registers. A whole read that reaches one of these registers returns
its value (all 64 bits of a wide register read with 8 bytes, else its low 32) and does what reading it does: a
read-to-clear field goes to 0, OCR_ERR and CLOSED_ACC drop the lines they drive, and a fault log gives up its oldest
entry. Here exec answers a next state, on conditions on the state and the operands alone, for: ocrErrRead,
spoorLostRead, errCntRead, warrenRqMaxwaitRead, deadDiscardRead, idistCounterRead, faultLogRead, portCounterRead,
vfCounterRead, closedAccRead, violCountRead. Rules: R3, R33, R41, R243, R269, R296, R399, R418, R444, R462, R485,
R563. -/
def Obligations.RegisterReads : Prop :=
  (∀ (s : State) (who : Agent) (p : Nat) (d : RegDef), OpenRead s who (.mesh p) Off.OCR_ERR 8 d →
    exec (.ocrErrRead who p) s = .next (settle s { readEffect (.mesh p) d Off.OCR_ERR s with readData := seen s (.mesh p) d Off.OCR_ERR 8 })) ∧
  (∀ (s : State) (who : Agent) (p : Nat) (d : RegDef), OpenRead s who (.core p) Off.SPOOR_LOST 4 d →
    exec (.spoorLostRead who p) s = .next (settle s { readEffect (.core p) d Off.SPOOR_LOST s with readData := seen s (.core p) d Off.SPOOR_LOST 4 })) ∧
  (∀ (s : State) (who : Agent) (p k : Nat) (d : RegDef), OpenRead s who (.err p (k % 16)) Off.ERR_CNT 8 d →
    exec (.errCntRead who p k) s = .next (settle s { readEffect (.err p (k % 16)) d Off.ERR_CNT s with readData := seen s (.err p (k % 16)) d Off.ERR_CNT 8 })) ∧
  (∀ (s : State) (who : Agent) (p : Nat) (d : RegDef), OpenRead s who (.warren p) Off.RQ_MAXWAIT 4 d →
    exec (.warrenRqMaxwaitRead who p) s = .next (settle s { readEffect (.warren p) d Off.RQ_MAXWAIT s with readData := seen s (.warren p) d Off.RQ_MAXWAIT 4 })) ∧
  (∀ (s : State) (who : Agent) (p : Nat) (d : RegDef), OpenRead s who (.warren p) Off.DEAD_DISCARD 4 d →
    exec (.deadDiscardRead who p) s = .next (settle s { readEffect (.warren p) d Off.DEAD_DISCARD s with readData := seen s (.warren p) d Off.DEAD_DISCARD 4 })) ∧
  (∀ (s : State) (who : Agent) (k : Nat) (d : RegDef), OpenRead s who (.idist) (0x10 + k % 8 * 8) 4 d →
    exec (.idistCounterRead who k) s = .next (settle s { readEffect (.idist) d (0x10 + k % 8 * 8) s with readData := seen s (.idist) d (0x10 + k % 8 * 8) 4 })) ∧
  (∀ (s : State) (who : Agent) (p : Nat) (d : RegDef), OpenRead s who (portWin s p) Off.RC_FAULT_LOG 8 d →
    exec (.faultLogRead who p) s = .next (settle s { readEffect (portWin s p) d Off.RC_FAULT_LOG s with readData := seen s (portWin s p) d Off.RC_FAULT_LOG 8 })) ∧
  (∀ (s : State) (who : Agent) (p k : Nat) (d : RegDef), OpenRead s who (portWin s p) k 4 d →
    exec (.portCounterRead who p k) s = .next (settle s { readEffect (portWin s p) d k s with readData := seen s (portWin s p) d k 4 })) ∧
  (∀ (s : State) (who : Agent) (p k : Nat) (d : RegDef), OpenRead s who (.vf p) k 4 d →
    exec (.vfCounterRead who p k) s = .next (settle s { readEffect (.vf p) d k s with readData := seen s (.vf p) d k 4 })) ∧
  (∀ (s : State) (who : Agent) (p : Nat) (d : RegDef), OpenRead s who (.hoard (p % 4)) Off.CLOSED_ACC 4 d →
    exec (.closedAccRead who p) s = .next (settle s { readEffect (.hoard (p % 4)) d Off.CLOSED_ACC s with readData := seen s (.hoard (p % 4)) d Off.CLOSED_ACC 4 })) ∧
  (∀ (s : State) (who : Agent) (d : RegDef), OpenRead s who (.sett) Off.VIOL_COUNT 4 d →
    exec (.violCountRead who) s = .next (settle s { readEffect (.sett) d Off.VIOL_COUNT s with readData := seen s (.sett) d Off.VIOL_COUNT 4 }))

/-- O27. A home admits a request, queues it, discards it, or leaves it at its port. RDS, RDX, UPG, OWN_ND, EV_C, EV_D,
CB_CLEAN, CB_FLUSH, CB_INVAL, F_AMO, UC_RD, UC_WR, UC_WR_M, IO_RD, IO_WR, IO_OWN, IO_OWN_D and IO_WB at the ejection
port of their home. One still under way in the routers, behind an older request of its agent to the same home, with
something before it at its slice (R263), or at a full retry queue, changes nothing; one with a reserved OP or a size
that crosses its line takes the coherent domain down; one of an agent the slice has recorded as dead is discarded
and counted; one that R260 blocks leaves the mesh and joins the end of the retry queue; any other is admitted.
HOME_RETRY_ADMIT admits the oldest queued request of its slice whose blocking conditions have cleared, takes it off
the queue and keeps the longest wait in RQ_MAXWAIT; with none, or with something before it at its slice, it changes
nothing. Here exec answers a next state, on conditions on the state and the operands alone, for: homeRetryAdmit,
rds, rdx, upg, ownNd, evc, evd, cbClean, cbFlush, cbInval, famo, ucRd, ucWr, ucWrM, ioRd, ioWr, ioOwn, ioOwnD, ioWb.
Rules: R257, R260, R261, R274, R279, R290. -/
def Obligations.HomeRequestsAreAdmittedOrQueued : Prop :=
  (∀ (s : State) (m : Msg), ∀ e ∈ homeRows, inTransit s e.1 m = true ∨ overtakes s e.1 m = true → exec (e.2 m) s = .next (settle s s)) ∧
  (∀ (s : State) (m : Msg), ∀ e ∈ homeRows, inTransit s e.1 m = false → overtakes s e.1 m = false →
    (e.1 = 0x15 ∧ 64 < m.arg % 64 + 2 ^ (m.arg / 64 % 4)) ∨ (e.1 = 0x10 ∧ 9 < m.arg % 16) →
    exec (e.2 m) s = .next (settle s (driveDown (takeNet e.1 m s)))) ∧
  (∀ (s : State) (m : Msg), ∀ e ∈ homeRows, inTransit s e.1 m = false → overtakes s e.1 m = false →
    ¬((e.1 = 0x15 ∧ 64 < m.arg % 64 + 2 ^ (m.arg / 64 % 4)) ∨ (e.1 = 0x10 ∧ 9 < m.arg % 16)) →
    (s.deadAtSlice (homeOf m.line) m.agent = true →
      exec (e.2 m) s = .next (settle s (discardDead (homeOf m.line) (takeNet e.1 m s)))) ∧
    (s.deadAtSlice (homeOf m.line) m.agent = false →
      aheadOf s (homeOf m.line) 4 = true ∨ 64 ≤ (s.fab.queue.filter (fun q => q.slice == homeOf m.line)).length → exec (e.2 m) s = .next (settle s s))) ∧
  (∀ (s : State) (m : Msg), ∀ e ∈ homeRows, Arrives s e.1 m →
    (blocked (takeNet e.1 m s) e.1 m.line (setAhead s m) = true →
      exec (e.2 m) s = .next (settle s (let u := unc (.llc (homeOf m.line)) 9 1 (takeNet e.1 m s)
        occ (homeOf m.line) { u with fab := { u.fab with queue := u.fab.queue ++ [⟨e.1, m, homeOf m.line, u.tick⟩] } }))) ∧
    (blocked (takeNet e.1 m s) e.1 m.line (setAhead s m) = false →
      exec (e.2 m) s = .next (settle s (takeReq e.1 m (takeNet e.1 m s))))) ∧
  (∀ (s : State) (h : Nat) (q : Queued), aheadOf s h 3 = false → readyQueued s h s.fab.queue [] = some q →
    exec (.homeRetryAdmit h) s = .next (settle s
      (let u : State := { s with fab := { s.fab with queue := s.fab.queue.erase q } }
       let wait := (s.tick - q.tick) * meshPerTick s
       takeReq q.op q.msg (occ h (if u.rf (.warren h) Off.RQ_MAXWAIT 31 0 < wait then
         u.wf (.warren h) Off.RQ_MAXWAIT 31 0 (min 0xFFFFFFFF wait) else u))))) ∧
  (∀ (s : State) (h : Nat), aheadOf s h 3 = true ∨ readyQueued s h s.fab.queue [] = none → exec (.homeRetryAdmit h) s = .next (settle s s))

/-- O28. Admission resolves an eviction at once and opens a transaction for any other request. A home that admits an
EV_D or IO_WB finding the agent as the EX holder writes its data (into the LLC copy, or allocated for EV_D under
FILL_VICTIM, or to memory) and frees the entry; an EV_C from the EX holder frees it, and one from a recorded pointer
removes the pointer, freeing the entry with the last; where the agent is not recorded nothing else changes; each
renews the entry's age and is answered, EV_ACK for evictions and CMP for IO_WB. Any other request takes its Warren
entry, opens its transaction with the snoops of R280 and R283 for the entry as it stood, sends them, tells a UC_WR_M
to send its data, and seeks the data at once when no EX holder is asked; the transaction then goes on as far as it
can. Rules: R256, R257, R280, R281, R282, R283, R285. -/
def Obligations.AdmissionResolvesOrOpens : Prop :=
  (∀ (s : State) (m : Msg) (op : Nat) (e : WEnt),
    let u := renewed m.line (counted op m s)
    let t := newTxn (counted op m s) op m
    u.warAt m.line = some e →
    (op = 0x09 → e.ex = true → e.who = [m.agent] →
      takeReq op m s = reply 0x85 t id (delWar m.line
        (putDirty m.line m.fclass m.qport m.data m.poison (fillVictim u (homeOf m.line) m.fclass) u))) ∧
    (op = 0x1C → e.ex = true → e.who = [m.agent] →
      takeReq op m s = reply 0x84 t id (delWar m.line (putDirty m.line m.fclass m.qport m.data m.poison false u))) ∧
    (op = 0x08 → e.ex = true → e.who = [m.agent] → takeReq op m s = reply 0x85 t id (delWar m.line u)) ∧
    (op = 0x08 → e.ex = false → e.coarse = false → m.agent ∈ e.who →
      takeReq op m s = reply 0x85 t id
        (if e.who.length ≤ 1 then delWar m.line u else setWar m.line { e with who := e.who.filter (· != m.agent) } u))) ∧
  (∀ (s : State) (m : Msg), ∀ op ∈ [0x08, 0x09, 0x1C],
    let u := renewed m.line (counted op m s)
    (∀ e, u.warAt m.line = some e → m.agent ∉ e.who ∨ (e.ex = false ∧ (op ≠ 0x08 ∨ e.coarse = true))) →
    takeReq op m s = reply (if op = 0x1C then 0x84 else 0x85) (newTxn (counted op m s) op m) id u) ∧
  (∀ (s : State) (m : Msg) (op : Nat), op ≠ 0x08 → op ≠ 0x09 → op ≠ 0x1C →
    takeReq op m s =
      (let u := counted op m s
       let e := u.warAt m.line
       let v := entryFor op m.line u
       let t := opened op m e v
       let w := setTxn m.line t (sendSnoops (snoopPlan op m.agent e).1 m.line (snoopPlan op m.agent e).2 v)
       let x := if op = 0x16 then reply 0x83 t id w else w
       proceed m.line (if t.owner = none ∧ needsData x t = true ∧ op ≠ 0x16 then seekData m.line t x else x)))

/-- O29. Answers reach the line's open transaction at its home. SNP_RSP from an agent the transaction or tracker of its
line waits for ends that wait and notes a WB_DATA still to come; WB_DATA gives its data, dirty if it says so; then
the transaction goes on. CMP_ACK of the requester closes the transaction. WR_DATA gives a UC_WR_M its bytes. MDATA
gives a waited-for read its data, filling the LLC where R249 fills it. MCMP counts one accepted write off.
TRACKER_COMPLETE with every response in writes dirty data and frees the tracker; before that it changes nothing. A
message still under way in the routers changes nothing. A SNP_RSP, WB_DATA, CMP_ACK or WR_DATA that nothing awaits
is dropped, and counted if its agent is dead at the slice. Here exec answers a next state, on conditions on the
state and the operands alone, for: snpRsp, wbData, cmpAck, wrData, mdata, mcmp, trackerComplete. Rules: R259, R275,
R280, R281, R284, R290, R304, R305. -/
def Obligations.AnswersReachTheHome : Prop :=
  (∀ (s : State) (m : Msg) (t : Txn), openAt s m.line = some t → m.agent ∈ t.snoops → s.deadAtSlice (homeOf m.line) m.agent = false →
    inTransit s 0x80 m = false →
    exec (.snpRsp m) s = .next (settle s (proceed m.line
      (let u := takeNet 0x80 m s
       let lost := m.arg / 16 % 2 = 1 ∧ t.owner = some m.agent
       let v := if lost then poisonLine m.line u else u
       modOpen m.line (fun x => { x with
         snoops := x.snoops.erase m.agent
         wbs := if m.arg / 2 % 2 = 1 ∧ m.agent ∉ x.early then x.wbs ++ [m.agent] else x.wbs
         early := x.early.erase m.agent
         keep := x.keep && !decide (t.owner = some m.agent ∧ (m.arg % 2 = 0 ∨ m.arg / 8 % 2 = 1 ∨ 272 ≤ m.agent))
         data := if lost then some (homeLine v m.line, true) else x.data }) v)))) ∧
  (∀ (s : State) (m : Msg) (t : Txn), openAt s m.line = some t → m.agent ∈ t.snoops ∨ m.agent ∈ t.wbs →
    s.deadAtSlice (homeOf m.line) m.agent = false →
    inTransit s 0xC2 m = false →
    exec (.wbData m) s = .next (settle s (proceed m.line (modOpen m.line (fun t => { t with
      wbs := t.wbs.erase m.agent
      early := if m.agent ∈ t.wbs then t.early else t.early ++ [m.agent]
      data := some (m.data, m.poison)
      peer := true
      dirty := t.dirty || (m.arg % 2 == 1) }) (takeNet 0xC2 m s))))) ∧
  (∀ (s : State) (m : Msg) (t : Txn), s.txnAt m.line = some t → t.ack.isSome = true → t.req.agent = m.agent →
    s.deadAtSlice (homeOf m.line) m.agent = false →
    inTransit s 0x81 m = false →
    exec (.cmpAck m) s = .next (settle s (closeTxn m.line (takeNet 0x81 m s)))) ∧
  (∀ (s : State) (m : Msg) (t : Txn), s.txnAt m.line = some t → t.wrData = true → t.req.agent = m.agent →
    s.deadAtSlice (homeOf m.line) m.agent = false →
    inTransit s 0xC3 m = false →
    exec (.wrData m) s = .next (settle s (proceed m.line
      (setTxn m.line { t with wrData := false, req := { t.req with data := m.data, poison := m.poison } } (takeNet 0xC3 m s))))) ∧
  (∀ (s : State) (m : Msg) (t : Txn), s.txnAt m.line = some t → t.reading = true →
    inTransit s 0xC8 m = false →
    exec (.mdata m) s = .next (settle s (proceed m.line
      (let u := setTxn m.line { t with reading := false, data := some (m.data, m.poison) } (takeNet 0xC8 m s)
       if t.op = 0x10 ∨ ((t.op = 1 ∨ t.op = 2 ∨ t.op = 3 ∨ t.op = 0x1B) ∧ fillDram s (homeOf m.line) t.req.fclass = true) then
         unc (.llc (homeOf m.line)) 4 1 (llcFill m.line t.req.fclass t.req.qport m.data false m.poison u)
       else u)))) ∧
  (∀ (s : State) (m : Msg) (t : Txn), s.txnAt m.line = some t →
    inTransit s 0x88 m = false →
    exec (.mcmp m) s = .next (settle s (proceed m.line (setTxn m.line { t with writes := t.writes - 1 } (takeNet 0x88 m s))))) ∧
  (∀ (s : State) (ln : Nat) (t : Txn), s.trkAt ln = some t →
    (t.snoops = [] → t.wbs = [] → aheadOf s (homeOf ln) 2 = false → ∀ d po, t.data = some (d, po) →
      exec (.trackerComplete ln) s = .next (settle s (occ (homeOf ln) (delTrk ln (if t.dirty then putDirty ln 0 0 d po false s else s))))) ∧
    (t.snoops ≠ [] ∨ t.wbs ≠ [] ∨ aheadOf s (homeOf ln) 2 = true → exec (.trackerComplete ln) s = .next (settle s s))) ∧
  (∀ (s : State) (m : Msg), openAt s m.line = none →
    let drop := fun (op : Nat) =>
      if s.deadAtSlice (homeOf m.line) m.agent then discardDead (homeOf m.line) (takeNet op m s) else takeNet op m s
    (inTransit s 0x80 m = false → exec (.snpRsp m) s = .next (settle s (drop 0x80))) ∧
    (inTransit s 0xC2 m = false → exec (.wbData m) s = .next (settle s (drop 0xC2))) ∧
    (inTransit s 0x81 m = false → exec (.cmpAck m) s = .next (settle s (drop 0x81))) ∧
    (inTransit s 0xC3 m = false → exec (.wrData m) s = .next (settle s (drop 0xC3)))) ∧
  (∀ (s : State) (m : Msg),
    (inTransit s 0x80 m = true → exec (.snpRsp m) s = .next (settle s s)) ∧
    (inTransit s 0xC2 m = true → exec (.wbData m) s = .next (settle s s)) ∧
    (inTransit s 0x81 m = true → exec (.cmpAck m) s = .next (settle s s)) ∧
    (inTransit s 0xC3 m = true → exec (.wrData m) s = .next (settle s s)) ∧
    (inTransit s 0xC8 m = true → exec (.mdata m) s = .next (settle s s)) ∧
    (inTransit s 0x88 m = true → exec (.mcmp m) s = .next (settle s s)))

/-- O30. A snoop is answered from where the core or the port holds the line. SNP_S, SNP_X, SNP_INV, SNP_INV_ND,
SNP_CLEAN and SNP_CUR at a core. One still under way in the routers changes nothing. A dead core's stop answers
LOST; a snoop of the reserved line waits while the LR window is open; a line of the L2 is answered HELD with the
data its state and the snoop ask for, and is left as the snoop leaves it; a side-buffer line is answered HELD
without data, dropped by an invalidating snoop and made shared by SNP_S; a line of the writeback buffer is answered
HELD with WBB and with its dirty data (but to SNP_INV_ND), after which the buffered copy is clean unless the snoop
is SNP_CLEAN or SNP_CUR; a line held nowhere is answered not held. At a port, an owned line not committed is
answered HELD without data and given up; a line it does not own is not held; a dead port's stop answers LOST. Here
exec answers a next state, on conditions on the state and the operands alone, for: snpS, snpX, snpInv, snpInvNd,
snpClean, snpCur. Rules: R160, R212, R276, R281, R285, R287, R291. -/
def Obligations.SnoopsAreAnswered : Prop :=
  (∀ (s : State) (m : Msg), ∀ e ∈ snoopRows, inTransit s e.1 m = true → exec (e.2 m) s = .next (settle s s)) ∧
  (∀ (s : State) (m : Msg), ∀ e ∈ snoopRows, inTransit s e.1 m = false → m.agent < 272 → (s.core m.agent).dead = true →
    exec (e.2 m) s = .next (settle s (snpReply m false false false false true 0 false (takeNet e.1 m s)))) ∧
  (∀ (s : State) (m : Msg) (c : Core), ∀ e ∈ snoopRows, inTransit s e.1 m = false → m.agent < 272 → (s.core m.agent).dead = false →
    let u := snoopAt m.agent m.line (takeNet e.1 m s)
    u.core m.agent = c →
    (c.lrOpen = true → c.resv = some m.line →
      exec (e.2 m) s = .next (settle s (u.setCore m.agent { c with deferred := c.deferred ++ [(e.1, m)] }))) ∧
    (¬(c.lrOpen = true ∧ c.resv = some m.line) →
      (∀ x y, smFind c.l2 m.line = some x →
        let v := l2Check m.agent m.line (l1dCheck m.agent m.line u)
        smFind (v.core m.agent).l2 m.line = some y →
        exec (e.2 m) s = .next (settle s (snpReply m true (snoopSends e.1 y) (snoopSends e.1 y && decide (y.st = .m)) false false
          y.cur y.poison (afterSnoop e.1 m.agent m.line y (sentSnoop m.agent (snoopSends e.1 y) v))))) ∧
      (∀ x, smFind c.l2 m.line = none → c.sideAt m.line = some x →
        exec (e.2 m) s = .next (settle s (snpReply m true false false false false 0 false
          (if snoopTakes e.1 then dropSide m.agent m.line u
           else if e.1 = 0x40 then
             u.setCore m.agent { c with side := c.side.map (fun z => if z.line = m.line then { z with ex := false } else z) }
           else u)))) ∧
      (∀ w, smFind c.l2 m.line = none → c.sideAt m.line = none →
        c.wbb.find? (fun z => z.line == m.line) = some w →
        exec (e.2 m) s = .next (settle s
          (let data := w.dirty && decide (e.1 ≠ 0x43)
           let v := sentSnoop m.agent data u
           snpReply m true data data true false w.data w.poison
             (if e.1 = 0x44 ∨ e.1 = 0x45 then v else cleanWbb m.agent m.line v)))) ∧
      (smFind c.l2 m.line = none → c.sideAt m.line = none →
        c.wbb.find? (fun z => z.line == m.line) = none →
        exec (e.2 m) s = .next (settle s (snpReply m false false false false false 0 false u))))) ∧
  (∀ (s : State) (m : Msg) (n : Nat), ∀ e ∈ snoopRows, inTransit s e.1 m = false → n < 9 → m.agent = 480 + n →
    ((s.port n).dead = true → exec (e.2 m) s = .next (settle s (snpReply m false false false false true 0 false (takeNet e.1 m s)))) ∧
    ((s.port n).dead = false →
      (∀ x, (s.port n).pieces.find? (fun x => x.line == m.line && (x.st == .owned || x.st == .committing)) = some x → x.st = .owned →
        exec (e.2 m) s = .next (settle s (portGo n (snpReply m true false false false false 0 false
          (setPiece n x.id (fun y => { y with st := .givenUp }) (takeNet e.1 m s)))))) ∧
      ((s.port n).pieces.find? (fun x => x.line == m.line && (x.st == .owned || x.st == .committing)) = none →
        exec (e.2 m) s = .next (settle s (snpReply m false false false false false 0 false (takeNet e.1 m s))))))

/-- O31. A reply reaches the miss register it matches by TXN and address. At a live core whose miss registers hold one
that matches the reply's TXN and line and awaits this kind: DATA with a legal STATE installs the line as granted and
sends CMP_ACK; GNT_X gives ownership of the data held (zero for OwnNd) and sends CMP_ACK; WR_GO is answered with the
write's data; CMP frees the register and ends what waited for it; AMO_RSP frees it and gives the old value, sign
extended, to the far AMO's instruction, or its outcome to an A/D update; UC_DATA keeps the data and binds the load,
or is dropped with its flushed load. EV_ACK frees the writeback-buffer entry, and what waited for it goes on. A
reply still under way in the routers does not act. A reply that matches nothing takes the coherent domain down. At a
port the reply goes to the entry that awaits it. Here exec answers a next state, on conditions on the state and the
operands alone, for: data, gntX, wrGo, cmp, amoRsp, ucData, evAck. Rules: R150, R153, R213, R214, R240, R275, R280,
R282, R283, R413. -/
def Obligations.RepliesReachTheRequester : Prop :=
  (∀ (s : State) (m : Msg) (r : MReq), m.agent < 272 → (s.core m.agent).dead = false →
    (inTransit s 0xC0 m = false → mrFor s m fillUses = some r → m.arg % 4 ≠ 0 →
      exec (.data m) s = .next (settle s (lodgeGo (takeFill m r (m.arg % 4) m.data m.poison (ackGrant m (takeNet 0xC0 m s)))))) ∧
    (inTransit s 0x82 m = false → mrFor s m fillUses = some r →
      exec (.gntX m) s = .next (settle s (lodgeGo
        (let old : Line × Bool := match smFind (s.core m.agent).l2 m.line with | some e => (e.cur, e.poison) | none => (0, false)
         takeFill m r 2 (if r.op = 4 then 0 else old.1) (if r.op = 4 then false else old.2) (ackGrant m (takeNet 0x82 m s)))))) ∧
    (inTransit s 0x83 m = false → mrFor s m [.wc, .ucWrite, .spoor, .zero] = some r →
      exec (.wrGo m) s = .next (settle s (lodgeGo (post 0xC3
        { agent := m.agent, line := m.line, txn := m.txn, data := r.data, mask := r.mask } (takeNet 0x83 m s))))) ∧
    (inTransit s 0x84 m = false → mrFor s m [.wc, .ucWrite, .cbo, .spoor] = some r →
      let u := dropMr m.agent r.txn (takeNet 0x84 m s)
      (r.use = .wc → exec (.cmp m) s = .next (settle s (lodgeGo u))) ∧
      (r.use = .spoor → exec (.cmp m) s = .next (settle s (lodgeGo (spoorDone m.agent u)))) ∧
      (∀ i, r.use = .cbo → (u.core m.agent).stall = some i → i.seq ∈ r.waits →
        exec (.cmp m) s = .next (settle s (lodgeGo (complete i 0 (u.modCore m.agent (fun c => { c with stall := none })))))) ∧
      (∀ d, r.use = .ucWrite → (u.core m.agent).dev = some d → d.write = true → r.waits = [d.seq] →
        exec (.cmp m) s = .next (settle s (lodgeGo (if moreUc m.agent r u then u else devAck m.agent u))))) ∧
    (∀ i rd n, inTransit s 0xC4 m = false → mrFor s m [.amo, .ad] = some r → r.use = .amo →
      let u := dropMr m.agent r.txn (takeNet 0xC4 m s)
      (u.core m.agent).amoAt = some (i, .x rd, n) →
      let v := u.modCore m.agent (fun c => { c with amoAt := none })
      exec (.amoRsp m) s = .next (settle s (if m.poison then headPoison i (m.line * 64) v
        else completeX i rd (sext n (lineNat m.data 0 n)) 0 (replaySnooped m.agent i.seq v)))) ∧
    (inTransit s 0xC4 m = false → mrFor s m [.amo, .ad] = some r → r.use = .ad →
      exec (.amoRsp m) s = .next (settle s
        (adResult m.agent (m.arg % 2 == 1) m.poison m.line (dropMr m.agent r.txn (takeNet 0xC4 m s))))) ∧
    (inTransit s 0xC5 m = false → mrFor s m [.ucRead] = some r →
      (∀ q l, r.waits = q :: l → exec (.ucData m) s = .next (settle s (lodgeGo (bindUc m.agent q
        (setMr m.agent r.txn (fun r => { r with got := some (2, m.data, m.poison) }) (takeNet 0xC5 m s)))))) ∧
      (r.waits = [] → exec (.ucData m) s = .next (settle s (lodgeGo (dropMr m.agent r.txn (takeNet 0xC5 m s))))))) ∧
  (∀ (s : State) (m : Msg), inTransit s 0x85 m = false → m.agent < 272 → (s.core m.agent).dead = false →
    ((s.core m.agent).wbb.any (fun w => w.line == m.line) = true →
      exec (.evAck m) s = .next (settle s (serveWaiting m.agent (resendMr m.agent m.line ((takeNet 0x85 m s).modCore m.agent
        (fun c => { c with wbb := delFirst (fun w => w.line == m.line) c.wbb })))))) ∧
    ((s.core m.agent).wbb.any (fun w => w.line == m.line) = false →
      exec (.evAck m) s = .next (settle s (driveDown (takeNet 0x85 m s))))) ∧
  (∀ (s : State) (m : Msg), m.agent < 272 → (s.core m.agent).dead = false → (∀ uses, mrFor s m uses = none) →
    (inTransit s 0xC0 m = false → exec (.data m) s = .next (settle s (lodgeGo (driveDown (takeNet 0xC0 m s))))) ∧
    (inTransit s 0x82 m = false → exec (.gntX m) s = .next (settle s (lodgeGo (driveDown (takeNet 0x82 m s))))) ∧
    (inTransit s 0x83 m = false → exec (.wrGo m) s = .next (settle s (lodgeGo (driveDown (takeNet 0x83 m s))))) ∧
    (inTransit s 0x84 m = false → exec (.cmp m) s = .next (settle s (lodgeGo (driveDown (takeNet 0x84 m s))))) ∧
    (inTransit s 0xC4 m = false → exec (.amoRsp m) s = .next (settle s (driveDown (takeNet 0xC4 m s)))) ∧
    (inTransit s 0xC5 m = false → exec (.ucData m) s = .next (settle s (lodgeGo (driveDown (takeNet 0xC5 m s)))))) ∧
  (∀ (s : State) (m : Msg) (n : Nat), n < 9 → m.agent = 480 + n → (s.port n).dead = false → portAwaits s n m = true →
    (inTransit s 0xC0 m = false → m.arg % 4 ≠ 0 → exec (.data m) s = .next (settle s (lodgeGo (portGrant n m true (takeNet 0xC0 m s))))) ∧
    (inTransit s 0x82 m = false → exec (.gntX m) s = .next (settle s (lodgeGo (portGrant n m false (takeNet 0x82 m s))))) ∧
    (inTransit s 0x84 m = false → exec (.cmp m) s = .next (settle s (lodgeGo (portCmp n m (takeNet 0x84 m s))))) ∧
    (inTransit s 0xC5 m = false → exec (.ucData m) s = .next (settle s (lodgeGo (portUcData n m (takeNet 0xC5 m s)))))) ∧
  (∀ (s : State) (m : Msg),
    (inTransit s 0xC0 m = true → exec (.data m) s = .next (settle s (lodgeGo s))) ∧
    (inTransit s 0x82 m = true → exec (.gntX m) s = .next (settle s (lodgeGo s))) ∧
    (inTransit s 0x83 m = true → exec (.wrGo m) s = .next (settle s (lodgeGo s))) ∧
    (inTransit s 0x84 m = true → exec (.cmp m) s = .next (settle s (lodgeGo s))) ∧
    (inTransit s 0xC4 m = true → exec (.amoRsp m) s = .next (settle s s)) ∧
    (inTransit s 0xC5 m = true → exec (.ucData m) s = .next (settle s (lodgeGo s))) ∧
    (inTransit s 0x85 m = true → exec (.evAck m) s = .next (settle s s)))

/-- O32. An agent that stops answering is declared, fenced at every stop, and swept out. SNOOP_TIMEOUT of a wait that
still stands acts at the closing tick: the home records the agent as dead, ends its own waits on it and sends
DEAD_NOTE; if the slice knows the agent is dead only this line's wait ends; a wait that is over changes nothing.
REQUESTER_TIMEOUT of a core's or port's request without reply (by the SNP_TMO_LOG2 its slice held when it was sent),
or of a controller that owes a home, takes the coherent domain down at the closing tick. DEAD_NOTE about an agent of
BCHUB's dead set is ignored; else the agent joins it, RECOVERY starts, the Owl hears of it, DEAD goes to all 170
stops and a sweep of 136 slices is awaited, and acknowledgements owed count as lost. DEAD at a stop fences an agent
that sits there; a slice records it and starts its sweep; the IDIST and the Sett act on a dead core.
RECLAIM_SWEEP_END visits every entry that is not BUSY; with a BUSY one left that names the agent the sweep goes on,
else it ends with SWEEP_DONE and the next one starts. The last SWEEP_DONE clears the RECOVERY flag. Here exec
answers a next state, on conditions on the state and the operands alone, for: snoopTimeout, requesterTimeout,
deadNote, dead, reclaimSweepEnd, sweepDone. Rules: R240, R289, R290, R291, R292, R293, R294, R295, R298, R509. -/
def Obligations.DeadAgentsAreDeclaredAndSwept : Prop :=
  (∀ (s : State) (ln a : Nat) (t : Txn), openAt s ln = some t →
    (a ∈ t.snoops ∨ a ∈ t.wbs ∨ (t.req.agent = a ∧ (t.ack.isSome = true ∨ t.wrData = true)) →
      let u := s.toTick (t.since + meshTicks s (2 ^ t.tmo))
      (s.deadAtSlice (homeOf ln) a = false →
        exec (.snoopTimeout ln a) s = .next (settle s (post 0xE0 { agent := a, line := homeOf ln } (sliceDead (homeOf ln) a u)))) ∧
      (s.deadAtSlice (homeOf ln) a = true → exec (.snoopTimeout ln a) s = .next (settle s (endWait a ln u)))) ∧
    (¬(a ∈ t.snoops ∨ a ∈ t.wbs ∨ (t.req.agent = a ∧ (t.ack.isSome = true ∨ t.wrData = true))) →
      exec (.snoopTimeout ln a) s = .next (settle s s))) ∧
  (∀ (s : State) (a txn : Nat) (r : MReq), a < 272 → (s.core a).mrs.find? (fun r => r.txn == txn && r.op != 0) = some r →
    exec (.requesterTimeout a txn) s =
      .next (settle s (driveDown (s.toTick (r.sent + meshTicks s (2 ^ (r.tmo + 7))))))) ∧
  (∀ (s : State) (n txn t k : Nat), n < 9 → portWait (s.port n) txn = some (t, k) →
    exec (.requesterTimeout (480 + n) txn) s = .next (settle s (driveDown (s.toTick (t + meshTicks s (2 ^ (k + 7))))))) ∧
  (∀ (s : State) (a ln : Nat) (t : Txn), 512 ≤ a → s.txnAt ln = some t → t.reading = true ∨ 0 < t.writes →
    exec (.requesterTimeout a ln) s = .next (settle s (driveDown (s.toTick (t.since + meshTicks s (2 ^ t.tmo)))))) ∧
  (∀ (s : State) (h a : Nat), inTransit s 0xE0 { agent := a, line := h } = false → s.hubDead a = true →
    exec (.deadNote h a) s = .next (settle s (takeNet 0xE0 { agent := a, line := h } s))) ∧
  (∀ (s : State) (h a : Nat), inTransit s 0xE0 { agent := a, line := h } = false → s.hubDead a = false →
    let u := takeNet 0xE0 { agent := a, line := h } s
    let v := u.wf .bchub (Off.DEAD_SET + 8 * (a / 64)) (a % 64) (a % 64) 1
    let w := denUpset (setMode 6 true (((v.wf .bchub Off.RECOVERY 0 0 1).wf .bchub Off.RECOVERY 9 1 a).wf .bchub Off.RECOVERY 17 10
      (min 136 (v.rf .bchub Off.RECOVERY 17 10 + 136))))
    exec (.deadNote h a) s = .next (settle s (loseAcks a (report Blk.bchub.inst 10 1 22 0 0 a 0
      { w with fab := { w.fab with hub := { w.fab.hub with
          deads := w.fab.hub.deads ++ [(a, List.range 170)], sweeps := w.fab.hub.sweeps ++ [(a, List.range 136)] } } })))) ∧
  (∀ (s : State) (st a : Nat), s.fab.hub.deads.any (fun d => d.1 == a && d.2.contains st) = true →
    let u := fenceAt st a (deadTaken st a s)
    (17 ≤ st → st ≤ 152 →
      exec (.dead st a) s = .next (settle s (lodgeGo (startReclaim (st - 17) a (sliceDead (st - 17) a u))))) ∧
    (st = 8 → a < 272 → exec (.dead st a) s = .next (settle s (lodgeGo (idistDead a u)))) ∧
    (st = 160 → a < 272 → exec (.dead st a) s = .next (settle s (lodgeGo (coreLost a 1 u)))) ∧
    (st < 17 ∨ 152 < st → st ≠ 8 → st ≠ 160 → exec (.dead st a) s = .next (settle s (lodgeGo u)))) ∧
  (∀ (s : State) (h : Nat) (r : Reclaim), s.fab.reclaims.find? (fun r => r.slice == h) = some r →
    let u := (reclaimVisit h r.agent s).2
    let n := min 0xFFFF (r.poisoned + (reclaimVisit h r.agent s).1)
    (reclaimLeft h r.agent u = true →
      exec (.reclaimSweepEnd h) s = .next (settle s { u with fab := { u.fab with
        reclaims := u.fab.reclaims.map (fun x => if x.slice = h then { x with poisoned := n } else x) } })) ∧
    (reclaimLeft h r.agent u = false →
      exec (.reclaimSweepEnd h) s = .next (settle s
        (let cyc := min 0xFFFFFFFF ((u.tick - r.start) * meshPerTick u)
         let v := u.wr (.warren h) Off.RECLAIM (BitVec.ofNat 64 (2 * r.agent + n <<< 16 + cyc <<< 32))
         nextReclaim h (post 0xE2 { agent := r.agent, line := h }
           { v with fab := { v.fab with reclaims := v.fab.reclaims.filter (fun x => x.slice != h) } }))))) ∧
  (∀ (s : State) (h a : Nat), inTransit s 0xE2 { agent := a, line := h } = false → s.fab.hub.sweeps = [(a, [h])] →
    let u := takeNet 0xE2 { agent := a, line := h } s
    exec (.sweepDone h a) s = .next (settle s (setMode 6 false
      ((({ u with fab := { u.fab with hub := { u.fab.hub with sweeps := [] } } } : State).wf .bchub Off.RECOVERY 17 10 0).wf
        .bchub Off.RECOVERY 0 0 0))))

/-- O33. A broadcast acts at its target; MEM.COH_CFG and COH_STATUS answer. BCAST_RECEIVE of an admitted broadcast that
waits for the agent takes its copy off the stop's router: at a core that is on and not asleep, and has no
non-revocable operation or Zicbom request out (log entry 18), the matching entries go and what translated through
them is flushed; then its invalidation sequence rises and it acknowledges, unless stores or write-combining entries
that the broadcast concerns have still to commit, when the acknowledgement waits for them; a core that is off or
deeply asleep is acknowledged for at once; a dead core or port counts as lost; a port removes its extents and
acknowledges when its writes have drained. A ready MEM.COH_CFG of a legal, unleased value writes it to every Warren
slice and then to BCHUB and answers it; an illegal one fails BAD_FIELD and a leased part LEASE_HELD. A ready
MEM.COH_STATUS answers BCHUB's RECOVERY and its dead set. Here exec answers a next state, on conditions on the state
and the operands alone, for: bcastReceive, memCohCfg, memCohStatus. Rules: R164, R190, R191, R193, R299, R300. -/
def Obligations.BroadcastTargetsAndCoherenceCommands : Prop :=
  (∀ (s : State) (a id : Nat) (b : Bcast), a < 272 →
    s.fab.hub.bcasts.find? (fun b => b.id == id && b.admitted && b.waits.contains a) = some b →
    let u := deliverCopy (agentStop a) id s
    let busy := nonRevocable (u.core a) = true ∨ (u.core a).mrs.any (fun r => r.use == .cbo) = true
    let v := if b.acting.contains a then drainGone a u else setBcast { b with acting := insNat a b.acting } (coreBcast a b u)
    ((u.core a).dead = true → exec (.bcastReceive a id) s = .next (settle s (countAck id a true u))) ∧
    ((u.core a).dead = false → hearsBcast (u.core a) = false →
      exec (.bcastReceive a id) s = .next (settle s (sendAck id a u))) ∧
    ((u.core a).dead = false → hearsBcast (u.core a) = true → b.acting.contains a = false → busy →
      exec (.bcastReceive a id) s = .next (settle s u)) ∧
    ((u.core a).dead = false → hearsBcast (u.core a) = true → b.acting.contains a = true ∨ ¬busy →
      (bcastHeld (v.core a) = true → exec (.bcastReceive a id) s = .next (settle s v)) ∧
      (bcastHeld (v.core a) = false →
        exec (.bcastReceive a id) s = .next (settle s (sendAck id a (bump a 73 1 (pNow v a)
          (v.modCore a (fun c => { c with invSeq := (c.invSeq + 1) % 65536 })))))))) ∧
  (∀ (s : State) (n id : Nat) (b : Bcast), n < 9 →
    s.fab.hub.bcasts.find? (fun b => b.id == id && b.admitted && b.waits.contains (480 + n)) = some b →
    let u := deliverCopy (agentStop (480 + n)) id s
    ((u.port n).dead = true → exec (.bcastReceive (480 + n) id) s = .next (settle s (countAck id (480 + n) true u))) ∧
    ((u.port n).dead = false →
      exec (.bcastReceive (480 + n) id) s = .next (settle s (finishDrains n (u.modPort n (fun p => { p with
        ext := p.ext.filter (fun x => !b.removesExt x)
        drains := p.drains ++ [(b.id, ((p.pieces.filter (fun x => x.lid == b.lid)).map (·.id)))] })))))) ∧
  (∀ (s : State) (ch tag : Nat) (c : Cmd), Ready s ch tag 0x0350 c →
    let v := bytesAt c.body 0 0
    let taken := s.leased Blk.bchub.inst = true ∨ (List.range 136).any (fun h => s.leased (Blk.warren h).inst) = true
    (v < 14 ∨ 26 < v ∨ snpTmoOk s v = false → exec (.memCohCfg ch tag) s = .next (settle s (respond c stBadField [] s))) ∧
    (14 ≤ v → v ≤ 26 → snpTmoOk s v = true → taken → exec (.memCohCfg ch tag) s = .next (settle s (respond c 0xB [] s))) ∧
    (14 ≤ v → v ≤ 26 → snpTmoOk s v = true → ¬taken → exec (.memCohCfg ch tag) s = .next (settle s (respond c 0 (leBytes 1 v)
      ((allSlices (fun h s => s.wf (.warren h) Off.WARREN_COH_CFG 4 0 v) s).wf .bchub Off.BCHUB_COH_CFG 4 0 v))))) ∧
  (∀ (s : State) (ch tag : Nat) (c : Cmd), Ready s ch tag 0x0351 c →
    exec (.memCohStatus ch tag) s = .next (settle s (respond c 0
      (leBytes 1 (s.rf .bchub Off.RECOVERY 0 0) ++ leBytes 2 (s.rf .bchub Off.RECOVERY 9 1) ++
        leBytes 1 (s.rf .bchub Off.RECOVERY 17 10) ++ leBytes 4 0 ++
        (List.range 8).flatMap (fun w => leBytes 8 (s.rd .bchub (Off.DEAD_SET + 8 * w)).toNat)) s)))

/-- O34. A mesh link sends under credits, replays after a CRC error, repairs lanes, and fails. LINK_CYCLE on a present
link whose two ends carry flits, with any errors on the lanes: the far output sends what its arbitration or its
replay gives, with the sideband of R237 and a CRC over both; lanes that all arrive pass the check; a cycle that
fails it is discarded whole, counted and reported, a NAK is owed and a replay awaited; in one that passes, the
sideband acts (acknowledgement, credits, NAK) and the flit is taken if its SEQ is next (after a failure only a
resent one), else dropped; a link that is absent or does not carry flits changes nothing. A flit taken with a
reserved header takes the coherent domain down. NAK acknowledges, starts a replay and, when a replay was still
unacknowledged, counts a failed one: the sixteenth takes the coherent domain down, the one that reaches LANE_THRESH
with LANE_AUTO starts a repair at both ends. LANE_REPAIR_END counts the repair at both ends, maps each failing lane
of either direction onto a spare, brings the link UP, or FAILED if a lane had no spare, and replays both ways.
CREDIT_TIMEOUT of a class still at 0 credits that a flit waits for takes the domain down at the closing tick; with a
credit back, or nothing waiting, it changes nothing. Here exec answers a next state, on conditions on the state and
the operands alone, for: linkCycle, nak, laneRepairEnd, creditTimeout. Rules: R231, R232, R237, R238, R239, R240. -/
def Obligations.MeshLinksReplayRepairAndFail : Prop :=
  (∀ (s : State) (st p fs fp : Nat) (eFlit : BitVec 640) (eCrc : BitVec 16) (eSeq : BitVec 5) (eFv : BitVec 1) (eAck : BitVec 5) (eNak : BitVec 1) (eCrd : BitVec 7) (eRsv : BitVec 5), linkPresent st p = true → farEnd st p = (fs, fp) →
    linkLive s st p = true → linkLive s fs fp = true →
    let a := sendFlit fs fp s
    let b := sendSide fs fp (a.1.map (·.1)) a.2
    let r := (lanesOf (a.1.map (·.1)) b.1).noisy (laneErr eFlit eCrc eSeq eFv eAck eNak eCrd eRsv)
    (laneErr eFlit eCrc eSeq eFv eAck eNak eCrd eRsv = 0 → r.good = true) ∧
    (r.good = false →
      let v := report st 5 0 18 0 p 0x1FF 0 (b.2.incSat (.mesh st) (Off.LINK_ERR + 0x40 * p) 31 0)
      exec (.linkCycle st p eFlit eCrc eSeq eFv eAck eNak eCrd eRsv) s = .next (settle s (v.setLink st p { v.link st p with skipping := true, nak := true }))) ∧
    (r.good = true →
      let q := sideFld r.side 20 16
      let u := linkCredit st p (sideFld r.side 30 28) (sideFld r.side 34 31) (linkAck st p (sideFld r.side 26 22) b.2)
      let v := if sideFld r.side 27 27 = 1 then takeNak st p (sideFld r.side 26 22) u else u
      (a.1 = none → exec (.linkCycle st p eFlit eCrc eSeq eFv eAck eNak eCrd eRsv) s = .next (settle s v)) ∧
      (∀ f, a.1 = some f →
        let takes := sideFld r.side 21 21 = 1 ∧ q = ((v.link st p).rxSeq + 1) % 32 ∧ ((v.link st p).skipping = false ∨ f.2 = true)
        let w := v.setLink st p { v.link st p with rxSeq := q, skipping := false }
        (takes → hdrGood r.flit = true → r.flit = flitOf f.1.op f.1.msg →
          exec (.linkCycle st p eFlit eCrc eSeq eFv eAck eNak eCrd eRsv) s = .next (settle s (bufferFlit st p f.1.op f.1.msg w))) ∧
        (takes → hdrGood r.flit = false →
          exec (.linkCycle st p eFlit eCrc eSeq eFv eAck eNak eCrd eRsv) s = .next (settle s (driveDown (report st 6 3 17 0 p 0x1FF 0 w)))) ∧
        (¬takes → exec (.linkCycle st p eFlit eCrc eSeq eFv eAck eNak eCrd eRsv) s = .next (settle s v))))) ∧
  (∀ (s : State) (st p : Nat) (eFlit : BitVec 640) (eCrc : BitVec 16) (eSeq : BitVec 5) (eFv : BitVec 1) (eAck : BitVec 5) (eNak : BitVec 1) (eCrd : BitVec 7) (eRsv : BitVec 5),
    linkPresent st p = false ∨ linkLive s st p = false ∨ linkLive s (farEnd st p).1 (farEnd st p).2 = false →
    exec (.linkCycle st p eFlit eCrc eSeq eFv eAck eNak eCrd eRsv) s = .next (settle s s)) ∧
  (∀ (s : State) (st p ack fs fp : Nat), linkPresent st p = true → farEnd st p = (fs, fp) → linkLive s st p = true →
    let u := linkAck st p ack (s.setLink fs fp { s.link fs fp with nak := false })
    let v := startReplay st p u
    let n := min 16 (v.rf (.mesh st) (Off.LINK_STATE + 0x40 * p) 8 4 + 1)
    let w := v.wf (.mesh st) (Off.LINK_STATE + 0x40 * p) 8 4 n
    ((u.link st p).replaying = none → exec (.nak st p ack) s = .next (settle s v)) ∧
    ((u.link st p).replaying ≠ none →
      (n = 16 → exec (.nak st p ack) s = .next (settle s (driveDown (report st 5 3 18 0 p 0x1FF 0 w)))) ∧
      (n ≠ 16 →
        (n = w.rf (.mesh st) Off.MESH_CTL 11 8 ∧ w.rf (.mesh st) Off.MESH_CTL 12 12 = 1 ∧ linkState w st p = 1 →
          exec (.nak st p ack) s = .next (settle s (setLinkState fs fp 2 (setLinkState st p 2 w)))) ∧
        (¬(n = w.rf (.mesh st) Off.MESH_CTL 11 8 ∧ w.rf (.mesh st) Off.MESH_CTL 12 12 = 1 ∧ linkState w st p = 1) →
          exec (.nak st p ack) s = .next (settle s w))))) ∧
  (∀ (s : State) (st p fs fp : Nat) (bad : List Nat × List Nat), linkPresent st p = true → farEnd st p = (fs, fp) → linkState s st p = 2 →
    let u := repairEnd st p bad.1 s
    let v := repairEnd fs fp bad.2 u.1
    let up := decide (u.2 = true ∧ v.2 = true)
    let w := setLinkState fs fp (if up then 1 else 3) (setLinkState st p (if up then 1 else 3) v.1)
    exec (.laneRepairEnd st p bad) s = .next (settle s
      (startReplay fs fp (startReplay st p (if up then w else report st 5 1 23 0 p 0x1FF 0 w))))) ∧
  (∀ (s : State) (st p c t : Nat), linkPresent st p = true → linkLive s st p = true → c < 5 →
    (credits s st p c = 0 → waitsFor s st p c = true → smFind (s.link st p).zeroSince c = some t →
      exec (.creditTimeout st p c) s =
        .next (settle s (driveDown (s.toTick (t + meshTicks s (2 ^ s.rf (.mesh st) Off.MESH_CTL 4 0)))))) ∧
    (credits s st p c ≠ 0 ∨ waitsFor s st p c = false → exec (.creditTimeout st p c) s = .next (settle s s)))

/-- O35. Worn ways are swept out of service; the LLC commands set classes and act on ranges. A sweep whose slice has
something else first counts one refusal (R263). LLC_SWEEP_END of a running sweep that has its turn empties its way
(dirty lines to memory), fails and replaces it if the sweep came from wear, shows what is in service and starts the
slice's next sweep; WARREN_SWEEP_END moves the way's entries into trackers as they can go, and once it is empty does
the same. A ready MEM.FCLASS_SET whose value R251 allows in all 136 slices, none leased, writes FCLASS[k] of every
slice; else it fails BAD_FIELD, or LEASE_HELD. A ready MEM.FCLASS_GET of a class below 32 answers slice 0's value
and whether all slices agree. A ready MEM.LLC_RANGE of a legal range, with no line of it moving and no slice leased,
cleans, flushes or invalidates the cached lines and answers the two counts; while a line of it is moving it waits.
Here exec answers a next state, on conditions on the state and the operands alone, for: llcSweepEnd, warrenSweepEnd,
memFclassSet, memFclassGet, memLlcRange. Rules: R251, R253, R263, R264, R265, R266, R271, R272. -/
def Obligations.WaysAndLlcCommands : Prop :=
  (∀ (s : State) (h : Nat),
    (bgHeld s h 1 (smFind s.fab.warrenSweep h).isSome = true → exec (.llcSweepEnd h) s = .next (settle s (bgRefuse h s))) ∧
    (bgHeld s h 2 (smFind s.fab.llcSweep h).isSome = true → exec (.warrenSweepEnd h) s = .next (settle s (bgRefuse h s)))) ∧
  (∀ (s : State) (h p : Nat) (steps : Bool), bgHeld s h 1 (smFind s.fab.warrenSweep h).isSome = false →
    smFind s.fab.llcSweep h = some (p, steps) →
    let u := llcEmptyWay h p (bgTake h 1 s)
    exec (.llcSweepEnd h) s = .next (settle s (llcNextSweep h (llcSwept h (if steps then llcFailWay h p u else u))))) ∧
  (∀ (s : State) (h w : Nat) (steps : Bool), bgHeld s h 2 (smFind s.fab.llcSweep h).isSome = false →
    smFind s.fab.warrenSweep h = some (w, steps) →
    let u := warEmptyWay h w (bgTake h 2 s)
    (warWayHeld h w u = true → exec (.warrenSweepEnd h) s = .next (settle s u)) ∧
    (warWayHeld h w u = false → exec (.warrenSweepEnd h) s = .next (settle s
      (warNextSweep h (warSwept h (if steps then warFailWay h w u else u)))))) ∧
  (∀ (s : State) (ch tag : Nat) (c : Cmd), Ready s ch tag 0x0340 c →
    let b := fun hi lo => bytesAt c.body hi lo
    let v := BitVec.ofNat 64 (b 3 2 + (b 5 4 <<< 16) + (b 6 6 <<< 32))
    let ok := b 0 0 < 32 ∧ b 3 2 < 4096 ∧ b 5 4 < 4096 ∧ (∀ h, h < 136 → fclassOk s h (b 0 0) v = true)
    (ok → anyLlcLeased s = false → exec (.memFclassSet ch tag) s = .next (settle s
      (respond c 0 [] (allSlices (fun h s => s.wr (.llc h) (Off.FCLASS + 8 * b 0 0) v) s)))) ∧
    (ok → anyLlcLeased s = true → exec (.memFclassSet ch tag) s = .next (settle s (respond c stLeaseHeld [] s))) ∧
    (¬ok → exec (.memFclassSet ch tag) s = .next (settle s (respond c stBadField [] s)))) ∧
  (∀ (s : State) (ch tag : Nat) (c : Cmd), Ready s ch tag 0x0341 c →
    let v := fclassReg s 0 (bytesAt c.body 0 0)
    (bytesAt c.body 0 0 < 32 → exec (.memFclassGet ch tag) s = .next (settle s (respond c 0
      (leBytes 2 (fld v 11 0) ++ leBytes 2 (fld v 27 16) ++ leBytes 1 (fld v 33 32) ++
        leBytes 1 (b2n ((List.range 136).all (fun h => fclassReg s h (bytesAt c.body 0 0) == v)))) s))) ∧
    (32 ≤ bytesAt c.body 0 0 → exec (.memFclassGet ch tag) s = .next (settle s (respond c stBadField [] s)))) ∧
  (∀ (s : State) (ch tag : Nat) (c : Cmd), Ready s ch tag 0x0342 c →
    let a := bytesAt c.body 7 0
    let n := bytesAt c.body 15 8
    let op := bytesAt c.body 16 16
    let moving := (cachedLines s (a / 64) ((a + n) / 64)).any (fun ln => lineMoving s ln)
    let bad := a % 64 ≠ 0 ∨ n = 0 ∨ n % 64 ≠ 0 ∨ 2 ^ 43 < n ∨ 2 < op ∨ s.inBuffer a n = false
    (moving = true → exec (.memLlcRange ch tag) s = .next (settle s s)) ∧
    (moving = false → bad → exec (.memLlcRange ch tag) s = .next (settle s (respond c stBadField [] s))) ∧
    (moving = false → ¬bad → anyLlcLeased s = true → exec (.memLlcRange ch tag) s = .next (settle s (respond c stLeaseHeld [] s))) ∧
    (moving = false → ¬bad → anyLlcLeased s = false →
      let r := rangeOp op (a / 64) ((a + n) / 64) s
      exec (.memLlcRange ch tag) s = .next (settle s (respond c 0 (leBytes 8 r.1 ++ leBytes 8 r.2.1) r.2.2))))

/-- O36. A memory request at its controller or Hoard stop is taken, answered or left. MRD and MWR, none older for the
stop still on the mesh. At a controller that takes flits: a read of a queued write is answered from the write queue;
another read joins its subchannel's read queue while that holds fewer than 128, and otherwise stays; a write enters
the write queue, is counted and, if asked, answered with MCMP, and one that finds no room stays and starts a write
drain. At a Hoard stop: a request to a bank being cleared stays; a bank that serves is read or written at once; a
bank that does not answers a read with free data and POISON, drops a write, and counts the access. One with an older
request to the stop ahead of it stays. Here exec answers a next state, on conditions on the state and the operands
alone, for: mrd, mwr. Rules: R304, R305, R306, R308, R317, R450, R452, R454. -/
def Obligations.MemoryRequestsAreTaken : Prop :=
  (∀ (s : State) (m : Msg) (n : Nat), m.agent ∈ mcStops → mcStops.idxOf m.agent = n → mcTakes s n = true →
    (headOfStop s 0x20 m = true → m.line ∈ (s.mcs' n).wq →
      let r := queuedLine n m.line (mcArrive n (takeNet 0x20 m s))
      exec (.mrd m) s = .next (settle s (sendMData (.mc n) m.line m.qport r.1.1 r.1.2 r.2))) ∧
    (headOfStop s 0x20 m = true → m.line ∉ (s.mcs' n).wq →
      (((s.mcs' n).rq.filter (fun e => e.line % 2 == m.line % 2)).length < 128 →
        exec (.mrd m) s = .next (settle s (let u := mcArrive n (takeNet 0x20 m s)
          mcOcc n (u.modMc n (fun x => { x with rq := x.rq ++ [(⟨m.line, m.qport, u.tick, targetCycles u n m.qport⟩ : MRead)] }))))) ∧
      (128 ≤ ((s.mcs' n).rq.filter (fun e => e.line % 2 == m.line % 2)).length → exec (.mrd m) s = .next (settle s s))) ∧
    (headOfStop s 0x21 m = true → wqRoom (s.mcs' n) m.line = true →
      let u := bwAdd (.mc n) (2 * m.qport + 1) 64 (wqPut n m.line m.data m.poison (mcArrive n (takeNet 0x21 m s)))
      exec (.mwr m) s = .next (settle s (if m.arg % 2 = 1 then post 0x88 { agent := m.agent, line := m.line } u else u))) ∧
    (headOfStop s 0x21 m = true → wqRoom (s.mcs' n) m.line = false →
      exec (.mwr m) s = .next (settle s (s.modMc n (fun x => { x with drain := insNat (m.line % 2) x.drain }))))) ∧
  (∀ (s : State) (m : Msg) (n : Nat), m.agent ∈ hoardStops → m.agent ∉ mcStops → hoardStops.idxOf m.agent = n →
    (headOfStop s 0x20 m = true → bankSt s (hbankOf m.line) ≠ 2 →
      let u := unc (.hoard n) 1 1 (takeNet 0x20 m s)
      (bankServes u (hbankOf m.line) = true →
        exec (.mrd m) s = .next (settle s (let r := hoardLine m.line u
          sendMData (.hoard n) m.line m.qport r.1.1 r.1.2 r.2))) ∧
      (bankServes u (hbankOf m.line) = false →
        exec (.mrd m) s = .next (settle s (let r := freshLine (closedAccess n u)
          sendMData (.hoard n) m.line m.qport r.1 true r.2)))) ∧
    (headOfStop s 0x21 m = true → bankSt s (hbankOf m.line) ≠ 2 →
      let u := unc (.hoard n) 2 1 (takeNet 0x21 m s)
      let w := if bankServes u (hbankOf m.line) then
          setMemLine m.line m.data m.poison (eccWrite (bankBlk (hbankOf m.line)).stop 4 2 m.line u)
        else closedAccess n u
      exec (.mwr m) s = .next (settle s (if m.arg % 2 = 1 then post 0x88 { agent := m.agent, line := m.line } w else w))) ∧
    (headOfStop s 0x20 m = true → bankSt s (hbankOf m.line) = 2 → exec (.mrd m) s = .next (settle s s)) ∧
    (headOfStop s 0x21 m = true → bankSt s (hbankOf m.line) = 2 → exec (.mwr m) s = .next (settle s s))) ∧
  (∀ (s : State) (m : Msg), (headOfStop s 0x20 m = false → exec (.mrd m) s = .next (settle s s)) ∧
    (headOfStop s 0x21 m = false → exec (.mwr m) s = .next (settle s s)))

/-- O37. A controller issues the command its order chooses; refresh, ZQ, self-refresh and ALERT_n follow their rules.
DRAM_COMMAND_ISSUE on an active, powered controller carries out what R310's order chooses among the banks that are
not busy: a refresh (REFab, or REFsb bank by bank) pays one owed or is counted ahead, and it and an RFM lower the
activate counts of the banks they reach (by RAAIMT: the model's choice, log entry 42); a ZQ calibration pays one
owed; a precharge closes the bank; an activate opens the row and counts; a read leaves the queue and its decoded
data go to the home; a write leaves the queue, which ends a drain at the low mark; a scrub read takes the next line.
With nothing to choose, or not active, nothing changes. REFRESH_DUE adds one refresh owed per subchannel, up to the
limit, or uses one counted ahead; ZQ_CAL_DUE adds one, up to two. SELF_REFRESH_ENTRY of an idle channel with SR_EN
enters at the end of its delay. URGENCY_RISE moves time to the next boundary and counts a read that reaches its
target. ALERT_N is counted, closes the rows and sets its cause; the fourth within 1 ms is reported with its event.
Here exec answers a next state, on conditions on the state and the operands alone, for: dramCommandIssue,
refreshDue, zqCalDue, selfRefreshEntry, urgencyRise, alertN. Rules: R308, R309, R310, R311, R314, R316, R317, R318,
R319, R343. -/
def Obligations.DramCommandsAndTimers : Prop :=
  (∀ (s : State) (n sc : Nat) (busy bad : List Nat), n < 16 → sc < 2 → mcState s n = 2 → s.pwr.memOn = true →
    let go := exec (.dramCommandIssue n sc busy bad) s
    let x := s.mcs' n
    (∀ rk ba, chooseCmd s n sc busy = some (.refresh rk ba) →
      go = .next (settle s (mcOcc n (paidRefresh n (rankKey sc rk) ba (raaLess n (reaches sc rk ba) (unc (.mc n) 6 1 s)))))) ∧
    (∀ rk ba, chooseCmd s n sc busy = some (.rfm rk ba) →
      go = .next (settle s (mcOcc n (raaLess n (reaches sc rk ba) (unc (.mc n) 7 1 s))))) ∧
    (∀ rk, chooseCmd s n sc busy = some (.zq rk) →
      go = .next (settle s (mcOcc n (s.modMc n (fun x => { x with
        zq := smSet (fun _ => 0) x.zq (rankKey sc rk) (smGet (fun _ => 0) x.zq (rankKey sc rk) - 1) }))))) ∧
    (∀ b, chooseCmd s n sc busy = some (.pre b) →
      let conflict : Bool := match openRow x b with | some r => bankMisses s n x b r | none => false
      go = .next (settle s (mcOcc n ((if conflict then unc (.mc n) 5 1 s else s).modMc n (fun x => { x with
        rows := smDel x.rows b, hits := smDel x.hits b }))))) ∧
    (∀ b row ten, chooseCmd s n sc busy = some (.act b row ten) →
      go = .next (settle s (mcOcc n ((unc (.mc n) 4 1 s).modMc n (fun x => { x with
        rows := smPut x.rows b (row + 1)
        hits := smDel x.hits b
        raa := smPut x.raa b (raaOf x b + 1)
        tens := if ten then smPut x.tens b (tenActs s n (s.mcs' n) b + 1) else x.tens
        tenWin := if ten then smPut x.tenWin b ((unc (.mc n) 4 1 s).tick / refTicks (unc (.mc n) 4 1 s) n) else x.tenWin }))))) ∧
    (∀ r, chooseCmd s n sc busy = some (.read r) →
      let c := cellAt s n r.line
      let u := (countHit n c (unc (.mc n) 1 1 s)).modMc n (fun x => { x with
        rq := x.rq.erase r
        lastReq := (countHit n c (unc (.mc n) 1 1 s)).tick
        bankPtr := if qosTen s n r.qport then smPut x.bankPtr sc ((c.bank + 1) % 4096) else x.bankPtr
        scrub := x.scrub.map (fun b => { b with demand := smPut b.demand sc (smGet (fun _ => 0) b.demand sc + 1) }) })
      let q := readBurst n r.line bad 0 u
      go = .next (settle s (mcOcc n (sendMData (.mc n) r.line r.qport q.2.1.1 q.2.1.2 q.2.2)))) ∧
    (∀ ln, chooseCmd s n sc busy = some (.write ln) →
      let q := (queuedLine n ln (countHit n (cellAt s n ln) (unc (.mc n) 2 1 s))).2
      let u := q.modMc n (fun x => { x with wq := x.wq.erase ln, lastReq := q.tick })
      go = .next (settle s (mcOcc n
        (if ((u.mcs' n).wq.filter (fun l => l % 2 == sc)).length ≤ u.rf (.mc n) Off.SCHED 25 20 then
          u.modMc n (fun x => { x with drain := x.drain.filter (· != sc) }) else u)))) ∧
    (chooseCmd s n sc busy = some .scrub → go = .next (settle s (mcOcc n (scrubRead n sc bad s)))) ∧
    (chooseCmd s n sc busy = none → go = .next (settle s s))) ∧
  (∀ (s : State) (n rk : Nat), n < 16 → mcState s n = 2 → rk ∈ ranksOf (s.geom n) →
    exec (.refreshDue n rk) s = .next (settle s (mcOcc n (s.modMc n (fun x => (List.range 2).foldl (fun (x : McSt) sc =>
      let k := rankKey sc rk
      if 0 < smGet (fun _ => 0) x.ahead k then { x with ahead := smSet (fun _ => 0) x.ahead k (smGet (fun _ => 0) x.ahead k - 1) }
      else { x with debt := smPut x.debt k (min (refLimit s n) (smGet (fun _ => 0) x.debt k + 1)) }) x)))) ∧
    exec (.zqCalDue n rk) s = .next (settle s (s.modMc n (fun x => (List.range 2).foldl (fun (x : McSt) sc =>
      { x with zq := smPut x.zq (rankKey sc rk) (min 2 (smGet (fun _ => 0) x.zq (rankKey sc rk) + 1)) }) x)))) ∧
  (∀ (s : State) (n : Nat), n < 16 → mcState s n = 2 → s.rf (.mc n) Off.MC_CTL 3 3 = 1 → (s.mcs' n).rq = [] → (s.mcs' n).wq = [] →
    (s.mcs' n).scrub = none →
    exec (.selfRefreshEntry n) s = .next (settle s (setMcState n 3 (mcOcc n
      ((s.toTick ((s.mcs' n).lastReq + s.rf (.mc n) Off.MC_CTL 17 4 * us)).modMc n
        (fun x => { x with rows := [], hits := [], debt := [], ahead := [] })))))) ∧
  (∀ (s : State) (n ln e : Nat) (r : MRead), (s.mcs' n).rq.find? (fun r => r.line == ln) = some r →
    (urgencyEdges r.tc).find? (fun e => decide ((s.tick - r.tick) * mcPerTick s n < e)) = some e →
    exec (.urgencyRise n ln) s = .next (settle s
      (let u := s.toTick (r.tick + (e + mcPerTick s n - 1) / mcPerTick s n)
       if urgency u n r = 3 then unc (.mc n) 10 1 u else u))) ∧
  (∀ (s : State) (n : Nat), n < 16 → mcState s n = 2 ∨ mcState s n = 3 ∨ mcState s n = 4 →
    let u := mcCause n 2 (s.incSat (.mc n) Off.MC_STATUS 47 40)
    let w := alertCount (u.mcs' n) u.tick
    let v := u.modMc n (fun y => { y with rows := [], hits := [], alertFrom := w.1, alertN := w.2 })
    exec (.alertN n) s = .next (settle s (if w.2 = 4 then
      emit [0, 1] 0x0381 0 0 (leBytes 1 n ++ leBytes 1 (v.rf (.mc n) Off.MC_STATUS 47 40))
        (report (Blk.mc n).inst 13 1 24 0 n 0x1FF 0 v) else v)))

/-- O38. RETUNE goes through its phases, training answers, and the Sett retrains a drifted channel. RETUNE_PHASE_END of
a phase before the last does the phase's own effect (1 closes the rows, 2 drops the refresh owed, 3 switches the set
and the memory clock) and enters the next phase that applies; with no phase running, or in the last, it changes
nothing. RETUNE_LOCK_TIMEOUT in phase 3 with differing rates falls back: FAILED is set, reported, and phase 4
follows on the old set. RETUNE_END in phase 7 clears GO, counts, returns the channel to ACTIVE, clears the RETUNE
flag with no other channel in a phase, and sends its event, or, for a window of the Sett's own, lets the Sett go on.
TRAIN_DONE of a running operation stores the pattern (OP 0), gives the mismatch map or MRR data, clears GO and sets
its cause. RETRAIN_DUE starts a measuring window on an idle channel whose temperature has drifted or whose interval
has passed, and, once one is measured, writes the delays and opens the final window. Here exec answers a next state,
on conditions on the state and the operands alone, for: retunePhaseEnd, retuneLockTimeout, retuneEnd, trainDone,
retrainDue. Rules: R320, R321, R322, R323, R329. -/
def Obligations.RetuneTrainingAndRetraining : Prop :=
  (∀ (s : State) (n p q : Nat), n < 16 → mcPhase s n = p → p ≠ 0 → p ≠ 7 →
    let u := if p = 1 then s.modMc n (fun x => { x with rows := [], hits := [] })
      else if p = 2 then mcOcc n (s.modMc n (fun x => { x with debt := [], ahead := [] }))
      else if p = 3 then mcFreq n (s.wf (.mc n) Off.MC_STATUS 3 3 (1 - mcSet s n))
      else s
    ((List.range 7).map (· + 1)).find? (fun q => decide (p < q) && phaseApplies u n q) = some q →
    exec (.retunePhaseEnd n) s = .next (settle s (setMcPhase n q u))) ∧
  (∀ (s : State) (n : Nat), mcPhase s n = 0 ∨ mcPhase s n = 7 → exec (.retunePhaseEnd n) s = .next (settle s s)) ∧
  (∀ (s : State) (n : Nat), n < 16 → mcPhase s n = 3 → ratesDiffer s n = true →
    exec (.retuneLockTimeout n) s = .next (settle s (setMcPhase n 4 (report (Blk.mc n).inst 13 1 24 0 n 0x1FF 0
      ((s.modMc n (fun x => { x with fellBack := true })).wf (.mc n) Off.RETUNE 7 7 1))))) ∧
  (∀ (s : State) (n : Nat), n < 16 → mcPhase s n = 7 →
    let u := setMcPhase n 0 (setMcState n 2 (mcCause n 0 ((s.wf (.mc n) Off.RETUNE 0 0 0).incWrap (.mc n) Off.RETUNE 15 8)))
    let v := if anyRetune u then u else setMode 7 false u
    let fell := (s.mcs' n).fellBack
    let event := fun (k : Nat) (t : State) => emit [0, 1] 0x0380 0 0 (leBytes 1 n ++ leBytes 1 (mcRate t n) ++ leBytes 1 k) t
    ((s.mcs' n).job = .idle → exec (.retuneEnd n) s = .next (settle s (event (b2n fell) v))) ∧
    ((s.mcs' n).job = .measure → exec (.retuneEnd n) s =
      .next (settle s (v.modMc n (fun x => { x with job := .ready (v.tick + ms) })))) ∧
    ((s.mcs' n).job = .rate → exec (.retuneEnd n) s =
      .next (settle s (retuneNext n fell (event (b2n fell) (v.modMc n (fun x => { x with job := .idle })))))) ∧
    ((s.mcs' n).job = .final → exec (.retuneEnd n) s = .next (settle s
      (let w := v.wf (.mc n) Off.MC_TEMP 15 8 (v.rf (.mc n) Off.MC_TEMP 7 0)
       retuneNext n fell (event 2 (w.modMc n (fun x => { x with job := .idle, trainedAt := w.tick }))))))) ∧
  (∀ (s : State) (n mis mrr : Nat), n < 16 → s.rf (.mc n) Off.TRAIN_CTL 7 7 = 1 →
    let w := s.rd (.mc n) Off.TRAIN_CTL
    let op := fld w 2 0
    let pat := (List.range 8).flatMap (fun i => leBytes 8 (s.rd (.mc n) (Off.TRAIN_PAT + 8 * i)).toNat)
    let u := if op = 0 then
        (trainLines s n w (s.rd (.mc n) Off.TRAIN_ADDR)).foldl (fun s ln => setMemLine ln (lineOfBytes pat) false s) s
      else s
    exec (.trainDone n mis mrr) s = .next (settle s (mcCause n 3 ((u.wr (.mc n) Off.TRAIN_RESULT (BitVec.ofNat 64
      ((if op ≤ 1 then mis % 2 ^ 40 else 0) + 2 ^ 40 + (if op = 3 then mrr % 256 * 2 ^ 48 else 0)))).wf (.mc n) Off.TRAIN_CTL 7 7 0)))) ∧
  (∀ (s : State) (n : Nat), n < 16 → s.rf (.mc n) Off.TRAIN_CTL 7 7 = 0 →
    ∀ mis mrr, exec (.trainDone n mis mrr) s = .next (settle s s)) ∧
  (∀ (s : State) (n : Nat) (ds : List (Nat × Nat)), n < 16 → anyRetune s = false → s.leased (mcInst n) = false → s.serving = true →
    s.modeFlag 9 = false →
    let drift := ((degrees (s.rf (.mc n) Off.MC_TEMP 7 0)) - (degrees (s.rf (.mc n) Off.MC_TEMP 15 8))).natAbs
    ((s.mcs' n).job = .idle → mcState s n = 2 ∨ mcState s n = 3 →
      drift > (retrainCfg s).1 ∨ ((retrainCfg s).2 ≠ 0 ∧ (s.mcs' n).trainedAt + (retrainCfg s).2 * 1000 * ms ≤ s.tick) →
      exec (.retrainDue n ds) s = .next (settle s (startChannel n 0 s))) ∧
    ((s.mcs' n).job = .idle → drift ≤ (retrainCfg s).1 →
      (retrainCfg s).2 = 0 ∨ s.tick < (s.mcs' n).trainedAt + (retrainCfg s).2 * 1000 * ms →
      exec (.retrainDue n ds) s = .next (settle s s)) ∧
    (∀ due, (s.mcs' n).job = .ready due →
      let u := ds.foldl (fun s d =>
        if d.1 < 512 then s.wr (.mc n) (setOff (Off.DELAY_A + 4 * d.1) (1 - mcSet s n)) (BitVec.ofNat 64 (d.2 % 2 ^ 31)) else s) (s.toTick due)
      exec (.retrainDue n ds) s = .next (settle s (settRetune n true 0 (u.modMc n (fun x => { x with job := .final }))))))

/-- O39. The MEM commands for channels answer, write all 16 channels, or start a RETUNE. Ready commands. MEM.CHAN_INFO
of a channel below 16 answers its state, rate, set, temperatures, geometry and size. QOS_SET of a QPORT below 64
with a target of at least 16 ns writes QOS_TARGET of every channel; QOS_GET answers channel 0's and whether all
agree. SR_CFG writes SR_EN and its delay in every channel; SCHED_SET writes a SCHED value that R330 admits in every
channel. Each fails BAD_FIELD on other fields and, where it writes, LEASE_HELD with a channel leased. MEM.RETUNE of
trained channels, none leased, starts the lowest while no RETUNE runs, and fails BUSY otherwise. RETRAIN_CFG of a
legal setting journals it. Here exec answers a next state, on conditions on the state and the operands alone, for:
memChanInfo, memQosSet, memQosGet, memRetune, memRetrainCfg, memSrCfg, memSchedSet. Rules: R331, R332, R64. -/
def Obligations.ChannelCommands : Prop :=
  (∀ (s : State) (ch tag : Nat) (c : Cmd), Ready s ch tag 0x0301 c →
    let n := bytesAt c.body 0 0
    (n < 16 → exec (.memChanInfo ch tag) s = .next (settle s (respond c 0 (leBytes 1 (mcState s n) ++ leBytes 1 (mcRate s n) ++
      leBytes 1 (mcSet s n) ++ leBytes 1 (s.rf (.mc n) Off.MC_TEMP 7 0) ++ leBytes 4 (s.rf (.mc n) Off.GEOM 31 0) ++
      leBytes 8 (s.org.chanBytes.getD n 0) ++ leBytes 1 (s.rf (.mc n) Off.MC_TEMP 15 8)) s))) ∧
    (16 ≤ n → exec (.memChanInfo ch tag) s = .next (settle s (respond c stBadField [] s)))) ∧
  (∀ (s : State) (ch tag : Nat) (c : Cmd), Ready s ch tag 0x0302 c →
    let q := bytesAt c.body 0 0
    let ns := bytesAt c.body 3 2
    let k := bytesAt c.body 4 4
    (64 ≤ q ∨ ns < 16 ∨ 1 < k → exec (.memQosSet ch tag) s = .next (settle s (respond c stBadField [] s))) ∧
    (q < 64 → 16 ≤ ns → k ≤ 1 → anyMcLeased s = true → exec (.memQosSet ch tag) s = .next (settle s (respond c stLeaseHeld [] s))) ∧
    (q < 64 → 16 ≤ ns → k ≤ 1 → anyMcLeased s = false → exec (.memQosSet ch tag) s = .next (settle s (respond c 0 []
      (allMcs (fun n s => s.wr (.mc n) (Off.QOS_TARGET + 8 * q) (BitVec.ofNat 64 (ns + k * 65536))) s))))) ∧
  (∀ (s : State) (ch tag : Nat) (c : Cmd), Ready s ch tag 0x0303 c →
    let q := bytesAt c.body 0 0
    let v := s.rd (.mc 0) (Off.QOS_TARGET + 8 * q)
    (q < 64 → exec (.memQosGet ch tag) s = .next (settle s (respond c 0 (leBytes 2 (fld v 15 0) ++ leBytes 1 (fld v 16 16) ++
      leBytes 1 (b2n ((List.range 16).all (fun n => s.rd (.mc n) (Off.QOS_TARGET + 8 * q) == v)))) s))) ∧
    (64 ≤ q → exec (.memQosGet ch tag) s = .next (settle s (respond c stBadField [] s)))) ∧
  (∀ (s : State) (ch tag : Nat) (c : Cmd), Ready s ch tag 0x0304 c →
    let mask := bytesAt c.body 1 0
    let rate := bytesAt c.body 2 2
    let chs := (List.range 16).filter (fun k => mask.testBit k)
    let bad := mask = 0 ∨ 9 < rate ∨ (rate ≠ 0 ∧ chs.any (fun k => (trainingOf s k rate).isNone) = true)
    (bad → exec (.memRetune ch tag) s = .next (settle s (respond c stBadField [] s))) ∧
    (¬bad → chs.any (fun k => s.leased (mcInst k)) = true → exec (.memRetune ch tag) s = .next (settle s (respond c stLeaseHeld [] s))) ∧
    (¬bad → chs.any (fun k => s.leased (mcInst k)) = false →
      (anyRetune s = true ∨ chs.any (fun k => (s.mcs' k).job != .idle) = true →
        exec (.memRetune ch tag) s = .next (settle s (respond c stBusy [] s))) ∧
      (¬(anyRetune s = true ∨ chs.any (fun k => (s.mcs' k).job != .idle) = true) →
        exec (.memRetune ch tag) s = .next (settle s
          (setPhase c.ord .running [mask, 0, 0, rate] (startChannel ((lowBit mask).getD 0) rate s)))))) ∧
  (∀ (s : State) (ch tag : Nat) (c : Cmd), Ready s ch tag 0x0305 c →
    let d := bytesAt c.body 0 0
    let iv := bytesAt c.body 7 4
    let bad := d < 2 ∨ 40 < d ∨ (iv ≠ 0 ∧ (iv < 3600 ∨ 2592000 < iv))
    (bad → exec (.memRetrainCfg ch tag) s = .next (settle s (respond c stBadField [] s))) ∧
    (¬bad → jrnHasRoom s = true → exec (.memRetrainCfg ch tag) s =
      .next (settle s (enqueueRec (some c.ord) false (.retrainCfg d iv) (setPhase c.ord .committing [] s))))) ∧
  (∀ (s : State) (ch tag : Nat) (c : Cmd), Ready s ch tag 0x0306 c →
    let a := bytesAt c.body 0 0
    let u := bytesAt c.body 3 2
    let bad := 1 < a ∨ u = 0 ∨ 10000 < u
    (bad → exec (.memSrCfg ch tag) s = .next (settle s (respond c stBadField [] s))) ∧
    (¬bad → anyMcLeased s = true → exec (.memSrCfg ch tag) s = .next (settle s (respond c stLeaseHeld [] s))) ∧
    (¬bad → anyMcLeased s = false → exec (.memSrCfg ch tag) s = .next (settle s (respond c 0 []
      (allMcs (fun n s => (s.wf (.mc n) Off.MC_CTL 3 3 a).wf (.mc n) Off.MC_CTL 17 4 u) s))))) ∧
  (∀ (s : State) (ch tag : Nat) (c : Cmd), Ready s ch tag 0x0307 c →
    let w := BitVec.ofNat 64 (bytesAt c.body 7 0)
    let bad := schedOk w = false ∨ fld w 13 13 ≠ 0 ∨ fld w 63 43 ≠ 0
    (bad → exec (.memSchedSet ch tag) s = .next (settle s (respond c stBadField [] s))) ∧
    (¬bad → anyMcLeased s = true → exec (.memSchedSet ch tag) s = .next (settle s (respond c stLeaseHeld [] s))) ∧
    (¬bad → anyMcLeased s = false → exec (.memSchedSet ch tag) s = .next (settle s (respond c 0 []
      (allMcs (fun n s => s.wr (.mc n) Off.SCHED w) s)))))

/-- O40. Scrub, the error log, the address maps, retirement, row repair and erasure answer as commanded. SCRUB_END of a
scrub that has read its last line ends it; with lines left it changes nothing. Ready commands: MEM.SCRUB of a mapped
4 KiB-aligned range of at most 16 GiB starts a scrub on all channels, and waits while one scrubs. ERRLOG_READ writes
the records from a sequence number on into its buffer and answers their number, the first and last number and the
records lost. MAP_PA answers an installed address's place; MAP_BANK writes a bank's or row's address ranges, merged,
into its buffer. RETIRE journals a mapped range while fewer than 1,024 stand; RETIRE_LIST writes them. ROW_REPAIR of
a place in the geometry whose spare row is free is done at once (soft, in BRINGUP or DIAGNOSTIC), or journalled; in
DIAGNOSTIC the row's lines are restored, uncorrectable ones as poison. ROW_REPAIR_TIMEOUT in those modes ends the
channel's oldest repair with TIMEOUT after 2 s, journalled and reported. MEM.ERASE of a legal rank and device
journals it. Each fails BAD_FIELD on other fields, BAD_BUFFER, LEASE_HELD or NO_RESOURCE as its rule says. Here exec
answers a next state, on conditions on the state and the operands alone, for: scrubEnd, memScrub, memErrlogRead,
memMapPa, memMapBank, memRetire, memRetireList, memRowRepair, rowRepairTimeout, memErase. Rules: R338, R343, R344,
R345, R346, R347, R348, R349, R350, R351, R352. -/
def Obligations.IntegrityCommands : Prop :=
  (∀ (s : State) (n : Nat) (b : ScrubSt), (s.mcs' n).scrub = some b →
    (b.left = 0 → exec (.scrubEnd n) s = .next (settle s (scrubStop n false s))) ∧
    (b.left ≠ 0 → exec (.scrubEnd n) s = .next (settle s s))) ∧
  (∀ (s : State) (ch tag : Nat) (c : Cmd), Ready s ch tag 0x0360 c →
    let a := bytesAt c.body 7 0
    let n := bytesAt c.body 15 8
    exec (.memScrub ch tag) s = .next (settle s
      (if anyMcLeased s = false ∧ (List.range 16).any (fun k => (s.mcs' k).scrub.isSome) = true then s
       else if dramRange s a n = false ∨ 2 ^ 34 < n then respond c stBadField [] s
       else if anyMcLeased s = true then respond c stLeaseHeld [] s
       else setPhase c.ord .running [s.tick] (scrubAll a n s)))) ∧
  (∀ (s : State) (ch tag : Nat) (c : Cmd), Ready s ch tag 0x0361 c →
    let rs := (s.elog.recs.filter (fun e => decide (bytesAt c.body 23 16 ≤ e.seq))).take (bufLen c / 64)
    exec (.memErrlogRead ch tag) s = .next (settle s
      (if bufOk s c = false then respond c stBadBuffer [] s
       else respond c 0 (leBytes 2 rs.length ++ leBytes 8 ((rs.head?.map (·.seq)).getD 0) ++
          leBytes 8 ((rs.getLast?.map (·.seq)).getD 0) ++ leBytes 4 s.elog.lost)
          (settWr (bufPa c) (rs.flatMap (fun (e : ErrRec) => e.bytes)) s)))) ∧
  (∀ (s : State) (ch tag : Nat) (c : Cmd), Ready s ch tag 0x0362 c →
    exec (.memMapPa ch tag) s = .next (settle s
      (if s.org.installed ≤ bytesAt c.body 7 0 then respond c stBadField [] s
       else respond c 0 (cellBytes s (bytesAt c.body 7 0)) s))) ∧
  (∀ (s : State) (ch tag : Nat) (c : Cmd), Ready s ch tag 0x0363 c →
    let n := bytesAt c.body 16 16
    let rp := bytesAt c.body 17 17
    let bk := bytesAt c.body 18 18
    let row := bytesAt c.body 23 20
    let rows := if row = 0xFFFFFFFF then List.range (2 ^ (s.geom n).row) else [row]
    let rs := ((rows.foldl (fun acc r => mergeBlocks acc (rowBlock (s.geom n) (placeOf rp bk r))) []).reverse).take (bufLen c / 16)
    exec (.memMapBank ch tag) s = .next (settle s
      (if 16 ≤ n ∨ placeOk (s.geom n) rp bk = false ∨ (row ≠ 0xFFFFFFFF ∧ 2 ^ (s.geom n).row ≤ row) then respond c stBadField [] s
       else if bufOk s c = false then respond c stBadBuffer [] s
       else respond c 0 (leBytes 4 rs.length)
          (settWr (bufPa c) (rs.flatMap (fun (e : Nat × Nat) => leBytes 8 e.1 ++ leBytes 8 e.2)) s)))) ∧
  (∀ (s : State) (ch tag : Nat) (c : Cmd), Ready s ch tag 0x0364 c → jrnHasRoom s = true →
    let a := bytesAt c.body 7 0
    let n := bytesAt c.body 15 8
    exec (.memRetire ch tag) s = .next (settle s
      (if dramRange s a n = false then respond c stBadField [] s
       else if 1024 ≤ s.flash.jst.retired.length then respond c stNoResource [] s
       else enqueueRec (some c.ord) false (.memRetire a n) (setPhase c.ord .committing [] s)))) ∧
  (∀ (s : State) (ch tag : Nat) (c : Cmd), Ready s ch tag 0x0365 c →
    let rs := s.flash.jst.retired.take (bufLen c / 16)
    exec (.memRetireList ch tag) s = .next (settle s
      (if bufOk s c = false then respond c stBadBuffer [] s
       else respond c 0 (leBytes 2 rs.length)
          (settWr (bufPa c) (rs.flatMap (fun (e : Nat × Nat) => leBytes 8 e.1 ++ leBytes 8 e.2)) s)))) ∧
  (∀ (s : State) (ch tag : Nat) (c : Cmd), Ready s ch tag 0x0366 c → jrnHasRoom (restoreRow c s) = true →
    let r := repairOf c (repairNow s)
    exec (.memRowRepair ch tag) s = .next (settle s
      (if repairBad s c = true then respond c stBadField [] s
       else if spareRowUsed s r = true then respond c stNoResource [] s
       else if repairNow s = true ∧ r.hard = false then respond c 0 (leBytes 1 0) (restoreRow c s)
       else enqueueRec (some c.ord) false (.rowRepair r) (setPhase c.ord .committing [] (restoreRow c s))))) ∧
  (∀ (s : State) (mc : Nat) (consumed : Bool) (c : Cmd), repairNow s = true →
    s.sett.cmds.find? (fun c => c.opcode == 0x0366 && c.phase == .accepted && bytesAt c.body 0 0 == mc) = some c →
    Ready s c.ch c.tag 0x0366 c → repairBad s c = false → spareRowUsed s (repairOf c false) = false →
    let applied := consumed && (repairOf c false).hard
    exec (.rowRepairTimeout mc consumed) s = .next (settle s (respond c stTimeout (leBytes 1 (b2n !applied))
      (report (mcInst (bytesAt c.body 0 0)) 13 1 24 0 0 0x1FF 0
        (journal (.rowRepair (repairOf c applied)) (restoreRow c { s with tick := s.tick + 2000 * ms })))))) ∧
  (∀ (s : State) (ch tag : Nat) (c : Cmd), Ready s ch tag 0x0367 c → jrnHasRoom s = true →
    let f := fun k => bytesAt c.body k k
    exec (.memErase ch tag) s = .next (settle s
      (if 16 ≤ f 0 ∨ 4 ≤ f 1 ∨ 2 ≤ f 2 ∨ (10 ≤ f 3 ∧ f 3 ≠ 15) then respond c stBadField [] s
       else if s.leased (mcInst (f 0)) = true then respond c stLeaseHeld [] s
       else enqueueRec (some c.ord) false (.dramErase (f 0) (f 1) (f 2) (f 3)) (setPhase c.ord .committing [] s))))

/-- O41. The LODGE commands make, reset, freeze, save, restore and show lodges. Ready commands. CREATE takes the shares
its request asks for and answers them, or fails with the status that the plan gives. RESET of a lodge without older
work holds it, raises its generation and starts an FLR of its VFs; FREEZE of a running lodge for 1 to 10,000 ms
holds it; each then goes on as far as it can. RESUME of a frozen lodge whose reset did not time out runs it again;
INFO shows a lodge; EXT_SET of at most 4,096 sets the extent count and the ports' table registers; POOLS shows the
pools or, with no lodge alive and legal values, journals new ones; SAVE of a frozen lodge writes its blob into a
large enough buffer; RESTORE of a good, unpoisoned blob makes a frozen lodge of it. Other fields, states, buffers
fail as stated, and a command that would write a leased part fails LEASE_HELD (log entry 11). RESET_TIMEOUT ends a
reset whose step 2, 4, 5 or 6 is late with TIMEOUT and the lodge frozen. DRAIN_TIMEOUT of a freeze ends what its VFs
have outstanding, halts those rings and answers their number. Here exec answers a next state, on conditions on the
state and the operands alone, for: lodgeCreate, lodgeReset, lodgeResetTimeout, lodgeDrainTimeout, lodgeFreeze,
lodgeSave, lodgeRestore, lodgeResume, lodgeInfo, lodgeExtSet, lodgePools. Rules: R357, R358, R361, R364, R366, R368,
R369, R371, R372, R374, R375, R376. -/
def Obligations.LodgeCommands : Prop :=
  (∀ (s : State) (ch tag : Nat) (c : Cmd), Ready s ch tag 0x0201 c →
    let f := fun hi lo => bytesAt c.body hi lo
    let r : LodgeReq := ⟨f 1 0, f 2 2, f 3 3, f 4 4, f 5 5, f 7 6, f 8 8, f 9 9⟩
    (∀ st, planLodge r s = .error st → exec (.lodgeCreate ch tag) s = .next (settle s (respond c st [] s))) ∧
    (∀ lid l, planLodge r s = .ok (lid, l) → exec (.lodgeCreate ch tag) s = .next (settle s
      (if lodgeLeased s true l.banks = true then respond c stLeaseHeld [] s
       else respond c 0 (createRsp (takeLodge lid l false s) lid) (takeLodge lid l false s))))) ∧
  (∀ (s : State) (ch tag : Nat) (c : Cmd), Ready s ch tag 0x0202 c →
    let lid := c.lid % 512
    let vfs := (s.lodgeSt lid).vfs
    let u := vfs.foldl (fun s v => startFlr v s) (raiseGen lid (holdLodge lid true s))
    exec (.lodgeReset ch tag) s = .next (settle s (lodgeGo
      (if oldOut s lid = true then respond c stBusy [] s
       else if lodgeLeased s true (s.lodgeSt lid).banks = true then respond c stLeaseHeld [] s
       else setPhase c.ord .running [bytesAt c.body 0 0] { u with
          lodgeWork := (u.lodgeWork.filter (fun w => w.lid != lid)) ++ [⟨lid, c.ord, 4, u.tick + 200 * us * vfs.length⟩] })))) ∧
  (∀ (s : State) (lid : Nat) (w : LodgeWork), findWork s lid = some w →
    (w.step = 4 → exec (.lodgeResetTimeout lid 4) s = .next (settle s (resetTimeout w 4 (s.toTick w.due)))) ∧
    (w.step = 4 → exec (.lodgeResetTimeout lid 5) s = .next (settle s
      (let u := (s.lodgeSt lid).vfs.foldl (fun s v => flrComplete v s) s
       resetTimeout w 5 { u with tick := u.tick + 40 * us }))) ∧
    (w.step = 6 → exec (.lodgeResetTimeout lid 6) s = .next (settle s (resetTimeout w 6 (s.toTick w.due)))) ∧
    (w.step = 0 → exec (.lodgeDrainTimeout lid) s = .next (settle s
      (let u := s.toTick w.due
       let out := vfOut u (u.lodgeSt lid)
       freezeDone w out.length (vfCut lid out u))))) ∧
  (∀ (s : State) (lid : Nat) (c : Cmd),
    s.sett.cmds.find? (fun c => c.opcode == 0x0202 && c.phase == .accepted && c.lid % 512 == lid) = some c →
    Ready s c.ch c.tag 0x0202 c →
    let l := c.lid % 512
    exec (.lodgeResetTimeout lid 2) s = .next (settle s
      (if oldOut s l = true then respond c stBusy [] s
       else let u := resetTimeout ⟨l, 2 ^ 64, 2, s.tick⟩ 2 { s with tick := s.tick + 20 * us }
         respond c stTimeout (leBytes 1 (u.lodgeSt l).gen) u))) ∧
  (∀ (s : State) (ch tag : Nat) (c : Cmd), Ready s ch tag 0x0203 c →
    let lid := c.lid % 512
    let d := bytesAt c.body 3 0
    let u := holdLodge lid true s
    exec (.lodgeFreeze ch tag) s = .next (settle s (lodgeGo
      (if d < 1 ∨ 10000 < d then respond c stBadField [] s
       else if (s.lodgeSt lid).state ≠ .running then respond c stBusy [] s
       else if lodgeLeased s false [] = true then respond c stLeaseHeld [] s
       else setPhase c.ord .running [d] { u with lodgeWork := u.lodgeWork ++ [⟨lid, c.ord, 0, u.tick + d * ms⟩] })))) ∧
  (∀ (s : State) (ch tag : Nat) (c : Cmd), Ready s ch tag 0x0204 c →
    let lid := c.lid % 512
    exec (.lodgeSave ch tag) s = .next (settle s
      (if (s.lodgeSt lid).state ≠ .frozen then respond c stBusy [] s
       else if bufOk s c = false ∨ bufLen c < (lodgeBlob s lid).length then respond c stBadBuffer [] s
       else respond c 0 (leBytes 4 (lodgeBlob s lid).length) (settWr (bufPa c) (lodgeBlob s lid) s)))) ∧
  (∀ (s : State) (ch tag : Nat) (c : Cmd), Ready s ch tag 0x0205 c →
    let f := fun hi lo => bytesAt c.body hi lo
    let b := settRd s (bufPa c) (min (bufLen c) 8320)
    let u := cohLook (bufPa c) (min (bufLen c) 8320) s
    let g := fun hi lo => bytesAt b hi lo
    let r : LodgeReq := ⟨f 17 16, f 18 18, f 19 19, f 20 20, g 32 32, g 34 33, g 36 36, g 35 35⟩
    (bufOk s c = false → exec (.lodgeRestore ch tag) s = .next (settle s (respond c stBadBuffer [] s))) ∧
    (bufOk s c = true → bufPoisoned s (bufPa c) (bufLen c) = none →
      (blobOk b = false → exec (.lodgeRestore ch tag) s = .next (settle s (respond c stBadField [] u))) ∧
      (∀ st, blobOk b = true → planLodge r u = .error st → exec (.lodgeRestore ch tag) s = .next (settle s (respond c st [] u))) ∧
      (∀ lid l, blobOk b = true → planLodge r u = .ok (lid, l) → exec (.lodgeRestore ch tag) s = .next (settle s
        (if lodgeLeased u true l.banks = true then respond c stLeaseHeld [] u
         else respond c 0 (createRsp (restoreAs c b lid l u) lid) (restoreAs c b lid l u)))))) ∧
  (∀ (s : State) (ch tag : Nat) (c : Cmd), Ready s ch tag 0x0206 c →
    let lid := c.lid % 512
    let l := s.lodgeSt lid
    exec (.lodgeResume ch tag) s = .next (settle s
      (if l.state ≠ .frozen ∨ l.timedOut = true then respond c stBusy [] s
       else if lodgeLeased s false [] = true then respond c stLeaseHeld [] s
       else respond c 0 [] (twinAct c lid (holdLodge lid false (s.setLodge lid { l with state := .running })))))) ∧
  (∀ (s : State) (ch tag : Nat) (c : Cmd), Ready s ch tag 0x0207 c →
    let l := s.lodgeSt (c.lid % 512)
    exec (.lodgeInfo ch tag) s = .next (settle s (respond c 0
      (leBytes 1 (stateCode l.state) ++ leBytes 1 l.gen ++ leBytes 1 (b2n (oldOut s (c.lid % 512))) ++
        (if l.state = .free then leBytes 37 0 else lodgeFields s l) ++ leBytes 1 (if l.twin then 3 else 0)) s))) ∧
  (∀ (s : State) (ch tag : Nat) (c : Cmd), Ready s ch tag 0x0208 c →
    let lid := c.lid % 512
    let u := s.setLodge lid { s.lodgeSt lid with count := bytesAt c.body 1 0 }
    let v := hextOf u (u.lodgeSt lid)
    exec (.lodgeExtSet ch tag) s = .next (settle s
      (if 4096 < bytesAt c.body 1 0 then respond c stBadField [] s
       else if lodgeLeased s false [] = true then respond c stLeaseHeld [] s else respond c 0 (leBytes 8 v) (putExt lid v u)))) ∧
  (∀ (s : State) (ch tag : Nat) (c : Cmd), Ready s ch tag 0x0209 c → jrnHasRoom s = true →
    let f := fun hi lo => bytesAt c.body hi lo
    exec (.lodgePools ch tag) s = .next (settle s
      (if 1 < f 0 0 then respond c stBadField [] s
       else if f 0 0 = 0 then respond c 0 (poolsRsp s) s
       else if f 15 8 % 0x10000 ≠ 0 ∨ f 17 16 < 1 ∨ 511 < f 17 16 ∨ s.org.mapped < f 15 8 + f 17 16 * 0x10000 ∨ f 19 18 % 1024 ≠ 0 ∨
          f 19 18 < 1024 ∨ f 21 20 % 1024 ≠ 0 ∨ 8192 < f 19 18 + f 21 20 ∨ (f 29 22).testBit 32 = true then respond c stBadField [] s
       else if (liveLodges s).isEmpty = false then respond c stBusy [] s
       else enqueueRec (some c.ord) false (.lodgePools (f 15 8) (f 17 16) (f 19 18) (f 21 20) (f 29 22))
          (setPhase c.ord .committing [] s))))

/-- O42. The IDIST takes its inputs, commits, delivers, refuses, posts and recalls. MSI_MESSAGE fires the source it
names, or is counted late (LID not valid, or another generation) or rejected (outside 1024 to 8191 or the lodge's
block). EXT_IRQ of a pin 0 to 7 changes the pin and drives its source; SOURCE_LEVEL_CHANGE drives an assigned level
source whose input is as it says. DELIVERY_COMMIT moves the rotation pointer, opens the hold-off window, and sends
the best candidate to its hart or posts it; in SAFE or asleep, or with no candidate, nothing changes. HOLDOFF_EXPIRY
closes the group's window at its tick. DELIVER fills the core's slot, or refuses with R387's reason.
DELIVERY_REFUSED returns the oldest refused delivery: counted, the hart's copy mended, posted for reasons 2 and 3,
else PENDING again. POSTED_DOORBELL of a finished posting rings H if ON was 0, and the lodge's OLD_OUT follows.
RECALL of a slot returns what the old hart has not claimed and clears BUSY; it waits for deliveries still on their
way. Here exec answers a next state, on conditions on the state and the operands alone, for: msiMessage, extIrq,
sourceLevelChange, deliveryCommit, holdoffExpiry, deliver, deliveryRefused, postedDoorbell, recall. Rules: R380,
R381, R382, R384, R385, R386, R387, R392, R393, R394, R395. -/
def Obligations.IdistInputsAndDeliveries : Prop :=
  (∀ (s : State) (m : Msg),
    let u := takeNet 0xE4 m s
    let w := idistAttr u m.lid
    let l := u.lodgeSt m.lid
    let dat := m.arg % 8192
    let id := if m.lid = 0 then dat else l.srcBase + dat
    inTransit s 0xE4 m = false → exec (.msiMessage m) s = .next (settle s
      (if attrValid w = false ∨ attrGen w ≠ m.gen then u.incSat .idist Off.IDIST_LATE_DISCARD 31 0
       else if id < 1024 ∨ 8191 < id ∨ (m.lid ≠ 0 ∧ 2 ^ l.log2Src ≤ dat) then u.incSat .idist Off.MSI_REJECT 31 0
       else u.wf .idist (Off.SRC + 8 * id) 32 32 1))) ∧
  (∀ (s : State) (pin : Nat) (high : Bool),
    exec (.extIrq pin high) s = .next (settle s (if 8 ≤ pin then s else driveExt pin (extActive s pin)
      { s with pwr := { s.pwr with extIrq := if high then insNat pin s.pwr.extIrq else s.pwr.extIrq.filter (· != pin) } }))) ∧
  (∀ (s : State) (src : Nat) (b : Bool),
    exec (.sourceLevelChange src b) s = .next (settle s (if levelInput s src = some b then driveLevel src b s else s))) ∧
  (∀ (s : State),
    (∀ id h l, idistRuns s = true → bestSrc s = some (id, .hart h l) →
      exec .deliveryCommit s = .next (settle s (commitTo id h l (commitMoves id s)))) ∧
    (∀ id, idistRuns s = true → bestSrc s = some (id, .post) →
      exec .deliveryCommit s = .next (settle s (postSource id (commitMoves id s)))) ∧
    (idistRuns s = false ∨ bestSrc s = none → exec .deliveryCommit s = .next (settle s s))) ∧
  (∀ (s : State) (g t : Nat), smFind s.idist.holdEnd g = some t →
    exec (.holdoffExpiry g) s = .next (settle s
      { s.toTick t with idist := { (s.toTick t).idist with holdEnd := smDel (s.toTick t).idist.holdEnd g } })) ∧
  (∀ (s : State) (p : Nat) (d : Delivery), s.idist.inFlight.find? (fun d => d.pcn == p) = some d →
    let u : State := { s with idist := { s.idist with inFlight := s.idist.inFlight.erase d } }
    (refusal u d = none → exec (.deliver p) s = .next (settle s { u with idist := { u.idist with slots := u.idist.slots ++ [d] } })) ∧
    (∀ r, refusal u d = some r → exec (.deliver p) s =
      .next (settle s { u with idist := { u.idist with refused := u.idist.refused ++ [(d, r)] } }))) ∧
  (∀ (s : State) (d : Delivery) (r : Nat) (l : List (Delivery × Nat)), s.idist.refused = (d, r) :: l →
    let u := ({ s with idist := { s.idist with refused := l } } : State).incSat .idist Off.REFUSED 31 0
    let v := if r = 4 then setHcopy d.hart d.lvl {} u else setBusy d.hart d.lvl d.fast false (syncLvl d.pcn d.lvl u)
    let lid := srcLid v d.src
    let w := setSrcF d.src 33 33 0 v
    exec .deliveryRefused s = .next (settle s
      (if srcF v d.src 33 33 = 0 then v
       else if (r = 2 ∨ r = 3) ∧ d.virt = true ∧ (!(lid ≠ 0 ∧ attrHold (idistAttr v lid) = true)) then postSource d.src v
       else if isLevelSrc w d.src = true ∧ srcF w d.src 34 34 = 0 then w else setSrcF d.src 32 32 1 w))) ∧
  (∀ (s : State) (v : Nat) (p : Posting), s.idist.postings.find? (fun p => p.slot == v) = some p →
    let u : State := { s with idist := { s.idist with postings := s.idist.postings.erase p } }
    exec (.postedDoorbell v) s = .next (settle s (idistOld p.lid (if p.oldOn = some 0 then
        (let w := sendDoorbell p.slot (fld (vslotCfg u p.slot) 16 9) u
         if p.gen = attrGen (idistAttr w p.lid) then w
         else { w with idist := { w.idist with oldBells := insNat p.slot w.idist.oldBells } }) else u)))) ∧
  (∀ (s : State) (v h lid p : Nat), s.idist.recalls.find? (fun r => r.1 == v) = some (v, h, lid) → mapPcn s h = some p →
    let back := s.idist.slots.filter (fun d => d.pcn == p && d.lvl == .k && d.virt && d.lid == lid)
    let u : State := { s with idist := { s.idist with slots := s.idist.slots.filter (fun d => !back.contains d) } }
    let w := back.foldl (fun s d => takeRefused d 3 s) u
    let moving := s.idist.inFlight.any (fun d => d.pcn == p && d.lid == lid) = true ∨ s.idist.refused.any (fun d => d.1.pcn == p) = true
    (moving → exec (.recall v) s = .next (settle s s)) ∧
    (¬moving → exec (.recall v) s = .next (settle s
      (({ w with idist := { w.idist with recalls := w.idist.recalls.filter (fun r => r.1 != v) } } : State).wf
        .idist (Off.VSLOT_CFG + 16 * v) 18 18 0))))

/-- O43. CLAIM, CPRI_WRITE and EOI at a core; the IO.IRQ commands. CLAIM at the core's oldest instruction, permitted at
its level, returns the FAST slot if full, else the EXT slot, setting the priority's ACTIVE bit and freeing the slot;
at H with both empty a doorbell; else 0; younger instructions execute afresh. CPRI_WRITE and EOI, oldest and with
the stores committed, set LCPRI with RUN recomputed, EOI clearing the priority's ACTIVE bit and ending the source at
the IDIST if it matches (PENDING again for a level source still asserted) and counted as bad otherwise; where not
permitted each takes the illegal-instruction exception; before their turn each changes nothing. Ready IO.IRQ_SRC_SET
writes a source R400 lets be written, SRC_GET answers it, IRQ_TSET and IRQ_GROUP write (unless the IDIST is leased)
or read a target set or a hold-off; other fields fail BAD_FIELD. Here exec answers a next state, on conditions on
the state and the operands alone, for: claim, cpriWrite, eoi, ioIrqSrcSet, ioIrqSrcGet, ioIrqTset, ioIrqGroup.
Rules: R109, R112, R149, R389, R390, R391, R394, R401, R402. -/
def Obligations.ClaimsAndInterruptCommands : Prop :=
  (∀ (s : State) (i : Ins) (l : Lvl) (rd : Nat), atHead s i = true →
    (l ≠ .u → csrPermitted (s.core i.pcn) (claimCsr l) false = true →
      exec (.claim i l rd) s = .next (settle s (completeX i rd (BitVec.ofNat 64 (claimValue i.pcn l s).1) 0
        (flushFrom i.pcn (i.seq + 1) (claimValue i.pcn l s).2)))) ∧
    (l = .u ∨ csrPermitted (s.core i.pcn) (claimCsr l) false = false → exec (.claim i l rd) s = .next (settle s (illegal i s)))) ∧
  (∀ (s : State) (p : Nat) (l : Lvl),
    let slot := fun (f : Bool) => s.idist.slots.find? (fun d => d.pcn == p && d.lvl == l && d.fast == f)
    (∀ d, slot true = some d ∨ (slot true = none ∧ slot false = some d) →
      let u : State := { s with idist := { s.idist with slots := s.idist.slots.erase d } }
      claimValue p l s = (d.src + d.pri <<< 16 + (b2n d.fast) <<< 20 + 1 <<< 21,
        setBusy d.hart l d.fast false (putCpri p l (setFld ((u.core p).csr' (csrBase l + 0xD)) (7 + d.pri) (7 + d.pri) 1) u))) ∧
    (slot true = none → slot false = none → l ≠ .h → claimValue p l s = (0, s)) ∧
    (∀ d h, slot true = none → slot false = none → l = .h → s.idist.doorbells.find? (fun d => d.1 == p) = some d →
      let u : State := { s with idist := { s.idist with doorbells := s.idist.doorbells.erase d } }
      mapHart u p = some h → claimValue p l s = (d.2 + 2 <<< 21, bellTaken d.2 (drainOwed h u)))) ∧
  (∀ (s : State) (i : Ins) (l : Lvl) (v : Word), Oldest s i →
    (max 1 l.num ≤ (s.core i.pcn).lvl.num → csrPermitted (s.core i.pcn) (csrBase l + 0xD) true = true →
      exec (.cpriWrite i l v) s = .next (settle s (complete i 0 (flushFrom i.pcn (i.seq + 1)
        (putCpri i.pcn l (v &&& 0x7FFF0F) (issue i.pcn 0 (bump i.pcn 19 1 (pNow s i.pcn) s))))))) ∧
    (max 1 l.num ≤ (s.core i.pcn).lvl.num → csrPermitted (s.core i.pcn) (csrBase l + 0xE) true = true →
      exec (.eoi i l v) s = .next (settle s (complete i 0 (flushFrom i.pcn (i.seq + 1)
        (eoiWrite i.pcn l v (issue i.pcn 0 (bump i.pcn 19 1 (pNow s i.pcn) s))))))) ∧
    ((s.core i.pcn).lvl.num < max 1 l.num → exec (.cpriWrite i l v) s = .next (settle s (illegal i s)) ∧
      exec (.eoi i l v) s = .next (settle s (illegal i s)))) ∧
  (∀ (s : State) (p h : Nat) (l : Lvl) (v : Word),
    let pri := fld v 19 16
    let id := fld v 12 0
    let w := (s.core p).csr' (csrBase l + 0xD)
    let u := putCpri p l (if pri = 0 then w else setFld w (7 + pri) (7 + pri) 0) s
    let lid := (u.core p).csrF HLID 8 0
    mapHart u p = some h → (u.core p).lvl = .k →
    (eoiMatches u h l id lid = true →
      eoiWrite p l v s = (let x := setSrcF id 33 33 0 u
        let y : State := { x with idist := { x.idist with actLvl := smDel x.idist.actLvl id } }
        if isLevelSrc y id then setSrcF id 32 32 (srcF y id 34 34) y else y)) ∧
    (eoiMatches u h l id lid = false → eoiWrite p l v s = u.incSat .idist Off.EOI_BAD 31 0)) ∧
  (∀ (s : State) (ch tag : Nat) (c : Cmd), Ready s ch tag 0x0520 c →
    let id := bytesAt c.body 1 0
    let v := BitVec.ofNat 64 (bytesAt c.body 7 4)
    let legal := id ≤ 8191 ∧ srcLegal s id v = (true, true, true)
    (legal → exec (.ioIrqSrcSet ch tag) s = .next (settle s (respond c 0 [] (srcWrite id v s)))) ∧
    (¬legal → exec (.ioIrqSrcSet ch tag) s = .next (settle s (respond c stBadField [] s)))) ∧
  (∀ (s : State) (ch tag : Nat) (c : Cmd), Ready s ch tag 0x0521 c →
    exec (.ioIrqSrcGet ch tag) s = .next (settle s
      (if 8191 < bytesAt c.body 1 0 then respond c stBadField [] s
       else respond c 0 (leBytes 8 (s.rd .idist (Off.SRC + 8 * bytesAt c.body 1 0)).toNat) s))) ∧
  (∀ (s : State) (ch tag : Nat) (c : Cmd), Ready s ch tag 0x0522 c →
    let n := bytesAt c.body 0 0
    let mask := fun (t : State) => (List.range 4).flatMap (fun w => leBytes 8 (t.rd .idist (Off.TSET + 32 * n + 8 * w)).toNat)
    let u := (List.range 4).foldl (fun s w =>
      s.wr .idist (Off.TSET + 32 * n + 8 * w) (BitVec.ofNat 64 (bytesAt c.body (15 + 8 * w) (8 + 8 * w)))) s
    exec (.ioIrqTset ch tag) s = .next (settle s
      (if 63 < n ∨ 1 < bytesAt c.body 1 1 then respond c stBadField [] s
       else if bytesAt c.body 1 1 = 1 ∧ s.leased Blk.idist.inst = true then respond c stLeaseHeld [] s
       else if bytesAt c.body 1 1 = 1 then respond c 0 (mask u) u
       else respond c 0 (mask s) s))) ∧
  (∀ (s : State) (ch tag : Nat) (c : Cmd), Ready s ch tag 0x0523 c →
    let g := bytesAt c.body 0 0
    let u := s.wf .idist (Off.GROUP + 8 * g) 15 0 (bytesAt c.body 3 2)
    exec (.ioIrqGroup ch tag) s = .next (settle s
      (if 63 < g ∨ 1 < bytesAt c.body 1 1 then respond c stBadField [] s
       else if bytesAt c.body 1 1 = 1 ∧ s.leased Blk.idist.inst = true then respond c stLeaseHeld [] s
       else if bytesAt c.body 1 1 = 1 then respond c 0 (leBytes 2 (u.rf .idist (Off.GROUP + 8 * g) 15 0)) u
       else respond c 0 (leBytes 2 (s.rf .idist (Off.GROUP + 8 * g) 15 0)) s)))

/-- O44. A root complex routes outbound accesses, matches completions, and checks inbound DMA. OUTBOUND_REQUEST of a
core's access not yet at its port: an own configuration register is read or written, an absent function reads all
ones, an unclaimed address is an Unsupported Request, and an access for a root port waits there and goes in order
while tags are free, or ends at once if its link is down; at a dead port it ends so and is logged. PCIE_COMPLETION
in time and fitting its request ends it (a retried configuration read is sent again); one of a lodge's older
generation is discarded and counted; a late one frees the tag as unexpected, as one that fits nothing is.
COMPLETION_TIMEOUT ends the request with all ones and quarantines its tag; TAG_QUARANTINE_END frees it. INBOUND_READ
and INBOUND_WRITE on a live link: no stream, AT or PASID, HOLD, a write that touches MSI_ADDR and a failed
translation are the DMA faults of R408; a stale lodge is discarded; else the read is asked for line by line and the
write is queued, poisoned with EP. INBOUND_MSI is queued behind the function's writes. ERROR_MESSAGE of kinds 3 and
4 enters the AER registers. Here exec answers a next state, on conditions on the state and the operands alone, for:
outboundRequest, pcieCompletion, completionTimeout, tagQuarantineEnd, inboundRead, inboundWrite, inboundMsi,
errorMessage. Rules: R362, R366, R403, R405, R406, R407, R408, R409, R410, R411, R413. -/
def Obligations.RootComplexTraffic : Prop :=
  (∀ (s : State) (pcn n : Nat) (d : DevAcc), (s.core pcn).dev = some d → outPort s d.pa = n → isRc s n = true → outBusy s n pcn = false →
    ((s.port n).dead = true → exec (.outboundRequest pcn) s =
      .next (settle s (endDev pcn d.write (ones d.size) (deadAccess (portStop n) (portAgent n) (d.pa / 64) s)))) ∧
    ((s.port n).dead = false →
    (∀ p o, outRoute s n d.pa = .own p o → exec (.outboundRequest pcn) s = .next (settle s
      (if d.write then devAck pcn (cfgWrite n p o d.size d.data s) else devData pcn (BitVec.ofNat 64 (cfgRead s n p o d.size)) s))) ∧
    (outRoute s n d.pa = .absent → exec (.outboundRequest pcn) s = .next (settle s (endDev pcn d.write (ones d.size) s))) ∧
    (outRoute s n d.pa = .ur → exec (.outboundRequest pcn) s =
      .next (settle s (endDev pcn d.write (ones d.size) (aerUnc n 0 20 (d.pa % 2 ^ 32) s)))) ∧
    (∀ p a cfg, outRoute s n d.pa = .port p a cfg →
      let u := s.modPort n (fun x => { x with wait := x.wait ++ [outWait p pcn a cfg d] })
      (linkOf s n p = 1 → exec (.outboundRequest pcn) s = .next (settle s (drainWait n (u.port n).wait.length u))) ∧
      (linkOf s n p ≠ 1 → exec (.outboundRequest pcn) s =
        .next (settle s (endDev pcn d.write (ones d.size) (aerUnc n p 20 (a % 2 ^ 32) s))))))) ∧
  (∀ (s : State) (n tag status low : Nat) (l : List Byte) (ep : Bool),
    let all := (s.port n).reqs.find? (fun q => q.tag == tag)
    let live := (s.port n).reqs.find? (fun q => q.tag == tag && !q.quar)
    let late := (s.port n).reqs.find? (fun q => q.tag == tag && q.quar)
    let e := exec (.pcieCompletion n tag status low l ep) s
    (∀ q, all = some q → late = some q → live = none → q.quar = true → s.tick < q.sent + 2 * q.wait →
      e = .next (settle s (lodgeGo
        (tagFree n tag (unexpected n q.rp tag ((lateGen n q s).incSat (portBlk (lateGen n q s) n) Off.RC_UNEXP_CPL 31 0)))))) ∧
    (∀ q, all = some q → live = some q → late = none → s.tick < q.sent + q.wait → q.quar = false →
      let bad := status = 0 ∧ q.write = false ∧ (l.length ≠ q.size ∨ low % 128 ≠ q.addr % 128)
      (bad → e = .next (settle s (lodgeGo (unexpected n q.rp tag (lateGen n q s))))) ∧
      (¬bad → staleReq (lateGen n q s) n q = true → e = .next (settle s (lodgeGo (tagFree n tag (lateGen n q s))))) ∧
      (¬bad → staleReq s n q = false →
        (retried s n q status = true → e = .next (settle s (lodgeGo (sendTlp n (.cfgRd q.rp q.tag q.addr q.size) s)))) ∧
        (∀ p, retried s n q status = false → q.owner = .core p → q.write = false → status = 0 → ep = false →
          e = .next (settle s (lodgeGo
            (let u := tagFree n q.tag s
             devData p (BitVec.ofNat 64 (leNat l)) (bwAdd (portBlk u n) (4 * q.rp + 2) q.size u))))) ∧
        (∀ v r i, retried s n q status = false → q.owner = .ring v r i →
          e = .next (settle s (lodgeGo (ringData v r i q.addr status l ep (tagFree n q.tag s))))))) ∧
    (all = none → e = .next (settle s (lodgeGo (unexpected n 0 tag s))))) ∧
  (∀ (s : State) (n tag : Nat) (q : OutReq),
    ((s.port n).reqs.find? (fun q => q.tag == tag && !q.quar) = some q →
      exec (.completionTimeout n tag) s = .next (settle s (lodgeGo
        (let u := quarReq n tag (unc (portBlk s n) 7 1 (s.toTick (q.sent + q.wait)))
         failReq q 5 (if isRc u n then aerUnc n q.rp 14 0 u else epUnc q.rp 14 0 u))))) ∧
    ((s.port n).reqs.find? (fun q => q.tag == tag && q.quar) = some q →
      exec (.tagQuarantineEnd n tag) s = .next (settle s (lodgeGo (tagFree n tag (s.toTick (q.sent + 2 * q.wait))))))) ∧
  (∀ (s : State) (n p rid tag addr len atype : Nat) (pasid ep : Bool) (l : List Byte) (v : Word), portLive s n p = true →
    (s.rd (.rc n) Off.MSI_ADDR).toNat + 4 ≤ addr ∨ addr + l.length ≤ (s.rd (.rc n) Off.MSI_ADDR).toNat → 0 < len → l ≠ [] →
    let rd := exec (.inboundRead n p rid tag addr len atype pasid) s
    let wr := exec (.inboundWrite n p rid addr atype pasid ep l) s
    let msi := exec (.inboundMsi n p rid v) s
    (streamOf s n p rid = none → rd = .next (settle s (dmaFault n p 0 addr 256 tag false s)) ∧
      wr = .next (settle s (dmaFault n p 0 addr 256 0 true s))) ∧
    (∀ i lid, streamOf s n p rid = some (i, lid) →
      (atype ≠ 0 ∨ pasid = true → rd = .next (settle s (dmaFault n p 0 addr i tag false s)) ∧
        wr = .next (settle s (dmaFault n p 0 addr i 0 true s))) ∧
      (atype = 0 → pasid = false → attrValid (portAttr s n lid) = false →
        rd = .next (settle s (dmaStale n p tag false s)) ∧ wr = .next (settle s (dmaStale n p 0 true s))) ∧
      (attrValid (portAttr s n lid) = true →
        msi = .next (settle s (portGo n (queuePiece n ⟨p * 65536 + rid, p, lid, none, false⟩ (.msi (fld v 31 0)) id s).2))) ∧
      (atype = 0 → pasid = false → attrValid (portAttr s n lid) = true →
        (attrHold (portAttr s n lid) = true → rd = .next (settle s (dmaFault n p 3 addr i tag false s)) ∧
          wr = .next (settle s (dmaFault n p 3 addr i 0 true s))) ∧
        (attrHold (portAttr s n lid) = false →
          (∀ k u, portXlate n lid addr len false s = (.error k, u) → rd = .next (settle s (dmaFault n p k addr i tag false u))) ∧
          (∀ pa u, portXlate n lid addr len false s = (.ok pa, u) →
            rd = .next (settle s (portGo n (queueRead n ⟨p * 65536 + rid, p, lid, none, false⟩ tag addr pa len false u)))) ∧
          (∀ k u, portXlate n lid addr l.length true s = (.error k, u) → wr = .next (settle s (dmaFault n p k addr i 0 true u))) ∧
          (∀ pa u, portXlate n lid addr l.length true s = (.ok pa, u) →
            let w := bwAdd (.rc n) (4 * p + 1) l.length (unc (.rc n) 2 1 u)
            wr = .next (settle s (portGo n (queueWrite n ⟨p * 65536 + rid, p, lid, none, ep⟩ pa l
              (if ep then aerUnc n p 12 (addr % 2 ^ 32) w else w)).2))))))) ∧
  (∀ (s : State) (n p bit rid hdr : Nat), isRc s n = true → p < 4 → portLanes s n p ≠ 0 → bit < 32 →
    exec (.errorMessage n p 3 bit rid hdr) s = .next (settle s (aerUnc n p bit hdr s)) ∧
    exec (.errorMessage n p 4 bit rid hdr) s = .next (settle s (aerCor n p bit s)))

/-- O45. Root-port links go up, down and through reset; the IO commands set up a root complex. LINK_UP of a legal speed
and width on a root port that exists with PERST# released shows the link up, with a slot event, or, on a link that
is up, a bandwidth notification. LINK_DOWN of a link that is up is a surprise: its error is logged, its outstanding
work ends, and the slot shows it. PERST_RELEASE ends the hold at its tick, starts training, and answers the
IO.PORT_RESET that waits for it. Ready IO.RC_CFG shows, or journals, the bifurcation and the default-stream bit
(BUSY if it changes and the ports are not quiet); STREAM_SET writes a stream entry of a lodge the channel owns,
STREAM_GET answers one; PORT_RESET of an existing root port for 100 to 1,000 ms starts a reset; DMA_FAULTS answers
up to 12 records, removing them, and the count lost. Other fields fail BAD_FIELD, another's lodge BAD_LID, a leased
instance LEASE_HELD. Here exec answers a next state, on conditions on the state and the operands alone, for: linkUp,
linkDown, perstRelease, ioRcCfg, ioStreamSet, ioStreamGet, ioPortReset, ioDmaFaults. Rules: R403, R404, R408, R412,
R414, R415, R416, R418, R419, R420. -/
def Obligations.RootPortLinksAndCommands : Prop :=
  (∀ (s : State) (n p speed width : Nat), isRc s n = true → p < 4 → perstOf s n p = false → linkOf s n p ≠ 3 → 1 ≤ speed → speed ≤ 6 →
    width ∈ [1, 2, 4, 8, 16] → width ≤ portLanes s n p →
    let u := s.wr (.rc n) (Off.PORT_STATE + 8 * p) (BitVec.ofNat 64 (1 + speed <<< 2 + width <<< 5 + 1 <<< 11))
    exec (.linkUp n p speed width) s = .next (settle s
      (if linkOf s n p = 1 then portIrqs n (cfgOr n p 0x1010 (2 ^ 30) u) else slotEvent n p true u))) ∧
  (∀ (s : State) (n p : Nat),
    (portLive s n p = true → exec (.linkDown n p) s = .next (settle s
      (slotEvent n p false (endPort n p (aerUnc n p 5 0 (s.wr (.rc n) (Off.PORT_STATE + 8 * p) 0)))))) ∧
    (portLive s n p = false → exec (.linkDown n p) s = .next (settle s s))) ∧
  (∀ (s : State) (n p t : Nat), smFind (s.port n).perstDue p = some t → portLanes s n p ≠ 0 →
    let u := ((s.toTick t).modPort n (fun x => { x with perstDue := smDel x.perstDue p })).wr (.rc n) (Off.PORT_STATE + 8 * p) 2
    (∀ c l, u.sett.cmds.filter (fun c => c.opcode == 0x0504 && c.phase == .running && c.aux == [4 * n + p]) = c :: l →
      exec (.perstRelease n p) s = .next (settle s (l.foldl (fun s c => respond c 0 [] s) (respond c 0 [] u)))) ∧
    (u.sett.cmds.filter (fun c => c.opcode == 0x0504 && c.phase == .running && c.aux == [4 * n + p]) = [] →
      exec (.perstRelease n p) s = .next (settle s u))) ∧
  (∀ (s : State) (ch tag n : Nat) (c : Cmd), Ready s ch tag 0x0501 c → jrnHasRoom s = true → bytesAt c.body 0 0 = n → isRc s n = true →
    let f := fun k => bytesAt c.body k k
    exec (.ioRcCfg ch tag) s = .next (settle s
      (if f 1 = 0 then respond c 0 (rcCfgRsp s n) s
       else if 1 < f 1 ∨ 4 < f 2 ∨ 1 < f 3 ∨ (n = 8 ∧ f 2 ≠ 0) then respond c stBadField [] s
       else if s.leased (Blk.rc n).inst = true then respond c stLeaseHeld [] s
       else if f 2 ≠ rcBifurc s n ∧ rcQuiet s n = false then respond c stBusy [] s
       else enqueueRec (some c.ord) false (.rcBifurc n (BitVec.ofNat 64 (f 2 + 256 * f 3))) (setPhase c.ord .committing [] s)))) ∧
  (∀ (s : State) (ch tag n : Nat) (c : Cmd), Ready s ch tag 0x0502 c → bytesAt c.body 0 0 = n → isRc s n = true →
    let v := BitVec.ofNat 64 (bytesAt c.body 15 8)
    let lid := fld v 43 35
    exec (.ioStreamSet ch tag) s = .next (settle s
      (if 2 ^ 44 ≤ bytesAt c.body 15 8 then respond c stBadField [] s
       else if lid ≠ 0 ∧ ((s.lodgeSt lid).state = .free ∨ (s.lodgeSt lid).ownedBy c.ch = false) then respond c stBadLid [] s
       else if s.leased (Blk.rc n).inst = true then respond c stLeaseHeld [] s
       else respond c 0 [] (s.wr (.rc n) (Off.STREAM + 8 * bytesAt c.body 1 1) v)))) ∧
  (∀ (s : State) (ch tag n : Nat) (c : Cmd), Ready s ch tag 0x0503 c → bytesAt c.body 0 0 = n → isRc s n = true →
    let i := bytesAt c.body 1 1
    exec (.ioStreamGet ch tag) s = .next (settle s (respond c 0
      (leBytes 8 (streamReg s n i).toNat ++ leBytes 4 (s.rf (.rc n) (Off.SFAULT_CNT + 4 * i) 31 0)) s))) ∧
  (∀ (s : State) (ch tag : Nat) (c : Cmd), Ready s ch tag 0x0504 c →
    let g := bytesAt c.body 0 0
    let hold := bytesAt c.body 3 2
    exec (.ioPortReset ch tag) s = .next (settle s
      (if 32 ≤ g ∨ hold < 100 ∨ 1000 < hold then respond c stBadField [] s
       else if portLanes s (g / 4) (g % 4) = 0 then respond c stBusy [] s
       else if s.leased (portBlk s (g / 4)).inst = true then respond c stLeaseHeld [] s
       else setPhase c.ord .running [g] (portReset (g / 4) (g % 4) (hold * ms) s)))) ∧
  (∀ (s : State) (ch tag n : Nat) (c : Cmd), Ready s ch tag 0x0505 c → bytesAt c.body 0 0 = n → isRc s n = true →
    let r := takeFaults n 12 s
    exec (.ioDmaFaults ch tag) s = .next (settle s (respond c 0
      (leBytes 8 r.1.length ++ ((r.1.flatMap (fun w => leBytes 8 w.toNat)) ++ leBytes 96 0).take 96 ++
        leBytes 4 (r.2.rf (.rc n) Off.RC_FAULT_LOST 31 0)) r.2))) ∧
  (∀ (s : State) (ch tag op : Nat) (c : Cmd), Ready s ch tag op c → isRc s (bytesAt c.body 0 0) = false →
    (op = 0x0501 → exec (.ioRcCfg ch tag) s = .next (settle s (respond c stBadField [] s))) ∧
    (op = 0x0502 → exec (.ioStreamSet ch tag) s = .next (settle s (respond c stBadField [] s))) ∧
    (op = 0x0503 → exec (.ioStreamGet ch tag) s = .next (settle s (respond c stBadField [] s))) ∧
    (op = 0x0505 → exec (.ioDmaFaults ch tag) s = .next (settle s (respond c stBadField [] s))))

/-- O46. The partner's window and mailbox requests are served; ring descriptors start and complete. While the twin link
is up: PF0_MAILBOX_ACCESS of 1 to 64 bytes inside channel 3's mailbox reads or writes it, and other sizes end as an
Unsupported Request in PF0's AER; VF_WINDOW_REQUEST on an enabled function is the fault of kind 0 if it is unbound,
4 if no live window holds it, 3 under HOLD, or of the translation, and otherwise is read or written line by line for
the window and its generation at the match. WIN_COMMIT_DRAIN clears BUSY when no request of an older generation of a
committed window is left, and nothing else. VF_RAISE of a bound function posts its source. DESCRIPTOR_START on a
running, unheld ring with one pending and fewer than 8 in progress, none a FENCE, waits for its turn in the engine's
rotation (R433) and then fetches it: a local fault or a malformed one halts the ring, else it issues.
DESCRIPTOR_COMPLETE of one whose work is done fires its local source and its vector, and HEAD passes the completed
ones that lead; it does nothing while the work, or an earlier one that a FENCE, a NOTIFY or a vector waits for, is
open. Here exec answers a next state, on conditions on the state and the operands alone, for: pf0MailboxAccess,
vfWindowRequest, winCommitDrain, vfRaise, descriptorStart, descriptorComplete. Rules: R424, R425, R426, R427, R429,
R430, R431, R432, R434, R444. -/
def Obligations.PartnerRequestsAndRingDescriptors : Prop :=
  (∀ (s : State) (wr : Bool) (off len tag : Nat) (l : List Byte), twinUp s = true →
    let n := if wr then l.length else len
    (s.pf0.d3 = false → 0 < n → n ≤ 64 → off + n ≤ 0x2000 →
      let u := bwAdd .tp 0 n s
      (wr = true → exec (.pf0MailboxAccess wr off len tag l) s = .next (settle s (unc .tp 2 1 (settWr (mboxBase 3 + off) l u)))) ∧
      (wr = false → exec (.pf0MailboxAccess wr off len tag l) s = .next (settle s (unc .tp 1 1
        (sendTlp 8 (.cpl 0 tag 0 (settRd u (mboxBase 3 + off) n) (cohPoison u (mboxBase 3 + off) n)) u))))) ∧
    (s.pf0.d3 = true ∨ n = 0 ∨ 64 < n ∨ 0x2000 < off + n → exec (.pf0MailboxAccess wr off len tag l) s =
      .next (settle s (let u := epUnc 0 20 (off % 2 ^ 32) s; if wr then u else sendTlp 8 (.cpl 0 tag 1 [] false) u)))) ∧
  (∀ (s : State) (v off len tag : Nat) (wr ep : Bool) (l : List Byte), isVf v = true → twinUp s = true → vfEnabled s v = true →
    (s.vf v).d3 = false → off < 2 ^ 36 →
    let n := if wr then l.length else len
    let w := off / 2 ^ 34
    let o := off % 2 ^ 34
    let live := winLive s v w
    let sz := fld live 6 1
    let e := exec (.vfWindowRequest v off len tag wr ep l) s
    0 < n →
    (vfLid s v = none → e = .next (settle s (winFault 0 v off tag wr s))) ∧
    (∀ lid, vfLid s v = some lid →
      (bitOf live 0 = false ∨ 2 ^ sz < o + n → e = .next (settle s (winFault 4 v off tag wr s))) ∧
      (bitOf live 0 = true → o + n ≤ 2 ^ sz → attrValid (portAttr s 8 lid) = true →
        (attrHold (portAttr s 8 lid) = true → e = .next (settle s (winFault 3 v off tag wr s))) ∧
        (attrHold (portAttr s 8 lid) = false →
          let g := fld live 47 12 * 4096 / 2 ^ sz * 2 ^ sz + o
          (∀ k u, portXlate 8 lid g n wr s = (.error k, u) → e = .next (settle s (winFault k v off tag wr u))) ∧
          (∀ pa u, portXlate 8 lid g n wr s = (.ok pa, u) →
            let q : Inbound := ⟨v, v, lid, some (v, w, winGen u v w), ep⟩
            (wr = true → e = .next (settle s (portGo 8 (queueWrite 8 q pa l
              (let x := bwAdd .tp (2 * v) n (unc .tp 2 1 u); if ep then epUnc v 12 (off % 2 ^ 32) x else x)).2))) ∧
            (wr = false → e = .next (settle s (portGo 8 (queueRead 8 q tag off pa n true u))))))))) ∧
  (∀ (s : State) (v : Nat),
    (isVf v = true → s.rf (.vf v) Off.WIN_COMMIT 4 4 ≠ 0 → oldWindow s v (s.vf v).commit = false →
      exec (.winCommitDrain v) s = .next (settle s ((s.wf (.vf v) Off.WIN_COMMIT 4 4 0).modVf v (fun x => { x with commit := 0 })))) ∧
    (oldWindow s v (s.vf v).commit = true → exec (.winCommitDrain v) s = .next (settle s s))) ∧
  (∀ (s : State) (v index lid : Nat), isVf v = true → twinUp s = true → vfEnabled s v = true → (s.vf v).d3 = false → vfLid s v = some lid →
    exec (.vfRaise v index) s =
      .next (settle s (portGo 8 (queuePiece 8 ⟨v, v, lid, none, false⟩ (.raise (index % 1024)) id s).2))) ∧
  (∀ (s : State) (v r lid : Nat), isVf v = true → r < 2 → twinEp s = true → vfLid s v = some lid → ringState s v r = 1 → ringHeld s v = false →
    (s.vf v).next r ≠ ringTail s v r → (((s.vf v).prog r).filter (fun d => !d.complete)).length < 8 →
    (((s.vf v).prog r).filter (fun d => !d.complete)).any (fun d => d.op == 4) = false →
    (fetchTurn s v r = false → exec (.descriptorStart v r) s = .next (settle s s)) ∧
    (fetchTurn s v r = true →
      let i := (s.vf v).next r
      let w := slotTaken 8 (some (pairOf v r)) s
      let g := w.rf (.vf v) (Off.RING_BASE + 0x20 * r) 47 5 * 32 + 32 * (i % ringN w v r)
      (∀ c u, localRead lid 2 g 32 w = (.error c, u) → exec (.descriptorStart v r) s = .next (settle s (haltRing v r c u))) ∧
      (∀ b u, localRead lid 2 g 32 w = (.ok b, u) →
        (descBad b = true → exec (.descriptorStart v r) s = .next (settle s (haltRing v r 1 u))) ∧
        (descBad b = false → exec (.descriptorStart v r) s = .next (settle s (issueDesc v r lid i b u)))) ∧
      (∀ b u, localRead lid 2 g 32 w = (.ok b, u) → descBad b = false → 3 < bytesAt b 0 0 % 8 →
        exec (.descriptorStart v r) s = .next (settle s (u.modVf v (fun x =>
          (x.setProg r (x.prog r ++ [⟨i, bytesAt b 0 0 % 8, bytesAt b 1 1, bytesAt b 3 2, 0, bytesAt b 15 8, bytesAt b 23 16, 0, 0, [], false⟩])).setNext r
            ((i + 1) % (2 * ringN u v r)))))))) ∧
  (∀ (s : State) (v r i : Nat) (d : Desc), isVf v = true → r < 2 →
    ((s.vf v).prog r).find? (fun d => d.idx == i && !d.complete) = some d →
    let earlier := (((s.vf v).prog r).takeWhile (fun x => x.idx != i)).all (·.complete)
    let lid := (vfLid s v).getD 0
    (descWorkDone s d = false ∨ ((d.op = 4 ∨ d.op = 5 ∨ d.flags / 4 % 2 = 1) ∧ earlier = false) →
      exec (.descriptorComplete v r i) s = .next (settle s (lodgeGo s))) ∧
    (descWorkDone s d = true → earlier = true → ringHeld s v = false →
      let s1 := unc .tp 13 1 s
      let s2 := if d.flags / 2 % 2 = 1 then
          portPost 8 0xE4 { agent := portAgent 8, line := 0, lid := lid, gen := attrGen (portAttr s1 8 lid), arg := d.src % 8192 } s1
        else s1
      let s3 := if d.flags / 4 % 2 = 1 then vfVector v (d.flags / 8 % 4) s2 else s2
      exec (.descriptorComplete v r i) s =
        .next (settle s (lodgeGo (advanceHead v r (setDesc v r i (fun d => { d with complete := true }) s3))))))

/-- O47. The twin link goes up and is lost; functions are configured and reset; HEARTBEAT counts. TWIN_LINK_UP in a mode
that allows it, with channel 3 open and PERST# released, shows speed and width and sends the event; TWIN_PERST_N
asserted and TWIN_LINK_LOSS of an up link are partner losses, in which PF0 keeps only its HEARTBEAT and the link is
down. Partner configuration writes set Bus Master, D3hot and MSI-X enables, and clear AER bits, of an enabled
function, whose rings follow; for PF0 also NumVFs while VF Enable is 0, MPS, MRRS and the completion timeout; VF
Enable cleared resets PF0 and every function. PARTNER_FLR resets a function, or all through PF0; FLR_COMPLETE ends
the reset and answers the IO.TWIN_VF_RESET that waits for it. HEARTBEAT_TICK, while the Sett serves, adds one at the
next multiple of 1,000 microseconds. Ready IO.TWIN_INFO answers mode, link and HEARTBEAT; IO.TWIN_VF_RESET starts
the reset of a function bound to a lodge the channel owns, and fails NO_TARGET in root mode, BAD_FIELD for an
unbound one, DENIED for another's, LEASE_HELD while the port is leased (log entry 11). Here exec answers a next
state, on conditions on the state and the operands alone, for: twinLinkUp, twinPerstN, twinLinkLoss,
partnerConfigWrite, partnerFlr, flrComplete, heartbeatTick, ioTwinInfo, ioTwinVfReset. Rules: R425, R435, R436,
R437, R438, R439, R441, R445, R446. -/
def Obligations.TwinLinkFunctionsAndHeartbeat : Prop :=
  (∀ (s : State) (speed width : Nat), twinEp s = true → s.chState 3 ≠ 0 → s.pwr.twinPerst = false → twinMode s = true →
    s.rf .tp Off.TP_LINK 1 0 ≠ 1 → 1 ≤ speed → speed ≤ 6 → width ∈ [1, 2, 4, 8, 16] →
    exec (.twinLinkUp speed width) s = .next (settle s (emit [0, 1] 0x0580 0 0 (leBytes 1 1 ++ leBytes 1 0)
      (portIrqs 8 ((s.wf .tp Off.TP_LINK 9 0 (1 + speed <<< 2 + width <<< 5)).wf .tp Off.TP_LINK 18 18 1))))) ∧
  (∀ (s : State), twinEp s = true →
    let u := fun b => ({ s with pwr := { s.pwr with twinPerst := b } } : State).wf .tp Off.TP_LINK 10 10 (b2n b)
    exec (.twinPerstN true) s = .next (settle s (twinLoss 0 (u true))) ∧
    exec (.twinPerstN false) s = .next (settle s (u false)) ∧
    (∀ c, s.rf .tp Off.TP_LINK 1 0 = 1 → c = 1 ∨ c = 2 → exec (.twinLinkLoss c) s = .next (settle s (twinLoss c s))) ∧
    (∀ c, s.rf .tp Off.TP_LINK 1 0 ≠ 1 → exec (.twinLinkLoss c) s = .next (settle s s))) ∧
  (∀ (s : State) (b : Bool) (n : Nat), twinUp s = true →
    let pf0 := fun f => exec (.partnerConfigWrite 0 f) s
    let put := fun (p : Pf0) => (.next (settle s { s with pf0 := p }) : Host.Outcome State Fault Refusal)
    pf0 (.busMaster b) = put { s.pf0 with bme := b } ∧ pf0 (.d3hot b) = put { s.pf0 with d3 := b } ∧
    pf0 (.msixEnable b) = put { s.pf0 with msixEn := b } ∧
    pf0 (.vfEnable true) = .next (settle s (twinRefresh (s.wf .tp Off.TP_LINK 17 17 1))) ∧
    (s.rf .tp Off.TP_LINK 17 17 = 1 → pf0 (.vfEnable false) =
      .next (settle s (allVfs.foldl (fun s v => startFlr v s)
        (twinRefresh (({ s with pf0 := { heartbeat := s.pf0.heartbeat } } : State).wf .tp Off.TP_LINK 17 11 0))))) ∧
    (s.rf .tp Off.TP_LINK 17 17 ≠ 1 → n ≤ 63 → pf0 (.numVfs n) = .next (settle s (twinRefresh (s.wf .tp Off.TP_LINK 16 11 n)))) ∧
    (s.rf .tp Off.TP_LINK 17 17 = 1 → pf0 (.numVfs n) = .next (settle s s)) ∧
    (n ∈ [128, 256, 512] → pf0 (.mps n) = put { s.pf0 with mps := n }) ∧
    (n ∈ [128, 256, 512, 1024, 2048, 4096] → pf0 (.mrrs n) = put { s.pf0 with mrrs := n }) ∧
    (n ∈ [0, 1, 2, 5, 6, 9, 10, 13, 14] → pf0 (.cto n) = put { s.pf0 with ctoEnc := n })) ∧
  (∀ (s : State) (v m : Nat) (b : Bool), twinUp s = true → isVf v = true → vfEnabled s v = true →
    let vf := fun f => exec (.partnerConfigWrite v f) s
    vf (.busMaster b) = .next (settle s (vfRefresh v (s.modVf v (fun x => { x with bme := b })))) ∧
    vf (.d3hot b) = .next (settle s (vfRefresh v (s.modVf v (fun x => { x with d3 := b })))) ∧
    vf (.msixEnable b) = .next (settle s (s.modVf v (fun x => { x with msixEn := b }))) ∧
    vf (.aerClear m) = .next (settle s (s.modVf v (fun x => { x with aer := { x.aer with unc := x.aer.unc - (x.aer.unc &&& m) } }))) ∧
    vf (.corClear m) = .next (settle s (s.modVf v (fun x => { x with aer := { x.aer with cor := x.aer.cor - (x.aer.cor &&& m) } })))) ∧
  (∀ (s : State) (v : Nat), twinUp s = true →
    exec (.partnerFlr 0) s = .next (settle s
      (allVfs.foldl (fun s v => startFlr v s)
        (twinRefresh (({ s with pf0 := { heartbeat := s.pf0.heartbeat } } : State).wf .tp Off.TP_LINK 17 11 0)))) ∧
    (isVf v = true → exec (.partnerFlr v) s = .next (settle s (startFlr v s)))) ∧
  (∀ (s : State) (v t : Nat), (s.vf v).flr = some t →
    let u := (s.modVf v (fun x => { x with flr := none })).wf (.vf v) Off.VF_CTL 2 2 0
    (∀ c l, u.sett.cmds.filter (fun c => c.opcode == 0x0541 && c.phase == .running && c.aux == [v]) = c :: l →
      exec (.flrComplete v) s = .next (settle s (lodgeGo (l.foldl (fun s c => respond c stOk [] s) (respond c stOk [] u))))) ∧
    (u.sett.cmds.filter (fun c => c.opcode == 0x0541 && c.phase == .running && c.aux == [v]) = [] →
      exec (.flrComplete v) s = .next (settle s (lodgeGo u)))) ∧
  (∀ (s : State), s.sett.timeStill = false → s.rf .sett Off.SETT_STATE 1 0 = 1 → twinEp s = true →
    let u := s.toTick (s.tickOfTime ((s.settTime / 1000 + 1) * 1000))
    exec .heartbeatTick s = .next (settle s { u with pf0 := { u.pf0 with heartbeat := (s.pf0.heartbeat + 1) % 2 ^ 64 } })) ∧
  (∀ (s : State) (ch tag op v : Nat) (c : Cmd), Ready s ch tag op c →
    (op = 0x0540 → exec (.ioTwinInfo ch tag) s = .next (settle s (respond c stOk
      (leBytes 1 (b2n s.pwr.tpRoot) ++ leBytes 1 (s.rf .tp Off.TP_LINK 1 0) ++ leBytes 1 (s.rf .tp Off.TP_LINK 4 2) ++
        leBytes 1 (s.rf .tp Off.TP_LINK 9 5) ++ leBytes 1 (s.rf .tp Off.TP_LINK 16 11) ++ leBytes 1 (s.rf .tp Off.TP_LINK 17 17) ++
        leBytes 2 0 ++ leBytes 8 (vfHaltedBits s) ++ leBytes 8 s.pf0.heartbeat) s))) ∧
    (op = 0x0541 → bytesAt c.body 0 0 = v →
      (s.pwr.tpRoot = true → exec (.ioTwinVfReset ch tag) s = .next (settle s (respond c stNoTarget [] s))) ∧
      (s.pwr.tpRoot = false → isVf v = false ∨ vfLid s v = none →
        exec (.ioTwinVfReset ch tag) s = .next (settle s (respond c stBadField [] s))) ∧
      (∀ l, s.pwr.tpRoot = false → isVf v = true → vfLid s v = some l → exec (.ioTwinVfReset ch tag) s = .next (settle s
        (if (s.lodgeSt l).ownedBy c.ch = false then respond c stDenied [] s
         else if s.leased Blk.tp.inst = true then respond c stLeaseHeld [] s
         else setPhase c.ord .running [v] (startFlr v s))))))

/-- O48. Hoard banks are owned, cleared and marched, and a failing bank moves to the spare. HOARD_CLEAR_END of a bank
being cleared leaves it all zero, open if it has an owner and closed if not, and answers the MEM.HOARD_OWNER that
waits. MARCH_END of a running march zeroes the bank unless the march was transparent and restores its state; with no
failure it is over; with one, RESULT names the first failing line and the sub-arrays, and the spare takes the bank
over (after the copy, for a transparent march), or the bank has failed if there is no spare. HOARD_SPARE_COPY_END
reads every line of the bank through its checker, then spares it. Ready MEM.HOARD_OWNER reads the owner, or writes
it and starts a clear if asked: bad fields fail BAD_FIELD, the Sett's kind, bank 32, a lodge or twin's bank for
channel 1, and a change to or from a lodge DENIED, a leased stop LEASE_HELD. MEM.HOARD_MARCH starts a march:
BAD_FIELD, LEASE_HELD, BUSY while one or a copy runs at the stop, DENIED where R457 refuses it. Here exec answers a
next state, on conditions on the state and the operands alone, for: hoardClearEnd, marchEnd, hoardSpareCopyEnd,
memHoardOwner, memHoardMarch. Rules: R452, R453, R454, R456, R457, R458, R459, R460, R461. -/
def Obligations.HoardBanksOwnersClearsAndMarches : Prop :=
  (∀ (s : State) (b : Nat), (s.hoard (b / 16)).clears.contains b = true →
    let u := settleBank b (setBankSt b 1 (zeroBank b (s.modHoard (b / 16) (fun h => { h with clears := h.clears.filter (· != b) }))))
    (∀ c, u.sett.cmds.find? (fun c => c.opcode == 0x0370 && c.phase == .running && c.aux == [b]) = some c →
      exec (.hoardClearEnd b) s = .next (settle s (lodgeGo (respond c stOk (leBytes 4 (ownerReg u b).toNat ++ leBytes 1 (bankSt u b)) u)))) ∧
    (u.sett.cmds.find? (fun c => c.opcode == 0x0370 && c.phase == .running && c.aux == [b]) = none →
      exec (.hoardClearEnd b) s = .next (settle s (lodgeGo u)))) ∧
  (∀ (s : State) (n b t : Nat) (bad : Option (Nat × Nat)), (s.hoard n).march = some (b, t) →
    let trans := s.rf (.hoard n) Off.MARCH_CTL 4 4 = 1
    let u := settleBank b (setBankSt b 1 (if trans then s.modHoard n (fun h => { h with march := none })
      else zeroBank b (s.modHoard n (fun h => { h with march := none }))))
    (bad = none → exec (.marchEnd n bad) s = .next (settle s (marchOver n u))) ∧
    (∀ ln subs, bad = some (ln, subs) →
      let v := ((u.wf (.hoard n) Off.MARCH_RESULT 1 1 1).wf (.hoard n) Off.MARCH_RESULT 21 8 ln).wf (.hoard n) Off.MARCH_RESULT 29 22 subs
      let spare := v.rf (.hoard n) Off.SPARE 4 4 = 0 ∧ v.rf (.hoard n) Off.SPARE 24 24 = 0
      (spare → trans → exec (.marchEnd n bad) s = .next (settle s (v.modHoard n (fun h => { h with copy := some b })))) ∧
      (spare → ¬trans → exec (.marchEnd n bad) s = .next (settle s (marchOver n (sparing n b true v)))) ∧
      (¬spare → exec (.marchEnd n bad) s = .next (settle s (marchOver n (sparing n b false v)))))) ∧
  (∀ (s : State) (n b : Nat), (s.hoard n).copy = some b →
    let u := s.modHoard n (fun h => { h with copy := none })
    let ls := (u.flips.filter (fun f => f.checker == 2 && f.inst == (Blk.hoard n).stop + 4 * 256 && hbankOf f.key == b)).map (·.key)
    exec (.hoardSpareCopyEnd n) s = .next (settle s (marchOver n (sparing n b true (ls.foldl (fun s ln => (hoardLine ln s).2) u))))) ∧
  (∀ (s : State) (ch tag b kind id : Nat) (c : Cmd), Ready s ch tag 0x0370 c → bytesAt c.body 0 0 = b → bytesAt c.body 2 2 = kind →
    bytesAt c.body 4 3 = id → (bytesAt c.body 1 1 ≠ 1 ∨ bytesAt c.body 5 5 / 2 % 2 ≠ 1 ∨ bankSt s b < 2) →
    let done := fun (t : State) => respond c stOk (leBytes 4 (ownerReg t b).toNat ++ leBytes 1 (bankSt t b)) t
    let u := setOwner b (BitVec.ofNat 64 (kind + id * 8 + (bytesAt c.body 5 5 % 2) * 4096)) s
    exec (.memHoardOwner ch tag) s = .next (settle s
      (if 64 ≤ b ∨ 1 < bytesAt c.body 1 1 then respond c stBadField [] s
       else if bytesAt c.body 1 1 = 0 then done s
       else if 4 < kind ∨ (kind = 3 ∧ 512 ≤ id) ∨ (kind = 4 ∧ 8 < id) ∨ (kind < 3 ∧ id ≠ 0) then respond c stBadField [] s
       else if kind = 1 ∨ b = 32 ∨ (c.ch = 1 ∧ ch1MayOwn s b = false) then respond c stDenied [] s
       else if (kind = 3) ≠ (ownerKind s b = 3) ∨ (kind = 3 ∧ id ≠ ownerId s b) then respond c stDenied [] s
       else if s.leased (bankBlk b).inst = true then respond c stLeaseHeld [] s
       else if bytesAt c.body 5 5 / 2 % 2 = 1 then setPhase c.ord .running [b] (startClear b u)
       else done u))) ∧
  (∀ (s : State) (ch tag b algo : Nat) (c : Cmd), Ready s ch tag 0x0371 c → bytesAt c.body 0 0 = b → bytesAt c.body 1 1 = algo →
    exec (.memHoardMarch ch tag) s = .next (settle s
      (if 64 ≤ b ∨ 1 < algo then respond c stBadField [] s
       else if s.leased (bankBlk b).inst = true then respond c stLeaseHeld [] s
       else if (s.hoard (b / 16)).march.isSome = true ∨ (s.hoard (b / 16)).copy.isSome = true then respond c stBusy [] s
       else if marchRefused s b algo = true then respond c stDenied [] s
       else setPhase c.ord .running [b, s.tick] (startMarch (b / 16) (b % 16) algo s))))

/-- O49. A fault report is captured, latched and reacted to; the FAULT commands show and set it. On a chip neither OFF
nor held, FAULT_REPORT of a legal class by a unit that is on counts the report, captures it if the capture is free
or of lower severity, latches class, severity and LAST, lets the sparing map follow, and takes the actions of its
REACT byte; a class or severity that does not exist changes nothing. DOMAIN_DOWN_LINE that was driven and OWL_SELF
lead to SAFE with causes 1 and 2. WARM_WINDOW_EXPIRY sets the count of WARM actions to 0 when its window closes.
Ready FAULT.STATUS answers the Owl's registers; FAULT.CLEAR clears the classes named and their severities; REACT
reads or writes an action word, BAD_FIELD for reserved bits or FENCE on a class it cannot fence; DETAIL answers a
capture and its counts, and clears the capture if asked; INJECT writes the injection register, its reserved bits 0,
of a checker that the unit has, WRONG_MODE for checkers 15 and 16 outside DIAGNOSTIC; CTL reads or sets the limit, 1
to 15. A leased instance answers LEASE_HELD. Here exec answers a next state, on conditions on the state and the
operands alone, for: faultReport, domainDownLine, owlSelf, warmWindowExpiry, faultStatus, faultClear, faultReact,
faultDetail, faultInject, faultCtl. Rules: R484, R485, R486, R487, R488, R489, R490, R491, R492, R494, R496, R497. -/
def Obligations.ReportsReactionsAndFaultCommands : Prop :=
  (∀ (s : State) (inst cls sev checker line index agent synd : Nat), s.modeFlag 0 = false → s.pwr.coldHeld = false →
    let r0 : Report := { inst := inst, cls := cls, sev := sev, checker := checker, line := line, index := index, agent := agent, syndrome := synd }
    let same := fun (x : Report) => { x with how := 0 } == { r0 with how := 0 }
    let e := exec (.faultReport inst cls sev checker line index agent synd) s
    (classOk cls = true → sev ≤ 3 → unitOn s inst = true →
      let r := (s.owl.flits.find? same).getD r0
      let u := { s with owl := { s.owl with flits := delFirst same s.owl.flits } }
      let x := capture r u
      let l := latchReport r x.2
      e = .next (settle s (takeActions r x.1 l.1 (if l.2.serving then mapReport r l.2 else l.2)))) ∧
    (classOk cls = false ∨ 3 < sev → e = .next (settle s s))) ∧
  (∀ (s : State), s.modeFlag 0 = false → s.pwr.coldHeld = false →
    (s.owl.domainDown = true → exec .domainDownLine s =
      .next (settle s (wireReport 0 1 { s with owl := { s.owl with domainDown := false } }))) ∧
    (s.owl.domainDown = false → exec .domainDownLine s = .next (settle s s)) ∧
    exec .owlSelf s = .next (settle s (wireReport 1 2 s))) ∧
  (∀ (s : State) (w : Nat),
    (s.owl.warmFrom = some w → s.sett.timeStill = false →
      let u := s.toTick (s.tickOfTime (w + 3600000000))
      exec .warmWindowExpiry s =
        .next (settle s (({ u with owl := { u.owl with warmFrom := none } } : State).wf .owl Off.OWL_CTL 7 4 0))) ∧
    (s.owl.warmFrom = none → exec .warmWindowExpiry s = .next (settle s s))) ∧
  (∀ (s : State) (ch tag op : Nat) (c : Cmd), Ready s ch tag op c →
    let f := fun hi lo => bytesAt c.body hi lo
    (op = 0x0601 → exec (.faultStatus ch tag) s = .next (settle s (respond c stOk
      (leBytes 8 (s.rd .owl Off.OWL_STATUS).toNat ++ leBytes 8 (s.rd .owl Off.CLASS_SEV).toNat ++
        leBytes 8 (s.rd .owl (Off.CLASS_SEV + 8)).toNat ++ leBytes 8 (s.rd .owl Off.OWL_LAST).toNat ++
        leBytes 1 (s.rf .owl Off.OWL_CTL 7 4)) s))) ∧
    (op = 0x0602 → exec (.faultClear ch tag) s = .next (settle s
      (if s.leased (Blk.owl).inst then respond c stLeaseHeld [] s
       else respond c stOk (leBytes 8 ((clearClasses (f 7 0) s).rd .owl Off.OWL_STATUS).toNat) (clearClasses (f 7 0) s)))) ∧
    (op = 0x0603 →
      let o := Off.REACT + 8 * f 0 0
      let u := s.wr .owl o (BitVec.ofNat 64 (f 7 4))
      exec (.faultReact ch tag) s = .next (settle s
      (if 63 < f 0 0 ∨ 1 < f 1 1 then respond c stBadField [] s
       else if f 1 1 = 0 then respond c stOk (leBytes 4 (s.rd .owl o).toNat) s
       else if classOk (f 0 0) = false ∨ (List.range 4).any (fun i => !reactByteOk (f 0 0) (f 7 4 / 256 ^ i % 256)) = true then
         respond c stBadField [] s
       else if s.leased (Blk.owl).inst then respond c stLeaseHeld [] s
       else respond c stOk (leBytes 4 (u.rd .owl o).toNat) u))) ∧
    (op = 0x0604 →
      let i := f 1 0
      let rd := fun (o : Nat) => leBytes 8 (if errPart (i % 256) (i / 256) then s.rd (detailBlk i) o else 0).toNat
      let rsp := rd Off.ERR_STATUS ++ rd Off.ERR_ADDR ++ rd Off.ERR_INFO ++ rd Off.ERR_CNT
      exec (.faultDetail ch tag) s = .next (settle s
      (if noUnit i then respond c stBadField [] s
       else if f 2 2 = 0 then respond c stOk rsp s
       else if s.leased (detailBlk i).inst then respond c stLeaseHeld [] s
       else respond c stOk rsp (clearCapture i s)))) ∧
    (op = 0x0605 →
      let i := f 1 0
      let v := injectBits (f 7 4)
      let k := v % 32
      exec (.faultInject ch tag) s = .next (settle s
      (if noUnit i = true ∨ errPart (i % 256) (i / 256) = false ∨ (injectable i).contains k = false ∨
          (parityChk k = true ∧ v / 512 % 128 ≠ 0) then respond c stBadField [] s
       else if injectMode s k = false then respond c stWrongMode [] s
       else if s.leased (detailBlk i).inst then respond c stLeaseHeld [] s
       else respond c stOk (leBytes 4 v) (s.wr (detailBlk i) Off.INJECT (BitVec.ofNat 64 v))))) ∧
    (op = 0x0606 →
      let rsp := fun (t : State) => leBytes 1 (t.rf .owl Off.OWL_CTL 3 0) ++ leBytes 1 (t.rf .owl Off.OWL_CTL 7 4)
      let u := s.wf .owl Off.OWL_CTL 3 0 (f 1 1)
      exec (.faultCtl ch tag) s = .next (settle s
      (if 1 < f 0 0 then respond c stBadField [] s
       else if f 0 0 = 0 then respond c stOk (rsp s) s
       else if f 1 1 = 0 ∨ 15 < f 1 1 then respond c stBadField [] s
       else if s.leased (Blk.owl).inst then respond c stLeaseHeld [] s
       else respond c stOk (rsp u) u))))

/-- O50. Wear thresholds newly reached are acted on in order; the CORE commands show, set and retire. WEAR_EVALUATION
while the Sett serves samples the Hoard's counts, drops occurrences out of their window, and acts once on every
threshold newly reached, in rising order of kind and key, then starts the erasures whose channel does not scrub;
while it does not serve nothing changes. Ready CORE.INFO answers where a hart or PCN stands and fails BAD_FIELD for
one that does not exist; SPARE_STATUS answers the counts of spares, of reduced and failed units and of pending
repairs; WEAR_CFG reads the thresholds of a kind, or journals legal new ones, BAD_FIELD otherwise and LEASE_HELD if
a unit of the kind is leased. CORE.RETIRE of a vacant hart or with a bad address fails BAD_FIELD, of a core neither
parked nor dead its own status, under a lease LEASE_HELD, without journal room NO_RESOURCE; else the hart is
unmapped, the old core goes off and is retired, and the record that maps the spare (or leaves the hart vacant) is
sent to the journal. Here exec answers a next state, on conditions on the state and the operands alone, for:
wearEvaluation, coreInfo, coreSpareStatus, coreWearCfg, coreRetire. Rules: R503, R504, R505, R506, R507, R508, R511,
R512, R513. -/
def Obligations.WearEvaluationAndCoreCommands : Prop :=
  (∀ (s : State),
    (s.serving = true →
      let a := sampleHoard s
      let b := { a with wear := { a.wear with
        hist := a.wear.hist.filter (fun (e : Nat × Nat × Nat) => inWindow (wearTick a) (wearCfg a e.1).windowS e.2.2) } }
      let hits := [3, 4, 5, 6].flatMap (fun k => (wearHits b k).map (fun q => (k, q)))
      let new := hits.filter (fun h => !b.wear.acted.contains h)
      exec .wearEvaluation s = .next (settle s (startErasures
        (new.foldl (fun s (h : Nat × Nat) => wearAct h.1 h.2 s) { b with wear := { b.wear with acted := hits } })))) ∧
    (s.serving = false → exec .wearEvaluation s = .next (settle s s))) ∧
  (∀ (s : State) (ch tag v : Nat) (c : Cmd), Ready s ch tag 0x0401 c → bytesAt c.body 1 0 = v →
    let rsp := fun (hart : Nat) (pcn : Option Nat) =>
      leBytes 1 hart ++ leBytes 2 (pcn.getD 0x1FF) ++
        leBytes 1 (match pcn with | some p => pcnCode (s.pcnSt p) | none => 0) ++
        leBytes 1 (match pcn with | some p => waysOf (withMap s) (.core p) Off.L2_WAYCFG 17 | none => 0) ++
        leBytes 1 (match pcn with | some p => s.rf (.core p) Off.WAKE_SRC 7 6 | none => 0) ++
        leBytes 2 (min 0xFFFF (match pcn with | some p => wearCount s 5 p | none => 0))
    exec (.coreInfo ch tag) s = .next (settle s
      (if 0x8000 ≤ v then
         (if 272 ≤ v - 0x8000 then respond c stBadField [] s
          else respond c stOk (rsp (hartByte s (v - 0x8000)) (some (v - 0x8000))) s)
       else if 256 ≤ v then respond c stBadField [] s
       else respond c stOk (rsp (match s.pcnOf v with | some p => hartByte s p | none => v) (s.pcnOf v)) s))) ∧
  (∀ (s : State) (ch tag : Nat) (c : Cmd), Ready s ch tag 0x0403 c →
    let m := withMap s
    let count := fun (n : Nat) (p : Nat → Bool) => ((List.range n).filter p).length
    let lanes := (List.range 170).foldl (fun a st => a + count 4 (fun p => linkPresent st p && sparesLeft m st p == 0)) 0
    exec (.coreSpareStatus ch tag) s = .next (settle s (respond c stOk
      (leBytes 1 (spareCores s) ++ leBytes 1 (count 256 (fun h => (s.pcnOf h).isNone)) ++
        leBytes 2 ((s.served.filter (fun (e : Nat × Nat) => decide (waysOf m (.core e.2) Off.L2_WAYCFG 17 < 16))).length) ++
        leBytes 1 (count 136 (fun h => decide (llcWays m h < 12))) ++ leBytes 1 (count 136 (fun h => decide (warInServ m h < 24))) ++
        leBytes 1 (count 4 (fun n => m.rf (.hoard n) Off.SPARE 4 4 == 0 && m.rf (.hoard n) Off.SPARE 24 24 == 0)) ++
        leBytes 1 (count 64 (fun b => bankFailed m b)) ++ leBytes 2 lanes ++ leBytes 1 s.flash.jst.erasures.length ++
        leBytes 2 ((s.flash.jst.rowRepairs.filter (fun r => !r.applied)).length) ++ leBytes 1 (spareLeft s)) s))) ∧
  (∀ (s : State) (ch tag k : Nat) (c : Cmd), Ready s ch tag 0x0404 c → jrnHasRoom s = true → bytesAt c.body 0 0 = k →
    let w := wearOf c
    exec (.coreWearCfg ch tag) s = .next (settle s
      (if 6 < k ∨ 1 < bytesAt c.body 1 1 then respond c stBadField [] s
       else if bytesAt c.body 1 1 = 0 then respond c stOk (wearRsp (wearCfg s k)) s
       else if 1 < bytesAt c.body 2 2 ∨ (k < 3 ∧ (w.thresh < 2 ∨ 16 < w.thresh)) ∨ (3 ≤ k ∧ w.thresh = 0) ∨ w.windowS = 0 ∨
           1048575 < w.windowS then respond c stBadField [] s
       else if (wearInsts k).any (fun i => s.leased i) = true then respond c stLeaseHeld [] s
       else enqueueRec (some c.ord) false (.wear k w) (setPhase c.ord .committing [] s)))) ∧
  (∀ (s : State) (ch tag : Nat) (oks : List Bool) (c : Cmd), Ready s ch tag 0x0402 c → jrnHasRoom s = true →
    let h := bytesAt c.body 0 0
    let pa := bytesAt c.body 15 8
    (s.pcnOf h = none → exec (.coreRetire ch tag oks) s = .next (settle s (respond c stBadField [] s))) ∧
    (∀ old, s.pcnOf h = some old →
      let held := s.leased (Blk.core old).inst || (match chooseSpare s old with | some p => s.leased (Blk.core p).inst | none => false)
      let u := backSlots old (s.wf .idist (Off.HART_MAP + 8 * h) 9 9 0)
      let v := u.setCore old { wayHist := (u.core old).wayHist }
      let p := prepareSpare h old oks (v.setPcn old .retired)
      exec (.coreRetire ch tag oks) s = .next (settle s
        (if pa % 4 ≠ 0 ∨ s.isNormal pa = false then respond c stBadField [] s
         else if mayRetire s old = false then respond c 0x8000 [] s
         else if held = true then respond c stLeaseHeld [] s
         else finishCmd c (.commit [p.1] p.2)))))

/-- O51. Feeds, power-fail, the measuring window, temperatures and the clamp change the PWRC's state. On a chip neither
OFF nor held and within the ratings: POWER_FAIL_WARNING below 8.7 V drives PWR_FAIL_N, turns the domains off and
enters STANDBY (in SAFE it stays SAFE), the journal first taking the hold-up record; POWER_FAIL_END at 8.8 V
releases the pin and, after a hold-up, drops commands but those committing and resets the channels. TURN_OFF below
8.5 V leaves the COLD state with V_AUX gone, in OFF. FEED_LOST and FEED_RESTORED change a feed's OK bit, with the
report and event. POWER_WINDOW_TICK closes the next window: VIN, the ceiling 0.92 VIN IIN_LIMIT up to 560 W, FLIM,
TLIM, THERM, the grants and CAPPED. CLAMP_SAMPLE at IIN_LIMIT sets the clamp. TEMP_CONVERSION of a tile sets NOW and
PEAK and trips at 115 degrees. SSC_APPLY clears the pending bit. Beyond the ratings R569 gives no effect and the
model stops by name (log entry 2). Here exec answers a next state, on conditions on the state and the operands
alone, for: powerFailWarning, powerFailEnd, turnOff, feedLost, feedRestored, powerWindowTick, clampSample,
tempConversion, sscApply. Rules: R514, R515, R516, R517, R518, R526, R527, R528, R529, R577. -/
def Obligations.SuppliesTemperaturesAndClamps : Prop :=
  (∀ (s : State) (va vb : Nat), s.modeFlag 0 = false → s.pwr.coldHeld = false → s.pwr.pwrFailN = true → max va vb < 870 →
    let a := setFeeds va vb s
    let b := (({ a with pwr := { a.pwr with pwrFailN := false, uncapFrom := none } } : State).wf .pwrc Off.SUPPLY 3 3 1).wf .pwrc Off.SUPPLY 1 0 0
    let d := match b.pwr.den with | .armed _ => denAbort 2 b | .phaseB _ => denAbort 2 b | _ => resumeTime b
    exec (.powerFailWarning va vb) s = .next (settle s
      (if d.modeFlag 11 then domainsOff d else toStandby (domainsOff (holdUpJournal d))))) ∧
  (∀ (s : State) (va vb : Nat), s.modeFlag 0 = false → s.pwr.pwrFailN = false → 880 ≤ max va vb → va ≤ 7500 → vb ≤ 7500 →
    let a := setFeeds va vb s
    let b := { a with pwr := { a.pwr with pwrFailN := true, offCmd := false } }
    let has := fun (c : Cmd) => c.phase == .committing && b.flash.queue.any (fun r => r.owner == some c.ord)
    let d := { b with
      sett := { b.sett with holdUp := false, cmds := (b.sett.cmds.filter has).map (fun c => { c with discard := true }) }
      flash := { b.flash with erase := none } }
    exec (.powerFailEnd va vb) s = .next (settle s
      (if b.sett.holdUp then (List.range 4).foldl (fun s ch => if s.chState ch = 0 then s else resetChan ch none s) (nextErase d) else b))) ∧
  (∀ (s : State) (va vb : Nat), max va vb < 850 →
    let b := coldBase va vb s
    let d := { b with pwr := { b.pwr with vaux := false, coldHeld := s.pwr.coldHeld } }
    exec (.turnOff va vb) s = .next { ((d.wr .pwrc Off.MODE_FLAGS 1).wf .pwrc Off.PWRC_MODE 3 0 0) with pending := s.pending }) ∧
  (∀ (s : State) (f v : Nat), f < 2 → s.modeFlag 0 = false → s.pwr.coldHeld = false →
    let u := setFeed f v s
    (v < 870 → exec (.feedLost f v) s = .next (settle s
      (if u.rf .pwrc Off.SUPPLY f f = 0 ∨ u.vin < 870 then u
       else
        let w := u.wf .pwrc Off.SUPPLY f f 0
        let x := { w with pwr := if f = 0 then { w.pwr with lostA := true } else { w.pwr with lostB := true } }
        pwrIrqs (emit [0, 1, 2] 0x0780 0 0 (leBytes 1 f ++ leBytes 1 0 ++ leBytes 2 v)
          (report (Blk.pwrc).inst 21 1 24 0 f 0x1FF 0 x))))) ∧
    (880 ≤ v → v ≤ 7500 → exec (.feedRestored f v) s = .next (settle s
      (if u.rf .pwrc Off.SUPPLY f f = 1 then u
       else
        let w := u.wf .pwrc Off.SUPPLY f f 1
        let x := { w with pwr := if f = 0 then { w.pwr with lostA := false } else { w.pwr with lostB := false } }
        pwrIrqs (if (if f = 0 then w.pwr.lostA else w.pwr.lostB) then
            emit [0, 1, 2] 0x0780 0 0 (leBytes 1 f ++ leBytes 1 1 ++ leBytes 2 v) x else x))))) ∧
  (∀ (s : State) (va vb iin p : Nat), s.modeFlag 0 = false → s.sett.timeStill = false → s.pwr.coldHeld = false → va ≤ 7500 → vb ≤ 7500 →
    exec (.powerWindowTick va vb iin p) s = .next (settle s (windowTick va vb iin p s)) ∧
    (let k := max s.pwr.window (s.settTime / 1000) + 1
     let t := s.toTick (s.tickOfTime (k * 1000))
     let vin := max va vb
     let lim := iinLimit t
     let ceil := min 560 (vin * lim * 92 / 10000)
     let a := ((({ t with pwr := { t.pwr with window := k } } : State).wr .pwrc Off.PWRC_VIN
       (BitVec.ofNat 64 (min 0xFFFF va + (min 0xFFFF vb) <<< 16 + (min 0xFFFF iin) <<< 32 + (min 0xFFFF p) <<< 48))).wf .pwrc Off.SUPPLY 25 16 ceil)
     let b := a.wf .pwrc Off.SUPPLY 13 8 (nextFlim a vin ceil p)
     let d := { b with pwr := { b.pwr with tlim := nextTlim b } }
     let x := if d.rf .pwrc Off.SUPPLY 4 4 = 1 ∧ (d.pwr.clampQuiet && decide (100 * iin < 9500 * lim)) ∧ !(flimNow d == 12 && decide (ceil < p)) then
       d.wf .pwrc Off.SUPPLY 4 4 0 else d
     let h := hottestTile x
     let y := ({ x with pwr := { x.pwr with clampQuiet := true, hottest := none } } : State).wr .pwrc Off.THERM
       (BitVec.ofNat 64 (tempBits h.1 + h.2 <<< 10 + (b2n !x.pwr.hotN) <<< 18))
     let z := capCheck vin ((if y.pwr.mainOn then regrantAll y else y).tick - ms) (if y.pwr.mainOn then regrantAll y else y)
     windowTick va vb iin p s = pwrIrqs (if 6000 < vin ∧ vin ≤ 6500 then report (Blk.pwrc).inst 21 0 24 0 0 0x1FF 0 z else z))) ∧
  (∀ (s : State) (iin : Nat), s.modeFlag 0 = false → s.sett.timeStill = false → s.pwr.coldHeld = false →
    let u := if 95 * iinLimit s ≤ iin then { s with pwr := { s.pwr with clampQuiet := false } } else s
    exec (.clampSample iin) s = .next (settle s (if 100 * iinLimit s ≤ iin then pwrIrqs (u.wf .pwrc Off.SUPPLY 4 4 1) else u))) ∧
  (∀ (s : State) (i : Nat) (v : Int), s.modeFlag 0 = false → s.pwr.coldHeld = false → v ≤ 500 → -220 ≤ v →
    (i < 136 → s.pwr.mainOn = true → inRetention s = false → exec (.tempConversion 0 i v) s = .next (settle s (tileTemp i v s))) ∧
    (i < 16 → s.pwr.memOn = true →
      exec (.tempConversion 1 i v) s = .next (settle s (s.wf (.mc i) Off.MC_TEMP 7 0 ((v / 4) % 256).toNat))) ∧
    exec (.tempConversion 2 i v) s = .next (settle s (if 460 ≤ v then thermalTrip (Blk.pwrc).inst s else s))) ∧
  (∀ (s : State) (v : Nat), 7500 < v → ∀ f w, exec (.feedRestored f v) s = .fault .beyondRatings ∧
    exec (.powerWindowTick v w 0 0) s = .fault .beyondRatings ∧ exec (.powerFailEnd v w) s = .fault .beyondRatings) ∧
  (∀ (s : State) (st : Nat), islKind st ≠ 3 → islKind st ≠ 5 →
    exec (.sscApply st) s = .next (settle s (s.wf (.isl st) Off.ISL_SSC 12 12 0)))

/-- O52. The PWR commands show and set power, clocks and modes. Ready commands. PWR.STATUS answers mode, flags, VIN,
SUPPLY and the Den's registers. CONFIG reads, or journals IIN_LIMIT 8 to 32 and AUTO_ON. DVFS reads, or writes REQ
12 to 36 of, a range of tiles, answering the lowest and highest grant and FLIM. SSC reads, or stages, a spread of an
island or of all tiles. MODE_REQ enters and leaves operation, HANDOVER and DIAGNOSTIC under the conditions of each,
WRONG_MODE, NO_TARGET or BUSY otherwise. DEN_PREPARE with legal wake sources and window arms the Den (BUSY if it is
not awake); DEN_CANCEL disarms it, NO_TARGET when awake, BUSY from phase B on. POWER turns on, off or cycles, its
own status after a thermal trip. POWER_CYCLE_ON in STANDBY enters BRINGUP at its tick and answers the command.
Illegal fields fail BAD_FIELD, leased islands LEASE_HELD. Here exec answers a next state, on conditions on the state
and the operands alone, for: pwrStatus, pwrConfig, pwrDvfs, pwrSsc, pwrDenPrepare, pwrDenCancel, pwrPower,
pwrModeReq, powerCycleOn. Rules: R522, R523, R524, R526, R529, R530, R535, R538. -/
def Obligations.PowerCommands : Prop :=
  (∀ (s : State) (ch tag op : Nat) (c : Cmd), Ready s ch tag op c →
    let f := fun hi lo => bytesAt c.body hi lo
    (op = 0x0701 → exec (.pwrStatus ch tag) s = .next (settle s (respond c stOk
      (leBytes 1 s.mode ++ leBytes 1 0 ++ leBytes 2 (s.rf .pwrc Off.MODE_FLAGS 11 0) ++ leBytes 8 (s.rd .pwrc Off.PWRC_VIN).toNat ++
        leBytes 4 (s.rd .pwrc Off.SUPPLY).toNat ++ leBytes 4 (s.rd .pwrc Off.PWRC_WAKE_SRC).toNat ++ leBytes 8 (s.rd .pwrc Off.DEN_LAST).toNat) s))) ∧
    (op = 0x0702 → jrnHasRoom s = true → exec (.pwrConfig ch tag) s = .next (settle s
      (if 1 < f 0 0 ∨ (f 0 0 = 1 ∧ (f 1 1 < 8 ∨ 32 < f 1 1 ∨ 1 < f 2 2)) then respond c stBadField [] s
       else if f 0 0 = 0 then respond c stOk (pwrConfigRsp s) s
       else enqueueRec (some c.ord) false (.pwrConfig (f 1 1) (f 2 2 = 1)) (setPhase c.ord .committing [] s)))) ∧
    (op = 0x0703 →
      let tiles := (List.range (f 2 2)).map (fun i => f 1 1 + i)
      let grants := fun (t : State) => tiles.map (fun k => t.rf (.isl (tileStop k)) Off.ISL_FREQ 13 8)
      let rsp := fun (t : State) => leBytes 1 ((grants t).foldl (fun a b => min a b) 63) ++ leBytes 1 ((grants t).foldl (fun a b => max a b) 0) ++
        leBytes 1 (flimNow t)
      let u := tiles.foldl (fun s t => freqWrite (tileStop t) (f 3 3) s) s
      exec (.pwrDvfs ch tag) s = .next (settle s
      (if 1 < f 0 0 ∨ f 2 2 = 0 ∨ 136 < f 1 1 + f 2 2 ∨ (f 0 0 = 1 ∧ (f 3 3 < 12 ∨ 36 < f 3 3)) then respond c stBadField [] s
       else if f 0 0 = 0 then respond c stOk (rsp s) s
       else if tiles.any (fun t => s.leased (islInst (tileStop t))) = true then respond c stLeaseHeld [] s
       else respond c stOk (rsp u) u))) ∧
    (op = 0x0704 →
      let stops := if f 1 0 == 0xFFFF then (List.range 136).map tileStop else (sscStop (f 1 0)).toList
      let st := stops.headD 0
      let put := fun (s : State) (k : Nat) => sscWrite k (BitVec.ofNat 64
        (f 3 3 + (f 4 4) <<< 4 + (if f 5 5 = 0xFF then s.rf (.isl k) Off.ISL_SSC 11 8 else f 5 5) <<< 8)) s
      exec (.pwrSsc ch tag) s = .next (settle s
      (if stops.isEmpty = true ∨ 1 < f 2 2 then respond c stBadField [] s
       else if f 2 2 = 0 then respond c stOk (leBytes 4 (s.rd (.isl st) Off.ISL_SSC).toNat) s
       else if (if islKind st = 2 then 5 else 10) < f 3 3 ∨ 3 < f 4 4 ∨ (15 < f 5 5 ∧ f 5 5 ≠ 0xFF) then respond c stBadField [] s
       else if stops.any (fun k => s.leased (islInst k)) = true then respond c stLeaseHeld [] s
       else respond c stOk (leBytes 4 ((stops.foldl put s).rd (.isl st) Off.ISL_SSC).toNat) (stops.foldl put s)))) ∧
    (op = 0x0706 →
      let src := f 1 1 % 16
      let e := s.settTime + f 13 12 * 1000
      let u := s.wr .pwrc Off.DEN_CFG (BitVec.ofNat 64 (f 0 0 + src * 2 + (f 2 2) <<< 8 + (f 5 4) <<< 16 + (f 11 8) <<< 32))
      exec (.pwrDenPrepare ch tag) s = .next (settle s
      (if 1 < f 0 0 ∨ (src = 0 ∧ f 2 2 = 0) ∨ (src.testBit 2 = true ∧ (f 5 4 < 90 ∨ 600 < f 5 4)) ∨ (src.testBit 3 = true ∧ f 11 8 = 0) ∨
         f 13 12 < 1 ∨ 10000 < f 13 12 then respond c stBadField [] s
       else if s.pwr.den ≠ .awake then respond c stBusy [] s
       else respond c stOk (leBytes 8 e) { u with pwr := { u.pwr with den := .armed e, wake := none } }))) ∧
    (op = 0x0707 →
      (s.pwr.den = .awake → exec (.pwrDenCancel ch tag) s = .next (settle s (respond c stNoTarget [] s))) ∧
      (∀ t, s.pwr.den = .armed t → exec (.pwrDenCancel ch tag) s = .next (settle s (respond c stOk [] (denAbort 1 s)))) ∧
      (s.pwr.den ≠ .awake → (∀ t, s.pwr.den ≠ .armed t) → exec (.pwrDenCancel ch tag) s = .next (settle s (respond c stBusy [] s)))) ∧
    (op = 0x0708 →
      (2 < f 0 0 → exec (.pwrPower ch tag) s = .next (settle s (respond c stBadField [] s))) ∧
      (1 ≤ f 0 0 → f 0 0 ≤ 2 → s.rf .pwrc Off.SUPPLY 5 5 = 1 → exec (.pwrPower ch tag) s = .next (settle s (respond c 0x8000 [] s))) ∧
      (f 0 0 = 1 → s.rf .pwrc Off.SUPPLY 5 5 ≠ 1 →
        exec (.pwrPower ch tag) s = .next (settle s (respond c stOk (modeRsp (enterBringup s)) (enterBringup s)))) ∧
      (f 0 0 = 0 →
        let b := if c.ch = 0 then respond c stOk (leBytes 1 1) s else s
        let u := if b.modeFlag 1 then { b with pwr := { b.pwr with offCmd := true } } else powerOff b
        exec (.pwrPower ch tag) s = .next (settle s (if c.ch = 0 then setPhase c.ord .running [] u else respond c stOk (modeRsp u) u))) ∧
      (f 0 0 = 2 → s.rf .pwrc Off.SUPPLY 5 5 ≠ 1 →
        let b := if c.ch = 0 then respond c stOk (leBytes 1 1) s else s
        let u := if b.modeFlag 1 then { b with pwr := { b.pwr with offCmd := true } } else powerOff b
        exec (.pwrPower ch tag) s = .next (settle s
          (setPhase c.ord .running [] { u with pwr := { u.pwr with cycleAt := some (u.tick + 1000 * ms) } }))))) ∧
  (∀ (s : State) (ch tag : Nat) (c : Cmd), Ready s ch tag 0x0705 c →
    let r := bytesAt c.body 0 0
    let e := exec (.pwrModeReq ch tag) s
    let ok := fun (t : State) => (.next (settle s (respond c stOk (modeRsp t) t)) : Host.Outcome State Fault Refusal)
    let no := fun (st : Nat) => (.next (settle s (respond c st [] s)) : Host.Outcome State Fault Refusal)
    let opr := s.pwr.operating
    (r = 1 → opr = true → e = ok s) ∧
    (r = 1 → opr = false → s.modeFlag 2 = true → s.pwr.handOff = true →
      e = ok (setModeFlags (setFld (setFld (s.rd .pwrc Off.MODE_FLAGS) 2 2 0) 3 3 1) (setStage 10 { s with pwr := { s.pwr with operating := true } }))) ∧
    (r = 1 → opr = false → s.modeFlag 2 = false ∨ s.pwr.handOff = false → e = no stWrongMode) ∧
    (r = 2 → s.modeFlag 9 = true → e = ok s) ∧
    (r = 2 → s.modeFlag 9 = false →
      (opr = false ∨ s.modeFlag 6 = true ∨ s.modeFlag 7 = true ∨ s.modeFlag 10 = true ∨ s.pwr.den ≠ .awake → e = no stWrongMode) ∧
      (opr = true → s.modeFlag 6 = false → s.modeFlag 7 = false → s.modeFlag 10 = false → s.pwr.den = .awake →
        e = if s.chState 3 ≠ 1 then no stNoTarget else ok (scrubCut (endLeases (fun _ => true) (some 3) (setMode 9 true s))))) ∧
    (r = 3 → e = ok (if s.modeFlag 9 then setMode 9 false s else s)) ∧
    (r = 4 → s.modeFlag 10 = true → e = ok s) ∧
    (r = 4 → s.modeFlag 10 = false →
      ((s.modeFlag 2 = true ∧ s.pwr.handOff = true) ∨ (opr = true ∧ s.modeFlag 9 = false ∧ s.pwr.den = .awake) →
        e = if anyLodge s then no stBusy
          else ok (closeChan 3 (closeChan 1 (twinLoss 4 (setMode 10 true { s with pwr := { s.pwr with diagFromOp := opr } }))))) ∧
      (¬((s.modeFlag 2 = true ∧ s.pwr.handOff = true) ∨ (opr = true ∧ s.modeFlag 9 = false ∧ s.pwr.den = .awake)) → e = no stWrongMode)) ∧
    (r = 5 → e = ok (if s.modeFlag 10 then setMode 10 false s else s)) ∧
    (r = 0 ∨ 5 < r → e = no stBadField)) ∧
  (∀ (s : State) (t : Nat), s.pwr.cycleAt = some t → s.modeFlag 1 = true → s.rf .pwrc Off.SUPPLY 5 5 ≠ 1 → s.pwr.pwrFailN = true →
    let u := enterBringup (s.toTick t)
    (∀ c, runningCmd u 0x0708 = some c → exec .powerCycleOn s = .next (settle s (respond c stOk (modeRsp u) u))) ∧
    (runningCmd u 0x0708 = none → exec .powerCycleOn s = .next (settle s u)))

/-- O53. The Den is entered step by step, and its wake sources bring the chip back. DEN_PARK_TIMEOUT with a core not
parked disarms the Den at the window's end. DEN_PHASE_B, armed with every core parked, or in phase B, takes the
steps it can up to the one named: leases end and commands waiting are aborted; channels close once no command is
left; the I/O domain, the caches where the contents are dropped, and the memory interface follow, each once its
traffic has ended; then time stands still. An armed wake source (pin, I2C, VIN, timer, EXT_IRQ at its level) is
latched, the lowest CAUSE of one tick first, and marks itself early in phase B; an unarmed one changes nothing.
DEN_WAKE of a latched wake undoes, in seven steps from the state reached: time, links and contents, channel 2,
memory, cores, channels with the event, and ports. MI2C_STRETCH_TIMEOUT releases SCL and NACKs. Here exec answers a
next state, on conditions on the state and the operands alone, for: denParkTimeout, denPhaseB, denWakePin,
denWakeVin, denWakeI2c, denWakeTimer, denWakeExtIrq, denWake, mi2cStretchTimeout. Rules: R71, R530, R531, R532,
R533, R534, R535, R536. -/
def Obligations.DenEntryAndWake : Prop :=
  (∀ (s : State) (e : Nat), s.pwr.den = .armed e →
    (allParked s = false → exec .denParkTimeout s = .next (settle s (denAbort 0 (s.toTick (s.tickOfTime e))))) ∧
    (allParked s = true → exec .denParkTimeout s = .next (settle s s))) ∧
  (∀ (s : State) (n : Nat), s.modeFlag 11 = false → 1 ≤ n → n ≤ 7 →
    (∀ e, s.pwr.den = .armed e → allParked s = true → s.settTime < e →
      exec (.denPhaseB n) s = .next (settle s (denGo n 7 { s with pwr := { s.pwr with den := .phaseB 0 } }))) ∧
    (∀ e, s.pwr.den = .armed e → allParked s = false ∨ e ≤ s.settTime → exec (.denPhaseB n) s = .next (settle s s)) ∧
    (∀ k, s.pwr.den = .phaseB k → exec (.denPhaseB n) s = .next (settle s (denGo n 7 s)))) ∧
  (∀ (s : State) (n k fuel : Nat), s.pwr.den = .phaseB k →
    (n ≤ k ∨ s.pwr.wake.isSome = true → denGo n (fuel + 1) s = s) ∧
    (k < n → s.pwr.wake = none → denStep (k + 1) s = none → denGo n (fuel + 1) s = s) ∧
    (∀ t, k < n → s.pwr.wake = none → denStep (k + 1) s = some t →
      denGo n (fuel + 1) s = denGo n fuel { t with pwr := { t.pwr with den := if k + 1 = 7 then .den else .phaseB (k + 1) } })) ∧
  (∀ (s : State),
    (s.sett.cmds ≠ [] → denStep 2 s = none) ∧
    denStep 7 s = some { s with
      sett := { s.sett with timeBase := s.settTime, timeFrom := s.tick, timeStill := true }
      pwr := { s.pwr with denFrom := s.tick } }) ∧
  (∀ (s : State) (pin : Nat),
    exec .denWakePin s = .next (settle s (if wakeArmed s 1 then latchWake 1 0 s else s)) ∧
    exec .denWakeVin s = .next (settle s (if wakeArmed s 3 then latchWake 3 0 s else s)) ∧
    (wakeArmed s 2 = true → s.pwr.den = .den ∨ (s.chState 2 = 0 ∧ s.modeFlag 8 = true) → s.modeFlag 11 = false →
      let u := latchWake 2 0 s
      exec .denWakeI2c s =
        .next (settle s { u with sett := { u.sett with mi2c := { u.sett.mi2c with stretching := true } } })) ∧
    (wakeArmed s 2 = false → exec .denWakeI2c s = .next (settle s s)) ∧
    (wakeArmed s 4 = true → s.pwr.den = .den → exec .denWakeTimer s =
      .next (settle s (latchWake 4 0 (s.toTick (s.pwr.denFrom + s.rf .pwrc Off.DEN_CFG 63 32 * 1000 * ms))))) ∧
    (wakeArmed s 4 = false → exec .denWakeTimer s = .next (settle s s)) ∧
    (pin < 8 → (s.rf .pwrc Off.DEN_CFG 15 8).testBit pin = true → extActive s pin = true →
      exec (.denWakeExtIrq pin) s = .next (settle s (latchWake 5 pin s))) ∧
    ((s.rf .pwrc Off.DEN_CFG 15 8).testBit pin = false ∨ extActive s pin = false → exec (.denWakeExtIrq pin) s = .next (settle s s))) ∧
  (∀ (s : State) (cause pin : Nat), s.modeFlag 11 = false → s.pwr.wake = none →
    (∀ k, s.pwr.den = .phaseB k → latchWake cause pin s = { s with pwr := { s.pwr with wake := some (cause, pin, true, s.tick) } }) ∧
    (s.pwr.den = .den → latchWake cause pin s = { s with pwr := { s.pwr with wake := some (cause, pin, false, s.tick) } }) ∧
    (s.pwr.den = .awake → latchWake cause pin s = s)) ∧
  (∀ (s : State) (n : Nat), s.modeFlag 11 = false → n ≤ 7 → s.pwr.wake.isSome = true →
    (∀ k, s.pwr.den = .phaseB k →
      exec (.denWake n) s = .next (settle s (wakeGo n 7 { s with pwr := { s.pwr with den := .waking k 0 } }))) ∧
    (s.pwr.den = .den → exec (.denWake n) s = .next (settle s (wakeGo n 7 { s with pwr := { s.pwr with den := .waking 7 0 } }))) ∧
    (∀ f k, s.pwr.den = .waking f k → exec (.denWake n) s = .next (settle s (wakeGo n 7 s)))) ∧
  (∀ (s : State) (n f k fuel cause pin t : Nat) (early : Bool), s.pwr.den = .waking f k → s.pwr.wake = some (cause, pin, early, t) →
    let u := wakeStep f (k + 1) cause pin early s
    (n ≤ k → wakeGo n (fuel + 1) s = s) ∧
    (k < n → k + 1 ≠ 7 → wakeGo n (fuel + 1) s = wakeGo n fuel { u with pwr := { u.pwr with den := .waking f (k + 1) } }) ∧
    (6 < n → k = 6 → wakeGo n (fuel + 1) s = { u with pwr := { u.pwr with den := .awake, wake := none } })) ∧
  (∀ (s : State),
    (s.sett.mi2c.stretching = true → s.chState 2 ≠ 1 →
      let off := fun (u : State) => { u with sett := { u.sett with mi2c := { u.sett.mi2c with stretching := false, nacked := true } } }
      (∀ a b d t, s.pwr.wake = some (a, b, d, t) → exec .mi2cStretchTimeout s = .next (settle s (off (s.toTick (t + 10 * ms))))) ∧
      (s.pwr.wake = none → exec .mi2cStretchTimeout s = .next (settle s (off s)))) ∧
    (s.sett.mi2c.stretching = false ∨ s.chState 2 = 1 → exec .mi2cStretchTimeout s = .next (settle s s)))

/-- O54. COLD, WARM, bring-up and hand-off change the chip as a whole. COLD_RESET by power (8.8 V) or by the pin's
release (8.5 V, not OFF) leaves the COLD state with its cause, role and feeds, boots the Sett, and keeps the queue;
while COLD_RST_N is held power alone leaves it held. COLD_RST_N_ASSERTED holds the chip in its COLD state, OFF if it
was OFF. BRINGUP_START, once PWR.POWER ON or AUTO_ON allows it, runs the stages with what the probe found: a failed
domain stops with code 5, a failed link with 2, a missing DRAM channel with 1, and else ends in stage 8; it changes
nothing before. HAND_OFF at the end of stage 8 releases every hart in service at 0x10_0000 in rising order, shows
stage 9 and opens channel 0. WARM_RST_N is ignored and counted where R543 says so, counted apart while one runs, and
otherwise resets. Here exec answers a next state, on conditions on the state and the operands alone, for: coldReset,
coldRstNAsserted, bringupStart, handOff, warmRstN. Rules: R469, R519, R520, R542, R543, R544, R547, R548, R549,
R550, R552. -/
def Obligations.ResetsBringUpAndHandOff : Prop :=
  (∀ (s : State) (cause va vb : Nat) (tp : Bool), cause < 2 → va ≤ 7500 → vb ≤ 7500 → (if cause = 0 then 880 else 850) ≤ max va vb →
    (cause = 1 → s.modeFlag 0 = false) →
    let held := decide (cause = 0) && s.pwr.coldHeld
    let a := coldBase va vb s
    let b := ({ a with pwr := { a.pwr with tpRoot := tp, coldHeld := held } } : State).wf .pwrc Off.RESET_CAUSE 2 0 cause
    let d := carrying (b.wf .pwrc Off.SUPPLY 1 0 (b2n (decide (880 ≤ va)) + 2 * b2n (decide (880 ≤ vb))))
    exec (.coldReset cause va vb tp) s = .next { (if held then d else bootSett d) with pending := s.pending }) ∧
  (∀ (s : State),
    let a := coldBase s.pwr.vinA s.pwr.vinB s
    let b := { a with pwr := { a.pwr with coldHeld := true, vaux := !s.modeFlag 0 } }
    exec .coldRstNAsserted s =
      .next { (if s.modeFlag 0 then (b.wr .pwrc Off.MODE_FLAGS 1).wf .pwrc Off.PWRC_MODE 3 0 0 else b) with pending := s.pending }) ∧
  (∀ (s : State) (pr : Probe),
    (mayBringUp s = false → exec (.bringupStart pr) s = .next (settle s s)) ∧
    (mayBringUp s = true →
      let a := if s.modeFlag 1 then enterBringup s else s
      let e := exec (.bringupStart pr) s
      let m := mainUp pr a
      (pr.domainFail = true → e = .next (settle s (stopBringup 5 0xFF m))) ∧
      (∀ st, pr.domainFail = false → failedStop m = some st → e = .next (settle s (stopBringup 2 st m))) ∧
      (∀ n, pr.domainFail = false → failedStop m = none → disabledChan pr = some n → e = .next (settle s (stopBringup 1 n (dramUp pr m)))) ∧
      (pr.domainFail = false → failedStop m = none → disabledChan pr = none →
        e = .next (settle s (ioUp (dramUp pr m)))))) ∧
  (∀ (s : State),
    (stageNow s = 8 → s.rf .pwrc Off.BRINGUP 12 12 ≠ 0 → s.modeFlag 2 = true → s.modeFlag 11 = false → s.pwr.handOff = false →
      s.pwr.pwrFailN = true →
      let u := setStage 9 ((s.served.mergeSort (fun a b => decide (a.1 ≤ b.1))).foldl
        (fun s (e : Nat × Nat) => releaseCore e.1 e.2 0x100000 s) s)
      exec .handOff s = .next (settle s
        (openChan 0 { u with pwr := { u.pwr with handOff := true, everHandOff := true, warmRunning := false } }))) ∧
    (stageNow s ≠ 8 ∨ s.rf .pwrc Off.BRINGUP 12 12 = 0 ∨ s.modeFlag 2 = false → exec .handOff s = .next (settle s s))) ∧
  (∀ (s : State), s.modeFlag 0 = false → s.pwr.coldHeld = false →
    (warmIgnored s = true → exec .warmRstN s = .next (settle s (s.incSat .pwrc Off.RESET_CAUSE 27 20))) ∧
    (warmIgnored s = false → s.pwr.warmRunning = true → exec .warmRstN s = .next (settle s (s.incSat .pwrc Off.RESET_CAUSE 19 12))) ∧
    (warmIgnored s = false → s.pwr.warmRunning = false → exec .warmRstN s = .next (settle s (stage8 (warmUp (warmDown 2 s))))))

/-- O55. Bandwidth windows close, and the PERF commands read and set the counters. BW_WINDOW_CLOSE of a running monitor
whose window is powered closes it at the next multiple of its length after it opened; of a stopped or unpowered one
it changes nothing. Ready commands: PERF.CORE_READ writes a served hart's 128 counters and overflow bits into the
client's buffer, PERF.BW_READ a block's 128 snapshot registers, PERF.UNC_READ its 16 counters and overflow bits,
BAD_BUFFER if they do not fit and BAD_FIELD for a hart or block that has none. PERF.CORE_CFG reads or writes a
counter or a filter, PERF.SPOOR a core's sampling, PERF.BW_CFG every monitor's window and enable: BAD_FIELD for
reserved values, LEASE_HELD for a leased instance, and a window that is off drops what is written, reads as all
ones, and records the access (R35). Here exec answers a next state, on conditions on the state and the operands
alone, for: bwWindowClose, perfCoreRead, perfBwRead, perfUncRead, perfCoreCfg, perfSpoor, perfBwCfg. Rules: R35,
R554, R555, R557, R559, R560, R561, R562, R563, R564, R565, R566. -/
def Obligations.MonitorsAndPerfCommands : Prop :=
  (∀ (s : State) (st : Nat) (b : Blk), (bwBlks s).find? (fun b => b.stop == st) = some b →
    (winOff s b = true ∨ s.rf b Off.BW_CTL 5 5 = 0 → exec (.bwWindowClose st) s = .next (settle s s)) ∧
    (winOff s b = false → s.rf b Off.BW_CTL 5 5 ≠ 0 →
      let w := bwOf s b
      let due := (w.opened / (2 ^ w.k * us) + 1) * (2 ^ w.k * us)
      exec (.bwWindowClose st) s = .next (settle s (bwCatch b (s.toTick due))) ∧
      (s.tick ≤ due → exec (.bwWindowClose st) s = .next (settle s (bwSwap b false due (s.toTick due)))))) ∧
  (∀ (s : State) (ch tag op : Nat) (c : Cmd), Ready s ch tag op c →
    let f := fun hi lo => bytesAt c.body hi lo
    let see := fun (u : State) (b : Blk) (o : Nat) => leBytes 8 (settSees u b o).toNat
    let put := fun (b : Blk) (offs more : List Nat) (rsp : List Byte) =>
      let bytes := offs.flatMap (see s b)
      (.next (settle s (if bufOk s c = false ∨ bufLen c < bytes.length then respond c stBadBuffer [] s
       else respond c stOk rsp (settWr (bufPa c) bytes (settTouch b (offs ++ more) false s)))) : Host.Outcome State Fault Refusal)
    let bad := (.next (settle s (respond c stBadField [] s)) : Host.Outcome State Fault Refusal)
    (op = 0x0A01 →
      (s.pcnOf (f 16 16) = none → exec (.perfCoreRead ch tag) s = bad) ∧
      (∀ p, s.pcnOf (f 16 16) = some p → exec (.perfCoreRead ch tag) s =
        put (.core p) ((List.range 128).map (fun e => Off.PMC + 8 * e) ++ [Off.PMOVF, Off.PMOVF + 8]) [] (leBytes 4 1040))) ∧
    (op = 0x0A05 →
      let t := (uncBlk s (f 17 16)).bind (fun b => (bwBlks s).find? (fun x => x == b))
      (t = none → exec (.perfBwRead ch tag) s = bad) ∧
      (∀ b, t = some b →
        let offs := (List.range 128).map (fun i => Off.BW_SNAP + 8 * i)
        let stat := settSees s b Off.BW_STAT
        exec (.perfBwRead ch tag) s = put b offs [Off.BW_STAT]
          (leBytes 4 (fld stat 31 0) ++ leBytes 1 (fld stat 32 32) ++ leBytes 1 0 ++ leBytes 2 (offs.flatMap (see s b)).length))) ∧
    (op = 0x0A06 →
      (uncBlk s (f 17 16) = none → exec (.perfUncRead ch tag) s = bad) ∧
      (∀ b, uncBlk s (f 17 16) = some b → exec (.perfUncRead ch tag) s =
        put b ((List.range 16).map (fun i => Off.UNC_CNT + 8 * i) ++ [Off.UNC_OVF]) [] (leBytes 2 136))) ∧
    (op = 0x0A02 →
      let t := f 2 2
      let e := f 3 3
      let cfg := BitVec.ofNat 64 (f 15 8)
      let no : Bool := if t = 4 then decide (fld cfg 63 7 ≠ 0) || decide (fld cfg 4 2 ≠ 0) || decide (2 ^ 48 ≤ f 39 32)
        else decide (fld cfg 63 27 ≠ 0) || decide (f 23 16 % 64 ≠ 0) || decide (f 31 24 % 64 ≠ 0) || decide (2 ^ 48 ≤ f 23 16) || decide (2 ^ 48 ≤ f 31 24)
      (s.pcnOf (f 0 0) = none → exec (.perfCoreCfg ch tag) s = bad) ∧
      (∀ p, s.pcnOf (f 0 0) = some p →
        let look := settTouch (.core p) (if t = 4 then [Off.PMCTL + 4 * e, Off.PMC + 8 * e]
          else [Off.PMF_CFG + 32 * t, Off.PMF_LO + 32 * t, Off.PMF_HI + 32 * t]) false
        let see := fun (u : State) (o : Nat) => see u (.core p) o
        let rsp := fun (u : State) => leBytes 1 (f 0 0) ++ leBytes 1 (f 1 1) ++ leBytes 1 t ++ leBytes 1 e ++ leBytes 1 (f 4 4) ++ leBytes 3 0 ++
          (if t = 4 then see u (Off.PMCTL + 4 * e) ++ leBytes 16 0 ++ see u (Off.PMC + 8 * e)
           else see u (Off.PMF_CFG + 32 * t) ++ see u (Off.PMF_LO + 32 * t) ++ see u (Off.PMF_HI + 32 * t) ++ leBytes 8 0)
        let u := if t = 4 then
            coreWr p ([(Off.PMCTL + 4 * e, cfg)] ++ (if f 4 4 = 1 then [(Off.PMC + 8 * e, BitVec.ofNat 64 (f 39 32))] else [])) s
          else coreWr p [(Off.PMF_CFG + 32 * t, cfg), (Off.PMF_LO + 32 * t, BitVec.ofNat 64 (f 23 16)),
            (Off.PMF_HI + 32 * t, BitVec.ofNat 64 (f 31 24))] s
        exec (.perfCoreCfg ch tag) s = .next (settle s
          (if 4 < t ∨ 1 < f 1 1 ∨ (t = 4 ∧ 127 < e) ∨ (t < 4 ∧ e ≠ 0) then respond c stBadField [] s
           else if f 1 1 = 0 then respond c stOk (rsp s) (look s)
           else if no = true ∨ (t < 4 ∧ f 4 4 ≠ 0) then respond c stBadField [] s
           else if s.leased (Blk.core p).inst = true then respond c stLeaseHeld [] s
           else respond c stOk (rsp u) (look u))))) ∧
    (op = 0x0A03 →
      let ctl := BitVec.ofNat 64 (f 15 8)
      let base := f 23 16
      (s.pcnOf (f 0 0) = none → exec (.perfSpoor ch tag) s = bad) ∧
      (∀ p, s.pcnOf (f 0 0) = some p →
        let see := fun (u : State) (n o : Nat) => leBytes n (settSees u (.core p) o).toNat
        let rsp := fun (u : State) => see u 8 Off.SPOOR_CTL ++ see u 8 Off.SPOOR_BASE ++ see u 4 Off.SPOOR_HEAD ++ see u 4 Off.SPOOR_LOST
        let look := settTouch (.core p) [Off.SPOOR_CTL, Off.SPOOR_BASE, Off.SPOOR_HEAD, Off.SPOOR_LOST] false
        let u := if coreOff s p then settTouch (.core p) [Off.SPOOR_BASE, Off.SPOOR_CTL] true s else spoorCtlPut p ctl
          (if spoorBaseOk s base (fld ctl 16 12) then s.wr (.core p) Off.SPOOR_BASE (BitVec.ofNat 64 base) else s)
        exec (.perfSpoor ch tag) s = .next (settle s
          (if 1 < f 1 1 then respond c stBadField [] s
           else if f 1 1 = 0 then respond c stOk (rsp s) (look s)
           else if spoorCtlOk ctl = false ∨ base % 4096 ≠ 0 ∨ (bitOf ctl 0 = true ∧ spoorBaseOk s base (fld ctl 16 12) = false) then
             respond c stBadField [] s
           else if s.leased (Blk.core p).inst = true then respond c stLeaseHeld [] s
           else respond c stOk (rsp u) (look u))))) ∧
    (op = 0x0A04 →
      let bs := bwBlks s
      let rsp := fun (u : State) =>
        let w := match bs with | b :: _ => settSees u b Off.BW_CTL | [] => 0
        leBytes 1 (fld w 4 0) ++ leBytes 1 (fld w 5 5)
      let look := fun (u : State) => match bs with | b :: _ => settTouch b [Off.BW_CTL] false u | [] => u
      let u := bs.foldl (fun s b => if winOff s b then settTouch b [Off.BW_CTL] true s
        else bwCtlPut b (setFld (setFld (s.rd b Off.BW_CTL) 4 0 (f 1 1)) 5 5 (f 2 2)) s) s
      exec (.perfBwCfg ch tag) s = .next (settle s
        (if 1 < f 0 0 then respond c stBadField [] s
         else if f 0 0 = 0 then respond c stOk (rsp s) (look s)
         else if 20 < f 1 1 ∨ 1 < f 2 2 then respond c stBadField [] s
         else if bs.any (fun b => s.leased b.inst) = true then respond c stLeaseHeld [] s
         else respond c stOk (rsp u) (look u)))))

/-- O56. At reset nothing waits, memory lists nothing, and every register shows its COLD value. In the reset state no
command waits, memory lists nothing and has its canonical form, no core, lodge, message, transaction or port work
exists, the main, memory and I/O domains are off, and every register of the register space reads as its COLD reset
value; among them those whose tables give a value other than 0, one of each written out (TP.ID 0x38, MC.SCHED
0x301_010C_1040, the identities, the way and watchdog settings, ...). The mode register shows STANDBY and the Sett
BOOT: where the chip stands right after reset, before the Sett has booted, is the model's choice (log entry 3).
Rules: R3, R69, R442, R326, R519, R542. -/
def Obligations.ResetLeavesTheColdState : Prop :=
  State.reset.pending = [] ∧ State.reset.queueOk = true ∧ State.reset.mem = [] ∧ Memory.wf State.reset.mem = true ∧
  State.reset.cores = [] ∧ State.reset.lodges = [] ∧ State.reset.fab.net = [] ∧ State.reset.fab.txns = [] ∧ State.reset.ports = [] ∧
  State.reset.sett.cmds = [] ∧ State.reset.sett.leases = [] ∧
  State.reset.pwr.mainOn = false ∧ State.reset.pwr.memOn = false ∧ State.reset.pwr.ioOn = false ∧
  (∀ (b : Blk) (o : Nat), State.reset.rd b o = ocrReset (b.base + o)) ∧
  State.reset.rd .tp 0 = 0x38 ∧ State.reset.rd .tp Off.TP_LINK = 0x400 ∧ State.reset.rd (.mc 0) Off.SCHED = 0x301010C1040 ∧
  State.reset.modeFlag 1 = true ∧ State.reset.rf .sett Off.SETT_STATE 1 0 = 0 ∧
  (∀ e ∈ ([
    (.sett, Off.SETT_ID, 0x1000256), (.core 0, Off.PIPE_ID, 0x40300084C2030200),
    (.core 0, Off.CACHE_ID, 0x420C211B840840), (.core 0, Off.L2_WAYCFG, 0xFFFF), (.core 0, Off.L2_WDCFG, 0x151800801),
    (.core 0, Off.L2_STATUS, 0x1000), (.core 0, Off.PF_CTL, 0x4807), (.mesh 0, Off.MESH_CTL, 0x1416),
    (.mesh 169, Off.LINK_LANEMAP, 0x3FF03FF), (.llc 135, Off.LLC_WAYCFG, 0xBA9876543210),
    (.llc 135, Off.LLC_WDCFG, 0x151800801), (.llc 135, Off.LLC_STATUS, 0xC00), (.llc 135, Off.FCLASS, 0x300000FFF),
    (.warren 135, Off.WARREN_WAYCFG, 0xFFFFFF), (.warren 135, Off.WARREN_WDCFG, 0x151800801),
    (.warren 135, Off.WARREN_STATUS, 0x1800), (.warren 135, Off.WARREN_COH_CFG, 0x14), (.bchub, Off.BCHUB_COH_CFG, 0x14),
    (.mc 15, Off.MC_CTL, 0xA8), (.mc 15, Off.SCHED, 0x301010C1040), (.mc 15, Off.ERASE, 0xFF),
    (.idist, Off.IDIST_ID, 0x2000), (.rc 7, Off.RC_CFG, 0x100), (.rc 7, Off.OB64_BASE, 0x10000000000),
    (.rc 7, Off.MSI_ADDR, 0xFEE00000), (.rc 7, Off.PORT_STATE, 0x400), (.tp, Off.TP_LINK, 0x400),
    (.owl, Off.OWL_ID, 0x17), (.owl, Off.OWL_CTL, 0x3), (.pwrc, Off.PWRC_ID, 0x4A2), (.pwrc, Off.MODE_FLAGS, 0x2),
    (.pwrc, Off.SUPPLY, 0x2302400), (.pwrc, Off.PWRC_CFG, 0x60), (.isl 17, Off.ISL_SSC, 0x115), (.core 0, Off.PMF_CFG, 0xF),
    (.hoard 2, Off.OWNER, 0x1), (.hoard 3, Off.OWNER, 0x0)] : List (Blk × Nat × Word)), State.reset.rd e.1 e.2.1 = e.2.2)

/-- O57. What is stored reads back, other bytes stand, and memory keeps its canonical form. Storing a list of bytes at
an address reads back whole; every byte outside it reads as before; storing the same bytes twice is storing them
once; two stores to ranges apart commute as far as any byte read can tell; a byte that lists nothing reads 0 (the
model's choice for memory nothing has written, log entry 4); and a store of bytes or of a line, a bank cleared, and
the loss of memory or of the Hoard keep memory in its one canonical form, so that equal memories are equal data.
Rules: spec/11_dram_controller.md, spec/17_hoard.md, R28, R29, R327. -/
def Obligations.MemoryReadsBackInOneForm : Prop :=
  (∀ (s : State) (a : Nat) (l : List Byte), (s.setMemBytes a l).memBytes a l.length = l) ∧
  (∀ (s : State) (a x : Nat) (l : List Byte), x < a ∨ a + l.length ≤ x → (s.setMemBytes a l).memByte x = s.memByte x) ∧
  (∀ (s : State) (a x : Nat) (l : List Byte), ((s.setMemBytes a l).setMemBytes a l).memByte x = (s.setMemBytes a l).memByte x) ∧
  (∀ (s : State) (a b x : Nat) (l m : List Byte), a + l.length ≤ b ∨ b + m.length ≤ a →
    ((s.setMemBytes a l).setMemBytes b m).memByte x = ((s.setMemBytes b m).setMemBytes a l).memByte x) ∧
  (∀ (s : State) (a : Nat), s.mem = [] → s.memByte a = 0) ∧
  (∀ (s : State), Memory.wf s.mem = true →
    (∀ a l, Memory.wf (s.setMemBytes a l).mem = true) ∧ (∀ ln d p, Memory.wf (setMemLine ln d p s).mem = true) ∧
    (∀ b, Memory.wf (zeroBank b s).mem = true) ∧ Memory.wf (loseMemory s).mem = true ∧ Memory.wf (loseHoard s).mem = true)

/-- O58. A command that may not start changes nothing, and one that names a wrong lodge only answers. For every Belet
command that only waits to start: on a live chip its row changes nothing while no such command is accepted or it may
not start yet; and when it can start but fails its check of the lodge it names, it answers that status and does
nothing else. Rules: R52, R54, R59. -/
def Obligations.CommandsWaitToStart : Prop :=
  ∀ (op : Nat) (row : Nat → Nat → Instr), BeletRow op row → ∀ (s : State) (ch tag : Nat),
    (s.Live → canStart s ch tag op = false → exec (row ch tag) s = .next s) ∧
    (∀ c st, findCmd s ch tag op = some c → mayStart s c = true → lidBad s op c = some st →
      exec (row ch tag) s = .next (settle s (respond c st [] s)))

/-- O59. A write fills the fields with legal values, and leaves the others as they were. Where the fields of a register
share no bit, as in every register map of the model, a write (with the lease that RWL fields need) gives each
writable field the value written if that is legal for it and leaves it at its previous value if that is a reserved
encoding, whatever happens to the other fields of the same write. Rules: R5. -/
def Obligations.ReservedEncodingsLeaveTheirField : Prop :=
  (∀ (d : RegDef) (old v : Word) (f : FieldDef), d.apart = true → f ∈ d.fields → f.acc = .rw ∨ f.acc = .rwl →
    fld (mergeReg true d old v) f.hi f.lo = if f.legal.ok (fld v f.hi f.lo) then fld v f.hi f.lo else fld old f.hi f.lo) ∧
  (∀ (d : RegDef), d ∈ regs_mesh ++ regs_isl ++ regs_err ++ regs_core ++ regs_llc ++ regs_warren ++ regs_mc ++ regs_rc ++ regs_tp ++
    regs_vf ++ regs_hoard ++ regs_idist ++ regs_bchub ++ regs_sett ++ regs_owl ++ regs_pwrc → d.apart = true)

/-- O60. Memory-controller writes that would break their limits change nothing. A whole write that reaches a memory
controller's GEOM with values that break R303's limit, or while ENABLE is 1, one that reaches SCHED and would leave
WQ_LO above WQ_HI minus 8 or RAAMMT below RAAIMT, and one that reaches RETUNE or TRAIN_CTL while its GO reads 1, are
acknowledged and change nothing. Here exec answers a next state, on conditions on the state and the operands alone,
for: regWrite, retuneGo, trainGo. Rules: R330. -/
def Obligations.RefusedControllerWritesChangeNothing : Prop :=
  ∀ (s : State) (who : Agent) (n : Nat) (v : Word) (d : RegDef),
    let b : Blk := .mc n
    let w := fun (o size : Nat) => mergeReg true d (s.rd b o) (asked d (s.rd b o) v size)
    let same := fun (o : Nat) => (.next (settle s (ackWrite who (regOff b o) s)) : Host.Outcome State Fault Refusal)
    (OpenWrite s who b Off.GEOM 4 d →
      s.rf b Off.MC_CTL 0 0 = 1 ∨ 19 < (geomOf (w Off.GEOM 4)).rank + (geomOf (w Off.GEOM 4)).cid + (geomOf (w Off.GEOM 4)).row →
      exec (.regWrite who (.ocr (regOff b Off.GEOM) 4) v) s = same Off.GEOM) ∧
    (OpenWrite s who b Off.SCHED 8 d →
      fld (w Off.SCHED 8) 19 14 < fld (w Off.SCHED 8) 25 20 + 8 ∨ fld (w Off.SCHED 8) 42 35 < fld (w Off.SCHED 8) 34 27 →
      exec (.regWrite who (.ocr (regOff b Off.SCHED) 8) v) s = same Off.SCHED) ∧
    (OpenWrite s who b Off.RETUNE 4 d → s.rf b Off.RETUNE 0 0 = 1 → exec (.retuneGo who n v) s = same Off.RETUNE) ∧
    (OpenWrite s who b Off.TRAIN_CTL 8 d → s.rf b Off.TRAIN_CTL 7 7 = 1 → exec (.trainGo who n v) s = same Off.TRAIN_CTL)
end

