-- ==== Sys2Proof/Laws/SMap.lean ====
section
/-! SUPPORT. Sparse maps: a read after a write, and the canonical form that every write keeps. -/
namespace Sys2Proof.Machine

variable {α : Type}

theorem smFind_smPut_same (m : SMap α) (k : Nat) (v : α) : smFind (smPut m k v) k = some v := by
  induction m with
  | nil => simp [smPut, smFind]
  | cons e m ih =>
    obtain ⟨j, w⟩ := e
    unfold smPut
    by_cases h : k < j
    · simp [h, smFind]
    · by_cases h2 : k = j
      · simp [h2, smFind]
      · simp [h, h2, smFind, ih]

theorem smFind_smPut_other (m : SMap α) (k j : Nat) (v : α) (h : j ≠ k) : smFind (smPut m k v) j = smFind m j := by
  induction m with
  | nil => simp [smPut, smFind, h]
  | cons e m ih =>
    obtain ⟨i, w⟩ := e
    unfold smPut
    by_cases h1 : k < i
    · simp [h1, smFind, h]
    · by_cases h2 : k = i
      · subst h2; simp [smFind, h]
      · simp only [h1, h2, if_false, smFind, ih]

theorem smFind_smDel_same (m : SMap α) (k : Nat) : smFind (smDel m k) k = none := by
  unfold smDel
  induction m with
  | nil => rfl
  | cons e m ih =>
    obtain ⟨j, w⟩ := e
    by_cases h : j = k
    · simpa [List.filter, h] using ih
    · have : (j != k) = true := by simp [h]
      simp only [List.filter, this, smFind]
      rw [if_neg (fun x => h x.symm)]; exact ih

theorem smFind_smDel_other (m : SMap α) (k j : Nat) (h : j ≠ k) : smFind (smDel m k) j = smFind m j := by
  unfold smDel
  induction m with
  | nil => rfl
  | cons e m ih =>
    obtain ⟨i, w⟩ := e
    by_cases h1 : i = k
    · subst h1; simp [List.filter, smFind, h, ih]
    · have : (i != k) = true := by simp [h1]
      simp only [List.filter, this, smFind, ih]

/-- A read after a write at the same key gives the value written. -/
@[simp] theorem smGet_smSet_same [DecidableEq α] (d : Nat → α) (m : SMap α) (k : Nat) (v : α) :
    smGet d (smSet d m k v) k = v := by
  unfold smGet smSet
  split
  · next h => rw [smFind_smDel_same]; exact h.symm
  · rw [smFind_smPut_same]; rfl

/-- A write leaves every other key alone. -/
theorem smGet_smSet_other [DecidableEq α] (d : Nat → α) (m : SMap α) (k j : Nat) (v : α) (h : j ≠ k) :
    smGet d (smSet d m k v) j = smGet d m j := by
  unfold smGet smSet
  split
  · rw [smFind_smDel_other m k j h]
  · rw [smFind_smPut_other m k j v h]

theorem smRising_iff (m : SMap α) : smRising m = true ↔ m.Pairwise (fun a b => a.1 < b.1) := by
  induction m with
  | nil => simp [smRising]
  | cons a m ih =>
    cases m with
    | nil => simp [smRising]
    | cons b m =>
      obtain ⟨i, v⟩ := a; obtain ⟨j, w⟩ := b
      simp only [smRising, Bool.and_eq_true, decide_eq_true_eq, ih]
      constructor
      · rintro ⟨h, hp⟩
        refine List.Pairwise.cons ?_ hp
        intro c hc
        rcases List.mem_cons.mp hc with rfl | hc
        · exact h
        · exact Nat.lt_trans h ((List.pairwise_cons.mp hp).1 c hc)
      · intro hp
        exact ⟨(List.pairwise_cons.mp hp).1 _ List.mem_cons_self, (List.pairwise_cons.mp hp).2⟩

theorem smPut_mem (m : SMap α) (k : Nat) (v : α) : ∀ e ∈ smPut m k v, e = (k, v) ∨ e ∈ m := by
  induction m with
  | nil => intro e h; simp [smPut] at h; exact .inl h
  | cons a m ih =>
    obtain ⟨j, w⟩ := a
    intro e h
    unfold smPut at h
    split at h
    · rcases List.mem_cons.mp h with h | h
      · exact .inl h
      · exact .inr h
    · split at h
      · rcases List.mem_cons.mp h with h | h
        · exact .inl h
        · exact .inr (List.mem_cons_of_mem _ h)
      · rcases List.mem_cons.mp h with h | h
        · exact .inr (h ▸ List.mem_cons_self)
        · rcases ih e h with h | h
          · exact .inl h
          · exact .inr (List.mem_cons_of_mem _ h)

theorem smPut_rising (m : SMap α) (k : Nat) (v : α) (h : m.Pairwise (fun a b => a.1 < b.1)) :
    (smPut m k v).Pairwise (fun a b => a.1 < b.1) := by
  induction m with
  | nil => simp [smPut]
  | cons a m ih =>
    obtain ⟨j, w⟩ := a
    have hc := List.pairwise_cons.mp h
    unfold smPut
    split
    · next hk =>
      refine List.Pairwise.cons ?_ h
      intro e he
      rcases List.mem_cons.mp he with rfl | he
      · exact hk
      · exact Nat.lt_trans hk (hc.1 e he)
    · split
      · next hk =>
        subst hk
        exact List.Pairwise.cons hc.1 hc.2
      · next h1 h2 =>
        refine List.Pairwise.cons ?_ (ih hc.2)
        intro e he
        rcases smPut_mem m k v e he with rfl | he
        · show j < k; omega
        · exact hc.1 e he

/-- Writing keeps the canonical form. -/
theorem smSet_wf [DecidableEq α] (d : Nat → α) (m : SMap α) (k : Nat) (v : α) (h : smWf d m = true) :
    smWf d (smSet d m k v) = true := by
  simp only [smWf, Bool.and_eq_true, smRising_iff, List.all_eq_true, decide_eq_true_eq] at h ⊢
  obtain ⟨hp, ha⟩ := h
  unfold smSet
  split
  · exact ⟨hp.filter _, fun e he => ha e (List.mem_filter.mp he).1⟩
  · next hv =>
    refine ⟨smPut_rising m k v hp, fun e he => ?_⟩
    rcases smPut_mem m k v e he with rfl | he
    · exact hv
    · exact ha e he

/-- Leaving entries out keeps the canonical form. -/
theorem smFilter_wf [DecidableEq α] (d : Nat → α) (m : SMap α) (p : Nat × α → Bool) (h : smWf d m = true) :
    smWf d (m.filter p) = true := by
  simp only [smWf, Bool.and_eq_true, smRising_iff, List.all_eq_true, decide_eq_true_eq] at h ⊢
  exact ⟨h.1.filter _, fun e he => h.2 e (List.mem_filter.mp he).1⟩

end Sys2Proof.Machine
end

