-- ==== Sys2Proof/Laws/State.lean ====
section
/-! SUPPORT. What each plain update of the state leaves alone: one lemma per field and update, so that no proof
unfolds a record update. -/
namespace Sys2Proof.Machine

/-! ## State.wrOff -/

@[simp] theorem State.wrOff_pending (s : State) (off : Nat) (v : Word) : (s.wrOff off v).pending = s.pending := rfl
@[simp] theorem State.wrOff_tick (s : State) (off : Nat) (v : Word) : (s.wrOff off v).tick = s.tick := rfl
@[simp] theorem State.wrOff_freeIdx (s : State) (off : Nat) (v : Word) : (s.wrOff off v).freeIdx = s.freeIdx := rfl
@[simp] theorem State.wrOff_mem (s : State) (off : Nat) (v : Word) : (s.wrOff off v).mem = s.mem := rfl
@[simp] theorem State.wrOff_poison (s : State) (off : Nat) (v : Word) : (s.wrOff off v).poison = s.poison := rfl
@[simp] theorem State.wrOff_readData (s : State) (off : Nat) (v : Word) : (s.wrOff off v).readData = s.readData := rfl
@[simp] theorem State.wrOff_org (s : State) (off : Nat) (v : Word) : (s.wrOff off v).org = s.org := rfl
@[simp] theorem State.wrOff_sett (s : State) (off : Nat) (v : Word) : (s.wrOff off v).sett = s.sett := rfl
@[simp] theorem State.wrOff_flash (s : State) (off : Nat) (v : Word) : (s.wrOff off v).flash = s.flash := rfl
@[simp] theorem State.wrOff_owl (s : State) (off : Nat) (v : Word) : (s.wrOff off v).owl = s.owl := rfl
@[simp] theorem State.wrOff_wear (s : State) (off : Nat) (v : Word) : (s.wrOff off v).wear = s.wear := rfl
@[simp] theorem State.wrOff_pwr (s : State) (off : Nat) (v : Word) : (s.wrOff off v).pwr = s.pwr := rfl
@[simp] theorem State.wrOff_twinMsix (s : State) (off : Nat) (v : Word) : (s.wrOff off v).twinMsix = s.twinMsix := rfl
@[simp] theorem State.wrOff_lodges (s : State) (off : Nat) (v : Word) : (s.wrOff off v).lodges = s.lodges := rfl
@[simp] theorem State.wrOff_pools (s : State) (off : Nat) (v : Word) : (s.wrOff off v).pools = s.pools := rfl
@[simp] theorem State.wrOff_lodgeWork (s : State) (off : Nat) (v : Word) : (s.wrOff off v).lodgeWork = s.lodgeWork := rfl
@[simp] theorem State.wrOff_idist (s : State) (off : Nat) (v : Word) : (s.wrOff off v).idist = s.idist := rfl
@[simp] theorem State.wrOff_cores (s : State) (off : Nat) (v : Word) : (s.wrOff off v).cores = s.cores := rfl
@[simp] theorem State.wrOff_fab (s : State) (off : Nat) (v : Word) : (s.wrOff off v).fab = s.fab := rfl
@[simp] theorem State.wrOff_flips (s : State) (off : Nat) (v : Word) : (s.wrOff off v).flips = s.flips := rfl
@[simp] theorem State.wrOff_ports (s : State) (off : Nat) (v : Word) : (s.wrOff off v).ports = s.ports := rfl
@[simp] theorem State.wrOff_vfs (s : State) (off : Nat) (v : Word) : (s.wrOff off v).vfs = s.vfs := rfl
@[simp] theorem State.wrOff_pf0 (s : State) (off : Nat) (v : Word) : (s.wrOff off v).pf0 = s.pf0 := rfl
@[simp] theorem State.wrOff_mcs (s : State) (off : Nat) (v : Word) : (s.wrOff off v).mcs = s.mcs := rfl
@[simp] theorem State.wrOff_hoards (s : State) (off : Nat) (v : Word) : (s.wrOff off v).hoards = s.hoards := rfl
@[simp] theorem State.wrOff_elog (s : State) (off : Nat) (v : Word) : (s.wrOff off v).elog = s.elog := rfl
@[simp] theorem State.wrOff_bw (s : State) (off : Nat) (v : Word) : (s.wrOff off v).bw = s.bw := rfl

/-! ## State.wr -/

@[simp] theorem State.wr_pending (s : State) (b : Blk) (o : Nat) (v : Word) : (s.wr b o v).pending = s.pending := rfl
@[simp] theorem State.wr_tick (s : State) (b : Blk) (o : Nat) (v : Word) : (s.wr b o v).tick = s.tick := rfl
@[simp] theorem State.wr_freeIdx (s : State) (b : Blk) (o : Nat) (v : Word) : (s.wr b o v).freeIdx = s.freeIdx := rfl
@[simp] theorem State.wr_mem (s : State) (b : Blk) (o : Nat) (v : Word) : (s.wr b o v).mem = s.mem := rfl
@[simp] theorem State.wr_poison (s : State) (b : Blk) (o : Nat) (v : Word) : (s.wr b o v).poison = s.poison := rfl
@[simp] theorem State.wr_readData (s : State) (b : Blk) (o : Nat) (v : Word) : (s.wr b o v).readData = s.readData := rfl
@[simp] theorem State.wr_org (s : State) (b : Blk) (o : Nat) (v : Word) : (s.wr b o v).org = s.org := rfl
@[simp] theorem State.wr_sett (s : State) (b : Blk) (o : Nat) (v : Word) : (s.wr b o v).sett = s.sett := rfl
@[simp] theorem State.wr_flash (s : State) (b : Blk) (o : Nat) (v : Word) : (s.wr b o v).flash = s.flash := rfl
@[simp] theorem State.wr_owl (s : State) (b : Blk) (o : Nat) (v : Word) : (s.wr b o v).owl = s.owl := rfl
@[simp] theorem State.wr_wear (s : State) (b : Blk) (o : Nat) (v : Word) : (s.wr b o v).wear = s.wear := rfl
@[simp] theorem State.wr_pwr (s : State) (b : Blk) (o : Nat) (v : Word) : (s.wr b o v).pwr = s.pwr := rfl
@[simp] theorem State.wr_twinMsix (s : State) (b : Blk) (o : Nat) (v : Word) : (s.wr b o v).twinMsix = s.twinMsix := rfl
@[simp] theorem State.wr_lodges (s : State) (b : Blk) (o : Nat) (v : Word) : (s.wr b o v).lodges = s.lodges := rfl
@[simp] theorem State.wr_pools (s : State) (b : Blk) (o : Nat) (v : Word) : (s.wr b o v).pools = s.pools := rfl
@[simp] theorem State.wr_lodgeWork (s : State) (b : Blk) (o : Nat) (v : Word) : (s.wr b o v).lodgeWork = s.lodgeWork := rfl
@[simp] theorem State.wr_idist (s : State) (b : Blk) (o : Nat) (v : Word) : (s.wr b o v).idist = s.idist := rfl
@[simp] theorem State.wr_cores (s : State) (b : Blk) (o : Nat) (v : Word) : (s.wr b o v).cores = s.cores := rfl
@[simp] theorem State.wr_fab (s : State) (b : Blk) (o : Nat) (v : Word) : (s.wr b o v).fab = s.fab := rfl
@[simp] theorem State.wr_flips (s : State) (b : Blk) (o : Nat) (v : Word) : (s.wr b o v).flips = s.flips := rfl
@[simp] theorem State.wr_ports (s : State) (b : Blk) (o : Nat) (v : Word) : (s.wr b o v).ports = s.ports := rfl
@[simp] theorem State.wr_vfs (s : State) (b : Blk) (o : Nat) (v : Word) : (s.wr b o v).vfs = s.vfs := rfl
@[simp] theorem State.wr_pf0 (s : State) (b : Blk) (o : Nat) (v : Word) : (s.wr b o v).pf0 = s.pf0 := rfl
@[simp] theorem State.wr_mcs (s : State) (b : Blk) (o : Nat) (v : Word) : (s.wr b o v).mcs = s.mcs := rfl
@[simp] theorem State.wr_hoards (s : State) (b : Blk) (o : Nat) (v : Word) : (s.wr b o v).hoards = s.hoards := rfl
@[simp] theorem State.wr_elog (s : State) (b : Blk) (o : Nat) (v : Word) : (s.wr b o v).elog = s.elog := rfl
@[simp] theorem State.wr_bw (s : State) (b : Blk) (o : Nat) (v : Word) : (s.wr b o v).bw = s.bw := rfl

/-! ## State.wf -/

@[simp] theorem State.wf_pending (s : State) (b : Blk) (o hi lo n : Nat) : (s.wf b o hi lo n).pending = s.pending := rfl
@[simp] theorem State.wf_tick (s : State) (b : Blk) (o hi lo n : Nat) : (s.wf b o hi lo n).tick = s.tick := rfl
@[simp] theorem State.wf_freeIdx (s : State) (b : Blk) (o hi lo n : Nat) : (s.wf b o hi lo n).freeIdx = s.freeIdx := rfl
@[simp] theorem State.wf_mem (s : State) (b : Blk) (o hi lo n : Nat) : (s.wf b o hi lo n).mem = s.mem := rfl
@[simp] theorem State.wf_poison (s : State) (b : Blk) (o hi lo n : Nat) : (s.wf b o hi lo n).poison = s.poison := rfl
@[simp] theorem State.wf_readData (s : State) (b : Blk) (o hi lo n : Nat) : (s.wf b o hi lo n).readData = s.readData := rfl
@[simp] theorem State.wf_org (s : State) (b : Blk) (o hi lo n : Nat) : (s.wf b o hi lo n).org = s.org := rfl
@[simp] theorem State.wf_sett (s : State) (b : Blk) (o hi lo n : Nat) : (s.wf b o hi lo n).sett = s.sett := rfl
@[simp] theorem State.wf_flash (s : State) (b : Blk) (o hi lo n : Nat) : (s.wf b o hi lo n).flash = s.flash := rfl
@[simp] theorem State.wf_owl (s : State) (b : Blk) (o hi lo n : Nat) : (s.wf b o hi lo n).owl = s.owl := rfl
@[simp] theorem State.wf_wear (s : State) (b : Blk) (o hi lo n : Nat) : (s.wf b o hi lo n).wear = s.wear := rfl
@[simp] theorem State.wf_pwr (s : State) (b : Blk) (o hi lo n : Nat) : (s.wf b o hi lo n).pwr = s.pwr := rfl
@[simp] theorem State.wf_twinMsix (s : State) (b : Blk) (o hi lo n : Nat) : (s.wf b o hi lo n).twinMsix = s.twinMsix := rfl
@[simp] theorem State.wf_lodges (s : State) (b : Blk) (o hi lo n : Nat) : (s.wf b o hi lo n).lodges = s.lodges := rfl
@[simp] theorem State.wf_pools (s : State) (b : Blk) (o hi lo n : Nat) : (s.wf b o hi lo n).pools = s.pools := rfl
@[simp] theorem State.wf_lodgeWork (s : State) (b : Blk) (o hi lo n : Nat) : (s.wf b o hi lo n).lodgeWork = s.lodgeWork := rfl
@[simp] theorem State.wf_idist (s : State) (b : Blk) (o hi lo n : Nat) : (s.wf b o hi lo n).idist = s.idist := rfl
@[simp] theorem State.wf_cores (s : State) (b : Blk) (o hi lo n : Nat) : (s.wf b o hi lo n).cores = s.cores := rfl
@[simp] theorem State.wf_fab (s : State) (b : Blk) (o hi lo n : Nat) : (s.wf b o hi lo n).fab = s.fab := rfl
@[simp] theorem State.wf_flips (s : State) (b : Blk) (o hi lo n : Nat) : (s.wf b o hi lo n).flips = s.flips := rfl
@[simp] theorem State.wf_ports (s : State) (b : Blk) (o hi lo n : Nat) : (s.wf b o hi lo n).ports = s.ports := rfl
@[simp] theorem State.wf_vfs (s : State) (b : Blk) (o hi lo n : Nat) : (s.wf b o hi lo n).vfs = s.vfs := rfl
@[simp] theorem State.wf_pf0 (s : State) (b : Blk) (o hi lo n : Nat) : (s.wf b o hi lo n).pf0 = s.pf0 := rfl
@[simp] theorem State.wf_mcs (s : State) (b : Blk) (o hi lo n : Nat) : (s.wf b o hi lo n).mcs = s.mcs := rfl
@[simp] theorem State.wf_hoards (s : State) (b : Blk) (o hi lo n : Nat) : (s.wf b o hi lo n).hoards = s.hoards := rfl
@[simp] theorem State.wf_elog (s : State) (b : Blk) (o hi lo n : Nat) : (s.wf b o hi lo n).elog = s.elog := rfl
@[simp] theorem State.wf_bw (s : State) (b : Blk) (o hi lo n : Nat) : (s.wf b o hi lo n).bw = s.bw := rfl

/-! ## State.toTick -/

@[simp] theorem State.toTick_pending (s : State) (t : Nat) : (s.toTick t).pending = s.pending := rfl
@[simp] theorem State.toTick_freeIdx (s : State) (t : Nat) : (s.toTick t).freeIdx = s.freeIdx := rfl
@[simp] theorem State.toTick_ocr (s : State) (t : Nat) : (s.toTick t).ocr = s.ocr := rfl
@[simp] theorem State.toTick_mem (s : State) (t : Nat) : (s.toTick t).mem = s.mem := rfl
@[simp] theorem State.toTick_poison (s : State) (t : Nat) : (s.toTick t).poison = s.poison := rfl
@[simp] theorem State.toTick_readData (s : State) (t : Nat) : (s.toTick t).readData = s.readData := rfl
@[simp] theorem State.toTick_org (s : State) (t : Nat) : (s.toTick t).org = s.org := rfl
@[simp] theorem State.toTick_sett (s : State) (t : Nat) : (s.toTick t).sett = s.sett := rfl
@[simp] theorem State.toTick_flash (s : State) (t : Nat) : (s.toTick t).flash = s.flash := rfl
@[simp] theorem State.toTick_owl (s : State) (t : Nat) : (s.toTick t).owl = s.owl := rfl
@[simp] theorem State.toTick_wear (s : State) (t : Nat) : (s.toTick t).wear = s.wear := rfl
@[simp] theorem State.toTick_pwr (s : State) (t : Nat) : (s.toTick t).pwr = s.pwr := rfl
@[simp] theorem State.toTick_twinMsix (s : State) (t : Nat) : (s.toTick t).twinMsix = s.twinMsix := rfl
@[simp] theorem State.toTick_lodges (s : State) (t : Nat) : (s.toTick t).lodges = s.lodges := rfl
@[simp] theorem State.toTick_pools (s : State) (t : Nat) : (s.toTick t).pools = s.pools := rfl
@[simp] theorem State.toTick_lodgeWork (s : State) (t : Nat) : (s.toTick t).lodgeWork = s.lodgeWork := rfl
@[simp] theorem State.toTick_idist (s : State) (t : Nat) : (s.toTick t).idist = s.idist := rfl
@[simp] theorem State.toTick_cores (s : State) (t : Nat) : (s.toTick t).cores = s.cores := rfl
@[simp] theorem State.toTick_fab (s : State) (t : Nat) : (s.toTick t).fab = s.fab := rfl
@[simp] theorem State.toTick_flips (s : State) (t : Nat) : (s.toTick t).flips = s.flips := rfl
@[simp] theorem State.toTick_ports (s : State) (t : Nat) : (s.toTick t).ports = s.ports := rfl
@[simp] theorem State.toTick_vfs (s : State) (t : Nat) : (s.toTick t).vfs = s.vfs := rfl
@[simp] theorem State.toTick_pf0 (s : State) (t : Nat) : (s.toTick t).pf0 = s.pf0 := rfl
@[simp] theorem State.toTick_mcs (s : State) (t : Nat) : (s.toTick t).mcs = s.mcs := rfl
@[simp] theorem State.toTick_hoards (s : State) (t : Nat) : (s.toTick t).hoards = s.hoards := rfl
@[simp] theorem State.toTick_elog (s : State) (t : Nat) : (s.toTick t).elog = s.elog := rfl
@[simp] theorem State.toTick_bw (s : State) (t : Nat) : (s.toTick t).bw = s.bw := rfl

/-! ## State.setMemByte -/

@[simp] theorem State.setMemByte_pending (s : State) (a : Nat) (b : Byte) : (s.setMemByte a b).pending = s.pending := rfl
@[simp] theorem State.setMemByte_tick (s : State) (a : Nat) (b : Byte) : (s.setMemByte a b).tick = s.tick := rfl
@[simp] theorem State.setMemByte_freeIdx (s : State) (a : Nat) (b : Byte) : (s.setMemByte a b).freeIdx = s.freeIdx := rfl
@[simp] theorem State.setMemByte_ocr (s : State) (a : Nat) (b : Byte) : (s.setMemByte a b).ocr = s.ocr := rfl
@[simp] theorem State.setMemByte_poison (s : State) (a : Nat) (b : Byte) : (s.setMemByte a b).poison = s.poison := rfl
@[simp] theorem State.setMemByte_readData (s : State) (a : Nat) (b : Byte) : (s.setMemByte a b).readData = s.readData := rfl
@[simp] theorem State.setMemByte_org (s : State) (a : Nat) (b : Byte) : (s.setMemByte a b).org = s.org := rfl
@[simp] theorem State.setMemByte_sett (s : State) (a : Nat) (b : Byte) : (s.setMemByte a b).sett = s.sett := rfl
@[simp] theorem State.setMemByte_flash (s : State) (a : Nat) (b : Byte) : (s.setMemByte a b).flash = s.flash := rfl
@[simp] theorem State.setMemByte_owl (s : State) (a : Nat) (b : Byte) : (s.setMemByte a b).owl = s.owl := rfl
@[simp] theorem State.setMemByte_wear (s : State) (a : Nat) (b : Byte) : (s.setMemByte a b).wear = s.wear := rfl
@[simp] theorem State.setMemByte_pwr (s : State) (a : Nat) (b : Byte) : (s.setMemByte a b).pwr = s.pwr := rfl
@[simp] theorem State.setMemByte_twinMsix (s : State) (a : Nat) (b : Byte) : (s.setMemByte a b).twinMsix = s.twinMsix := rfl
@[simp] theorem State.setMemByte_lodges (s : State) (a : Nat) (b : Byte) : (s.setMemByte a b).lodges = s.lodges := rfl
@[simp] theorem State.setMemByte_pools (s : State) (a : Nat) (b : Byte) : (s.setMemByte a b).pools = s.pools := rfl
@[simp] theorem State.setMemByte_lodgeWork (s : State) (a : Nat) (b : Byte) : (s.setMemByte a b).lodgeWork = s.lodgeWork := rfl
@[simp] theorem State.setMemByte_idist (s : State) (a : Nat) (b : Byte) : (s.setMemByte a b).idist = s.idist := rfl
@[simp] theorem State.setMemByte_cores (s : State) (a : Nat) (b : Byte) : (s.setMemByte a b).cores = s.cores := rfl
@[simp] theorem State.setMemByte_fab (s : State) (a : Nat) (b : Byte) : (s.setMemByte a b).fab = s.fab := rfl
@[simp] theorem State.setMemByte_flips (s : State) (a : Nat) (b : Byte) : (s.setMemByte a b).flips = s.flips := rfl
@[simp] theorem State.setMemByte_ports (s : State) (a : Nat) (b : Byte) : (s.setMemByte a b).ports = s.ports := rfl
@[simp] theorem State.setMemByte_vfs (s : State) (a : Nat) (b : Byte) : (s.setMemByte a b).vfs = s.vfs := rfl
@[simp] theorem State.setMemByte_pf0 (s : State) (a : Nat) (b : Byte) : (s.setMemByte a b).pf0 = s.pf0 := rfl
@[simp] theorem State.setMemByte_mcs (s : State) (a : Nat) (b : Byte) : (s.setMemByte a b).mcs = s.mcs := rfl
@[simp] theorem State.setMemByte_hoards (s : State) (a : Nat) (b : Byte) : (s.setMemByte a b).hoards = s.hoards := rfl
@[simp] theorem State.setMemByte_elog (s : State) (a : Nat) (b : Byte) : (s.setMemByte a b).elog = s.elog := rfl
@[simp] theorem State.setMemByte_bw (s : State) (a : Nat) (b : Byte) : (s.setMemByte a b).bw = s.bw := rfl

/-! ## State.setCore -/

@[simp] theorem State.setCore_pending (s : State) (p : Nat) (c : Core) : (s.setCore p c).pending = s.pending := rfl
@[simp] theorem State.setCore_tick (s : State) (p : Nat) (c : Core) : (s.setCore p c).tick = s.tick := rfl
@[simp] theorem State.setCore_freeIdx (s : State) (p : Nat) (c : Core) : (s.setCore p c).freeIdx = s.freeIdx := rfl
@[simp] theorem State.setCore_ocr (s : State) (p : Nat) (c : Core) : (s.setCore p c).ocr = s.ocr := rfl
@[simp] theorem State.setCore_mem (s : State) (p : Nat) (c : Core) : (s.setCore p c).mem = s.mem := rfl
@[simp] theorem State.setCore_poison (s : State) (p : Nat) (c : Core) : (s.setCore p c).poison = s.poison := rfl
@[simp] theorem State.setCore_readData (s : State) (p : Nat) (c : Core) : (s.setCore p c).readData = s.readData := rfl
@[simp] theorem State.setCore_org (s : State) (p : Nat) (c : Core) : (s.setCore p c).org = s.org := rfl
@[simp] theorem State.setCore_sett (s : State) (p : Nat) (c : Core) : (s.setCore p c).sett = s.sett := rfl
@[simp] theorem State.setCore_flash (s : State) (p : Nat) (c : Core) : (s.setCore p c).flash = s.flash := rfl
@[simp] theorem State.setCore_owl (s : State) (p : Nat) (c : Core) : (s.setCore p c).owl = s.owl := rfl
@[simp] theorem State.setCore_wear (s : State) (p : Nat) (c : Core) : (s.setCore p c).wear = s.wear := rfl
@[simp] theorem State.setCore_pwr (s : State) (p : Nat) (c : Core) : (s.setCore p c).pwr = s.pwr := rfl
@[simp] theorem State.setCore_twinMsix (s : State) (p : Nat) (c : Core) : (s.setCore p c).twinMsix = s.twinMsix := rfl
@[simp] theorem State.setCore_lodges (s : State) (p : Nat) (c : Core) : (s.setCore p c).lodges = s.lodges := rfl
@[simp] theorem State.setCore_pools (s : State) (p : Nat) (c : Core) : (s.setCore p c).pools = s.pools := rfl
@[simp] theorem State.setCore_lodgeWork (s : State) (p : Nat) (c : Core) : (s.setCore p c).lodgeWork = s.lodgeWork := rfl
@[simp] theorem State.setCore_idist (s : State) (p : Nat) (c : Core) : (s.setCore p c).idist = s.idist := rfl
@[simp] theorem State.setCore_fab (s : State) (p : Nat) (c : Core) : (s.setCore p c).fab = s.fab := rfl
@[simp] theorem State.setCore_flips (s : State) (p : Nat) (c : Core) : (s.setCore p c).flips = s.flips := rfl
@[simp] theorem State.setCore_ports (s : State) (p : Nat) (c : Core) : (s.setCore p c).ports = s.ports := rfl
@[simp] theorem State.setCore_vfs (s : State) (p : Nat) (c : Core) : (s.setCore p c).vfs = s.vfs := rfl
@[simp] theorem State.setCore_pf0 (s : State) (p : Nat) (c : Core) : (s.setCore p c).pf0 = s.pf0 := rfl
@[simp] theorem State.setCore_mcs (s : State) (p : Nat) (c : Core) : (s.setCore p c).mcs = s.mcs := rfl
@[simp] theorem State.setCore_hoards (s : State) (p : Nat) (c : Core) : (s.setCore p c).hoards = s.hoards := rfl
@[simp] theorem State.setCore_elog (s : State) (p : Nat) (c : Core) : (s.setCore p c).elog = s.elog := rfl
@[simp] theorem State.setCore_bw (s : State) (p : Nat) (c : Core) : (s.setCore p c).bw = s.bw := rfl

/-! ## State.modCore -/

@[simp] theorem State.modCore_pending (s : State) (p : Nat) (f : Core → Core) : (s.modCore p f).pending = s.pending := rfl
@[simp] theorem State.modCore_tick (s : State) (p : Nat) (f : Core → Core) : (s.modCore p f).tick = s.tick := rfl
@[simp] theorem State.modCore_freeIdx (s : State) (p : Nat) (f : Core → Core) : (s.modCore p f).freeIdx = s.freeIdx := rfl
@[simp] theorem State.modCore_ocr (s : State) (p : Nat) (f : Core → Core) : (s.modCore p f).ocr = s.ocr := rfl
@[simp] theorem State.modCore_mem (s : State) (p : Nat) (f : Core → Core) : (s.modCore p f).mem = s.mem := rfl
@[simp] theorem State.modCore_poison (s : State) (p : Nat) (f : Core → Core) : (s.modCore p f).poison = s.poison := rfl
@[simp] theorem State.modCore_readData (s : State) (p : Nat) (f : Core → Core) : (s.modCore p f).readData = s.readData := rfl
@[simp] theorem State.modCore_org (s : State) (p : Nat) (f : Core → Core) : (s.modCore p f).org = s.org := rfl
@[simp] theorem State.modCore_sett (s : State) (p : Nat) (f : Core → Core) : (s.modCore p f).sett = s.sett := rfl
@[simp] theorem State.modCore_flash (s : State) (p : Nat) (f : Core → Core) : (s.modCore p f).flash = s.flash := rfl
@[simp] theorem State.modCore_owl (s : State) (p : Nat) (f : Core → Core) : (s.modCore p f).owl = s.owl := rfl
@[simp] theorem State.modCore_wear (s : State) (p : Nat) (f : Core → Core) : (s.modCore p f).wear = s.wear := rfl
@[simp] theorem State.modCore_pwr (s : State) (p : Nat) (f : Core → Core) : (s.modCore p f).pwr = s.pwr := rfl
@[simp] theorem State.modCore_twinMsix (s : State) (p : Nat) (f : Core → Core) : (s.modCore p f).twinMsix = s.twinMsix := rfl
@[simp] theorem State.modCore_lodges (s : State) (p : Nat) (f : Core → Core) : (s.modCore p f).lodges = s.lodges := rfl
@[simp] theorem State.modCore_pools (s : State) (p : Nat) (f : Core → Core) : (s.modCore p f).pools = s.pools := rfl
@[simp] theorem State.modCore_lodgeWork (s : State) (p : Nat) (f : Core → Core) : (s.modCore p f).lodgeWork = s.lodgeWork := rfl
@[simp] theorem State.modCore_idist (s : State) (p : Nat) (f : Core → Core) : (s.modCore p f).idist = s.idist := rfl
@[simp] theorem State.modCore_fab (s : State) (p : Nat) (f : Core → Core) : (s.modCore p f).fab = s.fab := rfl
@[simp] theorem State.modCore_flips (s : State) (p : Nat) (f : Core → Core) : (s.modCore p f).flips = s.flips := rfl
@[simp] theorem State.modCore_ports (s : State) (p : Nat) (f : Core → Core) : (s.modCore p f).ports = s.ports := rfl
@[simp] theorem State.modCore_vfs (s : State) (p : Nat) (f : Core → Core) : (s.modCore p f).vfs = s.vfs := rfl
@[simp] theorem State.modCore_pf0 (s : State) (p : Nat) (f : Core → Core) : (s.modCore p f).pf0 = s.pf0 := rfl
@[simp] theorem State.modCore_mcs (s : State) (p : Nat) (f : Core → Core) : (s.modCore p f).mcs = s.mcs := rfl
@[simp] theorem State.modCore_hoards (s : State) (p : Nat) (f : Core → Core) : (s.modCore p f).hoards = s.hoards := rfl
@[simp] theorem State.modCore_elog (s : State) (p : Nat) (f : Core → Core) : (s.modCore p f).elog = s.elog := rfl
@[simp] theorem State.modCore_bw (s : State) (p : Nat) (f : Core → Core) : (s.modCore p f).bw = s.bw := rfl

/-! ## State.setChan -/

@[simp] theorem State.setChan_pending (s : State) (ch : Nat) (c : Chan) : (s.setChan ch c).pending = s.pending := rfl
@[simp] theorem State.setChan_tick (s : State) (ch : Nat) (c : Chan) : (s.setChan ch c).tick = s.tick := rfl
@[simp] theorem State.setChan_freeIdx (s : State) (ch : Nat) (c : Chan) : (s.setChan ch c).freeIdx = s.freeIdx := rfl
@[simp] theorem State.setChan_ocr (s : State) (ch : Nat) (c : Chan) : (s.setChan ch c).ocr = s.ocr := rfl
@[simp] theorem State.setChan_mem (s : State) (ch : Nat) (c : Chan) : (s.setChan ch c).mem = s.mem := rfl
@[simp] theorem State.setChan_poison (s : State) (ch : Nat) (c : Chan) : (s.setChan ch c).poison = s.poison := rfl
@[simp] theorem State.setChan_readData (s : State) (ch : Nat) (c : Chan) : (s.setChan ch c).readData = s.readData := rfl
@[simp] theorem State.setChan_org (s : State) (ch : Nat) (c : Chan) : (s.setChan ch c).org = s.org := rfl
@[simp] theorem State.setChan_flash (s : State) (ch : Nat) (c : Chan) : (s.setChan ch c).flash = s.flash := rfl
@[simp] theorem State.setChan_owl (s : State) (ch : Nat) (c : Chan) : (s.setChan ch c).owl = s.owl := rfl
@[simp] theorem State.setChan_wear (s : State) (ch : Nat) (c : Chan) : (s.setChan ch c).wear = s.wear := rfl
@[simp] theorem State.setChan_pwr (s : State) (ch : Nat) (c : Chan) : (s.setChan ch c).pwr = s.pwr := rfl
@[simp] theorem State.setChan_twinMsix (s : State) (ch : Nat) (c : Chan) : (s.setChan ch c).twinMsix = s.twinMsix := rfl
@[simp] theorem State.setChan_lodges (s : State) (ch : Nat) (c : Chan) : (s.setChan ch c).lodges = s.lodges := rfl
@[simp] theorem State.setChan_pools (s : State) (ch : Nat) (c : Chan) : (s.setChan ch c).pools = s.pools := rfl
@[simp] theorem State.setChan_lodgeWork (s : State) (ch : Nat) (c : Chan) : (s.setChan ch c).lodgeWork = s.lodgeWork := rfl
@[simp] theorem State.setChan_idist (s : State) (ch : Nat) (c : Chan) : (s.setChan ch c).idist = s.idist := rfl
@[simp] theorem State.setChan_cores (s : State) (ch : Nat) (c : Chan) : (s.setChan ch c).cores = s.cores := rfl
@[simp] theorem State.setChan_fab (s : State) (ch : Nat) (c : Chan) : (s.setChan ch c).fab = s.fab := rfl
@[simp] theorem State.setChan_flips (s : State) (ch : Nat) (c : Chan) : (s.setChan ch c).flips = s.flips := rfl
@[simp] theorem State.setChan_ports (s : State) (ch : Nat) (c : Chan) : (s.setChan ch c).ports = s.ports := rfl
@[simp] theorem State.setChan_vfs (s : State) (ch : Nat) (c : Chan) : (s.setChan ch c).vfs = s.vfs := rfl
@[simp] theorem State.setChan_pf0 (s : State) (ch : Nat) (c : Chan) : (s.setChan ch c).pf0 = s.pf0 := rfl
@[simp] theorem State.setChan_mcs (s : State) (ch : Nat) (c : Chan) : (s.setChan ch c).mcs = s.mcs := rfl
@[simp] theorem State.setChan_hoards (s : State) (ch : Nat) (c : Chan) : (s.setChan ch c).hoards = s.hoards := rfl
@[simp] theorem State.setChan_elog (s : State) (ch : Nat) (c : Chan) : (s.setChan ch c).elog = s.elog := rfl
@[simp] theorem State.setChan_bw (s : State) (ch : Nat) (c : Chan) : (s.setChan ch c).bw = s.bw := rfl

/-! ## State.setPort -/

@[simp] theorem State.setPort_pending (s : State) (n : Nat) (p : Port) : (s.setPort n p).pending = s.pending := rfl
@[simp] theorem State.setPort_tick (s : State) (n : Nat) (p : Port) : (s.setPort n p).tick = s.tick := rfl
@[simp] theorem State.setPort_freeIdx (s : State) (n : Nat) (p : Port) : (s.setPort n p).freeIdx = s.freeIdx := rfl
@[simp] theorem State.setPort_ocr (s : State) (n : Nat) (p : Port) : (s.setPort n p).ocr = s.ocr := rfl
@[simp] theorem State.setPort_mem (s : State) (n : Nat) (p : Port) : (s.setPort n p).mem = s.mem := rfl
@[simp] theorem State.setPort_poison (s : State) (n : Nat) (p : Port) : (s.setPort n p).poison = s.poison := rfl
@[simp] theorem State.setPort_readData (s : State) (n : Nat) (p : Port) : (s.setPort n p).readData = s.readData := rfl
@[simp] theorem State.setPort_org (s : State) (n : Nat) (p : Port) : (s.setPort n p).org = s.org := rfl
@[simp] theorem State.setPort_sett (s : State) (n : Nat) (p : Port) : (s.setPort n p).sett = s.sett := rfl
@[simp] theorem State.setPort_flash (s : State) (n : Nat) (p : Port) : (s.setPort n p).flash = s.flash := rfl
@[simp] theorem State.setPort_owl (s : State) (n : Nat) (p : Port) : (s.setPort n p).owl = s.owl := rfl
@[simp] theorem State.setPort_wear (s : State) (n : Nat) (p : Port) : (s.setPort n p).wear = s.wear := rfl
@[simp] theorem State.setPort_pwr (s : State) (n : Nat) (p : Port) : (s.setPort n p).pwr = s.pwr := rfl
@[simp] theorem State.setPort_twinMsix (s : State) (n : Nat) (p : Port) : (s.setPort n p).twinMsix = s.twinMsix := rfl
@[simp] theorem State.setPort_lodges (s : State) (n : Nat) (p : Port) : (s.setPort n p).lodges = s.lodges := rfl
@[simp] theorem State.setPort_pools (s : State) (n : Nat) (p : Port) : (s.setPort n p).pools = s.pools := rfl
@[simp] theorem State.setPort_lodgeWork (s : State) (n : Nat) (p : Port) : (s.setPort n p).lodgeWork = s.lodgeWork := rfl
@[simp] theorem State.setPort_idist (s : State) (n : Nat) (p : Port) : (s.setPort n p).idist = s.idist := rfl
@[simp] theorem State.setPort_cores (s : State) (n : Nat) (p : Port) : (s.setPort n p).cores = s.cores := rfl
@[simp] theorem State.setPort_fab (s : State) (n : Nat) (p : Port) : (s.setPort n p).fab = s.fab := rfl
@[simp] theorem State.setPort_flips (s : State) (n : Nat) (p : Port) : (s.setPort n p).flips = s.flips := rfl
@[simp] theorem State.setPort_vfs (s : State) (n : Nat) (p : Port) : (s.setPort n p).vfs = s.vfs := rfl
@[simp] theorem State.setPort_pf0 (s : State) (n : Nat) (p : Port) : (s.setPort n p).pf0 = s.pf0 := rfl
@[simp] theorem State.setPort_mcs (s : State) (n : Nat) (p : Port) : (s.setPort n p).mcs = s.mcs := rfl
@[simp] theorem State.setPort_hoards (s : State) (n : Nat) (p : Port) : (s.setPort n p).hoards = s.hoards := rfl
@[simp] theorem State.setPort_elog (s : State) (n : Nat) (p : Port) : (s.setPort n p).elog = s.elog := rfl
@[simp] theorem State.setPort_bw (s : State) (n : Nat) (p : Port) : (s.setPort n p).bw = s.bw := rfl

/-! ## State.setVf -/

@[simp] theorem State.setVf_pending (s : State) (v : Nat) (x : VfSt) : (s.setVf v x).pending = s.pending := rfl
@[simp] theorem State.setVf_tick (s : State) (v : Nat) (x : VfSt) : (s.setVf v x).tick = s.tick := rfl
@[simp] theorem State.setVf_freeIdx (s : State) (v : Nat) (x : VfSt) : (s.setVf v x).freeIdx = s.freeIdx := rfl
@[simp] theorem State.setVf_ocr (s : State) (v : Nat) (x : VfSt) : (s.setVf v x).ocr = s.ocr := rfl
@[simp] theorem State.setVf_mem (s : State) (v : Nat) (x : VfSt) : (s.setVf v x).mem = s.mem := rfl
@[simp] theorem State.setVf_poison (s : State) (v : Nat) (x : VfSt) : (s.setVf v x).poison = s.poison := rfl
@[simp] theorem State.setVf_readData (s : State) (v : Nat) (x : VfSt) : (s.setVf v x).readData = s.readData := rfl
@[simp] theorem State.setVf_org (s : State) (v : Nat) (x : VfSt) : (s.setVf v x).org = s.org := rfl
@[simp] theorem State.setVf_sett (s : State) (v : Nat) (x : VfSt) : (s.setVf v x).sett = s.sett := rfl
@[simp] theorem State.setVf_flash (s : State) (v : Nat) (x : VfSt) : (s.setVf v x).flash = s.flash := rfl
@[simp] theorem State.setVf_owl (s : State) (v : Nat) (x : VfSt) : (s.setVf v x).owl = s.owl := rfl
@[simp] theorem State.setVf_wear (s : State) (v : Nat) (x : VfSt) : (s.setVf v x).wear = s.wear := rfl
@[simp] theorem State.setVf_pwr (s : State) (v : Nat) (x : VfSt) : (s.setVf v x).pwr = s.pwr := rfl
@[simp] theorem State.setVf_twinMsix (s : State) (v : Nat) (x : VfSt) : (s.setVf v x).twinMsix = s.twinMsix := rfl
@[simp] theorem State.setVf_lodges (s : State) (v : Nat) (x : VfSt) : (s.setVf v x).lodges = s.lodges := rfl
@[simp] theorem State.setVf_pools (s : State) (v : Nat) (x : VfSt) : (s.setVf v x).pools = s.pools := rfl
@[simp] theorem State.setVf_lodgeWork (s : State) (v : Nat) (x : VfSt) : (s.setVf v x).lodgeWork = s.lodgeWork := rfl
@[simp] theorem State.setVf_idist (s : State) (v : Nat) (x : VfSt) : (s.setVf v x).idist = s.idist := rfl
@[simp] theorem State.setVf_cores (s : State) (v : Nat) (x : VfSt) : (s.setVf v x).cores = s.cores := rfl
@[simp] theorem State.setVf_fab (s : State) (v : Nat) (x : VfSt) : (s.setVf v x).fab = s.fab := rfl
@[simp] theorem State.setVf_flips (s : State) (v : Nat) (x : VfSt) : (s.setVf v x).flips = s.flips := rfl
@[simp] theorem State.setVf_ports (s : State) (v : Nat) (x : VfSt) : (s.setVf v x).ports = s.ports := rfl
@[simp] theorem State.setVf_pf0 (s : State) (v : Nat) (x : VfSt) : (s.setVf v x).pf0 = s.pf0 := rfl
@[simp] theorem State.setVf_mcs (s : State) (v : Nat) (x : VfSt) : (s.setVf v x).mcs = s.mcs := rfl
@[simp] theorem State.setVf_hoards (s : State) (v : Nat) (x : VfSt) : (s.setVf v x).hoards = s.hoards := rfl
@[simp] theorem State.setVf_elog (s : State) (v : Nat) (x : VfSt) : (s.setVf v x).elog = s.elog := rfl
@[simp] theorem State.setVf_bw (s : State) (v : Nat) (x : VfSt) : (s.setVf v x).bw = s.bw := rfl

/-! ## State.setMc -/

@[simp] theorem State.setMc_pending (s : State) (n : Nat) (m : McSt) : (s.setMc n m).pending = s.pending := rfl
@[simp] theorem State.setMc_tick (s : State) (n : Nat) (m : McSt) : (s.setMc n m).tick = s.tick := rfl
@[simp] theorem State.setMc_freeIdx (s : State) (n : Nat) (m : McSt) : (s.setMc n m).freeIdx = s.freeIdx := rfl
@[simp] theorem State.setMc_ocr (s : State) (n : Nat) (m : McSt) : (s.setMc n m).ocr = s.ocr := rfl
@[simp] theorem State.setMc_mem (s : State) (n : Nat) (m : McSt) : (s.setMc n m).mem = s.mem := rfl
@[simp] theorem State.setMc_poison (s : State) (n : Nat) (m : McSt) : (s.setMc n m).poison = s.poison := rfl
@[simp] theorem State.setMc_readData (s : State) (n : Nat) (m : McSt) : (s.setMc n m).readData = s.readData := rfl
@[simp] theorem State.setMc_org (s : State) (n : Nat) (m : McSt) : (s.setMc n m).org = s.org := rfl
@[simp] theorem State.setMc_sett (s : State) (n : Nat) (m : McSt) : (s.setMc n m).sett = s.sett := rfl
@[simp] theorem State.setMc_flash (s : State) (n : Nat) (m : McSt) : (s.setMc n m).flash = s.flash := rfl
@[simp] theorem State.setMc_owl (s : State) (n : Nat) (m : McSt) : (s.setMc n m).owl = s.owl := rfl
@[simp] theorem State.setMc_wear (s : State) (n : Nat) (m : McSt) : (s.setMc n m).wear = s.wear := rfl
@[simp] theorem State.setMc_pwr (s : State) (n : Nat) (m : McSt) : (s.setMc n m).pwr = s.pwr := rfl
@[simp] theorem State.setMc_twinMsix (s : State) (n : Nat) (m : McSt) : (s.setMc n m).twinMsix = s.twinMsix := rfl
@[simp] theorem State.setMc_lodges (s : State) (n : Nat) (m : McSt) : (s.setMc n m).lodges = s.lodges := rfl
@[simp] theorem State.setMc_pools (s : State) (n : Nat) (m : McSt) : (s.setMc n m).pools = s.pools := rfl
@[simp] theorem State.setMc_lodgeWork (s : State) (n : Nat) (m : McSt) : (s.setMc n m).lodgeWork = s.lodgeWork := rfl
@[simp] theorem State.setMc_idist (s : State) (n : Nat) (m : McSt) : (s.setMc n m).idist = s.idist := rfl
@[simp] theorem State.setMc_cores (s : State) (n : Nat) (m : McSt) : (s.setMc n m).cores = s.cores := rfl
@[simp] theorem State.setMc_fab (s : State) (n : Nat) (m : McSt) : (s.setMc n m).fab = s.fab := rfl
@[simp] theorem State.setMc_flips (s : State) (n : Nat) (m : McSt) : (s.setMc n m).flips = s.flips := rfl
@[simp] theorem State.setMc_ports (s : State) (n : Nat) (m : McSt) : (s.setMc n m).ports = s.ports := rfl
@[simp] theorem State.setMc_vfs (s : State) (n : Nat) (m : McSt) : (s.setMc n m).vfs = s.vfs := rfl
@[simp] theorem State.setMc_pf0 (s : State) (n : Nat) (m : McSt) : (s.setMc n m).pf0 = s.pf0 := rfl
@[simp] theorem State.setMc_hoards (s : State) (n : Nat) (m : McSt) : (s.setMc n m).hoards = s.hoards := rfl
@[simp] theorem State.setMc_elog (s : State) (n : Nat) (m : McSt) : (s.setMc n m).elog = s.elog := rfl
@[simp] theorem State.setMc_bw (s : State) (n : Nat) (m : McSt) : (s.setMc n m).bw = s.bw := rfl

/-! ## State.setLodge -/

@[simp] theorem State.setLodge_pending (s : State) (l : Nat) (x : LodgeSt) : (s.setLodge l x).pending = s.pending := rfl
@[simp] theorem State.setLodge_tick (s : State) (l : Nat) (x : LodgeSt) : (s.setLodge l x).tick = s.tick := rfl
@[simp] theorem State.setLodge_freeIdx (s : State) (l : Nat) (x : LodgeSt) : (s.setLodge l x).freeIdx = s.freeIdx := rfl
@[simp] theorem State.setLodge_ocr (s : State) (l : Nat) (x : LodgeSt) : (s.setLodge l x).ocr = s.ocr := rfl
@[simp] theorem State.setLodge_mem (s : State) (l : Nat) (x : LodgeSt) : (s.setLodge l x).mem = s.mem := rfl
@[simp] theorem State.setLodge_poison (s : State) (l : Nat) (x : LodgeSt) : (s.setLodge l x).poison = s.poison := rfl
@[simp] theorem State.setLodge_readData (s : State) (l : Nat) (x : LodgeSt) : (s.setLodge l x).readData = s.readData := rfl
@[simp] theorem State.setLodge_org (s : State) (l : Nat) (x : LodgeSt) : (s.setLodge l x).org = s.org := rfl
@[simp] theorem State.setLodge_sett (s : State) (l : Nat) (x : LodgeSt) : (s.setLodge l x).sett = s.sett := rfl
@[simp] theorem State.setLodge_flash (s : State) (l : Nat) (x : LodgeSt) : (s.setLodge l x).flash = s.flash := rfl
@[simp] theorem State.setLodge_owl (s : State) (l : Nat) (x : LodgeSt) : (s.setLodge l x).owl = s.owl := rfl
@[simp] theorem State.setLodge_wear (s : State) (l : Nat) (x : LodgeSt) : (s.setLodge l x).wear = s.wear := rfl
@[simp] theorem State.setLodge_pwr (s : State) (l : Nat) (x : LodgeSt) : (s.setLodge l x).pwr = s.pwr := rfl
@[simp] theorem State.setLodge_twinMsix (s : State) (l : Nat) (x : LodgeSt) : (s.setLodge l x).twinMsix = s.twinMsix := rfl
@[simp] theorem State.setLodge_pools (s : State) (l : Nat) (x : LodgeSt) : (s.setLodge l x).pools = s.pools := rfl
@[simp] theorem State.setLodge_lodgeWork (s : State) (l : Nat) (x : LodgeSt) : (s.setLodge l x).lodgeWork = s.lodgeWork := rfl
@[simp] theorem State.setLodge_idist (s : State) (l : Nat) (x : LodgeSt) : (s.setLodge l x).idist = s.idist := rfl
@[simp] theorem State.setLodge_cores (s : State) (l : Nat) (x : LodgeSt) : (s.setLodge l x).cores = s.cores := rfl
@[simp] theorem State.setLodge_fab (s : State) (l : Nat) (x : LodgeSt) : (s.setLodge l x).fab = s.fab := rfl
@[simp] theorem State.setLodge_flips (s : State) (l : Nat) (x : LodgeSt) : (s.setLodge l x).flips = s.flips := rfl
@[simp] theorem State.setLodge_ports (s : State) (l : Nat) (x : LodgeSt) : (s.setLodge l x).ports = s.ports := rfl
@[simp] theorem State.setLodge_vfs (s : State) (l : Nat) (x : LodgeSt) : (s.setLodge l x).vfs = s.vfs := rfl
@[simp] theorem State.setLodge_pf0 (s : State) (l : Nat) (x : LodgeSt) : (s.setLodge l x).pf0 = s.pf0 := rfl
@[simp] theorem State.setLodge_mcs (s : State) (l : Nat) (x : LodgeSt) : (s.setLodge l x).mcs = s.mcs := rfl
@[simp] theorem State.setLodge_hoards (s : State) (l : Nat) (x : LodgeSt) : (s.setLodge l x).hoards = s.hoards := rfl
@[simp] theorem State.setLodge_elog (s : State) (l : Nat) (x : LodgeSt) : (s.setLodge l x).elog = s.elog := rfl
@[simp] theorem State.setLodge_bw (s : State) (l : Nat) (x : LodgeSt) : (s.setLodge l x).bw = s.bw := rfl

/-! ## What the update writes -/

@[simp] theorem State.toTick_tick (s : State) (t : Nat) : (s.toTick t).tick = max s.tick t := rfl
/-- Registers read alike where the register maps are the same. -/
theorem rd_congr {s t : State} (h : t.ocr = s.ocr) (b : Blk) (o : Nat) : t.rd b o = s.rd b o := by
  unfold State.rd State.rdOff; rw [h]
@[simp] theorem rdOff_wrOff_same (s : State) (off : Nat) (v : Word) : (s.wrOff off v).rdOff off = v := by
  simp [State.rdOff, State.wrOff]
theorem rdOff_wrOff_other (s : State) (off off' : Nat) (v : Word) (h : off' ≠ off) : (s.wrOff off v).rdOff off' = s.rdOff off' := by
  simp only [State.rdOff, State.wrOff]; exact smGet_smSet_other _ _ _ _ _ h
/-- A register reads as it was last written. -/
@[simp] theorem rd_wr_same (s : State) (b : Blk) (o : Nat) (v : Word) : (s.wr b o v).rd b o = v := rdOff_wrOff_same _ _ _
/-- A register write leaves every register at another address alone. -/
theorem rd_wr_other (s : State) (b c : Blk) (o p : Nat) (v : Word) (h : c.base + p ≠ b.base + o) : (s.wr b o v).rd c p = s.rd c p :=
  rdOff_wrOff_other _ _ _ _ h
/-- A field write gives the register its new field. -/
@[simp] theorem rd_wf_same (s : State) (b : Blk) (o hi lo n : Nat) : (s.wf b o hi lo n).rd b o = setFld (s.rd b o) hi lo n :=
  rd_wr_same _ _ _ _
theorem rd_wf_other (s : State) (b c : Blk) (o p hi lo n : Nat) (h : c.base + p ≠ b.base + o) : (s.wf b o hi lo n).rd c p = s.rd c p :=
  rd_wr_other _ _ _ _ _ _ h
@[simp] theorem core_setCore_same (s : State) (p : Nat) (c : Core) : (s.setCore p c).core p = c := by
  simp [State.core, State.setCore]
theorem core_setCore_other (s : State) (p q : Nat) (c : Core) (h : q ≠ p) : (s.setCore p c).core q = s.core q := by
  simp only [State.core, State.setCore]; exact smGet_smSet_other _ _ _ _ _ h
@[simp] theorem core_modCore_same (s : State) (p : Nat) (f : Core → Core) : (s.modCore p f).core p = f (s.core p) :=
  core_setCore_same _ _ _
theorem core_modCore_other (s : State) (p q : Nat) (f : Core → Core) (h : q ≠ p) : (s.modCore p f).core q = s.core q :=
  core_setCore_other _ _ _ _ h
@[simp] theorem port_setPort_same (s : State) (n : Nat) (x : Port) : (s.setPort n x).port n = x := by
  simp [State.port, State.setPort]
@[simp] theorem vf_setVf_same (s : State) (n : Nat) (x : VfSt) : (s.setVf n x).vf n = x := by
  simp [State.vf, State.setVf]
@[simp] theorem mcs'_setMc_same (s : State) (n : Nat) (x : McSt) : (s.setMc n x).mcs' n = x := by
  simp [State.mcs', State.setMc]
@[simp] theorem lodgeSt_setLodge_same (s : State) (l : Nat) (x : LodgeSt) : (s.setLodge l x).lodgeSt l = x := by
  simp [State.lodgeSt, State.setLodge]

end Sys2Proof.Machine
end

