-- ==== Sys2Proof/Laws/Settle.lean ====
section
/-! SUPPORT. What every command leaves behind. -/
namespace Sys2Proof.Machine

@[simp] theorem settle_pending (s t : State) : (settle s t).pending = s.pending := by
  unfold settle; split <;> rfl

/-- In a chip that runs, a command's state is its own effect and the queue. -/
theorem settle_live (s t : State) (h : s.Live) : settle s t = { t with pending := s.pending } := by
  unfold settle keepSafe; simp [h.1, h.2]

/-- The same for a chip that may be in SAFE, where the effect leaves SAFE alone. -/
theorem settle_kept (s t : State) (h : s.inert = false) (k : s.inSafe = true → t.inSafe = true) :
    settle s t = { t with pending := s.pending } := by
  unfold settle keepSafe
  rw [h]
  by_cases hs : s.inSafe = true
  · simp [hs, k hs]
  · simp [hs]

theorem inSafe_of_ocr (s t : State) (h : s.ocr = t.ocr) : s.inSafe = t.inSafe := by
  unfold State.inSafe State.rd State.rdOff; rw [h]

theorem mode_regs_apart : Blk.pwrc.base + Off.PWRC_MODE ≠ Blk.pwrc.base + Off.MODE_FLAGS := by decide

/-- SAFE stands. -/
theorem keepSafe_inSafe (s t : State) (h : s.inSafe = true) : (keepSafe s t).inSafe = true := by
  unfold keepSafe
  split
  · unfold State.inSafe at h ⊢
    rw [rd_wr_same]; exact h
  · next hn => simpa [h] using hn

theorem settle_inSafe (s t : State) (h : s.inSafe = true) : (settle s t).inSafe = true := by
  unfold settle
  split
  · exact h
  · exact keepSafe_inSafe s t h

/-- While the chip is off or held in reset, a command changes nothing but the time and what the board drives. -/
theorem settle_inert (s t : State) (h : s.inert = true) : settle s t =
    { s with tick := t.tick, pwr := { s.pwr with extIrq := t.pwr.extIrq, twinPerst := t.pwr.twinPerst } } := by
  unfold settle; simp [h]

theorem finish_eq (s t : State) : finish s t = .next (settle s t) := rfl

end Sys2Proof.Machine
end

