-- ==== Sys2Proof/Laws/Belet.lean ====
section
/-! SUPPORT. Belet commands: what starting one does. -/
namespace Sys2Proof.Machine

/-- A command that is ready runs its body. -/
theorem runBelet_ready {s : State} {ch tag op : Nat} {c : Cmd} (body : Cmd → State → CmdRes) (h : Ready s ch tag op c) :
    runBelet op ch tag body s = finishCmd c (body c s) := by
  unfold runBelet; simp [h.found, h.starts, h.lid]

/-- A command that fails its lodge check responds with that status and does nothing else. -/
theorem runBelet_badLid {s : State} {ch tag op st : Nat} {c : Cmd} (body : Cmd → State → CmdRes)
    (hf : findCmd s ch tag op = some c) (hm : mayStart s c = true) (hl : lidBad s op c = some st) :
    runBelet op ch tag body s = respond c st [] s := by
  unfold runBelet; simp [hf, hm, hl]

/-- A command that is not accepted, or may not start yet, does nothing. -/
theorem runBelet_waits {s : State} {ch tag op : Nat} (body : Cmd → State → CmdRes) (h : canStart s ch tag op = false) :
    runBelet op ch tag body s = s := by
  unfold runBelet
  unfold canStart at h
  cases hf : findCmd s ch tag op with
  | none => rfl
  | some c => simp [hf] at h; simp [h]

@[simp] theorem finishCmd_done (c : Cmd) (st : Nat) (rsp : List Byte) (s : State) :
    finishCmd c (.done st rsp s) = respond c st rsp s := rfl
@[simp] theorem finishCmd_fail (c : Cmd) (st : Nat) (s : State) : finishCmd c (.fail st s) = respond c st [] s := rfl
@[simp] theorem finishCmd_run (c : Cmd) (aux : List Nat) (s : State) : finishCmd c (.run aux s) = setPhase c.ord .running aux s := rfl

end Sys2Proof.Machine
end

