-- ==== Sys2Proof/Laws/Bits.lean ====
section
/-! SUPPORT. Fields of a word: what setting a field changes, and what it leaves. -/
namespace Sys2Proof.Machine
/-- A word as the part above a field, the field, and the part below it, before and after the field is set. -/
theorem setFld_nat (W n lo k : Nat) : ∃ A f r, r < 2 ^ lo ∧ f < 2 ^ k ∧ W = 2 ^ (lo + k) * A + (2 ^ lo * f + r) ∧ (W >>> lo) % 2 ^ k = f ∧
    W - ((W >>> lo) % 2 ^ k) <<< lo + (n % 2 ^ k) <<< lo = 2 ^ (lo + k) * A + (2 ^ lo * (n % 2 ^ k) + r) := by
  have hW : W = 2 ^ lo * (W / 2 ^ lo) + W % 2 ^ lo := (Nat.div_add_mod _ _).symm
  have hD : W / 2 ^ lo = 2 ^ k * (W / 2 ^ lo / 2 ^ k) + W / 2 ^ lo % 2 ^ k := (Nat.div_add_mod _ _).symm
  have e : W = 2 ^ (lo + k) * (W / 2 ^ lo / 2 ^ k) + (2 ^ lo * (W / 2 ^ lo % 2 ^ k) + W % 2 ^ lo) := by
    conv => lhs; rw [hW, hD]
    rw [Nat.mul_add, Nat.pow_add, Nat.mul_assoc, Nat.add_assoc]
  refine ⟨W / 2 ^ lo / 2 ^ k, W / 2 ^ lo % 2 ^ k, W % 2 ^ lo, Nat.mod_lt _ (Nat.two_pow_pos _), Nat.mod_lt _ (Nat.two_pow_pos _), e, by rw [Nat.shiftRight_eq_div_pow], ?_⟩
  rw [Nat.shiftRight_eq_div_pow, Nat.shiftLeft_eq, Nat.shiftLeft_eq]
  generalize W / 2 ^ lo % 2 ^ k = f at *
  generalize W / 2 ^ lo / 2 ^ k = A at *
  generalize W % 2 ^ lo = r at *
  rw [e, Nat.mul_comm f, Nat.mul_comm (n % 2 ^ k)]
  omega
/-- The bits of a word after a field of it has been set. -/
theorem setFld_bit (w : Word) (hi lo n i : Nat) (h : lo ≤ hi) (hh : hi < 64) :
    (setFld w hi lo n).getLsbD i = if lo ≤ i ∧ i ≤ hi then n.testBit (i - lo) else w.getLsbD i := by
  obtain ⟨A, f, r, hr, hf, e, ef, e2⟩ := setFld_nat w.toNat n lo (hi + 1 - lo)
  have hm : n % 2 ^ (hi + 1 - lo) < 2 ^ (hi + 1 - lo) := Nat.mod_lt _ (Nat.two_pow_pos _)
  have key : ∀ g, g < 2 ^ (hi + 1 - lo) → ∀ j, (2 ^ (lo + (hi + 1 - lo)) * A + (2 ^ lo * g + r)).testBit j =
      if j < lo then r.testBit j else if j ≤ hi then g.testBit (j - lo) else A.testBit (j - (hi + 1)) := by
    intro g hg j
    have hb : 2 ^ lo * g + r < 2 ^ (lo + (hi + 1 - lo)) := by
      rw [Nat.pow_add]
      calc 2 ^ lo * g + r < 2 ^ lo * g + 2 ^ lo := by omega
        _ = 2 ^ lo * (g + 1) := by rw [Nat.mul_add, Nat.mul_one]
        _ ≤ _ := Nat.mul_le_mul_left _ hg
    rw [Nat.testBit_two_pow_mul_add _ hb, Nat.testBit_two_pow_mul_add _ hr]
    have : lo + (hi + 1 - lo) = hi + 1 := by omega
    rw [this]
    by_cases h1 : j < lo
    · rw [if_pos (by omega), if_pos h1, if_pos h1]
    · rw [if_neg h1, if_neg h1]
      by_cases h2 : j ≤ hi
      · rw [if_pos (by omega), if_pos h2]
      · rw [if_neg (by omega), if_neg h2]
  have hw : w.getLsbD i = w.toNat.testBit i := by rw [BitVec.testBit_toNat]
  unfold setFld fld
  rw [BitVec.getLsbD_ofNat, e2, key _ hm, hw]
  conv => rhs; rw [e]
  rw [key _ hf]
  by_cases hi64 : i < 64
  · by_cases h1 : i < lo
    · rw [if_pos h1, if_neg (by omega)]; simp [hi64, h1]
    · by_cases h2 : i ≤ hi
      · rw [if_neg h1, if_pos h2, if_pos ⟨by omega, h2⟩, Nat.testBit_mod_two_pow]
        simp only [hi64, decide_true, Bool.true_and, show i - lo < hi + 1 - lo by omega]
      · rw [if_neg h1, if_neg h2, if_neg (by omega)]; simp [hi64, h1, h2]
  · have hz : w.toNat.testBit i = false := by rw [BitVec.testBit_toNat]; simp [BitVec.getLsbD_of_ge _ _ (Nat.not_lt.mp hi64)]
    rw [e, key _ hf] at hz
    rw [if_neg (by omega : ¬ (lo ≤ i ∧ i ≤ hi)), hz]
    simp [hi64]

/-- A field reads as it was last written, within its width. -/
theorem fld_setFld_same (w : Word) (hi lo n : Nat) (h : lo ≤ hi) (hh : hi < 64) :
    fld (setFld w hi lo n) hi lo = n % 2 ^ (hi + 1 - lo) := by
  apply Nat.eq_of_testBit_eq
  intro i
  unfold fld
  rw [Nat.testBit_mod_two_pow, Nat.testBit_shiftRight, BitVec.testBit_toNat, setFld_bit _ _ _ _ _ h hh, Nat.testBit_mod_two_pow]
  by_cases hi' : i < hi + 1 - lo
  · rw [if_pos (by omega)]; simp [hi']
  · simp [hi']

/-- Setting a field leaves every field that shares no bit with it alone. -/
theorem fld_setFld_other (w : Word) (hi lo n hi' lo' : Nat) (h : lo ≤ hi) (hh : hi < 64) (hd : hi' < lo ∨ hi < lo') :
    fld (setFld w hi lo n) hi' lo' = fld w hi' lo' := by
  apply Nat.eq_of_testBit_eq
  intro i
  unfold fld
  rw [Nat.testBit_mod_two_pow, Nat.testBit_mod_two_pow, Nat.testBit_shiftRight, Nat.testBit_shiftRight, BitVec.testBit_toNat, BitVec.testBit_toNat,
    setFld_bit _ _ _ _ _ h hh]
  by_cases hi2 : i < hi' + 1 - lo'
  · rw [if_neg (by omega)]
  · simp [hi2]
/-- Little-endian bytes: their number, and the number they spell. -/
@[simp] theorem leBytes_length (k v : Nat) : (leBytes k v).length = k := by
  induction k generalizing v with
  | zero => rfl
  | succ k ih => simp [leBytes, ih]
theorem leNat_leBytes (k v : Nat) : leNat (leBytes k v) = v % 256 ^ k := by
  induction k generalizing v with
  | zero => simp [leBytes, leNat, Nat.mod_one]
  | succ k ih =>
    simp only [leBytes, leNat, ih, BitVec.toNat_ofNat, Nat.mod_mod]
    rw [Nat.pow_succ', Nat.mod_mul]

end Sys2Proof.Machine
end

