-- ==== Sys2Proof/Laws/Memory.lean ====
section
/-! SUPPORT. Memory: a read after a write, what a write leaves alone, and the canonical form that every operation on
memory keeps. -/
namespace Sys2Proof.Machine

@[simp] theorem memByte_setMemByte_same (s : State) (a : Nat) (b : Byte) : (s.setMemByte a b).memByte a = b := by
  simp [State.memByte, State.setMemByte]

theorem memByte_setMemByte_other (s : State) (a x : Nat) (b : Byte) (h : x ≠ a) :
    (s.setMemByte a b).memByte x = s.memByte x := by
  simp only [State.memByte, State.setMemByte]; exact smGet_smSet_other _ _ _ _ _ h

/-- Outside the bytes it stores, a write leaves memory alone. -/
theorem memByte_setMemBytes_out (l : List Byte) : ∀ (s : State) (a x : Nat), x < a ∨ a + l.length ≤ x →
    (s.setMemBytes a l).memByte x = s.memByte x := by
  induction l with
  | nil => intro s a x _; rfl
  | cons b l ih =>
    intro s a x h
    simp only [List.length_cons] at h
    rw [State.setMemBytes, ih _ _ _ (by omega), memByte_setMemByte_other _ _ _ _ (by omega)]

/-- Byte `i` of what a write stores reads back. -/
theorem memByte_setMemBytes_in (l : List Byte) : ∀ (s : State) (a i : Nat) (h : i < l.length),
    (s.setMemBytes a l).memByte (a + i) = l[i] := by
  induction l with
  | nil => intro s a i h; exact absurd h (Nat.not_lt_zero _)
  | cons b l ih =>
    intro s a i h
    rw [State.setMemBytes]
    cases i with
    | zero =>
      rw [memByte_setMemBytes_out _ _ _ _ (by omega)]
      simp
    | succ i =>
      have := ih (s.setMemByte a b) (a + 1) i (by simpa using h)
      rw [show a + (i + 1) = a + 1 + i by omega, this]; rfl

/-- A store of a list of bytes reads back whole. -/
theorem memBytes_setMemBytes (l : List Byte) (s : State) (a : Nat) : (s.setMemBytes a l).memBytes a l.length = l := by
  have key : ∀ (n : Nat) (t : State) (x : Nat) (k : List Byte), k.length = n →
      (∀ i (h : i < k.length), t.memByte (x + i) = k[i]) → t.memBytes x n = k := by
    intro n
    induction n with
    | zero => intro t x k hk _; simp [State.memBytes, List.length_eq_zero_iff.mp hk]
    | succ n ih =>
      intro t x k hk hall
      cases k with
      | nil => simp at hk
      | cons b k =>
        simp only [State.memBytes]
        have h0 := hall 0 (by simp)
        simp only [Nat.add_zero, List.getElem_cons_zero] at h0
        rw [h0, ih t (x + 1) k (by simpa using hk) (fun i h => ?_)]
        have := hall (i + 1) (by simpa using h)
        rw [show x + 1 + i = x + (i + 1) by omega, this]; rfl
  exact key _ _ _ _ rfl (fun i h => memByte_setMemBytes_in l s a i h)

/-! ## The canonical form -/

@[simp] theorem reset_mem_wf : Memory.wf State.reset.mem = true := rfl

theorem setMemByte_wf (s : State) (a : Nat) (b : Byte) (h : Memory.wf s.mem = true) : Memory.wf (s.setMemByte a b).mem = true :=
  smSet_wf _ _ _ _ h

theorem setMemBytes_wf (l : List Byte) : ∀ (s : State) (a : Nat), Memory.wf s.mem = true → Memory.wf (s.setMemBytes a l).mem = true := by
  induction l with
  | nil => intro s a h; exact h
  | cons b l ih => intro s a h; exact ih _ _ (setMemByte_wf s a b h)

theorem setMemLine_mem (ln : Nat) (d : Line) (p : Bool) (s : State) :
    (setMemLine ln d p s).mem = (s.setMemBytes (ln * 64) (lineBytes d 0 64)).mem := rfl

theorem setMemLine_wf (ln : Nat) (d : Line) (p : Bool) (s : State) (h : Memory.wf s.mem = true) :
    Memory.wf (setMemLine ln d p s).mem = true := by
  rw [setMemLine_mem]; exact setMemBytes_wf _ _ _ h

theorem loseMemory_wf (s : State) (h : Memory.wf s.mem = true) : Memory.wf (loseMemory s).mem = true := smFilter_wf _ _ _ h
theorem loseHoard_wf (s : State) (h : Memory.wf s.mem = true) : Memory.wf (loseHoard s).mem = true := smFilter_wf _ _ _ h
theorem zeroBank_wf (b : Nat) (s : State) (h : Memory.wf s.mem = true) : Memory.wf (zeroBank b s).mem = true := smFilter_wf _ _ _ h

end Sys2Proof.Machine
end

