-- ==== Sys2Proof/Laws/Coh.lean ====
section
/-! SUPPORT. Coherent writes: they reach memory, poison, caches, ports and the homes, and nothing else; and no byte of
memory outside the lines they write. -/
namespace Sys2Proof.Machine

theorem setMemBytes_eq (l : List Byte) : ∀ (s : State) (a : Nat), s.setMemBytes a l = { s with mem := (s.setMemBytes a l).mem } := by
  induction l with
  | nil => intro s a; rfl
  | cons b l ih =>
    intro s a
    rw [State.setMemBytes, ih (s.setMemByte a b) (a + 1)]; rfl

theorem setMemLine_eq (ln : Nat) (d : Line) (p : Bool) (s : State) :
    setMemLine ln d p s = { s with mem := (s.setMemBytes (ln * 64) (lineBytes d 0 64)).mem, poison := (setMemLine ln d p s).poison } := by
  unfold setMemLine setPoison
  rw [setMemBytes_eq (lineBytes d 0 64) s (ln * 64)]

/-- What a coherent write may change. -/
def CohOnly (s t : State) : Prop :=
  ∃ m p c q f o, t = { s with mem := m, poison := p, cores := c, ports := q, fab := f, owl := o }

theorem CohOnly.refl (s : State) : CohOnly s s := ⟨_, _, _, _, _, _, rfl⟩
theorem CohOnly.trans {s t u : State} (h : CohOnly s t) (k : CohOnly t u) : CohOnly s u := by
  obtain ⟨m, p, c, q, f, o, rfl⟩ := h
  obtain ⟨m', p', c', q', f', o', rfl⟩ := k
  exact ⟨m', p', c', q', f', o', rfl⟩

theorem setMemLine_coh (ln : Nat) (d : Line) (p : Bool) (s : State) : CohOnly s (setMemLine ln d p s) :=
  ⟨_, _, _, _, _, _, setMemLine_eq ln d p s⟩

theorem memPut_coh (ln : Nat) (d : Line) (p : Bool) (s : State) : CohOnly s (memPut ln d p s) := by
  unfold memPut
  split
  · exact CohOnly.refl s
  · exact setMemLine_coh _ _ _ _

theorem memPut_owl (ln : Nat) (d : Line) (p : Bool) (s : State) : (memPut ln d p s).owl = s.owl := by
  unfold memPut
  split
  · rfl
  · rw [setMemLine_eq]

theorem patchLine_coh (ln : Nat) (f : Line → Line) (s : State) : CohOnly s (patchLine ln f s) := by
  unfold patchLine
  exact CohOnly.trans ⟨_, _, _, _, _, _, rfl⟩ (setMemLine_coh _ _ _ _)

theorem cohTouch_coh (ln : Nat) (s : State) : CohOnly s (cohTouch ln s) := by
  unfold cohTouch
  split
  · exact ⟨_, _, _, _, _, _, rfl⟩
  · split <;> exact ⟨_, _, _, _, _, _, rfl⟩

theorem cohTouch_mem (ln : Nat) (s : State) : (cohTouch ln s).mem = s.mem := by
  unfold cohTouch
  split
  · rfl
  · split <;> rfl

theorem cohPutLine_coh (ln o : Nat) (l : List Byte) (s : State) : CohOnly s (cohPutLine ln o l s) := by
  unfold cohPutLine
  dsimp only
  refine (cohTouch_coh ln s).trans ?_
  generalize cohTouch ln s = u
  split
  · exact patchLine_coh _ _ _
  · split
    · exact ⟨_, _, _, _, _, _, rfl⟩
    · exact CohOnly.trans ⟨_, _, _, _, _, _, rfl⟩ (memPut_coh _ _ _ _)

theorem cohPutGo_coh (k : Nat) : ∀ (a : Nat) (l : List Byte) (s : State), CohOnly s (cohPutGo k a l s) := by
  induction k with
  | zero => intro a l s; exact CohOnly.refl s
  | succ k ih =>
    intro a l s
    unfold cohPutGo
    split
    · exact CohOnly.refl s
    · exact CohOnly.trans (cohPutLine_coh _ _ _ _) (ih _ _ _)

theorem cohPut_coh (a : Nat) (l : List Byte) (s : State) : CohOnly s (cohPut a l s) := cohPutGo_coh _ _ _ _

theorem CohOnly.tagsGood {s t : State} (h : CohOnly s t) (g : s.tagsGood) : t.tagsGood := by
  obtain ⟨_, _, _, _, _, _, rfl⟩ := h; exact g

theorem cohTouch_good (ln : Nat) (s : State) (g : s.tagsGood) : cohTouch ln s = s := by
  have h1 : badTag s ln = none := by unfold badTag; split <;> simp [(g ln).1]
  have h2 : badEntry s ln = none := by unfold badEntry; split <;> simp [(g ln).2]
  unfold cohTouch; rw [h1, h2]

theorem cohPutLine_owl (ln o : Nat) (l : List Byte) (s : State) (g : s.tagsGood) : (cohPutLine ln o l s).owl = s.owl := by
  unfold cohPutLine
  dsimp only
  rw [cohTouch_good ln s g]
  split
  · unfold patchLine; dsimp only; rw [setMemLine_eq]
  · split
    · rfl
    · rw [memPut_owl]

theorem cohPutGo_owl (k : Nat) : ∀ (a : Nat) (l : List Byte) (s : State), s.tagsGood → (cohPutGo k a l s).owl = s.owl := by
  induction k with
  | zero => intro a l s _; rfl
  | succ k ih =>
    intro a l s g
    unfold cohPutGo
    split
    · rfl
    · rw [ih _ _ _ ((cohPutLine_coh _ _ _ _).tagsGood g), cohPutLine_owl _ _ _ _ g]

/-- A coherent write that meets no array in error says nothing to the Owl. -/
theorem cohPut_owl (a : Nat) (l : List Byte) (s : State) (g : s.tagsGood) : (cohPut a l s).owl = s.owl := cohPutGo_owl _ _ _ _ g

/-! ## Fields a coherent write leaves alone -/

@[simp] theorem settWr_ocr (a : Nat) (l : List Byte) (s : State) : (settWr a l s).ocr = s.ocr := by
  obtain ⟨_, _, _, _, _, _, h⟩ := cohPut_coh a l s; unfold settWr; rw [h]
@[simp] theorem settWr_sett (a : Nat) (l : List Byte) (s : State) : (settWr a l s).sett = s.sett := by
  obtain ⟨_, _, _, _, _, _, h⟩ := cohPut_coh a l s; unfold settWr; rw [h]
@[simp] theorem settWr_pwr (a : Nat) (l : List Byte) (s : State) : (settWr a l s).pwr = s.pwr := by
  obtain ⟨_, _, _, _, _, _, h⟩ := cohPut_coh a l s; unfold settWr; rw [h]
@[simp] theorem settWr_elog (a : Nat) (l : List Byte) (s : State) : (settWr a l s).elog = s.elog := by
  obtain ⟨_, _, _, _, _, _, h⟩ := cohPut_coh a l s; unfold settWr; rw [h]
@[simp] theorem settWr_rd (a : Nat) (l : List Byte) (s : State) (b : Blk) (o : Nat) : (settWr a l s).rd b o = s.rd b o := by
  unfold State.rd State.rdOff; rw [settWr_ocr]
@[simp] theorem hdrPut_rd (ch off v : Nat) (s : State) (b : Blk) (o : Nat) : (hdrPut ch off v s).rd b o = s.rd b o := settWr_rd _ _ _ _ _
@[simp] theorem hdrPut_sett (ch off v : Nat) (s : State) : (hdrPut ch off v s).sett = s.sett := settWr_sett _ _ _

/-! ## Memory outside the lines written -/

theorem memByte_setMemLine_out (ln : Nat) (d : Line) (p : Bool) (s : State) (x : Nat) (h : x / 64 ≠ ln) :
    (setMemLine ln d p s).memByte x = s.memByte x := by
  have hl : (lineBytes d 0 64).length = 64 := by simp [lineBytes]
  have : (setMemLine ln d p s).memByte x = (s.setMemBytes (ln * 64) (lineBytes d 0 64)).memByte x := by
    unfold State.memByte; rw [setMemLine_mem]
  rw [this, memByte_setMemBytes_out]
  rw [hl]; omega

theorem memPut_memByte_out (ln : Nat) (d : Line) (p : Bool) (s : State) (x : Nat) (h : x / 64 ≠ ln) :
    (memPut ln d p s).memByte x = s.memByte x := by
  unfold memPut
  split
  · rfl
  · exact memByte_setMemLine_out _ _ _ _ _ h

theorem cohPutLine_memByte (ln o : Nat) (l : List Byte) (s : State) (x : Nat) (h : x / 64 ≠ ln) :
    (cohPutLine ln o l s).memByte x = s.memByte x := by
  have hm : s.memByte x = (cohTouch ln s).memByte x := by unfold State.memByte; rw [cohTouch_mem]
  rw [hm]
  unfold cohPutLine
  dsimp only
  generalize cohTouch ln s = u
  split
  · unfold patchLine; exact memByte_setMemLine_out _ _ _ _ _ h
  · split
    · rfl
    · exact memPut_memByte_out _ _ _ _ _ h

theorem cohPutGo_memByte (k : Nat) : ∀ (a : Nat) (l : List Byte) (s : State) (x : Nat),
    x / 64 < a / 64 ∨ a + l.length ≤ x / 64 * 64 → (cohPutGo k a l s).memByte x = s.memByte x := by
  induction k with
  | zero => intro a l s x _; rfl
  | succ k ih =>
    intro a l s x h
    unfold cohPutGo
    split
    · rfl
    · next he =>
      have hl : 0 < l.length := by cases l with | nil => simp at he | cons b l => simp
      rw [ih, cohPutLine_memByte]
      · omega
      · rw [List.length_drop]
        rcases h with h | h <;> omega

/-- A coherent write leaves every byte of memory outside the lines of [a, a + length) as it was. -/
theorem cohPut_memByte (a : Nat) (l : List Byte) (s : State) (x : Nat) (h : x / 64 < a / 64 ∨ a + l.length ≤ x / 64 * 64) :
    (cohPut a l s).memByte x = s.memByte x := cohPutGo_memByte _ _ _ _ _ h

end Sys2Proof.Machine
end

