-- ==== Sys2Proof/Laws/Core.lean ====
section
/-! SUPPORT. A core's registers: a read after a write, and what counting events leaves alone. -/
namespace Sys2Proof.Machine

@[simp] theorem csr'_setCsr_same (c : Core) (n : Nat) (v : Word) : (c.setCsr n v).csr' n = v := by
  simp [Core.csr', Core.setCsr]

theorem csr'_setCsr_other (c : Core) (n m : Nat) (v : Word) (h : m ≠ n) : (c.setCsr n v).csr' m = c.csr' m := by
  simp only [Core.csr', Core.setCsr]; exact smGet_smSet_other _ _ _ _ _ h

/-! A system register write changes system registers only. -/

@[simp] theorem setCsr_on (c : Core) (n : Nat) (v : Word) : (c.setCsr n v).on = c.on := rfl
@[simp] theorem setCsr_dead (c : Core) (n : Nat) (v : Word) : (c.setCsr n v).dead = c.dead := rfl
@[simp] theorem setCsr_lvl (c : Core) (n : Nat) (v : Word) : (c.setCsr n v).lvl = c.lvl := rfl
@[simp] theorem setCsr_pc (c : Core) (n : Nat) (v : Word) : (c.setCsr n v).pc = c.pc := rfl
@[simp] theorem setCsr_next (c : Core) (n : Nat) (v : Word) : (c.setCsr n v).next = c.next := rfl
@[simp] theorem setCsr_x (c : Core) (n : Nat) (v : Word) : (c.setCsr n v).x = c.x := rfl
@[simp] theorem setCsr_fast (c : Core) (n : Nat) (v : Word) : (c.setCsr n v).fast = c.fast := rfl
@[simp] theorem setCsr_f (c : Core) (n : Nat) (v : Word) : (c.setCsr n v).f = c.f := rfl
@[simp] theorem setCsr_v (c : Core) (n : Nat) (v : Word) : (c.setCsr n v).v = c.v := rfl
@[simp] theorem setCsr_hhart (c : Core) (n : Nat) (v : Word) : (c.setCsr n v).hhart = c.hhart := rfl
@[simp] theorem setCsr_rob (c : Core) (n : Nat) (v : Word) : (c.setCsr n v).rob = c.rob := rfl
@[simp] theorem setCsr_lrDue (c : Core) (n : Nat) (v : Word) : (c.setCsr n v).lrDue = c.lrDue := rfl
@[simp] theorem setCsr_rs (c : Core) (n : Nat) (v : Word) : (c.setCsr n v).rs = c.rs := rfl
@[simp] theorem setCsr_late (c : Core) (n : Nat) (v : Word) : (c.setCsr n v).late = c.late := rfl
@[simp] theorem setCsr_sb (c : Core) (n : Nat) (v : Word) : (c.setCsr n v).sb = c.sb := rfl
@[simp] theorem setCsr_wc (c : Core) (n : Nat) (v : Word) : (c.setCsr n v).wc = c.wc := rfl
@[simp] theorem setCsr_dev (c : Core) (n : Nat) (v : Word) : (c.setCsr n v).dev = c.dev := rfl
@[simp] theorem setCsr_mrs (c : Core) (n : Nat) (v : Word) : (c.setCsr n v).mrs = c.mrs := rfl
@[simp] theorem setCsr_nextTxn (c : Core) (n : Nat) (v : Word) : (c.setCsr n v).nextTxn = c.nextTxn := rfl
@[simp] theorem setCsr_l2 (c : Core) (n : Nat) (v : Word) : (c.setCsr n v).l2 = c.l2 := rfl
@[simp] theorem setCsr_side (c : Core) (n : Nat) (v : Word) : (c.setCsr n v).side = c.side := rfl
@[simp] theorem setCsr_wbb (c : Core) (n : Nat) (v : Word) : (c.setCsr n v).wbb = c.wbb := rfl
@[simp] theorem setCsr_plruI (c : Core) (n : Nat) (v : Word) : (c.setCsr n v).plruI = c.plruI := rfl
@[simp] theorem setCsr_plruD (c : Core) (n : Nat) (v : Word) : (c.setCsr n v).plruD = c.plruD := rfl
@[simp] theorem setCsr_plru2 (c : Core) (n : Nat) (v : Word) : (c.setCsr n v).plru2 = c.plru2 := rfl
@[simp] theorem setCsr_tlb (c : Core) (n : Nat) (v : Word) : (c.setCsr n v).tlb = c.tlb := rfl
@[simp] theorem setCsr_tlbPtr (c : Core) (n : Nat) (v : Word) : (c.setCsr n v).tlbPtr = c.tlbPtr := rfl
@[simp] theorem setCsr_itlb (c : Core) (n : Nat) (v : Word) : (c.setCsr n v).itlb = c.itlb := rfl
@[simp] theorem setCsr_dtlb (c : Core) (n : Nat) (v : Word) : (c.setCsr n v).dtlb = c.dtlb := rfl
@[simp] theorem setCsr_ext (c : Core) (n : Nat) (v : Word) : (c.setCsr n v).ext = c.ext := rfl
@[simp] theorem setCsr_invSeq (c : Core) (n : Nat) (v : Word) : (c.setCsr n v).invSeq = c.invSeq := rfl
@[simp] theorem setCsr_resv (c : Core) (n : Nat) (v : Word) : (c.setCsr n v).resv = c.resv := rfl
@[simp] theorem setCsr_lrOpen (c : Core) (n : Nat) (v : Word) : (c.setCsr n v).lrOpen = c.lrOpen := rfl
@[simp] theorem setCsr_deferred (c : Core) (n : Nat) (v : Word) : (c.setCsr n v).deferred = c.deferred := rfl
@[simp] theorem setCsr_cpred (c : Core) (n : Nat) (v : Word) : (c.setCsr n v).cpred = c.cpred := rfl
@[simp] theorem setCsr_tracks (c : Core) (n : Nat) (v : Word) : (c.setCsr n v).tracks = c.tracks := rfl
@[simp] theorem setCsr_pred (c : Core) (n : Nat) (v : Word) : (c.setCsr n v).pred = c.pred := rfl
@[simp] theorem setCsr_pauseUntil (c : Core) (n : Nat) (v : Word) : (c.setCsr n v).pauseUntil = c.pauseUntil := rfl
@[simp] theorem setCsr_sleep (c : Core) (n : Nat) (v : Word) : (c.setCsr n v).sleep = c.sleep := rfl
@[simp] theorem setCsr_cycBase (c : Core) (n : Nat) (v : Word) : (c.setCsr n v).cycBase = c.cycBase := rfl
@[simp] theorem setCsr_cycFrom (c : Core) (n : Nat) (v : Word) : (c.setCsr n v).cycFrom = c.cycFrom := rfl
@[simp] theorem setCsr_ad (c : Core) (n : Nat) (v : Word) : (c.setCsr n v).ad = c.ad := rfl
@[simp] theorem setCsr_amoAt (c : Core) (n : Nat) (v : Word) : (c.setCsr n v).amoAt = c.amoAt := rfl
@[simp] theorem setCsr_bc (c : Core) (n : Nat) (v : Word) : (c.setCsr n v).bc = c.bc := rfl
@[simp] theorem setCsr_amoChoice (c : Core) (n : Nat) (v : Word) : (c.setCsr n v).amoChoice = c.amoChoice := rfl
@[simp] theorem setCsr_stall (c : Core) (n : Nat) (v : Word) : (c.setCsr n v).stall = c.stall := rfl
@[simp] theorem setCsr_sweep (c : Core) (n : Nat) (v : Word) : (c.setCsr n v).sweep = c.sweep := rfl
@[simp] theorem setCsr_sweepWait (c : Core) (n : Nat) (v : Word) : (c.setCsr n v).sweepWait = c.sweepWait := rfl
@[simp] theorem setCsr_wayHist (c : Core) (n : Nat) (v : Word) : (c.setCsr n v).wayHist = c.wayHist := rfl
@[simp] theorem setCsr_spoorLeft (c : Core) (n : Nat) (v : Word) : (c.setCsr n v).spoorLeft = c.spoorLeft := rfl
@[simp] theorem setCsr_lfsr (c : Core) (n : Nat) (v : Word) : (c.setCsr n v).lfsr = c.lfsr := rfl
@[simp] theorem setCsr_spoorNext (c : Core) (n : Nat) (v : Word) : (c.setCsr n v).spoorNext = c.spoorNext := rfl
@[simp] theorem setCsr_strides (c : Core) (n : Nat) (v : Word) : (c.setCsr n v).strides = c.strides := rfl
@[simp] theorem setCsr_streams (c : Core) (n : Nat) (v : Word) : (c.setCsr n v).streams = c.streams := rfl
@[simp] theorem setCsrF_on (c : Core) (n hi lo v : Nat) : (c.setCsrF n hi lo v).on = c.on := rfl
@[simp] theorem setCsrF_dead (c : Core) (n hi lo v : Nat) : (c.setCsrF n hi lo v).dead = c.dead := rfl
@[simp] theorem setCsrF_lvl (c : Core) (n hi lo v : Nat) : (c.setCsrF n hi lo v).lvl = c.lvl := rfl
@[simp] theorem setCsrF_pc (c : Core) (n hi lo v : Nat) : (c.setCsrF n hi lo v).pc = c.pc := rfl
@[simp] theorem setCsrF_next (c : Core) (n hi lo v : Nat) : (c.setCsrF n hi lo v).next = c.next := rfl
@[simp] theorem setCsrF_x (c : Core) (n hi lo v : Nat) : (c.setCsrF n hi lo v).x = c.x := rfl
@[simp] theorem setCsrF_fast (c : Core) (n hi lo v : Nat) : (c.setCsrF n hi lo v).fast = c.fast := rfl
@[simp] theorem setCsrF_f (c : Core) (n hi lo v : Nat) : (c.setCsrF n hi lo v).f = c.f := rfl
@[simp] theorem setCsrF_v (c : Core) (n hi lo v : Nat) : (c.setCsrF n hi lo v).v = c.v := rfl
@[simp] theorem setCsrF_hhart (c : Core) (n hi lo v : Nat) : (c.setCsrF n hi lo v).hhart = c.hhart := rfl
@[simp] theorem setCsrF_rob (c : Core) (n hi lo v : Nat) : (c.setCsrF n hi lo v).rob = c.rob := rfl
@[simp] theorem setCsrF_lrDue (c : Core) (n hi lo v : Nat) : (c.setCsrF n hi lo v).lrDue = c.lrDue := rfl
@[simp] theorem setCsrF_rs (c : Core) (n hi lo v : Nat) : (c.setCsrF n hi lo v).rs = c.rs := rfl
@[simp] theorem setCsrF_late (c : Core) (n hi lo v : Nat) : (c.setCsrF n hi lo v).late = c.late := rfl
@[simp] theorem setCsrF_sb (c : Core) (n hi lo v : Nat) : (c.setCsrF n hi lo v).sb = c.sb := rfl
@[simp] theorem setCsrF_wc (c : Core) (n hi lo v : Nat) : (c.setCsrF n hi lo v).wc = c.wc := rfl
@[simp] theorem setCsrF_dev (c : Core) (n hi lo v : Nat) : (c.setCsrF n hi lo v).dev = c.dev := rfl
@[simp] theorem setCsrF_mrs (c : Core) (n hi lo v : Nat) : (c.setCsrF n hi lo v).mrs = c.mrs := rfl
@[simp] theorem setCsrF_nextTxn (c : Core) (n hi lo v : Nat) : (c.setCsrF n hi lo v).nextTxn = c.nextTxn := rfl
@[simp] theorem setCsrF_l2 (c : Core) (n hi lo v : Nat) : (c.setCsrF n hi lo v).l2 = c.l2 := rfl
@[simp] theorem setCsrF_side (c : Core) (n hi lo v : Nat) : (c.setCsrF n hi lo v).side = c.side := rfl
@[simp] theorem setCsrF_wbb (c : Core) (n hi lo v : Nat) : (c.setCsrF n hi lo v).wbb = c.wbb := rfl
@[simp] theorem setCsrF_plruI (c : Core) (n hi lo v : Nat) : (c.setCsrF n hi lo v).plruI = c.plruI := rfl
@[simp] theorem setCsrF_plruD (c : Core) (n hi lo v : Nat) : (c.setCsrF n hi lo v).plruD = c.plruD := rfl
@[simp] theorem setCsrF_plru2 (c : Core) (n hi lo v : Nat) : (c.setCsrF n hi lo v).plru2 = c.plru2 := rfl
@[simp] theorem setCsrF_tlb (c : Core) (n hi lo v : Nat) : (c.setCsrF n hi lo v).tlb = c.tlb := rfl
@[simp] theorem setCsrF_tlbPtr (c : Core) (n hi lo v : Nat) : (c.setCsrF n hi lo v).tlbPtr = c.tlbPtr := rfl
@[simp] theorem setCsrF_itlb (c : Core) (n hi lo v : Nat) : (c.setCsrF n hi lo v).itlb = c.itlb := rfl
@[simp] theorem setCsrF_dtlb (c : Core) (n hi lo v : Nat) : (c.setCsrF n hi lo v).dtlb = c.dtlb := rfl
@[simp] theorem setCsrF_ext (c : Core) (n hi lo v : Nat) : (c.setCsrF n hi lo v).ext = c.ext := rfl
@[simp] theorem setCsrF_invSeq (c : Core) (n hi lo v : Nat) : (c.setCsrF n hi lo v).invSeq = c.invSeq := rfl
@[simp] theorem setCsrF_resv (c : Core) (n hi lo v : Nat) : (c.setCsrF n hi lo v).resv = c.resv := rfl
@[simp] theorem setCsrF_lrOpen (c : Core) (n hi lo v : Nat) : (c.setCsrF n hi lo v).lrOpen = c.lrOpen := rfl
@[simp] theorem setCsrF_deferred (c : Core) (n hi lo v : Nat) : (c.setCsrF n hi lo v).deferred = c.deferred := rfl
@[simp] theorem setCsrF_cpred (c : Core) (n hi lo v : Nat) : (c.setCsrF n hi lo v).cpred = c.cpred := rfl
@[simp] theorem setCsrF_tracks (c : Core) (n hi lo v : Nat) : (c.setCsrF n hi lo v).tracks = c.tracks := rfl
@[simp] theorem setCsrF_pred (c : Core) (n hi lo v : Nat) : (c.setCsrF n hi lo v).pred = c.pred := rfl
@[simp] theorem setCsrF_pauseUntil (c : Core) (n hi lo v : Nat) : (c.setCsrF n hi lo v).pauseUntil = c.pauseUntil := rfl
@[simp] theorem setCsrF_sleep (c : Core) (n hi lo v : Nat) : (c.setCsrF n hi lo v).sleep = c.sleep := rfl
@[simp] theorem setCsrF_cycBase (c : Core) (n hi lo v : Nat) : (c.setCsrF n hi lo v).cycBase = c.cycBase := rfl
@[simp] theorem setCsrF_cycFrom (c : Core) (n hi lo v : Nat) : (c.setCsrF n hi lo v).cycFrom = c.cycFrom := rfl
@[simp] theorem setCsrF_ad (c : Core) (n hi lo v : Nat) : (c.setCsrF n hi lo v).ad = c.ad := rfl
@[simp] theorem setCsrF_amoAt (c : Core) (n hi lo v : Nat) : (c.setCsrF n hi lo v).amoAt = c.amoAt := rfl
@[simp] theorem setCsrF_bc (c : Core) (n hi lo v : Nat) : (c.setCsrF n hi lo v).bc = c.bc := rfl
@[simp] theorem setCsrF_amoChoice (c : Core) (n hi lo v : Nat) : (c.setCsrF n hi lo v).amoChoice = c.amoChoice := rfl
@[simp] theorem setCsrF_stall (c : Core) (n hi lo v : Nat) : (c.setCsrF n hi lo v).stall = c.stall := rfl
@[simp] theorem setCsrF_sweep (c : Core) (n hi lo v : Nat) : (c.setCsrF n hi lo v).sweep = c.sweep := rfl
@[simp] theorem setCsrF_sweepWait (c : Core) (n hi lo v : Nat) : (c.setCsrF n hi lo v).sweepWait = c.sweepWait := rfl
@[simp] theorem setCsrF_wayHist (c : Core) (n hi lo v : Nat) : (c.setCsrF n hi lo v).wayHist = c.wayHist := rfl
@[simp] theorem setCsrF_spoorLeft (c : Core) (n hi lo v : Nat) : (c.setCsrF n hi lo v).spoorLeft = c.spoorLeft := rfl
@[simp] theorem setCsrF_lfsr (c : Core) (n hi lo v : Nat) : (c.setCsrF n hi lo v).lfsr = c.lfsr := rfl
@[simp] theorem setCsrF_spoorNext (c : Core) (n hi lo v : Nat) : (c.setCsrF n hi lo v).spoorNext = c.spoorNext := rfl
@[simp] theorem setCsrF_strides (c : Core) (n hi lo v : Nat) : (c.setCsrF n hi lo v).strides = c.strides := rfl
@[simp] theorem setCsrF_streams (c : Core) (n hi lo v : Nat) : (c.setCsrF n hi lo v).streams = c.streams := rfl

/-! Fields of system registers. -/

theorem csrF_setCsr_other (c : Core) (n m hi lo : Nat) (v : Word) (h : m ≠ n) : (c.setCsr n v).csrF m hi lo = c.csrF m hi lo := by
  unfold Core.csrF; rw [csr'_setCsr_other _ _ _ _ h]

theorem csr'_setCsrF_other (c : Core) (n m hi lo v : Nat) (h : m ≠ n) : (c.setCsrF n hi lo v).csr' m = c.csr' m :=
  csr'_setCsr_other _ _ _ _ h

theorem csrF_setCsrF_other (c : Core) (n m hi lo hi' lo' v : Nat) (h : m ≠ n) : (c.setCsrF n hi lo v).csrF m hi' lo' = c.csrF m hi' lo' :=
  csrF_setCsr_other _ _ _ _ _ _ h

theorem csrF_setCsrF_same (c : Core) (n hi lo v : Nat) (h : lo ≤ hi) (hh : hi < 64) :
    (c.setCsrF n hi lo v).csrF n hi lo = v % 2 ^ (hi + 1 - lo) := by
  unfold Core.setCsrF Core.csrF; rw [csr'_setCsr_same]; exact fld_setFld_same _ _ _ _ h hh

theorem csrF_setCsrF_apart (c : Core) (n hi lo hi' lo' v : Nat) (h : lo ≤ hi) (hh : hi < 64) (hd : hi' < lo ∨ hi < lo') :
    (c.setCsrF n hi lo v).csrF n hi' lo' = c.csrF n hi' lo' := by
  unfold Core.setCsrF Core.csrF; rw [csr'_setCsr_same]; exact fld_setFld_other _ _ _ _ _ _ h hh hd

/-- Leaving the reservation window only moves deferred snoops. -/
theorem closeLr_core (p : Nat) (s : State) : (closeLr p s).core p = { s.core p with lrOpen := false, deferred := [] } :=
  core_modCore_same s p (fun c => { c with lrOpen := false, deferred := [] })

theorem closeLr_core_other (p q : Nat) (s : State) (h : q ≠ p) : (closeLr p s).core q = s.core q :=
  core_modCore_other s p q (fun c => { c with lrOpen := false, deferred := [] }) h

theorem clearResv_core (p : Nat) (s : State) : (clearResv p s).core p =
    { s.core p with resv := none, lrOpen := false, deferred := [] } := by
  unfold clearResv; rw [closeLr_core, core_modCore_same]

theorem clearResv_core_other (p q : Nat) (s : State) (h : q ≠ p) : (clearResv p s).core q = s.core q := by
  unfold clearResv; rw [closeLr_core_other _ _ _ h, core_modCore_other _ _ _ _ h]

theorem clearResv_mem (p : Nat) (s : State) : (clearResv p s).mem = s.mem := by
  unfold clearResv closeLr State.modCore State.setCore; exact Eq.refl s.mem
theorem clearResv_ocr (p : Nat) (s : State) : (clearResv p s).ocr = s.ocr := by
  unfold clearResv closeLr State.modCore State.setCore; exact Eq.refl s.ocr

/-- A hardware write of a field changes registers only. -/
theorem State.wf_eq (s : State) (b : Blk) (o hi lo n : Nat) : s.wf b o hi lo n =
    { s with ocr := smSet ocrReset s.ocr (b.base + o) (setFld (s.rd b o) hi lo n) } := rfl

/-- Counting an event changes registers only. -/
theorem bump_ocrOnly (p e n : Nat) (a : PAcc) (s : State) : ∃ o, bump p e n a s = { s with ocr := o } := by
  unfold bump
  by_cases h : n = 0 ∨ (!filterPass s p (s.rf (.core p) (Off.PMCTL + 4 * e) 1 0) a) = true ∨ s.modeFlag 11 = true
  · rw [if_pos h]; exact ⟨s.ocr, rfl⟩
  · rw [if_neg h]
    dsimp only
    split
    · exact ⟨_, State.wf_eq _ _ _ _ _ _⟩
    · rw [State.wf_eq, State.wf_eq]; exact ⟨_, rfl⟩

@[simp] theorem bump_core (p e n : Nat) (a : PAcc) (s : State) (q : Nat) : (bump p e n a s).core q = s.core q := by
  obtain ⟨o, h⟩ := bump_ocrOnly p e n a s; rw [h]; rfl

@[simp] theorem bump_mem (p e n : Nat) (a : PAcc) (s : State) : (bump p e n a s).mem = s.mem := by
  obtain ⟨o, h⟩ := bump_ocrOnly p e n a s; rw [h]

end Sys2Proof.Machine
end

