-- ==== Sys2Proof/Laws/Mesh.lean ====
section
/-! SUPPORT. Taking a message off the mesh touches the mesh alone; what a bring-up makes of the links. -/
namespace Sys2Proof.Machine

theorem popBuf_only (st p c out : Nat) (s : State) : ∃ l : SMap LinkSt,
    popBuf st p c out s = { s with fab := { s.fab with links := l } } := by
  unfold popBuf
  split
  · exact ⟨s.fab.links, rfl⟩
  · dsimp only
    split
    · exact ⟨_, rfl⟩
    · split
      · exact ⟨_, rfl⟩
      · exact ⟨_, rfl⟩

/-- Everything that taking a message off the mesh can change: the messages under way and the routers' buffers. -/
theorem takeNet_only (op : Nat) (m : Msg) (s : State) : ∃ (x : List (Nat × Msg)) (l : SMap LinkSt),
    takeNet op m s = { s with fab := { s.fab with net := s.fab.net.erase (op, m), sent := x, links := l } } := by
  unfold takeNet
  dsimp only
  split
  · exact ⟨_, _, rfl⟩
  · split
    · exact ⟨_, _, rfl⟩
    · obtain ⟨l, h⟩ := popBuf_only (ends op m).2.1 ‹Nat› (classOf op) 4
        (State.setLink { s with fab := { s.fab with net := s.fab.net.erase (op, m), sent := s.fab.sent.erase (op, m) } } (ends op m).2.1 4 _)
      exact ⟨_, _, h⟩

section
variable (op : Nat) (m : Msg) (s : State)

@[simp] theorem takeNet_core (p : Nat) : (takeNet op m s).core p = s.core p := by
  obtain ⟨x, l, h⟩ := takeNet_only op m s; rw [h]; rfl
@[simp] theorem takeNet_port (p : Nat) : (takeNet op m s).port p = s.port p := by
  obtain ⟨x, l, h⟩ := takeNet_only op m s; rw [h]; rfl
@[simp] theorem takeNet_txnAt (ln : Nat) : (takeNet op m s).txnAt ln = s.txnAt ln := by
  obtain ⟨x, l, h⟩ := takeNet_only op m s; rw [h]; rfl
@[simp] theorem takeNet_trkAt (ln : Nat) : (takeNet op m s).trkAt ln = s.trkAt ln := by
  obtain ⟨x, l, h⟩ := takeNet_only op m s; rw [h]; rfl
@[simp] theorem takeNet_openAt (ln : Nat) : openAt (takeNet op m s) ln = openAt s ln := by
  unfold openAt; rw [takeNet_txnAt, takeNet_trkAt]
@[simp] theorem takeNet_deadAtSlice (h a : Nat) : (takeNet op m s).deadAtSlice h a = s.deadAtSlice h a := by
  obtain ⟨x, l, e⟩ := takeNet_only op m s; rw [e]; rfl
@[simp] theorem takeNet_hub : (takeNet op m s).fab.hub = s.fab.hub := by
  obtain ⟨x, l, h⟩ := takeNet_only op m s; rw [h]
@[simp] theorem takeNet_queue : (takeNet op m s).fab.queue = s.fab.queue := by
  obtain ⟨x, l, h⟩ := takeNet_only op m s; rw [h]
@[simp] theorem takeNet_mem : (takeNet op m s).mem = s.mem := by
  obtain ⟨x, l, h⟩ := takeNet_only op m s; rw [h]
@[simp] theorem takeNet_tick : (takeNet op m s).tick = s.tick := by
  obtain ⟨x, l, h⟩ := takeNet_only op m s; rw [h]
@[simp] theorem takeNet_ocr : (takeNet op m s).ocr = s.ocr := by
  obtain ⟨x, l, h⟩ := takeNet_only op m s; rw [h]
@[simp] theorem takeNet_fillDram (h f : Nat) : fillDram (takeNet op m s) h f = fillDram s h f := by
  obtain ⟨x, l, e⟩ := takeNet_only op m s; rw [e]; rfl
@[simp] theorem takeNet_hubDead (a : Nat) : (takeNet op m s).hubDead a = s.hubDead a := by
  obtain ⟨x, l, e⟩ := takeNet_only op m s; rw [e]; rfl
@[simp] theorem takeNet_mrFor (u : List MUse) : mrFor (takeNet op m s) m u = mrFor s m u := by
  unfold mrFor; rw [takeNet_core]
@[simp] theorem takeNet_portAwaits (n : Nat) : portAwaits (takeNet op m s) n m = portAwaits s n m := by
  unfold portAwaits; rw [takeNet_port]
end

/-- A message that has reached its destination is taken and acts. -/
theorem arrive_here {op : Nat} {m : Msg} {s : State} (k : State → State) (h : inTransit s op m = false) :
    arrive op m k s = k (takeNet op m s) := by
  unfold arrive; rw [h]; rfl

/-! ## Links after a bring-up -/

theorem linkReg_ne {a b p q r o : Nat} (h : ¬(a = b ∧ 0x40 * p + r = 0x40 * q + o)) (hp : 0x40 * p + r < 2 ^ 24) (hq : 0x40 * q + o < 2 ^ 24) :
    (Blk.mesh a).base + (r + 0x40 * p) ≠ (Blk.mesh b).base + (o + 0x40 * q) := by
  have e : ∀ x, (Blk.mesh x).base = x * 2 ^ 24 := fun x => Nat.shiftLeft_eq ..
  rw [e, e]; omega
/-- Bringing up a link touches two of its own registers. -/
theorem linkUp_rd (s : State) (st p a q r : Nat) (hp : p < 4) (hq : q < 4) (hr : r < 0x138)
    (h : ¬(a = st ∧ q = p) ∨ (r ≠ Off.LINK_STATE ∧ r ≠ Off.LINK_CREDIT)) (hr' : 0x100 ≤ r) (h64 : r < 0x120) :
    (linkUp st p s).rd (.mesh a) (r + 0x40 * q) = s.rd (.mesh a) (r + 0x40 * q) := by
  have ne : ∀ o, o = Off.LINK_STATE ∨ o = Off.LINK_CREDIT →
      (Blk.mesh a).base + (r + 0x40 * q) ≠ (Blk.mesh st).base + (o + 0x40 * p) := fun o ho => by
    apply linkReg_ne <;> simp only [Off.LINK_STATE, Off.LINK_CREDIT] at * <;> omega
  unfold linkUp setLinkState
  dsimp only
  rw [rd_wf_other _ _ _ _ _ _ _ _ (ne _ (.inl rfl)), rd_wf_other _ _ _ _ _ _ _ _ (ne _ (.inl rfl))]
  split
  · rw [rd_wr_other _ _ _ _ _ _ (ne _ (.inr rfl))]; rfl
  · rfl
theorem linkUp_self (s : State) (st p : Nat) : linkState (linkUp st p s) st p = 1 := by
  unfold linkUp linkState setLinkState State.rf
  dsimp only
  rw [rd_wf_same, fld_setFld_other _ _ _ _ _ _ (by decide) (by decide) (by decide), rd_wf_same, fld_setFld_same _ _ _ _ (by decide) (by decide)] <;> rfl
theorem linkUp_other (s : State) (st p a q : Nat) (hp : p < 4) (hq : q < 4) (h : ¬(a = st ∧ q = p)) :
    linkState (linkUp st p s) a q = linkState s a q := by
  unfold linkState State.rf
  rw [linkUp_rd s st p a q _ hp hq (by decide) (.inl h) (by decide) (by decide)]
theorem fold_good {α β γ : Type} (f : β → α → β) (P : β → γ → Prop) (g : α → γ → Prop) (l : List α)
    (keep : ∀ b a x, a ∈ l → P b x → P (f b a) x) (make : ∀ b a x, a ∈ l → g a x → P (f b a) x) :
    ∀ b x, (P b x ∨ ∃ a ∈ l, g a x) → P (l.foldl f b) x := by
  induction l with
  | nil => intro b x h; rcases h with h | ⟨a, h, _⟩; exact h; cases h
  | cons a l ih =>
    intro b x h
    have ih := ih (fun b a' x m => keep b a' x (List.mem_cons_of_mem _ m)) (fun b a' x m => make b a' x (List.mem_cons_of_mem _ m))
    refine ih _ _ ?_
    rcases h with h | ⟨a', m, h⟩
    · exact .inl (keep _ _ _ (List.mem_cons_self ..) h)
    · rcases List.mem_cons.mp m with rfl | m
      · exact .inl (make _ _ _ (List.mem_cons_self ..) h)
      · exact .inr ⟨a', m, h⟩
/-- A present link is up. -/
def UpAt (s : State) (x : Nat × Nat) : Prop := x.2 < 4 → linkState s x.1 x.2 = 1
theorem linksUp_up (s : State) (st p : Nat) (h : linkPresent st p = true) : linkState (linksUp s) st p = 1 := by
  have hh : st < 170 ∧ p < 4 := by simp only [linkPresent, Bool.and_eq_true, decide_eq_true_eq] at h; exact h.1
  have inner : ∀ (b : State) (a : Nat) (x : Nat × Nat), (UpAt b x ∨ ∃ q ∈ List.range 4, x = (a, q) ∧ linkPresent a q = true) →
      UpAt ((List.range 4).foldl (fun s q => if linkPresent a q then linkUp a q s else s) b) x := fun b a x =>
    fold_good _ UpAt (fun q x => x = (a, q) ∧ linkPresent a q = true) _
      (fun s q x m k hx => by
        split
        · rcases Decidable.em (x.1 = a ∧ x.2 = q) with e | e
          · rw [e.1, e.2]; exact linkUp_self _ _ _
          · rw [linkUp_other _ _ _ _ _ (List.mem_range.mp m) hx e]; exact k hx
        · exact k hx)
      (fun s q x m k hx => by obtain ⟨rfl, k⟩ := k; rw [if_pos k]; exact linkUp_self _ _ _) b x
  exact fold_good _ UpAt (fun a x => ∃ q ∈ List.range 4, x = (a, q) ∧ linkPresent a q = true) _
    (fun b a x _ k => inner b a x (.inl k)) (fun b a x _ k => inner b a x (.inr k)) s (st, p)
    (.inr ⟨st, List.mem_range.mpr hh.1, p, List.mem_range.mpr hh.2, rfl, h⟩) hh.2
theorem repairEnd_state (st p a q : Nat) (s : State) (hp : p < 4) (hq : q < 4) : linkState (repairEnd st p [] s).1 a q = linkState s a q := by
  unfold repairEnd mapLanes linkState State.rf
  simp only [List.filter_nil, List.foldl_nil]
  have ne : (Blk.mesh a).base + (Off.LINK_STATE + 0x40 * q) ≠ (Blk.mesh st).base + (Off.LINK_ERR + 0x40 * p) := by
    apply linkReg_ne <;> simp only [Off.LINK_STATE, Off.LINK_ERR] <;> omega
  rcases Decidable.em (a = st ∧ q = p) with e | e
  · obtain ⟨rfl, rfl⟩ := e
    rw [rd_wf_same, fld_setFld_other _ _ _ _ _ _ (by decide) (by decide) (by decide)]
    unfold State.incSat; rw [rd_wf_other _ _ _ _ _ _ _ _ ne]
  · have ne' : (Blk.mesh a).base + (Off.LINK_STATE + 0x40 * q) ≠ (Blk.mesh st).base + (Off.LINK_STATE + 0x40 * p) := by
      apply linkReg_ne <;> simp only [Off.LINK_STATE] <;> omega
    rw [rd_wf_other _ _ _ _ _ _ _ _ ne']; unfold State.incSat; rw [rd_wf_other _ _ _ _ _ _ _ _ ne]
theorem setLink_state (st p v a q : Nat) (s : State) (hp : p < 4) (hq : q < 4) (hv : v < 4) :
    linkState (setLinkState st p v s) a q = if a = st ∧ q = p then v else linkState s a q := by
  unfold setLinkState linkState State.rf
  split
  · rename_i e; obtain ⟨rfl, rfl⟩ := e
    rw [rd_wf_same, fld_setFld_same _ _ _ _ (by decide) (by decide)]; omega
  · rename_i e
    rw [rd_wf_other]; apply linkReg_ne <;> simp only [Off.LINK_STATE] <;> omega
theorem farEnd_lt (st p : Nat) : (farEnd st p).2 < 4 := by
  unfold farEnd; repeat' split
  all_goals dsimp only; omega
theorem repair_up (st p : Nat) (s : State) (x : Nat × Nat) (hp : p < 4) (h : UpAt s x) : UpAt (repairLink st p [] [] s) x := by
  intro hx
  have f := farEnd_lt st p
  have e1 : (repairEnd st p [] s).2 = true := rfl
  have e2 : (repairEnd (farEnd st p).1 (farEnd st p).2 [] (repairEnd st p [] s).1).2 = true := rfl
  have k : repairLink st p [] [] s = setLinkState (farEnd st p).1 (farEnd st p).2 1 (setLinkState st p 1
      (repairEnd (farEnd st p).1 (farEnd st p).2 [] (repairEnd st p [] s).1).1) := by
    unfold repairLink; simp only [e1, e2, and_self, if_true]
  rw [k, setLink_state _ _ _ _ _ _ f hx (by decide), setLink_state _ _ _ _ _ _ hp hx (by decide),
    repairEnd_state _ _ _ _ _ f hx, repairEnd_state _ _ _ _ _ hp hx, h hx]
  split <;> (try split) <;> rfl
/-- With no bad lane no link fails. -/
theorem links_sound (s : State) : failedStop (linksRepair [] (linksUp s)) = none := by
  have up : ∀ x : Nat × Nat, linkPresent x.1 x.2 = true → UpAt (linksRepair [] (linksUp s)) x := fun x hx => by
    refine fold_good _ UpAt (fun _ _ => False) _ (fun b a y _ k => ?_) (fun b a y _ k => k.elim) _ x (.inl (fun _ => linksUp_up s x.1 x.2 hx))
    refine fold_good _ UpAt (fun _ _ => False) _ (fun c q z m k => ?_) (fun c q z _ k => k.elim) b y (.inl k)
    have hq : q < 4 := by simp only [List.mem_cons, List.not_mem_nil, or_false] at m; omega
    dsimp only [List.filter_nil, List.map_nil]
    split
    · exact repair_up a q c z hq k
    · exact k
  simp only [failedStop, List.find?_eq_none, List.mem_range, List.any_eq_true, Bool.and_eq_true, beq_iff_eq, not_exists, not_and]
  intro st _ p hp hpr
  rw [up (st, p) hpr hp]; decide
/-- A register of a link that no repair of others touches. -/
theorem repairEnd_rd (st p a q : Nat) (s : State) (hp : p < 4) (hq : q < 4) :
    (repairEnd st p [] s).1.rd (.mesh a) (Off.LINK_LANEMAP + 0x40 * q) = s.rd (.mesh a) (Off.LINK_LANEMAP + 0x40 * q) := by
  unfold repairEnd mapLanes State.incSat
  simp only [List.filter_nil, List.foldl_nil]
  rw [rd_wf_other, rd_wf_other] <;> (apply linkReg_ne <;> simp only [Off.LINK_LANEMAP, Off.LINK_STATE, Off.LINK_ERR] <;> omega)
theorem setLink_rd (st p v a q : Nat) (s : State) (hp : p < 4) (hq : q < 4) :
    (setLinkState st p v s).rd (.mesh a) (Off.LINK_LANEMAP + 0x40 * q) = s.rd (.mesh a) (Off.LINK_LANEMAP + 0x40 * q) := by
  unfold setLinkState
  rw [rd_wf_other]; apply linkReg_ne <;> simp only [Off.LINK_LANEMAP, Off.LINK_STATE] <;> omega
theorem repair_rd (st p a q : Nat) (s : State) (hp : p < 4) (hq : q < 4) :
    (repairLink st p [] [] s).rd (.mesh a) (Off.LINK_LANEMAP + 0x40 * q) = s.rd (.mesh a) (Off.LINK_LANEMAP + 0x40 * q) := by
  have f := farEnd_lt st p
  have e1 : (repairEnd st p [] s).2 = true := rfl
  have e2 : (repairEnd (farEnd st p).1 (farEnd st p).2 [] (repairEnd st p [] s).1).2 = true := rfl
  unfold repairLink; simp only [e1, e2, and_self, if_true]
  rw [setLink_rd _ _ _ _ _ _ f hq, setLink_rd _ _ _ _ _ _ hp hq, repairEnd_rd _ _ _ _ _ f hq, repairEnd_rd _ _ _ _ _ hp hq]
theorem linksUp_rd (s : State) (a q : Nat) (hq : q < 4) :
    (linksUp s).rd (.mesh a) (Off.LINK_LANEMAP + 0x40 * q) = s.rd (.mesh a) (Off.LINK_LANEMAP + 0x40 * q) := by
  refine fold_good _ (fun (b : State) (_ : Unit) => b.rd (.mesh a) (Off.LINK_LANEMAP + 0x40 * q) = s.rd (.mesh a) (Off.LINK_LANEMAP + 0x40 * q))
    (fun _ _ => False) _ (fun b st y _ k => ?_) (fun b st y _ k => k.elim) s () (.inl rfl)
  refine fold_good _ (fun (b : State) (_ : Unit) => b.rd (.mesh a) (Off.LINK_LANEMAP + 0x40 * q) = s.rd (.mesh a) (Off.LINK_LANEMAP + 0x40 * q))
    (fun _ _ => False) _ (fun c p z m k => ?_) (fun c p z _ k => k.elim) b () (.inl k)
  split
  · rw [linkUp_rd c st p a q _ (List.mem_range.mp m) hq (by decide) (.inr (by decide)) (by decide) (by decide)]; exact k
  · exact k
/-- A bad lane of a link whose two spare lanes are in use fails the link. -/
theorem repair_fails (st p lane : Nat) (s : State) (hp : p < 4) (hl : lane < 680)
    (h : s.rd (.mesh st) (Off.LINK_LANEMAP + 0x40 * p) = 0x60005) (h5 : 5 ≠ lane) (h6 : 6 ≠ lane) :
    linkState (repairLink st p [lane] [] s) st p = 3 := by
  have f := farEnd_lt st p
  have k : (s.incSat (.mesh st) (Off.LINK_ERR + 0x40 * p) 63 48).rd (.mesh st) (Off.LINK_LANEMAP + 0x40 * p) = 0x60005 := by
    unfold State.incSat; rw [rd_wf_other, h]; apply linkReg_ne <;> simp only [Off.LINK_LANEMAP, Off.LINK_ERR] <;> omega
  have m : mapLane st p lane (s.incSat (.mesh st) (Off.LINK_ERR + 0x40 * p) 63 48) = none := by
    unfold mapLane State.rf
    simp only [k, show fld (0x60005 : Word) 9 0 = 5 from by decide, show fld (0x60005 : Word) 25 16 = 6 from by decide, h5, h6, or_self,
      if_false, show ¬ (5 = 0x3FF) from by decide, show ¬ (6 = 0x3FF) from by decide]
  have e1 : (repairEnd st p [lane] s).2 = false := by
    unfold repairEnd mapLanes
    simp only [List.filter_cons, hl, decide_true, if_true, List.filter_nil, List.foldl_cons, List.foldl_nil, m]
  unfold repairLink
  simp only [e1, Bool.false_eq_true, false_and, if_false]
  generalize (repairEnd _ _ [] _).1 = u
  have e : ∀ (t : State) (a b c d e f g h : Nat), linkState (report a b c d e f g h t) st p = linkState t st p := fun _ _ _ _ _ _ _ _ _ => rfl
  rw [e, setLink_state _ _ _ _ _ _ f hp (by decide), setLink_state _ _ _ _ _ _ hp hp (by decide)]
  split
  · rfl
  · rw [if_pos ⟨rfl, rfl⟩]
/-- A bring-up in which such a lane of the last link is bad finds a failed link. -/
theorem links_fail (s : State) (lane : Nat) (hl : lane < 680) (h5 : 5 ≠ lane) (h6 : 6 ≠ lane)
    (h : s.rd (.mesh 168) (Off.LINK_LANEMAP + 0x40 * 1) = 0x60005) :
    (failedStop (linksRepair [(168, 1, lane)] (linksUp s))).isSome = true := by
  have keep : ∀ (b : State), b.rd (.mesh 168) (Off.LINK_LANEMAP + 0x40 * 1) = 0x60005 →
      ((List.range 168).foldl (fun s st => [1, 2].foldl (fun s p =>
        if linkPresent st p then repairLink st p (([(168, 1, lane)].filter (fun b => b.1 == st && b.2.1 == p)).map (·.2.2))
          (([(168, 1, lane)].filter (fun b => b.1 == (farEnd st p).1 && b.2.1 == (farEnd st p).2)).map (·.2.2)) s else s) s) b).rd
        (.mesh 168) (Off.LINK_LANEMAP + 0x40 * 1) = 0x60005 := fun b hb => by
    refine fold_good _ (fun (b : State) (_ : Unit) => b.rd (.mesh 168) (Off.LINK_LANEMAP + 0x40 * 1) = 0x60005)
      (fun _ _ => False) _ (fun b st y m k => ?_) (fun b st y _ k => k.elim) b () (.inl hb)
    refine fold_good _ (fun (b : State) (_ : Unit) => b.rd (.mesh 168) (Off.LINK_LANEMAP + 0x40 * 1) = 0x60005)
      (fun _ _ => False) _ (fun c p z mp k => ?_) (fun c p z _ k => k.elim) b () (.inl k)
    have ms : (168 == st) = false := by have := List.mem_range.mp m; simp; omega
    have hp : p < 4 ∧ (1 == (farEnd st p).2) = false := by
      simp only [List.mem_cons, List.not_mem_nil, or_false] at mp
      rcases mp with rfl | rfl <;> exact ⟨by decide, rfl⟩
    split
    · simp only [List.filter_cons, ms, hp.2, Bool.false_and, Bool.and_false, Bool.false_eq_true, if_false, List.filter_nil, List.map_nil]
      rw [repair_rd _ _ _ _ _ hp.1 (by decide)]; exact k
    · exact k
  have r : List.range 170 = List.range 168 ++ [168, 169] := by
    rw [show 170 = 168 + 1 + 1 from rfl, List.range_succ, List.range_succ, List.append_assoc]; rfl
  have last : linkState (linksRepair [(168, 1, lane)] (linksUp s)) 168 1 = 3 := by
    unfold linksRepair
    have q : linkPresent 168 1 = true ∧ linkPresent 168 2 = false ∧ linkPresent 169 1 = false ∧ linkPresent 169 2 = false := by decide
    dsimp only
    rw [r, List.foldl_append]
    simp only [List.foldl_cons, List.foldl_nil, q.1, q.2.1, q.2.2.1, q.2.2.2, if_true, Bool.false_eq_true, if_false]
    exact repair_fails 168 1 lane _ (by decide) hl (keep _ (by rw [linksUp_rd _ _ _ (by decide)]; exact h)) h5 h6
  simp only [failedStop, List.find?_isSome, List.any_eq_true, Bool.and_eq_true, beq_iff_eq]
  exact ⟨168, by decide, 1, by decide, by decide, last⟩

end Sys2Proof.Machine
end

