-- ==== Sys2Proof/Laws/Regs.lean ====
section
/-! SUPPORT. Accesses that reach a register. -/
namespace Sys2Proof.Machine

/-- A write that reaches a register acts on it, and is acknowledged. -/
theorem regWrite_open {s : State} {who : Agent} {b : Blk} {o size : Nat} {d : RegDef} (v : Word) (h : OpenWrite s who b o size d) :
    regWrite who (regOff b o) size v s = ackWrite who (regOff b o) (regPut who b d o (asked d (s.rd b o) v size) s) := by
  have h1 : ¬((!mayWriteOcr who) = true ∨ (!accessOk (regOff b o) size) = true) := by simp [h.may, h.sized]
  have h2 : reach b o size = some (d, o, 0, if (d.wide && size == 8) = true then 64 else 32) := by unfold reach; simp only [h.reg]
  have h3 : ¬(isRwl b d o = true ∧ (!leaseOpen s who b) = true) := by
    rintro ⟨a, c⟩; rw [h.lease a] at c; exact absurd c (by decide)
  have h4 : ¬(b = .idist ∧ idistGuarded d = true ∧ (!idistMay who) = true) := by
    rintro ⟨a, c, e⟩; rw [h.idist a c] at e; exact absurd e (by decide)
  unfold regWrite
  rw [if_neg h1, h.lands]
  simp only [h.on, Bool.false_eq_true, if_false, blkWrite, h2]
  rw [if_neg h3, if_neg h4]; rfl

/-- A read that reaches a register returns it, with what reading it does. -/
theorem regRead_open {s : State} {who : Agent} {b : Blk} {o size : Nat} {d : RegDef} (h : OpenRead s who b o size d) :
    regRead who (regOff b o) size s = (seen s b d o size, readEffect b d o s) := by
  have h2 : reach b o size = some (d, o, 0, if (d.wide && size == 8) = true then 64 else 32) := by unfold reach; simp only [h.reg]
  unfold regRead
  simp only [h.sized, h.lands, h.may, h.on, blkRead, h2, Bool.not_true, Bool.false_eq_true, if_false]
  rfl

/-- The same for the rows that are accesses to one register. -/
theorem regRow_open {s : State} {who : Agent} {b : Blk} {o size : Nat} {d : RegDef} (v : Word) (h : OpenWrite s who b o size d) :
    regRow who b o size v s = .next (settle s (ackWrite who (regOff b o) (regPut who b d o (asked d (s.rd b o) v size) s))) := by
  unfold regRow finish; rw [if_pos h.there, regWrite_open v h]

theorem rdReg_open {s : State} {who : Agent} {b : Blk} {o size : Nat} {d : RegDef} (h : OpenRead s who b o size d) :
    rdReg who b o size s = .next (settle s { readEffect b d o s with readData := seen s b d o size }) := by
  unfold rdReg finish; rw [if_pos h.there, regRead_open h]

end Sys2Proof.Machine
end

