-- ==== Sys2Proof/Laws/Retire.lean ====
section
/-! SUPPORT. Retirement of one instruction: what it can change at a core. -/
namespace Sys2Proof.Machine

/-- The fields of a core that accounting for an instruction can change. -/
def SpoorOnly (c d : Core) : Prop :=
  ∃ (sn : Bool) (sl lf : Nat) (mrs : List MReq) (tx : Nat),
    d = { c with spoorNext := sn, spoorLeft := sl, lfsr := lf, mrs := mrs, nextTxn := tx }

theorem SpoorOnly.refl (c : Core) : SpoorOnly c c := ⟨_, _, _, _, _, rfl⟩
theorem SpoorOnly.trans {c d e : Core} (h : SpoorOnly c d) (k : SpoorOnly d e) : SpoorOnly c e := by
  obtain ⟨_, _, _, _, _, rfl⟩ := h
  obtain ⟨_, _, _, _, _, rfl⟩ := k
  exact ⟨_, _, _, _, _, rfl⟩

/-- One core changes by accounting only, the others and memory not at all. -/
structure Spoored (p : Nat) (s t : State) : Prop where
  here : SpoorOnly (s.core p) (t.core p)
  there : ∀ q, q ≠ p → t.core q = s.core q
  mem : t.mem = s.mem

theorem Spoored.refl (p : Nat) (s : State) : Spoored p s s := ⟨.refl _, fun _ _ => rfl, rfl⟩
theorem Spoored.trans {p : Nat} {s t u : State} (h : Spoored p s t) (k : Spoored p t u) : Spoored p s u :=
  ⟨h.here.trans k.here, fun q e => (k.there q e).trans (h.there q e), k.mem.trans h.mem⟩

/-- A change of one core by accounting. -/
theorem Spoored.mod (p : Nat) (s : State) (f : Core → Core) (h : SpoorOnly (s.core p) (f (s.core p))) : Spoored p s (s.modCore p f) :=
  ⟨by rw [core_modCore_same]; exact h, fun q e => core_modCore_other _ _ _ _ e, State.modCore_mem _ _ _⟩

theorem Spoored.set (p : Nat) (s : State) (c : Core) (h : SpoorOnly (s.core p) c) : Spoored p s (s.setCore p c) :=
  ⟨by rw [core_setCore_same]; exact h, fun q e => core_setCore_other _ _ _ _ e, State.setCore_mem _ _ _⟩

theorem bump_spoored (q p e n : Nat) (a : PAcc) (s : State) : Spoored q s (bump p e n a s) :=
  ⟨by rw [bump_core]; exact .refl _, fun r _ => bump_core _ _ _ _ _ _, bump_mem _ _ _ _ _⟩

theorem spoorReload_spoored (p : Nat) (s : State) : Spoored p s (spoorReload p s) := by
  unfold spoorReload
  dsimp only
  exact ⟨by rw [core_modCore_same]; exact ⟨_, _, _, _, _, rfl⟩, fun q e => core_modCore_other _ _ _ _ e, State.modCore_mem _ _ _⟩

theorem spoorTag_spoored (p k : Nat) (a : PAcc) (s : State) : Spoored p s (spoorTag p k a s).2 := by
  unfold spoorTag
  dsimp only
  split
  · exact .refl _ _
  · split
    · exact .set _ _ _ ⟨_, _, _, _, _, rfl⟩
    · split
      · exact .set _ _ _ ⟨_, _, _, _, _, rfl⟩
      · split
        · exact spoorReload_spoored _ _
        · exact .set _ _ _ ⟨_, _, _, _, _, rfl⟩

theorem dispatch_spoored (i : Ins) (k : Nat) (a : PAcc) (s : State) : Spoored i.pcn s (dispatch i k a s).2 := by
  unfold dispatch issue
  dsimp only
  refine Spoored.trans ?_ (spoorTag_spoored _ _ _ _)
  split
  · exact (bump_spoored _ _ _ _ _ _).trans (bump_spoored _ _ _ _ _ _)
  · split
    · exact ((bump_spoored _ _ _ _ _ _).trans (bump_spoored _ _ _ _ _ _)).trans (bump_spoored _ _ _ _ _ _)
    · split
      · exact (bump_spoored _ _ _ _ _ _).trans (bump_spoored _ _ _ _ _ _)
      · exact bump_spoored _ _ _ _ _ _

theorem addMr_spoored (p : Nat) (r : MReq) (s : State) : Spoored p s (addMr p r s) := by
  unfold addMr; exact .mod _ _ _ ⟨_, _, _, _, _, rfl⟩

theorem setMr_spoored (p t : Nat) (f : MReq → MReq) (s : State) : Spoored p s (setMr p t f s) := by
  unfold setMr; exact .mod _ _ _ ⟨_, _, _, _, _, rfl⟩

theorem core_congr {s t : State} (h : t.cores = s.cores) (p : Nat) : t.core p = s.core p := by unfold State.core; rw [h]

theorem Spoored.ofCores (p : Nat) {s t : State} (h : t.cores = s.cores) (hm : t.mem = s.mem) : Spoored p s t :=
  ⟨by rw [core_congr h]; exact .refl _, fun q _ => core_congr h q, hm⟩

theorem post_spoored (p op : Nat) (m : Msg) (s : State) : Spoored p s (post op m s) := .ofCores p rfl rfl

theorem spoorWrite_spoored (p : Nat) (e : RobEnt) (kind flags : Nat) (s : State) : Spoored p s (spoorWrite p e kind flags s) := by
  unfold spoorWrite
  dsimp only
  split
  · unfold State.incSat; exact .ofCores p (State.wf_cores _ _ _ _ _ _) (State.wf_mem _ _ _ _ _ _)
  · exact ((addMr_spoored _ _ _).trans (setMr_spoored _ _ _ _)).trans (post_spoored _ _ _ _)

theorem moveOn_core (p : Nat) (e : RobEnt) (s : State) :
    (∃ off, (moveOn p e s).core p = Core.retired off e (s.core p)) ∧ (∀ q, q ≠ p → (moveOn p e s).core q = s.core q) ∧
    (moveOn p e s).mem = s.mem := by
  unfold moveOn
  dsimp only
  refine ⟨⟨_, by rw [core_modCore_same, bump_core, bump_core]⟩, fun q hq => ?_, ?_⟩
  · rw [core_modCore_other _ _ _ _ hq, bump_core, bump_core]
  · rw [State.modCore_mem, bump_mem, bump_mem]

/-- Retiring an instruction moves the core on and counts it. -/
theorem retireOne_core (p : Nat) (e : RobEnt) (kind flags : Nat) (s : State) :
    (∃ off, SpoorOnly (Core.retired off e (s.core p)) ((retireOne p e kind flags s).core p)) ∧
    (∀ q, q ≠ p → (retireOne p e kind flags s).core q = s.core q) ∧ (retireOne p e kind flags s).mem = s.mem := by
  obtain ⟨⟨off, h1⟩, h2, h3⟩ := moveOn_core p e s
  unfold retireOne
  split
  · have h := spoorWrite_spoored p e kind flags (moveOn p e s)
    exact ⟨⟨off, h1 ▸ h.here⟩, fun q hq => (h.there q hq).trans (h2 q hq), h.mem.trans h3⟩
  · exact ⟨⟨off, h1 ▸ .refl _⟩, h2, h3⟩

/-- Nothing more retires while the next instruction is not done. -/
theorem retireLoop_stop (p n : Nat) (s : State) (h : (s.core p).rob.find? (fun e => e.seq == (s.core p).next && e.done) = none) :
    retireLoop p n s = s := by
  cases n with
  | zero => rfl
  | succ n => unfold retireLoop; simp only [h]

/-- The oldest instruction completes and nothing behind it is done: the core moves past it. -/
theorem complete_core (i : Ins) (kind : Nat) (s : State)
    (h : ∀ e ∈ (s.core i.pcn).rob, e.seq ≠ i.seq + 1) :
    SpoorOnly (Core.retired false (robOf i (s.core i.pcn).lvl 0 0) (s.core i.pcn)) ((complete i kind s).core i.pcn) ∧
    (∀ q, q ≠ i.pcn → (complete i kind s).core q = s.core q) ∧ (complete i kind s).mem = s.mem := by
  unfold complete
  dsimp only
  have ht := dispatch_spoored i kind (pNow s i.pcn) s
  generalize dispatch i kind (pNow s i.pcn) s = x at ht
  obtain ⟨tag, u⟩ := x
  simp only at ht ⊢
  generalize hE : ({ robOf i (s.core i.pcn).lvl (s.core i.pcn).lidNow u.tick with
    tagged := tag, done := true, uops := uopsOf i.bits ((s.core i.pcn).csr' 0xC21) } : RobEnt) = E
  obtain ⟨⟨off, r1⟩, r2, r3⟩ := retireOne_core i.pcn E (if kind = 0 then 3 else kind) 0 u
  have hs : E.seq = i.seq ∧ E.npc = i.pc + BitVec.ofNat 64 i.ilen ∧ E.branch = none := by rw [← hE]; exact ⟨rfl, rfl, rfl⟩
  have hstop : retireAll i.pcn (retireOne i.pcn E (if kind = 0 then 3 else kind) 0 u) = retireOne i.pcn E (if kind = 0 then 3 else kind) 0 u := by
    unfold retireAll
    apply retireLoop_stop
    rw [List.find?_eq_none]
    intro e he hc
    obtain ⟨_, _, _, _, _, hd⟩ := r1
    have hn : ((retireOne i.pcn E (if kind = 0 then 3 else kind) 0 u).core i.pcn).next = i.seq + 1 := by rw [hd]; simp [Core.retired, hs.1]
    have hr : e ∈ (s.core i.pcn).rob := by
      rw [hd] at he
      obtain ⟨_, _, _, _, _, hu⟩ := ht.here
      simp only [Core.retired, hu] at he
      exact (List.mem_filter.mp he).1
    rw [hn] at hc
    simp only [Bool.and_eq_true, beq_iff_eq] at hc
    exact h e hr hc.1
  rw [hstop]
  refine ⟨?_, fun q hq => (r2 q hq).trans (ht.there q hq), r3.trans ht.mem⟩
  obtain ⟨_, _, _, _, _, hu⟩ := ht.here
  refine SpoorOnly.trans ?_ r1
  unfold Core.retired
  rw [hu, hs.1, hs.2.1, hs.2.2]
  exact ⟨_, _, _, _, _, rfl⟩

end Sys2Proof.Machine
end

