-- ==== Sys2Proof/Laws/Step.lean ====
section
/-! SUPPORT. Everything a command can answer, once for all commands. -/
namespace Sys2Proof.Machine

/-- What `exec` can answer: a stress beyond the ratings faults, an event of a COLD answers its own state with the queue put
back, and every other command answers through `settle`. -/
def AnswersOnly (c : Instr) (s : State) : Prop :=
  (∃ f, exec c s = .fault f ∧ isStress c = true) ∨
  (∃ t : State, exec c s = .next { t with pending := s.pending } ∧ isCold c = true) ∨
  (∃ t : State, exec c s = .next (settle s t))

theorem exec_cases (c : Instr) (s : State) : AnswersOnly c s := by
  cases c
  case powerWindowTick va vb iin pchip =>
    unfold AnswersOnly exec execPowerWindowTick; dsimp only
    split
    · exact .inl ⟨_, rfl, rfl⟩
    · exact .inr (.inr ⟨_, rfl⟩)
  case coldReset cause va vb tp =>
    unfold AnswersOnly exec execColdReset; dsimp only
    split
    · exact .inl ⟨_, rfl, rfl⟩
    · exact .inr (.inl ⟨_, rfl, rfl⟩)
  case powerFailEnd va vb =>
    unfold AnswersOnly exec execPowerFailEnd; dsimp only
    split
    · exact .inl ⟨_, rfl, rfl⟩
    · exact .inr (.inr ⟨_, rfl⟩)
  case feedRestored feed v =>
    unfold AnswersOnly exec execFeedRestored; dsimp only
    split
    · exact .inl ⟨_, rfl, rfl⟩
    · exact .inr (.inr ⟨_, rfl⟩)
  case tempConversion kind idx temp =>
    unfold AnswersOnly exec execTempConversion; dsimp only
    split
    · exact .inl ⟨_, rfl, rfl⟩
    · exact .inr (.inr ⟨_, rfl⟩)
  case turnOff => exact .inr (.inl ⟨_, rfl, rfl⟩)
  case coldRstNAsserted => exact .inr (.inl ⟨_, rfl, rfl⟩)
  all_goals exact .inr (.inr ⟨_, rfl⟩)

end Sys2Proof.Machine
end

