-- ==== Sys2Proof/Tests/Slice0.lean ====
section
/-! SUPPORT. Tests: well-formed commands and ill-formed ones, states that meet the hypotheses of each statement, and small
runs whose results come from the spec's tables. -/
namespace Sys2Proof.Tests
open Sys2Proof Sys2Proof.Machine


/-! ## Well-formed commands at the edge of each range, and ill-formed ones past it -/

abbrev someIns : Ins := { pcn := 0, seq := 0, pc := 0x100000, ilen := 4, bits := 0 }
abbrev someMsg : Msg := { agent := 511, line := 2 ^ 42 - 1, lid := 511, gen := 255, qport := 63, fclass := 31 }

theorem test_wf_channel : Instr.wellFormed (.sysNop 3 0) = true ∧ Instr.wellFormed (.sysNop 4 0) = false := by decide
theorem test_wf_sixteen_bits : Instr.wellFormed (.sysNop 0 65535) = true ∧ Instr.wellFormed (.sysNop 0 65536) = false := by decide
theorem test_wf_stop : Instr.wellFormed (.sscApply 169) = true ∧ Instr.wellFormed (.bwWindowClose 170) = false := by decide
theorem test_wf_memory_channel : Instr.wellFormed (.alertN 15) = true ∧ Instr.wellFormed (.alertN 16) = false := by decide
theorem test_wf_core : Instr.wellFormed (.storeCommit 271) = true ∧ Instr.wellFormed (.storeCommit 272) = false := by decide
theorem test_wf_slice : Instr.wellFormed (.homeRetryAdmit 135) = true ∧ Instr.wellFormed (.homeRetryAdmit 136) = false := by decide
theorem test_wf_virtual_function : Instr.wellFormed (.flrComplete 63) = true ∧ Instr.wellFormed (.flrComplete 0) = false := by decide
theorem test_wf_virtual_function_above : Instr.wellFormed (.flrComplete 1) = true ∧ Instr.wellFormed (.flrComplete 64) = false := by decide
theorem test_wf_hoard : Instr.wellFormed (.marchEnd 3 none) = true ∧ Instr.wellFormed (.marchEnd 4 none) = false := by decide
theorem test_wf_bank : Instr.wellFormed (.hoardClearEnd 63) = true ∧ Instr.wellFormed (.hoardClearEnd 64) = false := by decide
theorem test_wf_port : Instr.wellFormed (.completionTimeout 8 0) = true ∧ Instr.wellFormed (.completionTimeout 9 0) = false := by decide
theorem test_wf_root_port : Instr.wellFormed (.linkDown 0 3) = true ∧ Instr.wellFormed (.linkDown 0 4) = false := by decide
theorem test_wf_feed : Instr.wellFormed (.feedLost 1 0) = true ∧ Instr.wellFormed (.feedLost 2 0) = false := by decide
theorem test_wf_pin : Instr.wellFormed (.denWakeExtIrq 7) = true ∧ Instr.wellFormed (.denWakeExtIrq 8) = false := by decide
theorem test_wf_agent_number : Instr.wellFormed (.bcastReceive 511 0) = true ∧ Instr.wellFormed (.bcastReceive 512 0) = false := by decide
theorem test_wf_source : Instr.wellFormed (.sourceLevelChange 8191 true) = true ∧ Instr.wellFormed (.sourceLevelChange 8192 true) = false := by decide
theorem test_wf_group : Instr.wellFormed (.holdoffExpiry 63) = true ∧ Instr.wellFormed (.holdoffExpiry 64) = false := by decide
theorem test_wf_posting_slot : Instr.wellFormed (.recall 4095) = true ∧ Instr.wellFormed (.recall 4096) = false := by decide
theorem test_wf_part : Instr.wellFormed (.errStatusClear .sett 0 7) = true ∧ Instr.wellFormed (.errStatusClear .sett 0 8) = false := by decide
theorem test_wf_line : Instr.wellFormed (.trackerComplete (2 ^ 42 - 1)) = true ∧ Instr.wellFormed (.trackerComplete (2 ^ 42)) = false := by decide
theorem test_wf_function : Instr.wellFormed (.partnerFlr 63) = true ∧ Instr.wellFormed (.partnerFlr 64) = false := by decide
theorem test_wf_lodge : Instr.wellFormed (.lodgeDrainTimeout 511) = true ∧ Instr.wellFormed (.lodgeDrainTimeout 512) = false := by decide
theorem test_wf_one_of_32 : Instr.wellFormed (.leaseExpiry 31) = true ∧ Instr.wellFormed (.leaseExpiry 32) = false := by decide
theorem test_wf_message_class : Instr.wellFormed (.creditTimeout 0 0 4) = true ∧ Instr.wellFormed (.creditTimeout 0 0 5) = false := by decide
theorem test_wf_fault_class : Instr.wellFormed (.faultReport 0 63 0 0 0 0 0 0) = true ∧ Instr.wellFormed (.faultReport 0 64 0 0 0 0 0 0) = false := by decide
theorem test_wf_tag : Instr.wellFormed (.tagQuarantineEnd 0 1023) = true ∧ Instr.wellFormed (.tagQuarantineEnd 0 1024) = false := by decide
theorem test_wf_register : Instr.wellFormed (.fbr someIns 0 31) = true ∧ Instr.wellFormed (.fbr someIns 0 32) = false := by decide
theorem test_wf_load_size : Instr.wellFormed (.load someIns 0 64 .none false false) = true ∧ Instr.wellFormed (.load someIns 0 65 .none false false) = false := by decide
theorem test_wf_load_of_nothing : Instr.wellFormed (.load someIns 0 1 .none false false) = true ∧ Instr.wellFormed (.load someIns 0 0 .none false false) = false := by decide
theorem test_wf_store_of_nothing : Instr.wellFormed (.store someIns 0 [0] false) = true ∧ Instr.wellFormed (.store someIns 0 [] false) = false := by decide
theorem test_wf_instruction_length : Instr.wellFormed (.pause { someIns with ilen := 2 }) = true ∧ Instr.wellFormed (.pause { someIns with ilen := 3 }) = false := by decide
theorem test_wf_destination : Instr.wellFormed (.load someIns 0 8 (.x 31) false false) = true ∧ Instr.wellFormed (.load someIns 0 8 (.x 32) false false) = false := by decide
theorem test_wf_destination_offset : Instr.wellFormed (.load someIns 0 8 (.v 0 63) false false) = true ∧ Instr.wellFormed (.load someIns 0 8 (.v 0 64) false false) = false := by decide
theorem test_wf_message_agent : Instr.wellFormed (.rds someMsg) = true ∧ Instr.wellFormed (.rds { someMsg with agent := 512 }) = false := by decide
theorem test_wf_message_line : Instr.wellFormed (.rds someMsg) = true ∧ Instr.wellFormed (.rds { someMsg with line := 2 ^ 42 }) = false := by decide
theorem test_wf_message_generation : Instr.wellFormed (.rds someMsg) = true ∧ Instr.wellFormed (.rds { someMsg with gen := 256 }) = false := by decide
theorem test_wf_message_port_class : Instr.wellFormed (.rds someMsg) = true ∧ Instr.wellFormed (.rds { someMsg with qport := 64 }) = false := by decide
theorem test_wf_message_fill_class : Instr.wellFormed (.rds someMsg) = true ∧ Instr.wellFormed (.rds { someMsg with fclass := 32 }) = false := by decide
theorem test_wf_accessing_core : Instr.wellFormed (.violCountRead (.core 271 .m)) = true ∧ Instr.wellFormed (.violCountRead (.core 272 .m)) = false := by decide
theorem test_wf_accessing_function : Instr.wellFormed (.violCountRead (.partner 63)) = true ∧ Instr.wellFormed (.violCountRead (.partner 64)) = false := by decide
theorem test_wf_register_space : Instr.wellFormed (.regWrite .sett (.ocr 0 8) 0) = true ∧ Instr.wellFormed (.regWrite .sett (.ocr (170 * 2 ^ 24) 8) 0) = false := by decide
theorem test_wf_register_alignment : Instr.wellFormed (.regWrite .sett (.ocr 4 4) 0) = true ∧ Instr.wellFormed (.regWrite .sett (.ocr 4 8) 0) = false := by decide
theorem test_wf_register_size : Instr.wellFormed (.regWrite .sett (.ocr 0 4) 0) = true ∧ Instr.wellFormed (.regWrite .sett (.ocr 0 2) 0) = false := by decide
theorem test_wf_system_register : Instr.wellFormed (.regWrite .sett (.csr someIns 4095 0 .write) 0) = true ∧ Instr.wellFormed (.regWrite .sett (.csr someIns 4096 0 .write) 0) = false := by decide
theorem test_wf_function_page : Instr.wellFormed (.regWrite (.partner 1) (.vf 1 0x108 8) 0) = true ∧ Instr.wellFormed (.regWrite (.partner 1) (.vf 1 16384 8) 0) = false := by decide
theorem test_wf_pf0_page : Instr.wellFormed (.regWrite (.partner 0) (.pf0 0 8) 0) = true ∧ Instr.wellFormed (.regWrite (.partner 0) (.pf0 65536 8) 0) = false := by decide

set_option Elab.async false
set_option maxRecDepth 20000
/-! ## States to start from -/

/-- Registers set one after the other. -/
def put (s : State) (l : List (Blk × Nat × Nat)) : State := l.foldl (fun s e => s.wr e.1 e.2.1 (BitVec.ofNat 64 e.2.2)) s

/-- A chip in SERVICE: the Sett serves, every domain is on, channels 0, 1 and 2 are open, all harts are handed off. -/
def live : State :=
  { put State.reset [(.sett, Off.SETT_STATE, 1), (.pwrc, Off.MODE_FLAGS, 8), (.pwrc, Off.PWRC_MODE, 3),
      (.sett, Off.CHAN_STATE, 1), (.sett, Off.CHAN_STATE + 8, 1), (.sett, Off.CHAN_STATE + 16, 1)] with
    org := { State.reset.org with mapped := 0x10000000000, installed := 0x10000000000 }
    pwr := { State.reset.pwr with
      mainOn := true, memOn := true, ioOn := true, handOff := true, everHandOff := true,
      operating := true, fresh := false, broughtUp := true, vinA := 4800, vinB := 4800, seenA := true, seenB := true } }

/-- An accepted command of a channel. -/
def cmdOn (ch op : Nat) (body : List Byte) : Cmd :=
  { ch := ch, tag := 7, opcode := op, flags := 0, lid := 0, gen := 0, len := body.length,
    body := body ++ List.replicate (112 - body.length) 0, ord := 1, phase := .accepted, discard := false, aux := [] }
def cmd0 (op : Nat) (body : List Byte) : Cmd := cmdOn 0 op body

/-- Commands that wait to start. -/
def withCmds (s : State) (l : List Cmd) : State :=
  l.foldl (fun s c => s.wf .sett (Off.CHAN_STATE + 8 * c.ch) 15 8 (s.outstanding c.ch + 1))
    { s with sett := { s.sett with cmds := l, nextOrd := 9 } }
/-- One command of channel 0 waits to start. -/
def asks (s : State) (op : Nat) (body : List Byte) : State := withCmds s [cmd0 op body]

/-- What a command leaves, where it answers a next state. -/
def after (r : Res) : State := match r with | .next t => t | _ => State.reset

/-- The three parts of `Ready` as one test. -/
def readyB (s : State) (ch tag op : Nat) (c : Cmd) : Bool :=
  decide (findCmd s ch tag op = some c) && mayStart s c && (lidBad s op c).isNone
theorem ready_of {s : State} {ch tag op : Nat} {c : Cmd} (h : readyB s ch tag op c = true) : Ready s ch tag op c := by
  simp only [readyB, Bool.and_eq_true, decide_eq_true_eq, Option.isNone_iff_eq_none] at h
  exact ⟨h.1.1, h.1.2, h.2⟩


/-! ## A core, and proofs of the premises that are no single equation -/

/-- Core 271 runs at a level; `f` sets the rest of it. -/
def cpu (l : Lvl) (f : Core → Core := id) : State := live.setCore 271 (f { on := true, lvl := l, pc := 0x100000 })
/-- Its oldest instruction, and the one after it. -/
abbrev ins : Ins := { pcn := 271, seq := 0, pc := 0x100000, ilen := 4, bits := 0x100073 }
abbrev ins1 : Ins := { pcn := 271, seq := 1, pc := 0x100004, ilen := 4, bits := 0x100073 }

theorem some_of {α : Type} {o : Option α} (h : o.isSome = true) : o = some (o.get h) := by simp
theorem all_of {α : Type} {o : Option α} {P : α → Prop} [DecidablePred P]
    (h : (match o with | some e => decide (P e) | none => true) = true) : ∀ e, o = some e → P e := by
  rintro e rfl; simpa using h
theorem none_of {α : Type} {o : Option (α × Bool)} (h : o.isNone = true) : ∀ b, o ≠ some (b, true) := by
  intro b e; simp [e] at h

/-- The mapping in an answer of `mapAccess`, and the failing half. -/
def mapOf (r : MapRes × State) : Mapped := match r.1 with | .ok m => m | _ => ⟨0, 0, 0, .wb, none, none⟩
def mapOk (r : MapRes × State) : Bool := match r.1 with | .ok _ => true | _ => false
theorem map_of {r : MapRes × State} (h : mapOk r = true) : r = (.ok (mapOf r), r.2) := by
  obtain ⟨a, s⟩ := r; cases a <;> simp_all [mapOk, mapOf]
def failOf (r : MapRes × State) : Word × Bool × Xl × Option Nat := match r.1 with | .fail v u x l => (v, u, x, l) | _ => (0, false, .miss, none)
def mapFails (r : MapRes × State) : Bool := match r.1 with | .fail _ _ _ _ => true | _ => false
theorem fail_of {r : MapRes × State} (h : mapFails r = true) :
    r = (.fail (failOf r).1 (failOf r).2.1 (failOf r).2.2.1 (failOf r).2.2.2, r.2) := by
  obtain ⟨a, s⟩ := r; cases a <;> simp_all [mapFails, failOf]
theorem reaches_of {s : State} {i : Ins} {a : Acc'} {va : Word} {n : Nat} {q at' : Bool} {w : Nat → Bool}
    (h : mapOk (mapAccess i.pcn a va n q at' w s) = true) :
    Reaches s i a va n q at' w (mapOf (mapAccess i.pcn a va n q at' w s)) (mapAccess i.pcn a va n q at' w s).2 := ⟨map_of h⟩

/-- The register at an offset of a window. -/
def defAt (b : Blk) (o : Nat) : RegDef := (regAt b o).getD ⟨0, 0, 0, false, 0, false, []⟩
theorem def_of {b : Blk} {o : Nat} (h : (regAt b o).isSome = true) : regAt b o = some (defAt b o) := by
  cases e : regAt b o with
  | none => simp [e] at h
  | some d => simp [defAt, e]
def openB (s : State) (b : Blk) (o size : Nat) : Bool :=
  accessOk (regOff b o) size && blkExists b && decide (landing s (regOff b o) = some (b, o)) && !winOff s b && (regAt b o).isSome
/-- The parts of `OpenWrite` as one test. -/
def openWB (s : State) (who : Agent) (b : Blk) (o size : Nat) : Bool :=
  openB s b o size && mayWriteOcr who && (!isRwl b (defAt b o) o || leaseOpen s who b) &&
    (decide (b ≠ .idist) || !idistGuarded (defAt b o) || idistMay who)
theorem write_of {s : State} {who : Agent} {b : Blk} {o size : Nat} (h : openWB s who b o size = true) :
    OpenWrite s who b o size (defAt b o) := by
  simp only [openWB, openB, Bool.and_eq_true, Bool.or_eq_true, Bool.not_eq_true', decide_eq_true_eq] at h
  obtain ⟨⟨⟨⟨⟨⟨⟨h1, h2⟩, h3⟩, h4⟩, h5⟩, h6⟩, h7⟩, h8⟩ := h
  refine ⟨h6, h1, h2, h3, h4, def_of h5, fun k => ?_, fun kb k => ?_⟩
  · rcases h7 with h | h
    · rw [h] at k; cases k
    · exact h
  · rcases h8 with (h | h) | h
    · exact absurd kb h
    · rw [h] at k; cases k
    · exact h
/-- The parts of `OpenRead` as one test. -/
def openRB (s : State) (who : Agent) (b : Blk) (o size : Nat) : Bool := openB s b o size && mayReadOcr s who b
theorem read_of {s : State} {who : Agent} {b : Blk} {o size : Nat} (h : openRB s who b o size = true) :
    OpenRead s who b o size (defAt b o) := by
  simp only [openRB, openB, Bool.and_eq_true, Bool.not_eq_true', decide_eq_true_eq] at h
  obtain ⟨⟨⟨⟨⟨h1, h2⟩, h3⟩, h4⟩, h5⟩, h6⟩ := h
  exact ⟨h6, h1, h2, h3, h4, def_of h5⟩



/-- States and operands that meet the hypotheses of StepRunsFrontCommand. -/
theorem wit_step_runs_front_command :
  (∃ s : State, ∃ c : Instr, ∃ rest : List Instr, s.pending = c :: rest) ∧
  (∃ s : State, s.pending = []) :=
  ⟨⟨{ live with pending := [.sysNop 0 0, .channelPoll] }, .sysNop 0 0, [.channelPoll], rfl⟩,
  ⟨live, rfl⟩⟩

/-- States and operands that meet the hypotheses of CommandsKeepTheQueue. -/
theorem wit_commands_keep_the_queue :
  (∃ c : Instr, ∃ s : State, ∃ f, exec c s = .fault f) ∧
  (∃ c : Instr, ∃ s : State, ∃ t, exec c s = .next t) :=
  ⟨⟨.feedRestored 0 7501, live, .beyondRatings, rfl⟩,
  ⟨.aliveToggle, live, after (exec .aliveToggle live), rfl⟩⟩

/-- States and operands that meet the hypotheses of OnlyColdLeavesSafe. -/
theorem wit_only_cold_leaves_safe :
  (∃ s : State, ∃ t : State, s.inSafe = true ∧ (∀ c rest, s.pending = c :: rest → isCold c = false) ∧ step s = .next t) :=
  ⟨{ put live [(.pwrc, Off.MODE_FLAGS, 0x800), (.pwrc, Off.PWRC_MODE, 11)] with pending := [.channelPoll] }, after (step { put live [(.pwrc, Off.MODE_FLAGS, 0x800), (.pwrc, Off.PWRC_MODE, 11)] with pending := [.channelPoll] }), by decide +kernel, (by intro c rest h; injection h with h1 h2; subst h1; rfl), rfl⟩

/-- States and operands that meet the hypotheses of StepKeepsQueueWellFormed. -/
theorem wit_step_keeps_queue_well_formed :
  (∃ s : State, ∃ t : State, s.queueOk = true ∧ step s = .next t) :=
  ⟨{ live with pending := [.sysNop 3 65535] }, after (step { live with pending := [.sysNop 3 65535] }), by decide +kernel, rfl⟩

/-- States and operands that meet the hypotheses of OffOrHeldChipStaysStill. -/
theorem wit_off_or_held_chip_stays_still :
  (∃ c : Instr, ∃ s : State, ∃ t : State, s.inert = true ∧ isCold c = false ∧ exec c s = .next t) :=
  ⟨.extIrq 7 false, put live [(.pwrc, Off.MODE_FLAGS, 1)], after (exec (.extIrq 7 false) (put live [(.pwrc, Off.MODE_FLAGS, 1)])), by decide +kernel, by decide +kernel, rfl⟩

/-- States and operands that meet the hypotheses of SysCommandsRespond. -/
theorem wit_sys_commands_respond :
  (∃ s : State, ∃ ch : Nat, ∃ tag : Nat, ∃ c : Cmd, Ready s ch tag 0x0101 c) ∧
  (∃ s : State, ∃ ch : Nat, ∃ tag : Nat, ∃ c : Cmd, Ready s ch tag 0x0102 c) ∧
  (∃ s : State, ∃ ch : Nat, ∃ tag : Nat, ∃ c : Cmd, Ready s ch tag 0x0103 c) ∧
  (∃ s : State, ∃ ch : Nat, ∃ tag : Nat, ∃ c : Cmd, ∃ d : Cmd, Ready s ch tag 0x0104 c ∧ s.sett.cmds.find? (fun x => x.ch == c.ch && x.tag == bytesAt c.body 1 0 && !x.discard) = some d ∧ d.phase = .accepted ∧ d.ord ≠ c.ord) ∧
  (∃ s : State, ∃ ch : Nat, ∃ tag : Nat, ∃ c : Cmd, ∃ d : Cmd, Ready s ch tag 0x0104 c ∧ s.sett.cmds.find? (fun x => x.ch == c.ch && x.tag == bytesAt c.body 1 0 && !x.discard) = some d ∧ d.phase ≠ .accepted) ∧
  (∃ s : State, ∃ ch : Nat, ∃ tag : Nat, ∃ c : Cmd, Ready s ch tag 0x0104 c ∧ s.sett.cmds.find? (fun x => x.ch == c.ch && x.tag == bytesAt c.body 1 0 && !x.discard) = none) ∧
  (∃ s : State, ∃ ch : Nat, ∃ tag : Nat, ∃ c : Cmd, Ready s ch tag 0x0105 c) :=
  ⟨⟨asks (live) 0x0101 [], 0, 7, cmd0 0x0101 [], ready_of (by decide +kernel)⟩,
  ⟨asks (live) 0x0102 [], 0, 7, cmd0 0x0102 [], ready_of (by decide +kernel)⟩,
  ⟨asks (live) 0x0103 [], 0, 7, cmd0 0x0103 [], ready_of (by decide +kernel)⟩,
  ⟨withCmds live [cmd0 0x0104 [5, 0], { cmd0 0x0101 [] with tag := 5, ord := 2 }], 0, 7, cmd0 0x0104 [5, 0], { cmd0 0x0101 [] with tag := 5, ord := 2 }, ready_of (by decide +kernel), by decide +kernel, by decide +kernel, by decide +kernel⟩,
  ⟨withCmds live [cmd0 0x0104 [5, 0], { { cmd0 0x0101 [] with tag := 5, ord := 2 } with phase := .running }], 0, 7, cmd0 0x0104 [5, 0], { { cmd0 0x0101 [] with tag := 5, ord := 2 } with phase := .running }, ready_of (by decide +kernel), by decide +kernel, by decide +kernel⟩,
  ⟨asks (live) 0x0104 [5, 0], 0, 7, cmd0 0x0104 [5, 0], ready_of (by decide +kernel), by decide +kernel⟩,
  ⟨asks (live) 0x0105 [0xFF, 0xFF, 0xFF, 0xFF], 0, 7, cmd0 0x0105 [0xFF, 0xFF, 0xFF, 0xFF], ready_of (by decide +kernel)⟩⟩

/-- States and operands that meet the hypotheses of LeaseCommands. -/
theorem wit_lease_commands_1 :
  (∃ s : State, ∃ ch : Nat, ∃ tag : Nat, ∃ i : Nat, ∃ c : Cmd, Ready s ch tag 0x0B01 c ∧ instBad (bytesAt c.body 1 0) = false ∧ 1 ≤ bytesAt c.body 7 4 ∧ bytesAt c.body 7 4 ≤ 60000 ∧ instDenied c.ch (bytesAt c.body 1 0) = false ∧ (endExpired s).leased (bytesAt c.body 1 0) = false ∧ ((endExpired s).sett.leases.filter (fun l => l.ch == c.ch)).length < 16 ∧ freeSlot (endExpired s) = some i) ∧
  (∃ s : State, ∃ ch : Nat, ∃ tag : Nat, ∃ c : Cmd, Ready s ch tag 0x0B01 c ∧ instBad (bytesAt c.body 1 0) = false ∧ 1 ≤ bytesAt c.body 7 4 ∧ bytesAt c.body 7 4 ≤ 60000 ∧ instDenied c.ch (bytesAt c.body 1 0) = false ∧ (endExpired s).leased (bytesAt c.body 1 0) = true) ∧
  (∃ s : State, ∃ ch : Nat, ∃ tag : Nat, ∃ c : Cmd, Ready s ch tag 0x0B01 c ∧ instBad (bytesAt c.body 1 0) = false ∧ 1 ≤ bytesAt c.body 7 4 ∧ bytesAt c.body 7 4 ≤ 60000 ∧ instDenied c.ch (bytesAt c.body 1 0) = false ∧ (endExpired s).leased (bytesAt c.body 1 0) = false ∧ (16 ≤ ((endExpired s).sett.leases.filter (fun l => l.ch == c.ch)).length ∨ freeSlot (endExpired s) = none)) ∧
  (∃ s : State, ∃ ch : Nat, ∃ tag : Nat, ∃ c : Cmd, ∃ l : Lease, Ready s ch tag 0x0B02 c ∧ bytesAt c.body 0 0 < 32 ∧ 1 ≤ bytesAt c.body 7 4 ∧ bytesAt c.body 7 4 ≤ 60000 ∧ s.sett.leases.find? (fun l => l.slot == bytesAt c.body 0 0) = some l ∧ s.settTime < l.expiry ∧ l.ch = c.ch) ∧
  (∃ s : State, ∃ ch : Nat, ∃ tag : Nat, ∃ c : Cmd, ∃ l : Lease, Ready s ch tag 0x0B02 c ∧ bytesAt c.body 0 0 < 32 ∧ 1 ≤ bytesAt c.body 7 4 ∧ bytesAt c.body 7 4 ≤ 60000 ∧ s.sett.leases.find? (fun l => l.slot == bytesAt c.body 0 0) = some l ∧ s.settTime < l.expiry ∧ l.ch ≠ c.ch) ∧
  (∃ s : State, ∃ ch : Nat, ∃ tag : Nat, ∃ c : Cmd, ∃ l : Lease, Ready s ch tag 0x0B03 c ∧ bytesAt c.body 0 0 < 32 ∧ s.sett.leases.find? (fun l => l.slot == bytesAt c.body 0 0) = some l ∧ s.settTime < l.expiry ∧ l.ch = c.ch) ∧
  (∃ s : State, ∃ ch : Nat, ∃ tag : Nat, ∃ c : Cmd, ∃ l : Lease, Ready s ch tag 0x0B03 c ∧ bytesAt c.body 0 0 < 32 ∧ s.sett.leases.find? (fun l => l.slot == bytesAt c.body 0 0) = some l ∧ s.settTime < l.expiry ∧ l.ch ≠ c.ch) ∧
  (∃ s : State, ∃ ch : Nat, ∃ tag : Nat, ∃ c : Cmd, bytesAt c.body 0 0 < 32 ∧ 1 ≤ bytesAt c.body 7 4 ∧ bytesAt c.body 7 4 ≤ 60000 ∧ (∀ l, s.sett.leases.find? (fun l => l.slot == bytesAt c.body 0 0) = some l → l.expiry ≤ s.settTime) ∧ Ready s ch tag 0x0B02 c) :=
  ⟨⟨asks (live) 0x0B01 (leBytes 4 0x2A9 ++ leBytes 4 1), 0, 7, 0, cmd0 0x0B01 (leBytes 4 0x2A9 ++ leBytes 4 1), ready_of (by decide +kernel), by decide +kernel, by decide +kernel, by decide +kernel, by decide +kernel, by decide +kernel, by decide +kernel, by decide +kernel⟩,
  ⟨asks ({ live with sett := { live.sett with leases := [⟨0, 0x54A, 1, 9⟩] } }) 0x0B01 (leBytes 4 0x54A ++ leBytes 4 60000), 0, 7, cmd0 0x0B01 (leBytes 4 0x54A ++ leBytes 4 60000), ready_of (by decide +kernel), by decide +kernel, by decide +kernel, by decide +kernel, by decide +kernel, by decide +kernel⟩,
  ⟨asks ({ live with sett := { live.sett with leases := (List.range 16).map (fun i => ⟨i, i, 0, 5⟩) } }) 0x0B01 (leBytes 4 0x54A ++ leBytes 4 60000), 0, 7, cmd0 0x0B01 (leBytes 4 0x54A ++ leBytes 4 60000), ready_of (by decide +kernel), by decide +kernel, by decide +kernel, by decide +kernel, by decide +kernel, by decide +kernel, by decide +kernel⟩,
  ⟨asks ({ live with sett := { live.sett with leases := [⟨31, 0x4A1, 0, 1⟩] } }) 0x0B02 (leBytes 4 31 ++ leBytes 4 60000), 0, 7, cmd0 0x0B02 (leBytes 4 31 ++ leBytes 4 60000), ⟨31, 0x4A1, 0, 1⟩, ready_of (by decide +kernel), by decide +kernel, by decide +kernel, by decide +kernel, by decide +kernel, by decide +kernel, by decide +kernel⟩,
  ⟨asks ({ live with sett := { live.sett with leases := [⟨31, 0x4A1, 1, 1⟩] } }) 0x0B02 (leBytes 4 31 ++ leBytes 4 1), 0, 7, cmd0 0x0B02 (leBytes 4 31 ++ leBytes 4 1), ⟨31, 0x4A1, 1, 1⟩, ready_of (by decide +kernel), by decide +kernel, by decide +kernel, by decide +kernel, by decide +kernel, by decide +kernel, by decide +kernel⟩,
  ⟨asks ({ live with sett := { live.sett with leases := [⟨31, 0x4A1, 0, 1⟩] } }) 0x0B03 [31], 0, 7, cmd0 0x0B03 [31], ⟨31, 0x4A1, 0, 1⟩, ready_of (by decide +kernel), by decide +kernel, by decide +kernel, by decide +kernel, by decide +kernel⟩,
  ⟨asks ({ live with sett := { live.sett with leases := [⟨31, 0x4A1, 1, 1⟩] } }) 0x0B03 [31], 0, 7, cmd0 0x0B03 [31], ⟨31, 0x4A1, 1, 1⟩, ready_of (by decide +kernel), by decide +kernel, by decide +kernel, by decide +kernel, by decide +kernel⟩,
  ⟨asks (live) 0x0B02 (leBytes 4 31 ++ leBytes 4 1), 0, 7, cmd0 0x0B02 (leBytes 4 31 ++ leBytes 4 1), by decide +kernel, by decide +kernel, by decide +kernel, (by intro l h; cases h), ready_of (by decide +kernel)⟩⟩

/-- States and operands that meet the hypotheses of LeaseCommands. -/
theorem wit_lease_commands_2 :
  (∃ s : State, ∃ ch : Nat, ∃ tag : Nat, ∃ c : Cmd, bytesAt c.body 0 0 < 32 ∧ 1 ≤ bytesAt c.body 7 4 ∧ bytesAt c.body 7 4 ≤ 60000 ∧ (∀ l, s.sett.leases.find? (fun l => l.slot == bytesAt c.body 0 0) = some l → l.expiry ≤ s.settTime) ∧ Ready s ch tag 0x0B03 c) :=
  ⟨asks ({ live with sett := { live.sett with leases := [⟨31, 0x4A1, 0, 0⟩] } }) 0x0B03 (leBytes 4 31 ++ leBytes 4 1), 0, 7, cmd0 0x0B03 (leBytes 4 31 ++ leBytes 4 1), by decide +kernel, by decide +kernel, by decide +kernel, (by intro l h; injection h with h; subst h; decide +kernel), ready_of (by decide +kernel)⟩

/-- States and operands that meet the hypotheses of ChannelsAreRungPolledAndServed. -/
theorem wit_channels_are_rung_polled_and_served_1 :
  (∃ s : State, ∃ who : Agent, ∃ ch : Nat, ∃ tag : Nat, doorbellAdmitted who ch = true ∧ tag < 65536 ∧ s.chState ch ≠ 0 ∧ s.serving = true ∧ ch < 8) ∧
  (∃ s : State, ∃ who : Agent, ∃ ch : Nat, doorbellAdmitted who ch = true ∧ s.serving = true ∧ s.chState ch ≠ 0 ∧ s.chState ch ≠ 2) ∧
  (∃ who : Agent, ∃ ch : Nat, doorbellAdmitted who ch = false) ∧
  (∃ s : State, s.serving = true) ∧
  (∃ s : State, ∃ ch : Nat, s.serving = true ∧ acceptTurn s = some ch) ∧
  (∃ s : State, acceptTurn s = none) ∧
  (∃ s : State, mi2cUp s = true ∧ s.serving = true ∧ s.chState 2 ≠ 2) ∧
  (∃ s : State, ∃ tag : Nat, mi2cUp s = true ∧ tag < 65536) :=
  ⟨⟨live, .core 271 .m, 0, 65535, by decide +kernel, by decide +kernel, by decide +kernel, by decide +kernel, by decide +kernel⟩,
  ⟨live, .core 271 .h, 1, by decide +kernel, by decide +kernel, by decide +kernel, by decide +kernel⟩,
  ⟨.core 0 .k, 1, by decide +kernel⟩,
  ⟨live, by decide +kernel⟩,
  ⟨{ live with sett := { live.sett with turn := 7, chans := [(2, { reqSeen := 1 })] } }, 2, by decide +kernel, by decide +kernel⟩,
  ⟨live, by decide +kernel⟩,
  ⟨live, by decide +kernel, by decide +kernel, by decide +kernel⟩,
  ⟨live, 65535, by decide +kernel, by decide +kernel⟩⟩

/-- States and operands that meet the hypotheses of ChannelsAreRungPolledAndServed. -/
theorem wit_channels_are_rung_polled_and_served_2 :
  (∃ s : State, twinUp s = true ∧ s.pf0.d3 = false ∧ s.serving = true ∧ s.chState 3 ≠ 0 ∧ s.chState 3 ≠ 2) :=
  ⟨put live [(.tp, Off.TP_LINK, 1), (.sett, Off.CHAN_STATE + 24, 1)], by decide +kernel, by decide +kernel, by decide +kernel, by decide +kernel, by decide +kernel⟩

/-- States and operands that meet the hypotheses of BadRingIndexFaultsChannel. -/
theorem wit_bad_ring_index_faults_channel :
  (∃ s : State, ∃ ch : Nat, s.chState ch ≠ 1) ∧
  (∃ s : State, ∃ ch : Nat, s.chState ch = 1 ∧ ch < 8 ∧ (hdrGet s ch 0x10 ≥ 32 ∨ hdrGet s ch 0x1C ≥ 32 ∨ hdrGet s ch 0x24 ≥ 96 ∨
      (hdrGet s ch 0x10 + 32 - (s.chan ch).reqCons) % 32 > 16 ∨
      ((s.chan ch).rspProd + 32 - hdrGet s ch 0x1C) % 32 > ((s.chan ch).rspProd + 32 - (s.chan ch).rspSeen) % 32 ∨
      ((s.chan ch).evtProd + 96 - hdrGet s ch 0x24) % 96 > ((s.chan ch).evtProd + 96 - (s.chan ch).evtSeen) % 96)) ∧
  (∃ s : State, ∃ ch : Nat, s.chState ch = 1 ∧ (¬ (hdrGet s ch 0x10 ≥ 32 ∨ hdrGet s ch 0x1C ≥ 32 ∨ hdrGet s ch 0x24 ≥ 96 ∨
      (hdrGet s ch 0x10 + 32 - (s.chan ch).reqCons) % 32 > 16 ∨
      ((s.chan ch).rspProd + 32 - hdrGet s ch 0x1C) % 32 > ((s.chan ch).rspProd + 32 - (s.chan ch).rspSeen) % 32 ∨
      ((s.chan ch).evtProd + 96 - hdrGet s ch 0x24) % 96 > ((s.chan ch).evtProd + 96 - (s.chan ch).evtSeen) % 96))) :=
  ⟨⟨live, 3, by decide +kernel⟩,
  ⟨(live.setMemByte (mboxBase 2 + 0x10) 17), 2, by decide +kernel, by decide +kernel, by decide +kernel⟩,
  ⟨(live.setMemByte (mboxBase 2 + 0x10) 16), 2, by decide +kernel, by decide +kernel⟩⟩

/-- States and operands that meet the hypotheses of SettTimedEventsAndMi2c. -/
theorem wit_sett_timed_events_and_mi2c :
  (∃ s : State, s.rf .sett Off.SETT_STATE 1 0 = 1 ∧ s.modeFlag 8 = false ∧ s.modeFlag 11 = false) ∧
  (∃ s : State, ∃ slot : Nat, ∃ l : Lease, s.sett.leases.find? (fun l => l.slot == slot) = some l) ∧
  (∃ s : State, ∃ inst : Nat, ∃ r : Relock, s.sett.relocks.find? (fun r => r.inst == inst) = some r) ∧
  (∃ s : State, ∃ off : Nat, ∃ d : List Byte, mi2cUp s = true ∧ off + d.length ≤ 0x2000) ∧
  (∃ s : State, mi2cUp s = true) ∧
  (∃ s : State, ∃ ch : Nat, ∃ tag : Nat, ∃ c : Cmd, Ready s ch tag 0x0106 c ∧ (bytesAt c.body 0 0 = 1 ∨ bytesAt c.body 0 0 = 3) ∧ bytesAt c.body 1 1 = 1 ∧ s.chState (bytesAt c.body 0 0) = 0 ∧ s.modeFlag 2 = false ∧ s.modeFlag 10 = false ∧ (bytesAt c.body 0 0 = 3 → s.pwr.tpRoot = false)) ∧
  (∃ s : State, ∃ ch : Nat, ∃ tag : Nat, ∃ c : Cmd, Ready s ch tag 0x0106 c ∧ (bytesAt c.body 0 0 = 1 ∨ bytesAt c.body 0 0 = 3) ∧ bytesAt c.body 1 1 = 0 ∧ s.chState (bytesAt c.body 0 0) ≠ 0) ∧
  (∃ s : State, ∃ ch : Nat, ∃ tag : Nat, ∃ c : Cmd, Ready s ch tag 0x0106 c ∧ (bytesAt c.body 0 0 = 1 ∨ bytesAt c.body 0 0 = 3) ∧ bytesAt c.body 1 1 < 2 ∧ s.chState (bytesAt c.body 0 0) = bytesAt c.body 1 1) :=
  ⟨⟨live, by decide +kernel, by decide +kernel, by decide +kernel⟩,
  ⟨{ live with sett := { live.sett with leases := [⟨31, 0x4A1, 1, 1⟩] } }, 31, ⟨31, 0x4A1, 1, 1⟩, by decide +kernel⟩,
  ⟨{ live with sett := { live.sett with relocks := [⟨0x4A1, 31, 0, some 3⟩] } }, 0x4A1, ⟨0x4A1, 31, 0, some 3⟩, by decide +kernel⟩,
  ⟨live, 0x1FFF, [0xA5], by decide +kernel, by decide +kernel⟩,
  ⟨live, by decide +kernel⟩,
  ⟨asks (live) 0x0106 [3, 1], 0, 7, cmd0 0x0106 [3, 1], ready_of (by decide +kernel), by decide +kernel, by decide +kernel, by decide +kernel, by decide +kernel, by decide +kernel, by decide +kernel⟩,
  ⟨asks (live) 0x0106 [1, 0], 0, 7, cmd0 0x0106 [1, 0], ready_of (by decide +kernel), by decide +kernel, by decide +kernel, by decide +kernel⟩,
  ⟨asks (live) 0x0106 [1, 1], 0, 7, cmd0 0x0106 [1, 1], ready_of (by decide +kernel), by decide +kernel, by decide +kernel, by decide +kernel⟩⟩

/-- States and operands that meet the hypotheses of ResponseReachesItsSlotAlone. -/
theorem wit_response_reaches_its_slot_alone :
  (∃ s : State, ∃ c : Cmd, c.discard = false ∧ c.ch < 4 ∧ s.chState c.ch = 1 ∧ 1 ≤ s.outstanding c.ch ∧ c.ch < 2) ∧
  (∃ s : State, ∃ c : Cmd, c.discard = false ∧ c.ch < 4 ∧ s.chState c.ch = 1 ∧ 1 ≤ s.outstanding c.ch ∧ ∃ b : Blk, ∃ o : Nat, b.base + o ≠ Blk.sett.base + (Off.CHAN_STATE + 8 * c.ch) ∧ (c.ch < 2 → b.base + o ≠ Blk.idist.base + (Off.SRC + 8 * (8 + c.ch)))) ∧
  (∃ s : State, ∃ c : Cmd, c.discard = false ∧ c.ch < 4 ∧ s.chState c.ch = 1 ∧ 1 ≤ s.outstanding c.ch ∧ ∃ x : Nat, (x < mboxBase c.ch ∨ mboxBase c.ch + 0x2000 ≤ x)) ∧
  (∃ s : State, ∃ c : Cmd, c.discard = false ∧ c.ch < 4 ∧ s.chState c.ch = 1 ∧ 1 ≤ s.outstanding c.ch ∧ s.tagsGood) :=
  ⟨⟨asks live 0x0101 [], cmd0 0x0101 [], by decide +kernel, by decide +kernel, by decide +kernel, by decide +kernel, by decide +kernel⟩,
  ⟨asks live 0x0101 [], cmd0 0x0101 [], by decide +kernel, by decide +kernel, by decide +kernel, by decide +kernel, .sett, Off.CHAN_STATE + 8, by decide +kernel, by decide +kernel⟩,
  ⟨asks live 0x0101 [], cmd0 0x0101 [], by decide +kernel, by decide +kernel, by decide +kernel, by decide +kernel, mboxBase 0 + 0x2000, by decide +kernel⟩,
  ⟨asks live 0x0101 [], cmd0 0x0101 [], by decide +kernel, by decide +kernel, by decide +kernel, by decide +kernel, (fun _ => ⟨rfl, rfl⟩)⟩⟩

/-- States and operands that meet the hypotheses of FirmwareCommands. -/
theorem wit_firmware_commands_1 :
  (∃ s : State, ∃ ch : Nat, ∃ tag : Nat, ∃ c : Cmd, Ready s ch tag 0x0801 c) ∧
  (∃ s : State, ∃ ch : Nat, ∃ tag : Nat, ∃ c : Cmd, Ready s ch tag 0x0802 c ∧ fwBusy s c.ch = false ∧ bufOk s c = true ∧ bytesAt c.body 19 16 % 4096 = 0 ∧ bytesAt c.body 19 16 + bufLen c ≤ 0x1000000 ∧ (bytesAt c.body 19 16 ≠ 0 → s.sett.fw ≠ none) ∧ bufPoisoned s (bufPa c) (bufLen c) = none) ∧
  (∃ s : State, ∃ ch : Nat, ∃ tag : Nat, ∃ c : Cmd, Ready s ch tag 0x0803 c ∧ fwBusy s c.ch = false ∧ s.sett.fw.isSome = true) ∧
  (∃ s : State, ∃ ch : Nat, ∃ tag : Nat, ∃ c : Cmd, ∃ f : FwSession, Ready s ch tag 0x0804 c ∧ fwBusy s c.ch = false ∧ s.sett.fw = some f ∧ f.verified = true ∧ jrnHasRoom s = true) ∧
  (∃ s : State, ∃ ch : Nat, ∃ tag : Nat, ∃ c : Cmd, Ready s ch tag 0x0805 c ∧ fwBusy s c.ch = false ∧ s.sett.fw.isSome = true) ∧
  (∃ s : State, ∃ ch : Nat, ∃ tag : Nat, ∃ c : Cmd, fwBusy s c.ch = true ∧ Ready s ch tag 0x0802 c) ∧
  (∃ s : State, ∃ ch : Nat, ∃ tag : Nat, ∃ c : Cmd, fwBusy s c.ch = true ∧ Ready s ch tag 0x0803 c) ∧
  (∃ s : State, ∃ ch : Nat, ∃ tag : Nat, ∃ c : Cmd, fwBusy s c.ch = true ∧ Ready s ch tag 0x0804 c) :=
  ⟨⟨asks (live) 0x0801 [], 0, 7, cmd0 0x0801 [], ready_of (by decide +kernel)⟩,
  ⟨asks ({ live with sett := { live.sett with fw := some ⟨0, 0x1000, true⟩ } }) 0x0802 (leBytes 8 0 ++ leBytes 4 0x1000 ++ leBytes 4 0 ++ leBytes 4 0xFFF000), 0, 7, cmd0 0x0802 (leBytes 8 0 ++ leBytes 4 0x1000 ++ leBytes 4 0 ++ leBytes 4 0xFFF000), ready_of (by decide +kernel), by decide +kernel, by decide +kernel, by decide +kernel, by decide +kernel, by decide +kernel, by decide +kernel⟩,
  ⟨asks ({ live with sett := { live.sett with fw := some ⟨0, 0x1000, true⟩ } }) 0x0803 [], 0, 7, cmd0 0x0803 [], ready_of (by decide +kernel), by decide +kernel, by decide +kernel⟩,
  ⟨asks ({ live with sett := { live.sett with fw := some ⟨0, 0x1000, true⟩ } }) 0x0804 [], 0, 7, cmd0 0x0804 [], ⟨0, 0x1000, true⟩, ready_of (by decide +kernel), by decide +kernel, by decide +kernel, by decide +kernel, by decide +kernel⟩,
  ⟨asks ({ live with sett := { live.sett with fw := some ⟨0, 0x1000, true⟩ } }) 0x0805 [], 0, 7, cmd0 0x0805 [], ready_of (by decide +kernel), by decide +kernel, by decide +kernel⟩,
  ⟨asks ({ live with sett := { live.sett with fw := some ⟨2, 0x1000, true⟩ } }) 0x0802 [], 0, 7, cmd0 0x0802 [], by decide +kernel, ready_of (by decide +kernel)⟩,
  ⟨asks ({ live with sett := { live.sett with fw := some ⟨2, 0x1000, true⟩ } }) 0x0803 [], 0, 7, cmd0 0x0803 [], by decide +kernel, ready_of (by decide +kernel)⟩,
  ⟨asks ({ live with sett := { live.sett with fw := some ⟨2, 0x1000, true⟩ } }) 0x0804 [], 0, 7, cmd0 0x0804 [], by decide +kernel, ready_of (by decide +kernel)⟩⟩

/-- States and operands that meet the hypotheses of FirmwareCommands. -/
theorem wit_firmware_commands_2 :
  (∃ s : State, ∃ ch : Nat, ∃ tag : Nat, ∃ c : Cmd, fwBusy s c.ch = true ∧ Ready s ch tag 0x0805 c) ∧
  (∃ s : State, ∃ ch : Nat, ∃ tag : Nat, ∃ c : Cmd, s.sett.fw = none ∧ Ready s ch tag 0x0803 c) ∧
  (∃ s : State, ∃ ch : Nat, ∃ tag : Nat, ∃ c : Cmd, s.sett.fw = none ∧ Ready s ch tag 0x0804 c) ∧
  (∃ s : State, ∃ ch : Nat, ∃ tag : Nat, ∃ c : Cmd, s.sett.fw = none ∧ Ready s ch tag 0x0805 c) :=
  ⟨⟨asks ({ live with sett := { live.sett with fw := some ⟨2, 0x1000, true⟩ } }) 0x0805 [], 0, 7, cmd0 0x0805 [], by decide +kernel, ready_of (by decide +kernel)⟩,
  ⟨asks (live) 0x0803 [], 0, 7, cmd0 0x0803 [], by decide +kernel, ready_of (by decide +kernel)⟩,
  ⟨asks (live) 0x0804 [], 0, 7, cmd0 0x0804 [], by decide +kernel, ready_of (by decide +kernel)⟩,
  ⟨asks (live) 0x0805 [], 0, 7, cmd0 0x0805 [], by decide +kernel, ready_of (by decide +kernel)⟩⟩

/-- States and operands that meet the hypotheses of JournalAndFlashEvents. -/
theorem wit_journal_and_flash_events_1 :
  (∃ s : State, ∃ ch : Nat, ∃ tag : Nat, ∃ c : Cmd, Ready s ch tag 0x0901 c) ∧
  (∃ s : State, ∃ ch : Nat, ∃ tag : Nat, ∃ c : Cmd, Ready s ch tag 0x0902 c ∧ bufOk s c = true ∧ goneSeq s (bytesAt c.body 23 16) = true) ∧
  (∃ s : State, ∃ ch : Nat, ∃ tag : Nat, ∃ c : Cmd, Ready s ch tag 0x0902 c ∧ bufOk s c = true ∧ ∃ bytes, ∃ q, ∃ stop, goneSeq s (bytesAt c.body 23 16) = false ∧ jrnCopy c s = (bytes, some q, stop)) ∧
  (∃ s : State, ∃ ch : Nat, ∃ tag : Nat, ∃ c : Cmd, Ready s ch tag 0x0902 c ∧ bufOk s c = true ∧ ∃ bytes, ∃ stop, goneSeq s (bytesAt c.body 23 16) = false ∧ jrnCopy c s = (bytes, none, stop)) ∧
  (∃ s : State, ∃ ch : Nat, ∃ tag : Nat, ∃ c : Cmd, Ready s ch tag 0x0903 c ∧ s.flash.appends = [] ∧ jrnHasRoom s = true) ∧
  (∃ s : State, ∃ ch : Nat, ∃ tag : Nat, ∃ c : Cmd, Ready s ch tag 0x0904 c ∧ s.flash.compact = none) ∧
  (∃ s : State, ∃ ch : Nat, ∃ tag : Nat, ∃ c : Cmd, Ready s ch tag 0x0904 c ∧ s.flash.compact ≠ none) ∧
  (∃ s : State, s.flash.compact = none ∧ 192 ≤ blocksInUse s ∧ s.modeFlag 9 = false ∧ s.sett.holdUp = false ∧ s.rf .sett Off.SETT_STATE 1 0 = 1) :=
  ⟨⟨asks (live) 0x0901 [], 0, 7, cmd0 0x0901 [], ready_of (by decide +kernel)⟩,
  ⟨asks ({ live with flash := { live.flash with blocks := [⟨1, 1, true, [⟨5, 0, false, .client 1 [7], 1, true⟩]⟩] } }) 0x0902 (leBytes 8 0 ++ leBytes 4 0x1000 ++ leBytes 4 0 ++ leBytes 8 4 ++ [0]), 0, 7, cmd0 0x0902 (leBytes 8 0 ++ leBytes 4 0x1000 ++ leBytes 4 0 ++ leBytes 8 4 ++ [0]), ready_of (by decide +kernel), by decide +kernel, by decide +kernel⟩,
  ⟨asks ({ live with flash := { live.flash with blocks := [⟨1, 1, true, [⟨5, 0, false, .client 1 [7], 1, true⟩]⟩] } }) 0x0902 (leBytes 8 0 ++ leBytes 4 0x1000 ++ leBytes 4 0 ++ leBytes 8 5 ++ [0]), 0, 7, cmd0 0x0902 (leBytes 8 0 ++ leBytes 4 0x1000 ++ leBytes 4 0 ++ leBytes 8 5 ++ [0]), ready_of (by decide +kernel), by decide +kernel, (jrnCopy (cmd0 0x0902 (leBytes 8 0 ++ leBytes 4 0x1000 ++ leBytes 4 0 ++ leBytes 8 5 ++ [0])) (asks ({ live with flash := { live.flash with blocks := [⟨1, 1, true, [⟨5, 0, false, .client 1 [7], 1, true⟩]⟩] } }) 0x0902 (leBytes 8 0 ++ leBytes 4 0x1000 ++ leBytes 4 0 ++ leBytes 8 5 ++ [0]))).1, 5, (jrnCopy (cmd0 0x0902 (leBytes 8 0 ++ leBytes 4 0x1000 ++ leBytes 4 0 ++ leBytes 8 5 ++ [0])) (asks ({ live with flash := { live.flash with blocks := [⟨1, 1, true, [⟨5, 0, false, .client 1 [7], 1, true⟩]⟩] } }) 0x0902 (leBytes 8 0 ++ leBytes 4 0x1000 ++ leBytes 4 0 ++ leBytes 8 5 ++ [0]))).2.2, by decide +kernel, by decide +kernel⟩,
  ⟨asks ({ live with flash := { live.flash with blocks := [⟨1, 1, true, [⟨5, 0, false, .client 1 [7], 1, true⟩]⟩] } }) 0x0902 (leBytes 8 0 ++ leBytes 4 0x1000 ++ leBytes 4 0 ++ leBytes 8 6 ++ [0]), 0, 7, cmd0 0x0902 (leBytes 8 0 ++ leBytes 4 0x1000 ++ leBytes 4 0 ++ leBytes 8 6 ++ [0]), ready_of (by decide +kernel), by decide +kernel, (jrnCopy (cmd0 0x0902 (leBytes 8 0 ++ leBytes 4 0x1000 ++ leBytes 4 0 ++ leBytes 8 6 ++ [0])) (asks ({ live with flash := { live.flash with blocks := [⟨1, 1, true, [⟨5, 0, false, .client 1 [7], 1, true⟩]⟩] } }) 0x0902 (leBytes 8 0 ++ leBytes 4 0x1000 ++ leBytes 4 0 ++ leBytes 8 6 ++ [0]))).1, (jrnCopy (cmd0 0x0902 (leBytes 8 0 ++ leBytes 4 0x1000 ++ leBytes 4 0 ++ leBytes 8 6 ++ [0])) (asks ({ live with flash := { live.flash with blocks := [⟨1, 1, true, [⟨5, 0, false, .client 1 [7], 1, true⟩]⟩] } }) 0x0902 (leBytes 8 0 ++ leBytes 4 0x1000 ++ leBytes 4 0 ++ leBytes 8 6 ++ [0]))).2.2, by decide +kernel, by decide +kernel⟩,
  ⟨asks (live) 0x0903 (List.replicate 112 1), 0, 7, cmd0 0x0903 (List.replicate 112 1), ready_of (by decide +kernel), by decide +kernel, by decide +kernel⟩,
  ⟨asks (live) 0x0904 [], 0, 7, cmd0 0x0904 [], ready_of (by decide +kernel), by decide +kernel⟩,
  ⟨asks ({ live with flash := { live.flash with compact := some ⟨1, [], none⟩ } }) 0x0904 [], 0, 7, cmd0 0x0904 [], ready_of (by decide +kernel), by decide +kernel⟩,
  ⟨{ live with flash := { live.flash with blocks := List.replicate 192 ⟨1, 1, true, []⟩ } }, by decide +kernel, by decide +kernel, by decide +kernel, by decide +kernel, by decide +kernel⟩⟩

/-- States and operands that meet the hypotheses of JournalAndFlashEvents. -/
theorem wit_journal_and_flash_events_2 :
  (∃ s : State, ∃ e : FlashErase, s.flash.erase = some e ∧ e.suspended = false ∧ s.sett.holdUp = false) ∧
  (∃ s : State, ∃ e : FlashErase, s.flash.erase = some e ∧ e.suspended = true ∧ s.flash.queue = [] ∧ s.sett.holdUp = false) ∧
  (∃ s : State, ∃ t : State, ∃ r : JReq, ∃ q : List JReq, mayWrite s = true ∧ s.sett.holdUp = false ∧ s.flash.queue = r :: q ∧ r.owner = none ∧ r.snap = false ∧ commitRec r (suspendErase s) = some t) ∧
  (∃ s : State, s.rf .sett Off.SETT_STATE 1 0 = 0) ∧
  (∃ s : State, s.rf .sett Off.SETT_STATE 1 0 ≠ 0) :=
  ⟨⟨{ live with flash := { live.flash with erase := some ⟨16, false, 0⟩ } }, ⟨16, false, 0⟩, by decide +kernel, by decide +kernel, by decide +kernel⟩,
  ⟨{ live with flash := { live.flash with erase := some ⟨16, true, 0⟩ } }, ⟨16, true, 0⟩, by decide +kernel, by decide +kernel, by decide +kernel, by decide +kernel⟩,
  ⟨{ live with flash := { live.flash with queue := [⟨.pwrFail, false, 0, none, 0⟩] } }, (commitRec ⟨.pwrFail, false, 0, none, 0⟩ (suspendErase { live with flash := { live.flash with queue := [⟨.pwrFail, false, 0, none, 0⟩] } })).getD live, ⟨.pwrFail, false, 0, none, 0⟩, [], by decide +kernel, by decide +kernel, by decide +kernel, by decide +kernel, by decide +kernel, by decide +kernel⟩,
  ⟨State.reset, by decide +kernel⟩,
  ⟨live, by decide +kernel⟩⟩

/-- A load held in the speculation shadow. -/
def heldLoad : RobEnt := { robOf ins .h 0 0 with
  isLoad := true, held := true, size := 8, n1 := 8, pa := 0x1000, va := 0x1000 }

/-- What a walk, a translation and a mapping end in. -/
def leafOf (r : WalkRes) : TlbEnt := match r with | .leaf e => e | _ => {}
def isLeaf (r : WalkRes) : Bool := match r with | .leaf _ => true | _ => false
theorem leaf_of {r : WalkRes} (h : isLeaf r = true) : r = .leaf (leafOf r) := by cases r <;> simp_all [isLeaf, leafOf]
def walkFault (r : WalkRes) : Nat × Word := match r with | .fault c t => (c, t) | _ => (0, 0)
def isFault (r : WalkRes) : Bool := match r with | .fault _ _ => true | _ => false
theorem walkf_of {r : WalkRes} (h : isFault r = true) : r = .fault (walkFault r).1 (walkFault r).2 := by
  cases r <;> simp_all [isFault, walkFault]
def walkBad (r : WalkRes) : Nat := match r with | .bad a => a | _ => 0
def isBad (r : WalkRes) : Bool := match r with | .bad _ => true | _ => false
theorem walkb_of {r : WalkRes} (h : isBad r = true) : r = .bad (walkBad r) := by cases r <;> simp_all [isBad, walkBad]
def xlOf (r : Xl × State) : Nat × MTy × Option Nat := match r.1 with | .ok a t l => (a, t, l) | _ => (0, .wb, none)
def xlOk (r : Xl × State) : Bool := match r.1 with | .ok _ _ _ => true | _ => false
theorem xl_of {r : Xl × State} (h : xlOk r = true) : r = (.ok (xlOf r).1 (xlOf r).2.1 (xlOf r).2.2, r.2) := by
  obtain ⟨a, s⟩ := r; cases a <;> simp_all [xlOk, xlOf]
def adOf (r : MapRes × State) : Option Nat × Word := match r.1 with | .ad l v => (l, v) | _ => (none, 0)
def isAd (r : MapRes × State) : Bool := match r.1 with | .ad _ _ => true | _ => false
theorem ad_of {r : MapRes × State} (h : isAd r = true) : r = (.ad (adOf r).1 (adOf r).2, r.2) := by
  obtain ⟨a, s⟩ := r; cases a <;> simp_all [isAd, adOf]

/-- States and operands that meet the hypotheses of ControlFlowTrapsAndInterrupts. -/
theorem wit_control_flow_traps_and_interrupts_1 :
  (∃ s : State, ∃ i : Ins, mayRun s i = true ∧ (s.core i.pcn).pred.btbAt i.pc = none) ∧
  (∃ s : State, ∃ i : Ins, atHead s i = true ∧ (enabledPending (complete i 0 s) i.pcn).isEmpty = true) ∧
  (∃ s : State, ∃ i : Ins, atHead s i = true ∧ (enabledPending (complete i 0 s) i.pcn).isEmpty = false) ∧
  (∃ s : State, ∃ p : Nat, ∃ n : Nat, (s.core p).pauseUntil = some n ∧ (enabledPending s p).isEmpty = true) ∧
  (∃ s : State, ∃ p : Nat, ∃ n : Nat, (s.core p).pauseUntil = some n ∧ (enabledPending s p).isEmpty = false) ∧
  (∃ s : State, ∃ i : Ins, atHead s i = true ∧ ((s.core i.pcn).lvl = .u ∨ raermienBad i.bits = true)) ∧
  (∃ s : State, ∃ i : Ins, atHead s i = true ∧ (s.core i.pcn).lvl ≠ .u ∧ raermienBad i.bits = false) ∧
  (∃ s : State, ∃ p : Nat, ∃ l : Lvl, ∃ k : Nat, ∃ rest : List (Lvl × Nat), s.runs p = true ∧ nonRevocable (s.core p) = false ∧ takeable s p = (l, k) :: rest) :=
  ⟨⟨cpu .u, ins, by decide +kernel, by decide +kernel⟩,
  ⟨cpu .h, ins, by decide +kernel, by decide +kernel⟩,
  ⟨(cpu .h (fun c => { c with csr := [(0x6C1, 1), (0x6CC, 0)] })), ins, by decide +kernel, by decide +kernel⟩,
  ⟨(cpu .h (fun c => { c with pauseUntil := some 5 })), 271, 5, by decide +kernel, by decide +kernel⟩,
  ⟨(cpu .h (fun c => { c with pauseUntil := some 5, csr := [(0x6C1, 1), (0x6CC, 0)] })), 271, 5, by decide +kernel, by decide +kernel⟩,
  ⟨cpu .u, ins, by decide +kernel, by decide +kernel⟩,
  ⟨cpu .k, ins, by decide +kernel, by decide +kernel, by decide +kernel⟩,
  ⟨(cpu .u (fun c => { c with csr := [(0x5C1, 1), (0x5CC, 0)] })), 271, .k, 0, [], by decide +kernel, by decide +kernel, by decide +kernel⟩⟩

/-- States and operands that meet the hypotheses of ControlFlowTrapsAndInterrupts. -/
theorem wit_control_flow_traps_and_interrupts_2 :
  (∃ s : State, ∃ p : Nat, ∃ l : Lvl, (s.core p).on = true ∧ l ≠ .u ∧ ((s.core p).csr' (csrBase l + 0xC)).toNat < 2 ^ 64 - 1) :=
  ⟨(cpu .u (fun c => { c with csr := [(0x5CC, 100)] })), 271, .k, by decide +kernel, by decide +kernel, by decide +kernel⟩

/-- States and operands that meet the hypotheses of WaitSleepAndWake. -/
theorem wit_wait_sleep_and_wake_1 :
  (∃ s : State, ∃ i : Ins, atHead s i = true ∧ ((s.core i.pcn).lvl = .u ∨ raermienBad i.bits = true)) ∧
  (∃ s : State, ∃ i : Ins, atHead s i = true ∧ (s.core i.pcn).lvl = .k ∧ (s.core i.pcn).csrF 0x6C0 12 12 = 1 ∧ raermienBad i.bits = false) ∧
  (∃ s : State, ∃ i : Ins, atHead s i = true ∧ (s.core i.pcn).lvl ≠ .u ∧ raermienBad i.bits = false ∧ ((s.core i.pcn).lvl = .k → (s.core i.pcn).csrF 0x6C0 12 12 ≠ 1) ∧ sbEmpty (s.core i.pcn) i.seq = true ∧ (s.core i.pcn).wc = [] ∧ (s.core i.pcn).mrs = [] ∧ (enabledPending s i.pcn).isEmpty = false) ∧
  (∃ s : State, ∃ i : Ins, atHead s i = true ∧ (s.core i.pcn).lvl ≠ .u ∧ raermienBad i.bits = false ∧ ((s.core i.pcn).lvl = .k → (s.core i.pcn).csrF 0x6C0 12 12 ≠ 1) ∧ sbEmpty (s.core i.pcn) i.seq = true ∧ (s.core i.pcn).wc = [] ∧ (s.core i.pcn).mrs = [] ∧ (enabledPending s i.pcn).isEmpty = true) ∧
  (∃ s : State, ∃ p : Nat, ∃ st : Nat, (s.core p).sleep = .entering st ∧ ∃ w, ∃ l, enabledPending s p = w :: l) ∧
  (∃ s : State, ∃ p : Nat, ∃ st : Nat, (s.core p).sleep = .entering st ∧ enabledPending s p = [] ∧ st = 0) ∧
  (∃ s : State, ∃ p : Nat, ∃ st : Nat, (s.core p).sleep = .entering st ∧ enabledPending s p = [] ∧ st = 1) ∧
  (∃ s : State, ∃ p : Nat, ∃ st : Nat, (s.core p).sleep = .entering st ∧ enabledPending s p = [] ∧ 2 ≤ st) :=
  ⟨⟨cpu .u, ins, by decide +kernel, by decide +kernel⟩,
  ⟨(cpu .k (fun c => { c with csr := [(0x6C0, 0x1000)] })), ins, by decide +kernel, by decide +kernel, by decide +kernel, by decide +kernel⟩,
  ⟨(cpu .m (fun c => { c with csr := [(0x7C1, 1), (0x7CC, 0)] })), ins, by decide +kernel, by decide +kernel, by decide +kernel, by decide +kernel, by decide +kernel, by decide +kernel, by decide +kernel, by decide +kernel⟩,
  ⟨cpu .k, ins, by decide +kernel, by decide +kernel, by decide +kernel, by decide +kernel, by decide +kernel, by decide +kernel, by decide +kernel, by decide +kernel⟩,
  ⟨(cpu .m (fun c => { c with sleep := .entering 2, csr := [(0x7C1, 1), (0x7CC, 0)] })), 271, 2, by decide +kernel, (.m, 0), [], by decide +kernel⟩,
  ⟨(cpu .m (fun c => { c with sleep := .entering 0 })), 271, 0, by decide +kernel, by decide +kernel, by decide +kernel⟩,
  ⟨(cpu .m (fun c => { c with sleep := .entering 1 })), 271, 1, by decide +kernel, by decide +kernel, by decide +kernel⟩,
  ⟨(cpu .m (fun c => { c with sleep := .entering 2 })), 271, 2, by decide +kernel, by decide +kernel, by decide +kernel⟩⟩

/-- States and operands that meet the hypotheses of WaitSleepAndWake. -/
theorem wit_wait_sleep_and_wake_2 :
  (∃ s : State, ∃ p : Nat, (s.core p).sleep = .parking) ∧
  (∃ s : State, ∃ p : Nat, ∃ st : Nat, ∃ w : Lvl × Nat, ∃ l : List (Lvl × Nat), (s.core p).sleep = .asleep st ∧ enabledPending s p = w :: l ∧ (¬(s.modeFlag 8 = true ∧ st = 2))) ∧
  (∃ s : State, ∃ p : Nat, ∃ w : Nat, ∃ steps : Bool, (s.core p).sweep = some (w, steps) ∧ (s.core p).dead = false) :=
  ⟨⟨(cpu .m (fun c => { c with sleep := .parking })), 271, by decide +kernel⟩,
  ⟨(cpu .m (fun c => { c with sleep := .asleep 2, csr := [(0x7C1, 1), (0x7CC, 0)] })), 271, 2, (.m, 0), [], by decide +kernel, by decide +kernel, by decide +kernel⟩,
  ⟨(cpu .m (fun c => { c with sweep := some (16, true) })), 271, 16, true, by decide +kernel, by decide +kernel⟩⟩

/-- States and operands that meet the hypotheses of NormalTrapEntry. -/
theorem wit_normal_trap_entry :
  (∃ s : State, ∃ p : Nat, ∃ l : Lvl, ∃ fast : Bool, l ≠ .u ∧ (fast = true → (s.core p).owner ≠ 0) ∧ let b := csrBase l
    ∃ n : Nat, n ≠ b ∧ n ≠ b + 5 ∧ n ≠ b + 6 ∧ n ≠ b + 7) ∧
  (∃ s : State, ∃ p : Nat, ∃ l : Lvl, ∃ fast : Bool, l ≠ .u ∧ (fast = true → (s.core p).owner ≠ 0) ∧ ∃ q : Nat, q ≠ p) ∧
  (∃ s : State, ∃ p : Nat, ∃ l : Lvl, ∃ k : Nat, ∃ rest : List (Lvl × Nat), takeable s p = (l, k) :: rest) :=
  ⟨⟨cpu .u, 271, .k, false, by decide +kernel, by decide +kernel, 0, by decide +kernel, by decide +kernel, by decide +kernel, by decide +kernel⟩,
  ⟨(cpu .u (fun c => { c with csr := [(HBANK, 2)] })), 271, .h, true, by decide +kernel, by decide +kernel, 0, by decide +kernel⟩,
  ⟨(cpu .u (fun c => { c with csr := [(0x5C1, 1), (0x5CC, 0)] })), 271, .k, 0, [], by decide +kernel⟩⟩

/-- States and operands that meet the hypotheses of TretRestores. -/
theorem wit_tret_restores :
  (∃ s : State, ∃ i : Ins, atHead s i = true ∧ (s.core i.pcn).lvl ≠ .u ∧ raermienBad i.bits = false ∧ let c := s.core i.pcn
    let b := csrBase c.lvl
    c.csrF b 5 5 = 1) ∧
  (∃ s : State, ∃ i : Ins, atHead s i = true ∧ (s.core i.pcn).lvl ≠ .u ∧ raermienBad i.bits = false ∧ let c := s.core i.pcn
    let b := csrBase c.lvl
    c.csrF b 5 5 ≠ 1) ∧
  (∃ s : State, ∃ i : Ins, atHead s i = true ∧ (s.core i.pcn).lvl ≠ .u ∧ raermienBad i.bits = false ∧ let c := s.core i.pcn
    let b := csrBase c.lvl
    ∃ n : Nat, n ≠ b ∧ n ≠ HBANK ∧ n ≠ 0xC02) ∧
  (∃ s : State, ∃ i : Ins, atHead s i = true ∧ (s.core i.pcn).lvl ≠ .u ∧ raermienBad i.bits = false ∧ ∃ q : Nat, q ≠ i.pcn) :=
  ⟨⟨(cpu .k (fun c => { c with csr := [(0x5C0, 0x20)] })), ins, by decide +kernel, by decide +kernel, by decide +kernel, by decide +kernel⟩,
  ⟨cpu .k, ins, by decide +kernel, by decide +kernel, by decide +kernel, by decide +kernel⟩,
  ⟨cpu .m, ins, by decide +kernel, by decide +kernel, by decide +kernel, 0, by decide +kernel, by decide +kernel, by decide +kernel⟩,
  ⟨cpu .m, ins, by decide +kernel, by decide +kernel, by decide +kernel, 0, by decide +kernel⟩⟩

/-- States and operands that meet the hypotheses of LoadsAndStores. -/
theorem wit_loads_and_stores_1 :
  (∃ s : State, ∃ s' : State, ∃ i : Ins, ∃ va : Word, ∃ n : Nat, ∃ dst : Dst, ∃ sg : Bool, ∃ m : Mapped, mayRun s i = true ∧ lqFree (s.core i.pcn) i.seq = true ∧ pregFree (s.core i.pcn) i.seq dst = true ∧ Reaches s i accLoad va n (quietNow (s.core i.pcn) && inShadow (s.core i.pcn) i.seq) false (fun _ => false) m s' ∧ let x := dispatch i 1 (accOf i m va s') s'
    let e := loadEnt i m va n dst sg x.1 s'
    let u := drainLines i.pcn e.lines x.2
    wcHolds (u.core i.pcn) e.lines = false ∧ m.ty = .dev ∧ devReady s' i m = true) ∧
  (∃ s : State, ∃ s' : State, ∃ i : Ins, ∃ va : Word, ∃ n : Nat, ∃ dst : Dst, ∃ sg : Bool, ∃ m : Mapped, mayRun s i = true ∧ lqFree (s.core i.pcn) i.seq = true ∧ pregFree (s.core i.pcn) i.seq dst = true ∧ Reaches s i accLoad va n (quietNow (s.core i.pcn) && inShadow (s.core i.pcn) i.seq) false (fun _ => false) m s' ∧ let x := dispatch i 1 (accOf i m va s') s'
    let e := loadEnt i m va n dst sg x.1 s'
    let u := drainLines i.pcn e.lines x.2
    wcHolds (u.core i.pcn) e.lines = false ∧ m.ty ≠ .dev ∧ s'.isNormal m.pa = true ∧ depWaits s' i = false ∧ olderOverlap (s'.core i.pcn) i.seq e.pieces ≠ []) ∧
  (∃ s : State, ∃ s' : State, ∃ i : Ins, ∃ va : Word, ∃ n : Nat, ∃ dst : Dst, ∃ sg : Bool, ∃ m : Mapped, mayRun s i = true ∧ lqFree (s.core i.pcn) i.seq = true ∧ pregFree (s.core i.pcn) i.seq dst = true ∧ Reaches s i accLoad va n (quietNow (s.core i.pcn) && inShadow (s.core i.pcn) i.seq) false (fun _ => false) m s' ∧ let x := dispatch i 1 (accOf i m va s') s'
    let e := loadEnt i m va n dst sg x.1 s'
    let u := drainLines i.pcn e.lines x.2
    wcHolds (u.core i.pcn) e.lines = false ∧ m.ty ≠ .dev ∧ s'.isNormal m.pa = true ∧ depWaits s' i = false ∧ olderOverlap (s'.core i.pcn) i.seq e.pieces = [] ∧ m.ty = .wc ∧ l2FreeN (u.core i.pcn) e.pieces.length = true) ∧
  (∃ s : State, ∃ s' : State, ∃ i : Ins, ∃ va : Word, ∃ n : Nat, ∃ dst : Dst, ∃ sg : Bool, ∃ m : Mapped, mayRun s i = true ∧ lqFree (s.core i.pcn) i.seq = true ∧ pregFree (s.core i.pcn) i.seq dst = true ∧ Reaches s i accLoad va n (quietNow (s.core i.pcn) && inShadow (s.core i.pcn) i.seq) false (fun _ => false) m s' ∧ let x := dispatch i 1 (accOf i m va s') s'
    let e := loadEnt i m va n dst sg x.1 s'
    let u := drainLines i.pcn e.lines x.2
    wcHolds (u.core i.pcn) e.lines = false ∧ m.ty ≠ .dev ∧ s'.isNormal m.pa = true ∧ depWaits s' i = false ∧ olderOverlap (s'.core i.pcn) i.seq e.pieces = [] ∧ m.ty = .wb ∧ ∃ t, accessCache i.pcn i.seq e.held (putRob i.pcn e (if e.held then u else strideSee i.pcn i.pc m.pa u)) = some t) ∧
  (∃ s : State, ∃ s' : State, ∃ i : Ins, ∃ va : Word, ∃ v : Word, ∃ n : Nat, ∃ dst : Dst, atHead s i = true ∧ mayRun s i = true ∧ lqFree (s.core i.pcn) i.seq = true ∧ pregFree (s.core i.pcn) i.seq dst = true ∧ ∃ up, ∃ x, ∃ low, mapAccess i.pcn accLoad va n (quietNow (s.core i.pcn) && inShadow (s.core i.pcn) i.seq) false (fun _ => false) s =
        (.fail v up x low, s') ∧ x ≠ .wait ∧ (x = .miss → sbEmpty (s.core i.pcn) i.seq = true) ∧ low = none) ∧
  (∃ s : State, ∃ s' : State, ∃ i : Ins, ∃ va : Word, ∃ v : Word, ∃ n : Nat, ∃ dst : Dst, atHead s i = true ∧ mayRun s i = true ∧ lqFree (s.core i.pcn) i.seq = true ∧ pregFree (s.core i.pcn) i.seq dst = true ∧ ∃ sl, mapAccess i.pcn accLoad va n (quietNow (s.core i.pcn) && inShadow (s.core i.pcn) i.seq) false (fun _ => false) s = (.ad sl v, s')) ∧
  (∃ s : State, ∃ s' : State, ∃ i : Ins, ∃ va : Word, ∃ n : Nat, ∃ m : Mapped, s.runs i.pcn = true ∧ Reaches s i accFetch va n false false (fun _ => false) m s' ∧ let e := { robOf i (s.core i.pcn).lvl (s.core i.pcn).lidNow s.tick with pa := m.pa, size := n, n1 := m.n1, pa2 := m.pa2 }
    let u := e.lines.foldl (fun s ln => (lookLine i.pcn ln i.seq true false s).2) s'
    poisonedPiece (u.core i.pcn) e = none) ∧
  (∃ s : State, ∃ s' : State, ∃ i : Ins, ∃ va : Word, ∃ bytes : List Byte, ∃ m : Mapped, mayRun s i = true ∧ sbFree (s.core i.pcn) i.seq = true ∧ bytes ≠ [] ∧ Reaches s i accStore va bytes.length false false (fun _ => true) m s') :=
  ⟨⟨cpu .h, _, ins, 0x7F8000000000, 8, .x 31, false, _, by decide +kernel, by decide +kernel, by decide +kernel, reaches_of (by decide +kernel), by decide +kernel, by decide +kernel, by decide +kernel⟩,
  ⟨(cpu .h (fun c => { c with sb := [⟨0, 0x1000, 0x1000, [1, 2, 3, 4, 5, 6, 7, 8], .wb, true, true, false, none, 0, .h, false, false⟩] })), _, ins1, 0x1000, 8, .x 31, true, _, by decide +kernel, by decide +kernel, by decide +kernel, reaches_of (by decide +kernel), by decide +kernel, by decide +kernel, by decide +kernel, by decide +kernel, by decide +kernel⟩,
  ⟨(cpu .h (fun c => { c with tlb := [(8, { v := true, size := 12, g := true, va := 0x3000, r := true, w := true, x := true, ty := 1, a := true, d := true, oa := 0x3000 })], csr := [(0x6C0, 0x800)] })), _, ins, 0x3000, 8, .x 31, false, _, by decide +kernel, by decide +kernel, by decide +kernel, reaches_of (by decide +kernel), by decide +kernel, by decide +kernel, by decide +kernel, by decide +kernel, by decide +kernel, by decide +kernel, by decide +kernel⟩,
  ⟨cpu .h, _, ins, 0x1000, 64, .v 31 0, false, _, by decide +kernel, by decide +kernel, by decide +kernel, reaches_of (by decide +kernel), by decide +kernel, by decide +kernel, by decide +kernel, by decide +kernel, by decide +kernel, by decide +kernel, _, some_of (by decide +kernel)⟩,
  ⟨cpu .u, _, ins, 0x1000, _, 8, .x 31, by decide +kernel, by decide +kernel, by decide +kernel, by decide +kernel, _, _, _, fail_of (by decide +kernel), by decide +kernel, by decide +kernel, by decide +kernel⟩,
  ⟨(cpu .h (fun c => { c with tlb := [(8, { v := true, size := 12, g := true, va := 0x3000, r := true, w := true, x := true, ty := 0, a := false, d := true, oa := 0x3000, en := true, addr := 0x5000, expect := 1, abit := 6, dbit := 7 })], csr := [(0x6C0, 0x800)] })), _, ins, 0x3000, _, 8, .x 31, by decide +kernel, by decide +kernel, by decide +kernel, by decide +kernel, _, ad_of (by decide +kernel)⟩,
  ⟨cpu .h, _, ins, 0x1000, 4, _, by decide +kernel, reaches_of (by decide +kernel), by decide +kernel⟩,
  ⟨cpu .h, _, ins, 0x1000, [1], _, by decide +kernel, by decide +kernel, by decide +kernel, reaches_of (by decide +kernel)⟩⟩

/-- States and operands that meet the hypotheses of LoadsAndStores. -/
theorem wit_loads_and_stores_2 :
  (∃ s : State, ∃ p : Nat, ∃ b : SbEnt, ∃ l : List SbEnt, (s.core p).on = true ∧ (s.core p).dead = false ∧ (sbCheck p s).1 = false ∧ ((sbCheck p s).2.core p).sb = b :: l ∧ b.retired = true ∧ b.sent = false ∧ let s' := (sbCheck p s).2
    b.ty = .dev ∧ (s'.core p).dev.isSome = false) ∧
  (∃ s : State, ∃ p : Nat, ∃ b : SbEnt, ∃ l : List SbEnt, (s.core p).on = true ∧ (s.core p).dead = false ∧ (sbCheck p s).1 = false ∧ ((sbCheck p s).2.core p).sb = b :: l ∧ b.retired = true ∧ b.sent = false ∧ let s' := (sbCheck p s).2
    b.ty = .wc ∧ s'.isNormal b.pa = true) ∧
  (∃ s : State, ∃ p : Nat, ∃ b : SbEnt, ∃ l : List SbEnt, (s.core p).on = true ∧ (s.core p).dead = false ∧ (sbCheck p s).1 = false ∧ ((sbCheck p s).2.core p).sb = b :: l ∧ b.retired = true ∧ b.sent = false ∧ let s' := (sbCheck p s).2
    b.ty = .wb ∧ s'.isNormal b.pa = true) ∧
  (∃ s : State, ∃ p : Nat, ∃ n : Nat, ∃ e : RobEnt, (s.core p).late.find? (fun e => e.seq == n) = some e) ∧
  (∃ s : State, ∃ p : Nat, ∃ n : Nat, ∃ e : RobEnt, (s.core p).late.find? (fun e => e.seq == n) = none ∧ (s.core p).rob.find? (fun e => e.seq == n && e.held) = some e ∧ inShadow (s.core p) n = false ∧ s.runs p = true ∧ e.isStore = true) ∧
  (∃ s : State, ∃ p : Nat, ∃ n : Nat, ∃ e : RobEnt, (s.core p).late.find? (fun e => e.seq == n) = none ∧ (s.core p).rob.find? (fun e => e.seq == n && e.held) = some e ∧ inShadow (s.core p) n = false ∧ s.runs p = true ∧ e.isStore = false ∧ (e.done = true ∨ olderOverlap (s.core p) n e.pieces ≠ [])) ∧
  (∃ s : State, ∃ p : Nat, ∃ n : Nat, ∃ e : RobEnt, (s.core p).late.find? (fun e => e.seq == n) = none ∧ (s.core p).rob.find? (fun e => e.seq == n && e.held) = some e ∧ inShadow (s.core p) n = false ∧ s.runs p = true ∧ e.isStore = false ∧ e.done = false ∧ olderOverlap (s.core p) n e.pieces = [] ∧ ∃ t, accessCache p n false (deferredUpdates p e (unheldAt p n s)) = some t) :=
  ⟨⟨(cpu .h (fun c => { c with sb := [⟨0, 0x7F8000000000, 0x7F8000000000, [1, 2, 3, 4, 5, 6, 7, 8], .dev, true, true, false, none, 0, .h, false, false⟩] })), 271, ⟨0, 0x7F8000000000, 0x7F8000000000, [1, 2, 3, 4, 5, 6, 7, 8], .dev, true, true, false, none, 0, .h, false, false⟩, [], by decide +kernel, by decide +kernel, by decide +kernel, by decide +kernel, by decide +kernel, by decide +kernel, by decide +kernel, by decide +kernel⟩,
  ⟨(cpu .h (fun c => { c with sb := [⟨0, 0x3000, 0x3000, [1, 2, 3, 4, 5, 6, 7, 8], .wc, true, true, false, none, 0, .h, false, false⟩] })), 271, ⟨0, 0x3000, 0x3000, [1, 2, 3, 4, 5, 6, 7, 8], .wc, true, true, false, none, 0, .h, false, false⟩, [], by decide +kernel, by decide +kernel, by decide +kernel, by decide +kernel, by decide +kernel, by decide +kernel, by decide +kernel, by decide +kernel⟩,
  ⟨(cpu .h (fun c => { c with sb := [⟨0, 0x3000, 0x3000, [1, 2, 3, 4, 5, 6, 7, 8], .wb, true, true, false, none, 0, .h, false, false⟩] })), 271, ⟨0, 0x3000, 0x3000, [1, 2, 3, 4, 5, 6, 7, 8], .wb, true, true, false, none, 0, .h, false, false⟩, [], by decide +kernel, by decide +kernel, by decide +kernel, by decide +kernel, by decide +kernel, by decide +kernel, by decide +kernel, by decide +kernel⟩,
  ⟨(cpu .h (fun c => { c with late := [heldLoad] })), 271, 0, heldLoad, by decide +kernel⟩,
  ⟨(cpu .h (fun c => { c with rob := [{ heldLoad with isStore := true }] })), 271, 0, { heldLoad with isStore := true }, by decide +kernel, by decide +kernel, by decide +kernel, by decide +kernel, by decide +kernel⟩,
  ⟨(cpu .h (fun c => { c with rob := [{ heldLoad with done := true }] })), 271, 0, { heldLoad with done := true }, by decide +kernel, by decide +kernel, by decide +kernel, by decide +kernel, by decide +kernel, by decide +kernel⟩,
  ⟨(cpu .h (fun c => { c with rob := [heldLoad] })), 271, 0, heldLoad, by decide +kernel, by decide +kernel, by decide +kernel, by decide +kernel, by decide +kernel, by decide +kernel, by decide +kernel, _, some_of (by decide +kernel)⟩⟩

/-- States and operands that meet the hypotheses of AtomicsAndTheirWindows. -/
theorem wit_atomics_and_their_windows_1 :
  (∃ s : State, ∃ s' : State, ∃ i : Ins, ∃ va : Word, ∃ w : Bool, ∃ m : Mapped, Oldest s i ∧ Reaches s i accAmo va (if w then 8 else 4) false true (fun _ => true) m s' ∧ let p := i.pcn
    let u := drainLines p [m.pa / 64] s'
    let x := amoPlan i m u
    wcHolds (u.core p) [m.pa / 64] = false ∧ x.1.1 = true ∧ ownedL1d (x.2.core p) (m.pa / 64) = true ∧ ∃ e, smFind ((l1dCheck p (m.pa / 64) x.2).core p).l2 (m.pa / 64) = some e ∧ e.poison = false) ∧
  (∃ s : State, ∃ s' : State, ∃ i : Ins, ∃ va : Word, ∃ w : Bool, ∃ m : Mapped, Oldest s i ∧ Reaches s i accAmo va (if w then 8 else 4) false true (fun _ => true) m s' ∧ let p := i.pcn
    let u := drainLines p [m.pa / 64] s'
    let x := amoPlan i m u
    wcHolds (u.core p) [m.pa / 64] = false ∧ x.1.1 = true ∧ ownedL1d (x.2.core p) (m.pa / 64) = false) ∧
  (∃ s : State, ∃ s' : State, ∃ i : Ins, ∃ va : Word, ∃ w : Bool, ∃ m : Mapped, Oldest s i ∧ Reaches s i accAmo va (if w then 8 else 4) false true (fun _ => true) m s' ∧ let p := i.pcn
    let u := drainLines p [m.pa / 64] s'
    let x := amoPlan i m u
    wcHolds (u.core p) [m.pa / 64] = false ∧ x.1.1 = false ∧ l2Free (x.2.core p) false = true) ∧
  (∃ s : State, ∃ s' : State, ∃ i : Ins, ∃ va : Word, ∃ pa : Nat, ∃ w : Bool, ∃ ty : MTy, ∃ sl : Option Nat, Oldest s i ∧ va.toNat % (if w then 8 else 4) ≠ 0 ∧ translate i.pcn accAmo va false s = (.ok pa ty sl, s')) ∧
  (∃ s : State, ∃ s' : State, ∃ i : Ins, ∃ va : Word, ∃ w : Bool, ∃ m : Mapped, Oldest s i ∧ (s.core i.pcn).deferred = [] ∧ Reaches s i accLr va (if w then 8 else 4) false true (fun _ => false) m s' ∧ let p := i.pcn
    let u := drainLines p [m.pa / 64] s'
    wcHolds (u.core p) [m.pa / 64] = false ∧ m.ty ≠ .wb) ∧
  (∃ s : State, ∃ s' : State, ∃ i : Ins, ∃ va : Word, ∃ w : Bool, ∃ m : Mapped, Oldest s i ∧ (s.core i.pcn).deferred = [] ∧ Reaches s i accLr va (if w then 8 else 4) false true (fun _ => false) m s' ∧ let p := i.pcn
    let u := drainLines p [m.pa / 64] s'
    wcHolds (u.core p) [m.pa / 64] = false ∧ m.ty = .wb ∧ ownedL1d (u.core p) (m.pa / 64) = false) ∧
  (∃ s : State, ∃ s' : State, ∃ i : Ins, ∃ va : Word, ∃ w : Bool, ∃ m : Mapped, Oldest s i ∧ (s.core i.pcn).deferred = [] ∧ Reaches s i accLr va (if w then 8 else 4) false true (fun _ => false) m s' ∧ let p := i.pcn
    let u := drainLines p [m.pa / 64] s'
    wcHolds (u.core p) [m.pa / 64] = false ∧ m.ty = .wb ∧ ownedL1d (u.core p) (m.pa / 64) = true ∧ ∃ e, smFind ((l1dCheck p (m.pa / 64) u).core p).l2 (m.pa / 64) = some e ∧ e.poison = false) ∧
  (∃ s : State, ∃ s' : State, ∃ i : Ins, ∃ va : Word, ∃ w : Bool, ∃ m : Mapped, Oldest s i ∧ Reaches s i accStore va (if w then 8 else 4) false true (fun pa => scHolds (s.core i.pcn) (pa / 64)) m s' ∧ m.ty = .wb ∧ let p := i.pcn
    let u := drainLines p [m.pa / 64] s'
    wcHolds (u.core p) [m.pa / 64] = false) :=
  ⟨⟨(cpu .h (fun c => { c with l2 := [(64, ⟨.m, 0, 0, false, some ⟨0, 0, true⟩, none⟩)], amoChoice := some (0, true, false) })), _, ins, 0x1038, true, _, ⟨by decide +kernel, by decide +kernel⟩, reaches_of (by decide +kernel), by decide +kernel, by decide +kernel, by decide +kernel, _, some_of (by decide +kernel), by decide +kernel⟩,
  ⟨(cpu .h (fun c => { c with amoChoice := some (0, true, false) })), _, ins, 0x103C, false, _, ⟨by decide +kernel, by decide +kernel⟩, reaches_of (by decide +kernel), by decide +kernel, by decide +kernel, by decide +kernel⟩,
  ⟨(cpu .h (fun c => { c with amoChoice := some (0, false, false) })), _, ins, 0x103C, false, _, ⟨by decide +kernel, by decide +kernel⟩, reaches_of (by decide +kernel), by decide +kernel, by decide +kernel, by decide +kernel⟩,
  ⟨cpu .h, _, ins, 0x1004, _, true, _, _, ⟨by decide +kernel, by decide +kernel⟩, by decide +kernel, xl_of (by decide +kernel)⟩,
  ⟨(cpu .h (fun c => { c with tlb := [(8, { v := true, size := 12, g := true, va := 0x3000, r := true, w := true, x := true, ty := 1, a := true, d := true, oa := 0x3000 })], csr := [(0x6C0, 0x800)] })), _, ins, 0x3000, true, _, ⟨by decide +kernel, by decide +kernel⟩, by decide +kernel, reaches_of (by decide +kernel), by decide +kernel, by decide +kernel⟩,
  ⟨cpu .h, _, ins, 0x1000, true, _, ⟨by decide +kernel, by decide +kernel⟩, by decide +kernel, reaches_of (by decide +kernel), by decide +kernel, by decide +kernel, by decide +kernel⟩,
  ⟨(cpu .h (fun c => { c with l2 := [(64, ⟨.m, 0, 0, false, some ⟨0, 0, true⟩, none⟩)] })), _, ins, 0x1000, true, _, ⟨by decide +kernel, by decide +kernel⟩, by decide +kernel, reaches_of (by decide +kernel), by decide +kernel, by decide +kernel, by decide +kernel, _, some_of (by decide +kernel), by decide +kernel⟩,
  ⟨(cpu .h (fun c => { c with l2 := [(64, ⟨.m, 0, 0, false, some ⟨0, 0, true⟩, none⟩)], resv := some 64 })), _, ins, 0x1000, true, _, ⟨by decide +kernel, by decide +kernel⟩, reaches_of (by decide +kernel), by decide +kernel, by decide +kernel⟩⟩

/-- States and operands that meet the hypotheses of AtomicsAndTheirWindows. -/
theorem wit_atomics_and_their_windows_2 :
  (∃ s : State, ∃ p : Nat, ∃ ln : Nat, ∃ t : Track, (s.core p).tracks.find? (fun t => t.line == ln) = some t) ∧
  (∃ s : State, ∃ p : Nat, (s.core p).lrOpen = true) ∧
  (∃ s : State, ∃ p : Nat, ∃ ln : Nat, ∃ w : WcEnt, (s.core p).wc.find? (fun w => w.line == ln) = some w) ∧
  (∃ s : State, ∃ p : Nat, ∃ ln : Nat, ∃ e : SideEnt, (s.core p).sideAt ln = some e) :=
  ⟨⟨(cpu .h (fun c => { c with tracks := [⟨64, 511, 9⟩] })), 271, 64, ⟨64, 511, 9⟩, by decide +kernel⟩,
  ⟨(cpu .h (fun c => { c with lrOpen := true })), 271, by decide +kernel⟩,
  ⟨(cpu .h (fun c => { c with wc := [⟨64, 1, 1, 9, []⟩] })), 271, 64, ⟨64, 1, 1, 9, []⟩, by decide +kernel⟩,
  ⟨(cpu .h (fun c => { c with side := [⟨64, true, 1, false, 9, false⟩] })), 271, 64, ⟨64, true, 1, false, 9, false⟩, by decide +kernel⟩⟩

/-- States and operands that meet the hypotheses of FencesAndCacheBlocks. -/
theorem wit_fences_and_cache_blocks :
  (∃ s : State, ∃ i : Ins, ∃ pr : BitVec 4, ∃ sc : BitVec 4, atHead s i = true ∧ (pr = 0 ∨ sc = 0)) ∧
  (∃ s : State, ∃ i : Ins, ∃ pr : BitVec 4, ∃ sc : BitVec 4, Oldest s i ∧ pr ≠ 0 ∧ sc ≠ 0 ∧ wcPending (s.core i.pcn) = false ∧ (s.core i.pcn).dev.isSome = false) ∧
  (∃ s : State, ∃ i : Ins, ∃ pr : BitVec 4, ∃ sc : BitVec 4, Oldest s i ∧ pr ≠ 0 ∧ sc ≠ 0 ∧ wcPending (s.core i.pcn) = true ∧ pr.getLsbD 0 = true) ∧
  (∃ s : State, ∃ i : Ins, Oldest s i ∧ wcPending (s.core i.pcn) = false) ∧
  (∃ s : State, ∃ s' : State, ∃ i : Ins, ∃ va : Word, ∃ m : Mapped, Oldest s i ∧ Reaches s i accCbo va 1 false true (fun _ => decide (accCbo.kind = 2)) m s' ∧ let u := drainLines i.pcn [m.pa / 64] s'
    wcHolds (u.core i.pcn) [m.pa / 64] = false ∧ cboRoom (u.core i.pcn) (m.pa / 64) = true ∧ ((s.core i.pcn).lvl = .u ∨ (s.core i.pcn).lvl = .k)) ∧
  (∃ s : State, ∃ s' : State, ∃ i : Ins, ∃ va : Word, ∃ m : Mapped, Oldest s i ∧ ((s.core i.pcn).lvl = .h ∨ (s.core i.pcn).lvl = .m) ∧ Reaches s i accStore va 1 false true (fun _ => decide (accStore.kind = 2)) m s' ∧ let u := drainLines i.pcn [m.pa / 64] s'
    wcHolds (u.core i.pcn) [m.pa / 64] = false ∧ cboRoom (u.core i.pcn) (m.pa / 64) = true) ∧
  (∃ s : State, ∃ s' : State, ∃ i : Ins, ∃ va : Word, ∃ m : Mapped, mayRun s i = true ∧ sbFree (s.core i.pcn) i.seq = true ∧ let a := BitVec.ofNat 64 (va.toNat / 64 * 64)
    Reaches s i accStore a 64 false true (fun _ => true) m s') ∧
  (∃ s : State, ∃ i : Ins, mayRun s i = true) :=
  ⟨⟨cpu .u, ins, 0, 15, by decide +kernel, by decide +kernel⟩,
  ⟨cpu .u, ins, 15, 15, ⟨by decide +kernel, by decide +kernel⟩, by decide +kernel, by decide +kernel, by decide +kernel, by decide +kernel⟩,
  ⟨(cpu .u (fun c => { c with wc := [⟨64, 1, 1, 9, []⟩] })), ins, 1, 15, ⟨by decide +kernel, by decide +kernel⟩, by decide +kernel, by decide +kernel, by decide +kernel, by decide +kernel⟩,
  ⟨cpu .u, ins, ⟨by decide +kernel, by decide +kernel⟩, by decide +kernel⟩,
  ⟨(cpu .k (fun c => { c with tlb := [(8, { v := true, size := 12, g := true, va := 0x3000, r := true, a := true, d := true, oa := 0x3000 })] })), _, ins, 0x3000, _, ⟨by decide +kernel, by decide +kernel⟩, reaches_of (by decide +kernel), by decide +kernel, by decide +kernel, by decide +kernel⟩,
  ⟨cpu .h, _, ins, 0x3000, _, ⟨by decide +kernel, by decide +kernel⟩, by decide +kernel, reaches_of (by decide +kernel), by decide +kernel, by decide +kernel⟩,
  ⟨cpu .h, _, ins, 0x303F, _, by decide +kernel, by decide +kernel, reaches_of (by decide +kernel)⟩,
  ⟨cpu .u, ins, by decide +kernel⟩⟩

/-- States and operands that meet the hypotheses of TlbAndBankInstructions. -/
theorem wit_tlb_and_bank_instructions_1 :
  (∃ s : State, ∃ i : Ins, Oldest s i ∧ (s.core i.pcn).lvl = .u) ∧
  (∃ s : State, ∃ i : Ins, Oldest s i ∧ (s.core i.pcn).lvl ≠ .u ∧ raermienBad i.bits = false ∧ let p := i.pcn
    let e := staged (s.core p)
    tlbwOk (s.core p) e = true ∧ e.v = true) ∧
  (∃ s : State, ∃ i : Ins, Oldest s i ∧ (s.core i.pcn).lvl ≠ .u ∧ raermienBad i.bits = false ∧ let p := i.pcn
    let e := staged (s.core p)
    ∃ w, tlbwOk (s.core p) e = true ∧ fld w 8 0 / 8 = tlbSet (bankOf e.size) e.va e.lid) ∧
  (∃ s : State, ∃ i : Ins, Oldest s i ∧ (s.core i.pcn).lvl ≠ .u ∧ raermienBad i.bits = false ∧ let p := i.pcn
    let e := staged (s.core p)
    tlbwOk (s.core p) e = false) ∧
  (∃ s : State, ∃ i : Ins, ∃ w : Word, Oldest s i ∧ (s.core i.pcn).lvl ≠ .u ∧ raermienBad i.bits = false ∧ let n := fld w 11 0
    6 ≤ n / 512) ∧
  (∃ s : State, ∃ i : Ins, ∃ w : Word, Oldest s i ∧ (s.core i.pcn).lvl ≠ .u ∧ raermienBad i.bits = false ∧ let c := s.core i.pcn
    let n := fld w 11 0
    n / 512 < 6 ∧ ((c.tlbAt n).v && (c.lvl != .k || (c.tlbAt n).lid == c.csrF HLID 8 0)) = true) ∧
  (∃ s : State, ∃ i : Ins, ∃ w : Word, Oldest s i ∧ (s.core i.pcn).lvl ≠ .u ∧ raermienBad i.bits = false ∧ let c := s.core i.pcn
    let n := fld w 11 0
    n / 512 < 6 ∧ ((c.tlbAt n).v && (c.lvl != .k || (c.tlbAt n).lid == c.csrF HLID 8 0)) = false) ∧
  (∃ s : State, ∃ i : Ins, Oldest s i ∧ raermienBad i.bits = false ∧ (s.core i.pcn).lvl = .k) :=
  ⟨⟨cpu .u, ins, ⟨by decide +kernel, by decide +kernel⟩, by decide +kernel⟩,
  ⟨(cpu .h (fun c => { c with csr := [(0x5D0, 0x308C), (0x5D1, 0x3047)] })), ins, ⟨by decide +kernel, by decide +kernel⟩, by decide +kernel, by decide +kernel, by decide +kernel, by decide +kernel⟩,
  ⟨(cpu .h (fun c => { c with csr := [(0x5D0, 0x308C), (0x5D1, 0x3047)] })), ins, ⟨by decide +kernel, by decide +kernel⟩, by decide +kernel, by decide +kernel, 8, by decide +kernel, by decide +kernel⟩,
  ⟨cpu .m, ins, ⟨by decide +kernel, by decide +kernel⟩, by decide +kernel, by decide +kernel, by decide +kernel⟩,
  ⟨cpu .k, ins, 0xC00, ⟨by decide +kernel, by decide +kernel⟩, by decide +kernel, by decide +kernel, by decide +kernel⟩,
  ⟨(cpu .h (fun c => { c with tlb := [(8, { v := true, size := 12, g := true, va := 0x3000, r := true, w := true, x := true, ty := 0, a := true, d := true, oa := 0x3000 })], csr := [(0x6C0, 0x800)] })), ins, 8, ⟨by decide +kernel, by decide +kernel⟩, by decide +kernel, by decide +kernel, by decide +kernel, by decide +kernel⟩,
  ⟨cpu .h, ins, 0xBFF, ⟨by decide +kernel, by decide +kernel⟩, by decide +kernel, by decide +kernel, by decide +kernel, by decide +kernel⟩,
  ⟨cpu .k, ins, ⟨by decide +kernel, by decide +kernel⟩, by decide +kernel, by decide +kernel⟩⟩

/-- States and operands that meet the hypotheses of TlbAndBankInstructions. -/
theorem wit_tlb_and_bank_instructions_2 :
  (∃ s : State, ∃ i : Ins, Oldest s i ∧ raermienBad i.bits = false ∧ ((s.core i.pcn).lvl = .h ∨ (s.core i.pcn).lvl = .m)) ∧
  (∃ s : State, ∃ i : Ins, ∃ n : Nat, Oldest s i ∧ 2 ≤ (s.core i.pcn).lvl.num ∧ 10 ≤ n ∧ n ≤ 17 ∧ raermienBad i.bits = false) ∧
  (∃ s : State, ∃ i : Ins, ∃ n : Nat, Oldest s i ∧ ((s.core i.pcn).lvl.num < 2 ∨ n < 10 ∨ 17 < n)) ∧
  (∃ s : State, ∃ i : Ins, atHead s i = true ∧ raermienBad i.bits = true) ∧
  (∃ s : State, ∃ i : Ins, ∃ v : Word, Oldest s i ∧ 2 ≤ (s.core i.pcn).lvl.num ∧ csrPermitted (s.core i.pcn) ATOMCTL true = true ∧ bitOf v 3 = true) ∧
  (∃ s : State, ∃ i : Ins, Oldest s i ∧ 3 ≤ (s.core i.pcn).lvl.num ∧ csrPermitted (s.core i.pcn) BOOTWALK true = true) ∧
  (∃ s : State, ∃ i : Ins, Oldest s i ∧ (s.core i.pcn).lvl.num < 2) ∧
  (∃ s : State, ∃ i : Ins, Oldest s i ∧ (s.core i.pcn).lvl.num < 3) :=
  ⟨⟨cpu .m, ins, ⟨by decide +kernel, by decide +kernel⟩, by decide +kernel, by decide +kernel⟩,
  ⟨cpu .h, ins, 17, ⟨by decide +kernel, by decide +kernel⟩, by decide +kernel, by decide +kernel, by decide +kernel, by decide +kernel⟩,
  ⟨cpu .m, ins, 18, ⟨by decide +kernel, by decide +kernel⟩, by decide +kernel⟩,
  ⟨cpu .h, { ins with bits := 0x0400100B }, by decide +kernel, by decide +kernel⟩,
  ⟨cpu .h, ins, 8, ⟨by decide +kernel, by decide +kernel⟩, by decide +kernel, by decide +kernel, by decide +kernel⟩,
  ⟨cpu .m, ins, ⟨by decide +kernel, by decide +kernel⟩, by decide +kernel, by decide +kernel⟩,
  ⟨cpu .k, ins, ⟨by decide +kernel, by decide +kernel⟩, by decide +kernel⟩,
  ⟨cpu .h, ins, ⟨by decide +kernel, by decide +kernel⟩, by decide +kernel⟩⟩

/-- States and operands that meet the hypotheses of BroadcastsAndWalks. -/
theorem wit_broadcasts_and_walks_1 :
  (∃ s : State, ∃ i : Ins, Oldest s i ∧ 1 ≤ (s.core i.pcn).lvl.num ∧ raermienBad i.bits = false) ∧
  (∃ s : State, ∃ i : Ins, ∃ b : Word, Oldest s i ∧ 2 ≤ (s.core i.pcn).lvl.num ∧ raermienBad i.bits = false ∧ 12 ≤ fld b 21 16 ∧ fld b 21 16 ≤ 46) ∧
  (∃ s : State, ∃ i : Ins, ∃ b : Word, Oldest s i ∧ 2 ≤ (s.core i.pcn).lvl.num ∧ raermienBad i.bits = false ∧ (fld b 21 16 < 12 ∨ 46 < fld b 21 16)) ∧
  (∃ s : State, ∃ i : Ins, Oldest s i ∧ (s.core i.pcn).lvl = .u) ∧
  (∃ s : State, ∃ i : Ins, atHead s i = true ∧ raermienBad i.bits = true) ∧
  (∃ s : State, ∃ b : Bcast, (s.fab.hub.bcasts.filter (·.admitted)).length < 32 ∧ s.fab.hub.bcasts.find? (fun b => !b.admitted) = some b) ∧
  (∃ s : State, ∃ agent : Nat, ∃ id : Nat, ∃ b : Bcast, s.fab.hub.bcasts.find? (fun b => b.id == id) = some b ∧ b.acked.contains agent = true) ∧
  (∃ s : State, ∃ agent : Nat, ∃ id : Nat, ∃ b : Bcast, s.fab.hub.bcasts.find? (fun b => b.id == id) = some b ∧ b.admitted = true ∧ (b.waits.contains agent || b.acked.contains agent) = true ∧ let u := hubDeclare agent (s.toTick (b.since + meshTicks s (2 ^ b.tmo)))
    ∃ c, u.fab.hub.bcasts.find? (fun b => b.id == id) = some c ∧ (c.waits.isEmpty && c.acked.isEmpty) = true) :=
  ⟨⟨cpu .k, ins, ⟨by decide +kernel, by decide +kernel⟩, by decide +kernel, by decide +kernel⟩,
  ⟨cpu .m, ins, 0x2E0000, ⟨by decide +kernel, by decide +kernel⟩, by decide +kernel, by decide +kernel, by decide +kernel, by decide +kernel⟩,
  ⟨cpu .h, ins, 0x2F0000, ⟨by decide +kernel, by decide +kernel⟩, by decide +kernel, by decide +kernel, by decide +kernel⟩,
  ⟨cpu .u, ins, ⟨by decide +kernel, by decide +kernel⟩, by decide +kernel⟩,
  ⟨cpu .h, { ins with bits := 0x18C5850B }, by decide +kernel, by decide +kernel⟩,
  ⟨{ live with fab := { live.fab with hub := { live.fab.hub with bcasts := [⟨3, 271, 2, 511, 0, 0, 12, false, [], [], [], 0, 0, 16⟩] } } }, ⟨3, 271, 2, 511, 0, 0, 12, false, [], [], [], 0, 0, 16⟩, by decide +kernel, by decide +kernel⟩,
  ⟨{ live with fab := { live.fab with hub := { live.fab.hub with bcasts := [⟨3, 271, 2, 511, 0, 0, 12, true, [], [271], [], 0, 0, 16⟩] } } }, 271, 3, ⟨3, 271, 2, 511, 0, 0, 12, true, [], [271], [], 0, 0, 16⟩, by decide +kernel, by decide +kernel⟩,
  ⟨{ live with fab := { live.fab with hub := { live.fab.hub with bcasts := [⟨3, 271, 2, 511, 0, 0, 12, true, [271], [], [], 0, 0, 16⟩] } } }, 271, 3, ⟨3, 271, 2, 511, 0, 0, 12, true, [271], [], [], 0, 0, 16⟩, by decide +kernel, by decide +kernel, by decide +kernel, _, some_of (by decide +kernel), by decide +kernel⟩⟩

/-- States and operands that meet the hypotheses of BroadcastsAndWalks. -/
theorem wit_broadcasts_and_walks_2 :
  (∃ s : State, ∃ agent : Nat, ∃ id : Nat, ∃ b : Bcast, s.fab.hub.bcasts.find? (fun b => b.id == id) = some b ∧ b.admitted = true ∧ (b.waits.contains agent || b.acked.contains agent) = true ∧ let u := hubDeclare agent (s.toTick (b.since + meshTicks s (2 ^ b.tmo)))
    ∃ c, u.fab.hub.bcasts.find? (fun b => b.id == id) = some c ∧ (c.waits.isEmpty && c.acked.isEmpty) = false) ∧
  (∃ s : State, ∃ p : Nat, ∃ a : AdPend, (s.core p).ad = some a ∧ a.sent = false ∧ s.runs p = true ∧ a.seq = (s.core p).next ∧ let e := (s.core p).tlbAt a.slot
    e.v = false) ∧
  (∃ s : State, ∃ p : Nat, ∃ a : AdPend, (s.core p).ad = some a ∧ a.sent = false ∧ s.runs p = true ∧ a.seq = (s.core p).next ∧ let e := (s.core p).tlbAt a.slot
    let x := adTarget p e s
    e.v = true ∧ x.1 = some none) ∧
  (∃ s : State, ∃ p : Nat, ∃ a : AdPend, (s.core p).ad = some a ∧ a.sent = false ∧ s.runs p = true ∧ a.seq = (s.core p).next ∧ let e := (s.core p).tlbAt a.slot
    let x := adTarget p e s
    ∃ pa, e.v = true ∧ x.1 = some (some pa) ∧ (x.2.isNormal pa = false ∨ unreachable x.2 (s.core p).lvl pa = true)) ∧
  (∃ s : State, ∃ p : Nat, ∃ a : AdPend, (s.core p).ad = some a ∧ a.sent = false ∧ s.runs p = true ∧ a.seq = (s.core p).next ∧ let e := (s.core p).tlbAt a.slot
    let x := adTarget p e s
    ∃ pa, e.v = true ∧ x.1 = some (some pa) ∧ x.2.isNormal pa = true ∧ unreachable x.2 (s.core p).lvl pa = false ∧ l2Free (x.2.core p) false = true) ∧
  (∃ s : State, ∃ i : Ins, ∃ va : Word, ∃ kind : Nat, Oldest s i ∧ (s.core i.pcn).lvl = .m ∧ (s.core i.pcn).csrF BOOTWALK 0 0 = 1 ∧ ((s.core i.pcn).tlbFind true 0 0 (va.toNat % 2 ^ 48)).isSome = false ∧ (va.toNat < 2 ^ 47 ∨ 2 ^ 64 - 2 ^ 47 ≤ va.toNat) ∧ let w := walkFrom i.pcn (walkAcc kind) va 4 0 ((s.core i.pcn).csrF BOOTWALK 47 12 * 4096) s
    ∃ e, w.1 = .leaf e) ∧
  (∃ s : State, ∃ i : Ins, ∃ va : Word, ∃ kind : Nat, Oldest s i ∧ (s.core i.pcn).lvl = .m ∧ (s.core i.pcn).csrF BOOTWALK 0 0 = 1 ∧ ((s.core i.pcn).tlbFind true 0 0 (va.toNat % 2 ^ 48)).isSome = false ∧ (va.toNat < 2 ^ 47 ∨ 2 ^ 64 - 2 ^ 47 ≤ va.toNat) ∧ let w := walkFrom i.pcn (walkAcc kind) va 4 0 ((s.core i.pcn).csrF BOOTWALK 47 12 * 4096) s
    ∃ code, ∃ tval, w.1 = .fault code tval) ∧
  (∃ s : State, ∃ i : Ins, ∃ va : Word, ∃ kind : Nat, Oldest s i ∧ (s.core i.pcn).lvl = .m ∧ (s.core i.pcn).csrF BOOTWALK 0 0 = 1 ∧ ((s.core i.pcn).tlbFind true 0 0 (va.toNat % 2 ^ 48)).isSome = false ∧ (va.toNat < 2 ^ 47 ∨ 2 ^ 64 - 2 ^ 47 ≤ va.toNat) ∧ let w := walkFrom i.pcn (walkAcc kind) va 4 0 ((s.core i.pcn).csrF BOOTWALK 47 12 * 4096) s
    ∃ pa, w.1 = .bad pa) :=
  ⟨⟨{ live with fab := { live.fab with hub := { live.fab.hub with bcasts := [⟨3, 271, 2, 511, 0, 0, 12, true, [270, 271], [], [], 0, 0, 16⟩] } } }, 271, 3, ⟨3, 271, 2, 511, 0, 0, 12, true, [270, 271], [], [], 0, 0, 16⟩, by decide +kernel, by decide +kernel, by decide +kernel, _, some_of (by decide +kernel), by decide +kernel⟩,
  ⟨(cpu .h (fun c => { c with ad := some ⟨0, 0x100000, 8, 0x3000, true, .h, false⟩, tlb := [] })), 271, ⟨0, 0x100000, 8, 0x3000, true, .h, false⟩, by decide +kernel, by decide +kernel, by decide +kernel, by decide +kernel, by decide +kernel⟩,
  ⟨(cpu .k (fun c => { c with ad := some ⟨0, 0x100000, 8, 0x3000, true, .h, false⟩, csr := [(HLID, 1)], tlb := [(8, { v := true, size := 12, g := true, va := 0x3000, r := true, oa := 0x3000, en := true, addr := 0x5000, expect := 1, abit := 6, dbit := 7 })] })), 271, ⟨0, 0x100000, 8, 0x3000, true, .h, false⟩, by decide +kernel, by decide +kernel, by decide +kernel, by decide +kernel, by decide +kernel, by decide +kernel⟩,
  ⟨(cpu .h (fun c => { c with ad := some ⟨0, 0x100000, 8, 0x3000, true, .h, false⟩, tlb := [(8, { v := true, size := 12, g := true, va := 0x3000, r := true, oa := 0x3000, en := true, addr := 0x7F8000000000, expect := 1, abit := 6, dbit := 7 })] })), 271, ⟨0, 0x100000, 8, 0x3000, true, .h, false⟩, by decide +kernel, by decide +kernel, by decide +kernel, by decide +kernel, 0x7F8000000000, by decide +kernel, by decide +kernel, by decide +kernel⟩,
  ⟨(cpu .h (fun c => { c with ad := some ⟨0, 0x100000, 8, 0x3000, true, .h, false⟩, tlb := [(8, { v := true, size := 12, g := true, va := 0x3000, r := true, oa := 0x3000, en := true, addr := 0x5000, expect := 1, abit := 6, dbit := 7 })] })), 271, ⟨0, 0x100000, 8, 0x3000, true, .h, false⟩, by decide +kernel, by decide +kernel, by decide +kernel, by decide +kernel, 0x5000, by decide +kernel, by decide +kernel, by decide +kernel, by decide +kernel, by decide +kernel⟩,
  ⟨(cpu .m (fun c => { c with csr := [(BOOTWALK, 0x8001)], l2 := [(0x200, ⟨.m, 0, 0x1F, false, none, none⟩)] })), ins, 0x40, 1, ⟨by decide +kernel, by decide +kernel⟩, by decide +kernel, by decide +kernel, by decide +kernel, by decide +kernel, _, leaf_of (by decide +kernel)⟩,
  ⟨(cpu .m (fun c => { c with csr := [(BOOTWALK, 0x8001)], l2 := [(0x200, ⟨.m, 0, 0, false, none, none⟩)] })), ins, 0x40, 3, ⟨by decide +kernel, by decide +kernel⟩, by decide +kernel, by decide +kernel, by decide +kernel, by decide +kernel, _, _, walkf_of (by decide +kernel)⟩,
  ⟨(cpu .m (fun c => { c with csr := [(BOOTWALK, 0x8001)], l2 := [(0x200, ⟨.m, 0, 0x1F, true, none, none⟩)] })), ins, 0x40, 2, ⟨by decide +kernel, by decide +kernel⟩, by decide +kernel, by decide +kernel, by decide +kernel, by decide +kernel, _, walkb_of (by decide +kernel)⟩⟩

/-- States and operands that meet the hypotheses of BroadcastsAndWalks. -/
theorem wit_broadcasts_and_walks_3 :
  (∃ s : State, ∃ i : Ins, ∃ va : Word, ∃ kind : Nat, Oldest s i ∧ (s.core i.pcn).lvl = .m ∧ (s.core i.pcn).csrF BOOTWALK 0 0 = 1 ∧ ((s.core i.pcn).tlbFind true 0 0 (va.toNat % 2 ^ 48)).isSome = false ∧ (va.toNat < 2 ^ 47 ∨ 2 ^ 64 - 2 ^ 47 ≤ va.toNat) ∧ let w := walkFrom i.pcn (walkAcc kind) va 4 0 ((s.core i.pcn).csrF BOOTWALK 47 12 * 4096) s
    w.1 = .wait) :=
  ⟨(cpu .m (fun c => { c with csr := [(BOOTWALK, 0x8001)] })), ins, 0x40, 2, ⟨by decide +kernel, by decide +kernel⟩, by decide +kernel, by decide +kernel, by decide +kernel, by decide +kernel, by decide +kernel⟩

/-- A live chip with other homes, mesh or hub. -/
def fab (f : Fabric → Fabric) : State := { live with fab := f live.fab }
/-- A transaction of core 271 on line 5. -/
def tx : Txn := {
  op := 1, req := { agent := 271, line := 5 }, owner := none, snoops := [], wbs := [], early := [], data := none, dirty := false
  llc := false, peer := false, reading := false, writes := 0, wrData := false, ready := false, ack := none, keep := false
  upg := false, hurt := false, since := 0, tmo := 16 }
/-- A piece of line 5. -/
def pc0 : Piece := {
  id := 0, fn := 1, kind := .write, st := .owned, line := 5, mask := 1, data := 1, ep := false, poison := false, lid := 1, gen := 0
  qport := 0, fclass := 0, txn := 0, sent := 0, win := none }

/-- States and operands that meet the hypotheses of CoreAndFabricRegisterWrites. -/
theorem wit_core_and_fabric_register_writes_1 :
  (∃ s : State, ∃ who : Agent, ∃ p : Nat, ∃ d : RegDef, let b : Blk := .core p
    let o := Off.PRED_FLUSH
    OpenWrite s who b o 4 d) ∧
  (∃ s : State, ∃ who : Agent, ∃ p : Nat, ∃ d : RegDef, let b : Blk := .core p
    let o := Off.L2_WAYCFG
    OpenWrite s who b o 8 d) ∧
  (∃ s : State, ∃ who : Agent, ∃ p : Nat, ∃ k : Nat, ∃ d : RegDef, let b : Blk := .core p
    let o := (Off.PMOVF + 8 * (k % 2))
    OpenWrite s who b o 8 d) ∧
  (∃ s : State, ∃ who : Agent, ∃ p : Nat, ∃ d : RegDef, let b : Blk := .core p
    let o := Off.SPOOR_TAIL
    OpenWrite s who b o 4 d) ∧
  (∃ s : State, ∃ who : Agent, ∃ p : Nat, ∃ k : Nat, ∃ d : RegDef, let b : Blk := .mesh p
    let o := (Off.LINK_LANEMAP + 0x40 * (k % 4))
    OpenWrite s who b o 8 d) ∧
  (∃ s : State, ∃ who : Agent, ∃ p : Nat, ∃ d : RegDef, let b : Blk := .isl p
    let o := Off.ISL_FREQ
    OpenWrite s who b o 4 d) ∧
  (∃ s : State, ∃ who : Agent, ∃ p : Nat, ∃ d : RegDef, let b : Blk := .isl p
    let o := Off.ISL_SSC
    OpenWrite s who b o 4 d) ∧
  (∃ s : State, ∃ who : Agent, ∃ p : Nat, ∃ k : Nat, ∃ d : RegDef, let b : Blk := .err p (k % 16)
    let o := Off.ERR_STATUS
    OpenWrite s who b o 8 d) :=
  ⟨⟨cpu .m, .core 0 .m, 271, _, write_of (by decide +kernel)⟩,
  ⟨cpu .m, .sett, 271, _, write_of (by decide +kernel)⟩,
  ⟨cpu .m, .core 271 .k, 271, 1, _, write_of (by decide +kernel)⟩,
  ⟨cpu .m, .core 271 .u, 271, _, write_of (by decide +kernel)⟩,
  ⟨live, .sett, 169, 3, _, write_of (by decide +kernel)⟩,
  ⟨live, .sett, 152, _, write_of (by decide +kernel)⟩,
  ⟨live, .sett, 152, _, write_of (by decide +kernel)⟩,
  ⟨live, .sett, 152, 7, _, write_of (by decide +kernel)⟩⟩

/-- States and operands that meet the hypotheses of CoreAndFabricRegisterWrites. -/
theorem wit_core_and_fabric_register_writes_2 :
  (∃ s : State, ∃ who : Agent, ∃ p : Nat, ∃ k : Nat, ∃ d : RegDef, let b : Blk := .err p (k % 16)
    let o := Off.INJECT
    OpenWrite s who b o 4 d) ∧
  (∃ s : State, ∃ who : Agent, ∃ p : Nat, ∃ k : Nat, ∃ d : RegDef, let b : Blk := .llc p
    let o := (Off.FCLASS + 8 * (k % 32))
    OpenWrite s who b o 8 d) ∧
  (∃ s : State, ∃ who : Agent, ∃ p : Nat, ∃ d : RegDef, let b : Blk := .llc p
    let o := Off.LLC_WAYCFG
    OpenWrite s who b o 8 d) ∧
  (∃ s : State, ∃ who : Agent, ∃ p : Nat, ∃ d : RegDef, let b : Blk := .warren p
    let o := Off.WARREN_WAYCFG
    OpenWrite s who b o 8 d) :=
  ⟨⟨live, .sett, 152, 7, _, write_of (by decide +kernel)⟩,
  ⟨live, .sett, 135, 31, _, write_of (by decide +kernel)⟩,
  ⟨live, .sett, 135, _, write_of (by decide +kernel)⟩,
  ⟨live, .sett, 135, _, write_of (by decide +kernel)⟩⟩

/-- States and operands that meet the hypotheses of EdgeRegisterWrites. -/
theorem wit_edge_register_writes_1 :
  (∃ s : State, ∃ who : Agent, ∃ p : Nat, ∃ d : RegDef, let b : Blk := .mc p
    let o := Off.RETUNE
    OpenWrite s who b o 4 d) ∧
  (∃ s : State, ∃ who : Agent, ∃ p : Nat, ∃ d : RegDef, let b : Blk := .mc p
    let o := Off.TRAIN_CTL
    OpenWrite s who b o 8 d) ∧
  (∃ s : State, ∃ who : Agent, ∃ p : Nat, ∃ d : RegDef, let b : Blk := .mc p
    let o := Off.MC_IRQ_STATUS
    OpenWrite s who b o 4 d) ∧
  (∃ s : State, ∃ who : Agent, ∃ p : Nat, ∃ d : RegDef, let b : Blk := .mc p
    let o := Off.SCRUB_CTL
    OpenWrite s who b o 4 d) ∧
  (∃ s : State, ∃ who : Agent, ∃ p : Nat, ∃ k : Nat, ∃ d : RegDef, let b : Blk := .mc p
    let o := (Off.ERASE + 8 * (k % 4))
    OpenWrite s who b o 4 d) ∧
  (∃ s : State, ∃ who : Agent, ∃ d : RegDef, let b : Blk := .idist
    let o := Off.IPI_SEND
    OpenWrite s who b o 4 d) ∧
  (∃ s : State, ∃ who : Agent, ∃ k : Nat, ∃ d : RegDef, let b : Blk := .idist
    let o := (Off.SRC + 8 * (k % 8192))
    OpenWrite s who b o 8 d) ∧
  (∃ s : State, ∃ who : Agent, ∃ k : Nat, ∃ d : RegDef, let b : Blk := .idist
    let o := (Off.VSLOT_CFG + 16 * (k % 4096))
    OpenWrite s who b o 8 d) :=
  ⟨⟨live, .sett, 15, _, write_of (by decide +kernel)⟩,
  ⟨live, .sett, 15, _, write_of (by decide +kernel)⟩,
  ⟨live, .sett, 15, _, write_of (by decide +kernel)⟩,
  ⟨live, .sett, 15, _, write_of (by decide +kernel)⟩,
  ⟨live, .sett, 15, 3, _, write_of (by decide +kernel)⟩,
  ⟨live, .core 0 .h, _, write_of (by decide +kernel)⟩,
  ⟨live, .sett, 8191, _, write_of (by decide +kernel)⟩,
  ⟨live, .sett, 4095, _, write_of (by decide +kernel)⟩⟩

/-- States and operands that meet the hypotheses of EdgeRegisterWrites. -/
theorem wit_edge_register_writes_2 :
  (∃ s : State, ∃ who : Agent, ∃ k : Nat, ∃ d : RegDef, let b : Blk := .idist
    let o := (Off.VSLOT_CFG + 16 * (k % 4096))
    OpenWrite s who b o 8 d) ∧
  (∃ s : State, ∃ who : Agent, ∃ p : Nat, ∃ d : RegDef, let b : Blk := .vf p
    let o := Off.WIN_COMMIT
    OpenWrite s who b o 4 d) ∧
  (∃ s : State, ∃ who : Agent, ∃ p : Nat, ∃ k : Nat, ∃ d : RegDef, let b : Blk := .vf p
    let o := (Off.WIN_LIVE + 0x20 * (k % 4))
    OpenWrite s who b o 8 d) ∧
  (∃ s : State, ∃ who : Agent, ∃ p : Nat, ∃ d : RegDef, let b : Blk := .vf p
    let o := Off.RING_TAIL
    OpenWrite s who b o 4 d) ∧
  (∃ s : State, ∃ who : Agent, ∃ p : Nat, ∃ d : RegDef, let b : Blk := .vf p
    let o := Off.VF_CTL
    OpenWrite s who b o 4 d) ∧
  (∃ s : State, ∃ who : Agent, ∃ d : RegDef, let b : Blk := .tp
    let o := Off.TP_LINK
    OpenWrite s who b o 4 d) ∧
  (∃ s : State, ∃ who : Agent, ∃ p : Nat, ∃ d : RegDef, let b : Blk := .hoard (p % 4)
    let o := Off.MARCH_CTL
    OpenWrite s who b o 4 d) ∧
  (∃ s : State, ∃ who : Agent, ∃ k : Nat, ∃ d : RegDef, let b : Blk := .hoard (k / 16 % 4)
    let o := (Off.OWNER + 8 * (k % 16))
    OpenWrite s who b o 4 d) :=
  ⟨⟨live, .sett, 4095, _, write_of (by decide +kernel)⟩,
  ⟨live, .sett, 63, _, write_of (by decide +kernel)⟩,
  ⟨live, .sett, 63, 3, _, write_of (by decide +kernel)⟩,
  ⟨live, .sett, 63, _, write_of (by decide +kernel)⟩,
  ⟨live, .sett, 63, _, write_of (by decide +kernel)⟩,
  ⟨live, .sett, _, write_of (by decide +kernel)⟩,
  ⟨live, .sett, 3, _, write_of (by decide +kernel)⟩,
  ⟨live, .sett, 63, _, write_of (by decide +kernel)⟩⟩

/-- States and operands that meet the hypotheses of EdgeRegisterWrites. -/
theorem wit_edge_register_writes_3 :
  (∃ s : State, ∃ who : Agent, ∃ d : RegDef, let b : Blk := .owl
    let o := Off.OWL_STATUS
    OpenWrite s who b o 8 d) :=
  ⟨live, .sett, _, write_of (by decide +kernel)⟩

/-- States and operands that meet the hypotheses of RegisterWriteForms. -/
theorem wit_register_write_forms :
  (∃ s : State, ∃ who : Agent, ∃ p : Nat, ∃ n : Nat, ∃ d : RegDef, portWin s p = .rc n ∧ OpenWrite s who (.rc n) Off.RC_CFG 4 d) ∧
  (∃ s : State, ∃ n : Nat, isVf n = true ∧ twinUp s = true ∧ vfEnabled s n = true ∧ (s.vf n).d3 = false) ∧
  (∃ s : State, ∃ who : Agent, ∃ b : Blk, ∃ o : Nat, ∃ size : Nat, ∃ d : RegDef, OpenWrite s who b o size d) ∧
  (∃ s : State, ∃ i : Ins, ∃ n : Nat, Oldest s i ∧ csrPermitted (s.core i.pcn) n true = true) ∧
  (∃ s : State, ∃ i : Ins, ∃ n : Nat, atHead s i = true ∧ csrPermitted (s.core i.pcn) n false = true) ∧
  (∃ s : State, ∃ i : Ins, ∃ n : Nat, ∃ op : CsrOp, Oldest s i ∧ csrPermitted (s.core i.pcn) n (op != .read) = false) :=
  ⟨⟨{ live with pwr := { live.pwr with tpRoot := true } }, .sett, 8, 8, _, by decide +kernel, write_of (by decide +kernel)⟩,
  ⟨put live [(.tp, Off.TP_LINK, 0x3F801)], 63, by decide +kernel, by decide +kernel, by decide +kernel, by decide +kernel⟩,
  ⟨{ live with sett := { live.sett with unlocked := [(169, 1)] } }, .core 0 .h, .mesh 169, Off.MESH_CTL, 4, _, write_of (by decide +kernel)⟩,
  ⟨cpu .m, ins, 0x7C0, ⟨by decide +kernel, by decide +kernel⟩, by decide +kernel⟩,
  ⟨cpu .k, ins, 0x5C0, by decide +kernel, by decide +kernel⟩,
  ⟨cpu .k, ins, 0x7C0, .write, ⟨by decide +kernel, by decide +kernel⟩, by decide +kernel⟩⟩

/-- States and operands that meet the hypotheses of RegisterReads. -/
theorem wit_register_reads_1 :
  (∃ s : State, ∃ who : Agent, ∃ p : Nat, ∃ d : RegDef, OpenRead s who (.mesh p) Off.OCR_ERR 8 d) ∧
  (∃ s : State, ∃ who : Agent, ∃ p : Nat, ∃ d : RegDef, OpenRead s who (.core p) Off.SPOOR_LOST 4 d) ∧
  (∃ s : State, ∃ who : Agent, ∃ p : Nat, ∃ k : Nat, ∃ d : RegDef, OpenRead s who (.err p (k % 16)) Off.ERR_CNT 8 d) ∧
  (∃ s : State, ∃ who : Agent, ∃ p : Nat, ∃ d : RegDef, OpenRead s who (.warren p) Off.RQ_MAXWAIT 4 d) ∧
  (∃ s : State, ∃ who : Agent, ∃ p : Nat, ∃ d : RegDef, OpenRead s who (.warren p) Off.DEAD_DISCARD 4 d) ∧
  (∃ s : State, ∃ who : Agent, ∃ k : Nat, ∃ d : RegDef, OpenRead s who (.idist) (0x10 + k % 8 * 8) 4 d) ∧
  (∃ s : State, ∃ who : Agent, ∃ p : Nat, ∃ d : RegDef, OpenRead s who (portWin s p) Off.RC_FAULT_LOG 8 d) ∧
  (∃ s : State, ∃ who : Agent, ∃ p : Nat, ∃ k : Nat, ∃ d : RegDef, OpenRead s who (portWin s p) k 4 d) :=
  ⟨⟨live, .sett, 169, _, read_of (by decide +kernel)⟩,
  ⟨cpu .m, .sett, 271, _, read_of (by decide +kernel)⟩,
  ⟨live, .core 0 .u, 152, 7, _, read_of (by decide +kernel)⟩,
  ⟨live, .sett, 135, _, read_of (by decide +kernel)⟩,
  ⟨live, .sett, 135, _, read_of (by decide +kernel)⟩,
  ⟨live, .sett, 4, _, read_of (by decide +kernel)⟩,
  ⟨live, .sett, 8, _, read_of (by decide +kernel)⟩,
  ⟨live, .sett, 7, Off.RC_CFG, _, read_of (by decide +kernel)⟩⟩

/-- States and operands that meet the hypotheses of RegisterReads. -/
theorem wit_register_reads_2 :
  (∃ s : State, ∃ who : Agent, ∃ p : Nat, ∃ k : Nat, ∃ d : RegDef, OpenRead s who (.vf p) k 4 d) ∧
  (∃ s : State, ∃ who : Agent, ∃ p : Nat, ∃ d : RegDef, OpenRead s who (.hoard (p % 4)) Off.CLOSED_ACC 4 d) ∧
  (∃ s : State, ∃ who : Agent, ∃ d : RegDef, OpenRead s who (.sett) Off.VIOL_COUNT 4 d) :=
  ⟨⟨live, .sett, 63, Off.VF_CTL, _, read_of (by decide +kernel)⟩,
  ⟨live, .sett, 3, _, read_of (by decide +kernel)⟩,
  ⟨live, .core 0 .u, _, read_of (by decide +kernel)⟩⟩

/-- States and operands that meet the hypotheses of HomeRequestsAreAdmittedOrQueued. -/
theorem wit_home_requests_are_admitted_or_queued :
  (∃ s : State, ∃ m : Msg, ∃ e ∈ homeRows, (inTransit s e.1 m = true ∨ overtakes s e.1 m = true)) ∧
  (∃ s : State, ∃ m : Msg, ∃ e ∈ homeRows, inTransit s e.1 m = false ∧ overtakes s e.1 m = false ∧ ((e.1 = 0x15 ∧ 64 < m.arg % 64 + 2 ^ (m.arg / 64 % 4)) ∨ (e.1 = 0x10 ∧ 9 < m.arg % 16))) ∧
  (∃ s : State, ∃ m : Msg, ∃ e ∈ homeRows, inTransit s e.1 m = false ∧ overtakes s e.1 m = false ∧ (¬((e.1 = 0x15 ∧ 64 < m.arg % 64 + 2 ^ (m.arg / 64 % 4)) ∨ (e.1 = 0x10 ∧ 9 < m.arg % 16))) ∧ s.deadAtSlice (homeOf m.line) m.agent = true) ∧
  (∃ s : State, ∃ m : Msg, ∃ e ∈ homeRows, inTransit s e.1 m = false ∧ overtakes s e.1 m = false ∧ (¬((e.1 = 0x15 ∧ 64 < m.arg % 64 + 2 ^ (m.arg / 64 % 4)) ∨ (e.1 = 0x10 ∧ 9 < m.arg % 16))) ∧ s.deadAtSlice (homeOf m.line) m.agent = false ∧ (aheadOf s (homeOf m.line) 4 = true ∨ 64 ≤ (s.fab.queue.filter (fun q => q.slice == homeOf m.line)).length)) ∧
  (∃ s : State, ∃ m : Msg, ∃ e ∈ homeRows, Arrives s e.1 m ∧ blocked (takeNet e.1 m s) e.1 m.line (setAhead s m) = true) ∧
  (∃ s : State, ∃ m : Msg, ∃ e ∈ homeRows, Arrives s e.1 m ∧ blocked (takeNet e.1 m s) e.1 m.line (setAhead s m) = false) ∧
  (∃ s : State, ∃ h : Nat, ∃ q : Queued, aheadOf s h 3 = false ∧ readyQueued s h s.fab.queue [] = some q) ∧
  (∃ s : State, ∃ h : Nat, (aheadOf s h 3 = true ∨ readyQueued s h s.fab.queue [] = none)) :=
  ⟨⟨(fab (fun f => { f with net := [(0x01, { agent := 271, line := 5, txn := 1 }), (0x01, { agent := 271, line := 5 })] })), { agent := 271, line := 5 }, (0x01, .rds), (by simp [homeRows]), by decide +kernel⟩,
  ⟨live, { agent := 271, line := 5, arg := 3 * 64 + 57 }, (0x15, .ucWr), (by simp [homeRows]), by decide +kernel, by decide +kernel, by decide +kernel⟩,
  ⟨(fab (fun f => { f with deadAt := [512 * homeOf 5 + 271] })), { agent := 271, line := 5, arg := 3 * 64 + 56 }, (0x15, .ucWr), (by simp [homeRows]), by decide +kernel, by decide +kernel, by decide +kernel, by decide +kernel⟩,
  ⟨(fab (fun f => { f with queue := List.replicate 64 ⟨1, { agent := 271, line := 5 }, homeOf 5, 0⟩ })), { agent := 0, line := 5 }, (0x01, .rds), (by simp [homeRows]), by decide +kernel, by decide +kernel, by decide +kernel, by decide +kernel, by decide +kernel⟩,
  ⟨(fab (fun f => { f with txns := [(5, tx)] })), { agent := 271, line := 5 }, (0x01, .rds), (by simp [homeRows]), ⟨by decide +kernel, by decide +kernel, by decide +kernel, by decide +kernel, by decide +kernel, by decide +kernel⟩, by decide +kernel⟩,
  ⟨live, { agent := 271, line := 5 }, (0x01, .rds), (by simp [homeRows]), ⟨by decide +kernel, by decide +kernel, by decide +kernel, by decide +kernel, by decide +kernel, by decide +kernel⟩, by decide +kernel⟩,
  ⟨(fab (fun f => { f with queue := [⟨1, { agent := 271, line := 5 }, homeOf 5, 0⟩] })), homeOf 5, ⟨1, { agent := 271, line := 5 }, homeOf 5, 0⟩, by decide +kernel, by decide +kernel⟩,
  ⟨live, 135, by decide +kernel⟩⟩

/-- States and operands that meet the hypotheses of AdmissionResolvesOrOpens. -/
theorem wit_admission_resolves_or_opens :
  (∃ s : State, ∃ m : Msg, ∃ op : Nat, ∃ e : WEnt, let u := renewed m.line (counted op m s)
    u.warAt m.line = some e ∧ op = 0x09 ∧ e.ex = true ∧ e.who = [m.agent]) ∧
  (∃ s : State, ∃ m : Msg, ∃ op : Nat, ∃ e : WEnt, let u := renewed m.line (counted op m s)
    u.warAt m.line = some e ∧ op = 0x1C ∧ e.ex = true ∧ e.who = [m.agent]) ∧
  (∃ s : State, ∃ m : Msg, ∃ op : Nat, ∃ e : WEnt, let u := renewed m.line (counted op m s)
    u.warAt m.line = some e ∧ op = 0x08 ∧ e.ex = true ∧ e.who = [m.agent]) ∧
  (∃ s : State, ∃ m : Msg, ∃ op : Nat, ∃ e : WEnt, let u := renewed m.line (counted op m s)
    u.warAt m.line = some e ∧ op = 0x08 ∧ e.ex = false ∧ e.coarse = false ∧ m.agent ∈ e.who) ∧
  (∃ s : State, ∃ m : Msg, ∃ op ∈ [0x08, 0x09, 0x1C], let u := renewed m.line (counted op m s)
    (∀ e, u.warAt m.line = some e → m.agent ∉ e.who ∨ (e.ex = false ∧ (op ≠ 0x08 ∨ e.coarse = true)))) ∧
  (∃ op : Nat, op ≠ 0x08 ∧ op ≠ 0x09 ∧ op ≠ 0x1C) :=
  ⟨⟨(fab (fun f => { f with warren := [(5, ⟨0, true, false, [271], 0⟩)] })), { agent := 271, line := 5 }, 0x09, _, some_of (by decide +kernel), by decide +kernel, by decide +kernel, by decide +kernel⟩,
  ⟨(fab (fun f => { f with warren := [(5, ⟨0, true, false, [271], 0⟩)] })), { agent := 271, line := 5 }, 0x1C, _, some_of (by decide +kernel), by decide +kernel, by decide +kernel, by decide +kernel⟩,
  ⟨(fab (fun f => { f with warren := [(5, ⟨0, true, false, [271], 0⟩)] })), { agent := 271, line := 5 }, 0x08, _, some_of (by decide +kernel), by decide +kernel, by decide +kernel, by decide +kernel⟩,
  ⟨(fab (fun f => { f with warren := [(5, ⟨0, false, false, [3, 271], 0⟩)] })), { agent := 271, line := 5 }, 0x08, _, some_of (by decide +kernel), by decide +kernel, by decide +kernel, by decide +kernel, by decide +kernel⟩,
  ⟨(fab (fun f => { f with warren := [(5, ⟨0, true, false, [3], 0⟩)] })), { agent := 271, line := 5 }, 0x08, (by decide), all_of (by decide +kernel)⟩,
  ⟨0x01, by decide +kernel, by decide +kernel, by decide +kernel⟩⟩

/-- States and operands that meet the hypotheses of AnswersReachTheHome. -/
theorem wit_answers_reach_the_home_1 :
  (∃ s : State, ∃ m : Msg, ∃ t : Txn, openAt s m.line = some t ∧ m.agent ∈ t.snoops ∧ s.deadAtSlice (homeOf m.line) m.agent = false ∧ inTransit s 0x80 m = false) ∧
  (∃ s : State, ∃ m : Msg, ∃ t : Txn, openAt s m.line = some t ∧ (m.agent ∈ t.snoops ∨ m.agent ∈ t.wbs) ∧ s.deadAtSlice (homeOf m.line) m.agent = false ∧ inTransit s 0xC2 m = false) ∧
  (∃ s : State, ∃ m : Msg, ∃ t : Txn, s.txnAt m.line = some t ∧ t.ack.isSome = true ∧ t.req.agent = m.agent ∧ s.deadAtSlice (homeOf m.line) m.agent = false ∧ inTransit s 0x81 m = false) ∧
  (∃ s : State, ∃ m : Msg, ∃ t : Txn, s.txnAt m.line = some t ∧ t.wrData = true ∧ t.req.agent = m.agent ∧ s.deadAtSlice (homeOf m.line) m.agent = false ∧ inTransit s 0xC3 m = false) ∧
  (∃ s : State, ∃ m : Msg, ∃ t : Txn, s.txnAt m.line = some t ∧ t.reading = true ∧ inTransit s 0xC8 m = false) ∧
  (∃ s : State, ∃ m : Msg, ∃ t : Txn, s.txnAt m.line = some t ∧ inTransit s 0x88 m = false) ∧
  (∃ s : State, ∃ ln : Nat, ∃ t : Txn, s.trkAt ln = some t ∧ t.snoops = [] ∧ t.wbs = [] ∧ aheadOf s (homeOf ln) 2 = false ∧ ∃ d, ∃ po, t.data = some (d, po)) ∧
  (∃ s : State, ∃ ln : Nat, ∃ t : Txn, s.trkAt ln = some t ∧ (t.snoops ≠ [] ∨ t.wbs ≠ [] ∨ aheadOf s (homeOf ln) 2 = true)) :=
  ⟨⟨(fab (fun f => { f with txns := [(5, { tx with snoops := [3, 271] })] })), { agent := 271, line := 5 }, { tx with snoops := [3, 271] }, by decide +kernel, by decide +kernel, by decide +kernel, by decide +kernel⟩,
  ⟨(fab (fun f => { f with trackers := [(5, { tx with wbs := [271] })] })), { agent := 271, line := 5 }, { tx with wbs := [271] }, by decide +kernel, by decide +kernel, by decide +kernel, by decide +kernel⟩,
  ⟨(fab (fun f => { f with txns := [(5, { tx with ack := some 1 })] })), { agent := 271, line := 5 }, { tx with ack := some 1 }, by decide +kernel, by decide +kernel, by decide +kernel, by decide +kernel, by decide +kernel⟩,
  ⟨(fab (fun f => { f with txns := [(5, { tx with wrData := true })] })), { agent := 271, line := 5 }, { tx with wrData := true }, by decide +kernel, by decide +kernel, by decide +kernel, by decide +kernel, by decide +kernel⟩,
  ⟨(fab (fun f => { f with txns := [(5, { tx with reading := true })] })), { agent := 271, line := 5 }, { tx with reading := true }, by decide +kernel, by decide +kernel, by decide +kernel⟩,
  ⟨(fab (fun f => { f with txns := [(5, { tx with writes := 1 })] })), { agent := 271, line := 5 }, { tx with writes := 1 }, by decide +kernel, by decide +kernel⟩,
  ⟨(fab (fun f => { f with trackers := [(5, { tx with data := some (1, true) })] })), 5, { tx with data := some (1, true) }, by decide +kernel, by decide +kernel, by decide +kernel, by decide +kernel, 1, true, by decide +kernel⟩,
  ⟨(fab (fun f => { f with trackers := [(5, { tx with wbs := [271] })] })), 5, { tx with wbs := [271] }, by decide +kernel, by decide +kernel⟩⟩

/-- States and operands that meet the hypotheses of AnswersReachTheHome. -/
theorem wit_answers_reach_the_home_2 :
  (∃ s : State, ∃ m : Msg, openAt s m.line = none ∧ inTransit s 0x80 m = false) ∧
  (∃ s : State, ∃ m : Msg, openAt s m.line = none ∧ inTransit s 0xC2 m = false) ∧
  (∃ s : State, ∃ m : Msg, openAt s m.line = none ∧ inTransit s 0x81 m = false) ∧
  (∃ s : State, ∃ m : Msg, openAt s m.line = none ∧ inTransit s 0xC3 m = false) ∧
  (∃ s : State, ∃ m : Msg, inTransit s 0x80 m = true) ∧
  (∃ s : State, ∃ m : Msg, inTransit s 0xC2 m = true) ∧
  (∃ s : State, ∃ m : Msg, inTransit s 0x81 m = true) ∧
  (∃ s : State, ∃ m : Msg, inTransit s 0xC3 m = true) :=
  ⟨⟨live, { agent := 271, line := 5 }, by decide +kernel, by decide +kernel⟩,
  ⟨live, { agent := 271, line := 5 }, by decide +kernel, by decide +kernel⟩,
  ⟨live, { agent := 271, line := 5 }, by decide +kernel, by decide +kernel⟩,
  ⟨live, { agent := 271, line := 5 }, by decide +kernel, by decide +kernel⟩,
  ⟨(fab (fun f => { f with sent := [(0x80, { agent := 271, line := 5 })] })), { agent := 271, line := 5 }, by decide +kernel⟩,
  ⟨(fab (fun f => { f with sent := [(0xC2, { agent := 271, line := 5 })] })), { agent := 271, line := 5 }, by decide +kernel⟩,
  ⟨(fab (fun f => { f with sent := [(0x81, { agent := 271, line := 5 })] })), { agent := 271, line := 5 }, by decide +kernel⟩,
  ⟨(fab (fun f => { f with sent := [(0xC3, { agent := 271, line := 5 })] })), { agent := 271, line := 5 }, by decide +kernel⟩⟩

/-- States and operands that meet the hypotheses of AnswersReachTheHome. -/
theorem wit_answers_reach_the_home_3 :
  (∃ s : State, ∃ m : Msg, inTransit s 0xC8 m = true) ∧
  (∃ s : State, ∃ m : Msg, inTransit s 0x88 m = true) :=
  ⟨⟨(fab (fun f => { f with sent := [(0xC8, { agent := 271, line := 5 })] })), { agent := 271, line := 5 }, by decide +kernel⟩,
  ⟨(fab (fun f => { f with sent := [(0x88, { agent := 271, line := 5 })] })), { agent := 271, line := 5 }, by decide +kernel⟩⟩

/-- States and operands that meet the hypotheses of SnoopsAreAnswered. -/
theorem wit_snoops_are_answered_1 :
  (∃ s : State, ∃ m : Msg, ∃ e ∈ snoopRows, inTransit s e.1 m = true) ∧
  (∃ s : State, ∃ m : Msg, ∃ e ∈ snoopRows, inTransit s e.1 m = false ∧ m.agent < 272 ∧ (s.core m.agent).dead = true) ∧
  (∃ s : State, ∃ m : Msg, ∃ c : Core, ∃ e ∈ snoopRows, inTransit s e.1 m = false ∧ m.agent < 272 ∧ (s.core m.agent).dead = false ∧ let u := snoopAt m.agent m.line (takeNet e.1 m s)
    u.core m.agent = c ∧ c.lrOpen = true ∧ c.resv = some m.line) ∧
  (∃ s : State, ∃ m : Msg, ∃ c : Core, ∃ e ∈ snoopRows, inTransit s e.1 m = false ∧ m.agent < 272 ∧ (s.core m.agent).dead = false ∧ let u := snoopAt m.agent m.line (takeNet e.1 m s)
    u.core m.agent = c ∧ (¬(c.lrOpen = true ∧ c.resv = some m.line)) ∧ ∃ x, ∃ y, smFind c.l2 m.line = some x ∧ let v := l2Check m.agent m.line (l1dCheck m.agent m.line u)
    smFind (v.core m.agent).l2 m.line = some y) ∧
  (∃ s : State, ∃ m : Msg, ∃ c : Core, ∃ e ∈ snoopRows, inTransit s e.1 m = false ∧ m.agent < 272 ∧ (s.core m.agent).dead = false ∧ let u := snoopAt m.agent m.line (takeNet e.1 m s)
    u.core m.agent = c ∧ (¬(c.lrOpen = true ∧ c.resv = some m.line)) ∧ ∃ x, smFind c.l2 m.line = none ∧ c.sideAt m.line = some x) ∧
  (∃ s : State, ∃ m : Msg, ∃ c : Core, ∃ e ∈ snoopRows, inTransit s e.1 m = false ∧ m.agent < 272 ∧ (s.core m.agent).dead = false ∧ let u := snoopAt m.agent m.line (takeNet e.1 m s)
    u.core m.agent = c ∧ (¬(c.lrOpen = true ∧ c.resv = some m.line)) ∧ ∃ w, smFind c.l2 m.line = none ∧ c.sideAt m.line = none ∧ c.wbb.find? (fun z => z.line == m.line) = some w) ∧
  (∃ s : State, ∃ m : Msg, ∃ c : Core, ∃ e ∈ snoopRows, inTransit s e.1 m = false ∧ m.agent < 272 ∧ (s.core m.agent).dead = false ∧ let u := snoopAt m.agent m.line (takeNet e.1 m s)
    u.core m.agent = c ∧ (¬(c.lrOpen = true ∧ c.resv = some m.line)) ∧ smFind c.l2 m.line = none ∧ c.sideAt m.line = none ∧ c.wbb.find? (fun z => z.line == m.line) = none) ∧
  (∃ s : State, ∃ m : Msg, ∃ n : Nat, ∃ e ∈ snoopRows, inTransit s e.1 m = false ∧ n < 9 ∧ m.agent = 480 + n ∧ (s.port n).dead = true) :=
  ⟨⟨(fab (fun f => { f with sent := [(0x40, { agent := 271, line := 5 })] })), { agent := 271, line := 5 }, (0x40, .snpS), (by simp [snoopRows]), by decide +kernel⟩,
  ⟨(cpu .m (fun c => { c with dead := true })), { agent := 271, line := 5 }, (0x40, .snpS), (by simp [snoopRows]), by decide +kernel, by decide +kernel, by decide +kernel⟩,
  ⟨(cpu .m (fun c => { c with lrOpen := true, lrDue := 9, resv := some 5 })), { agent := 271, line := 5 }, _, (0x40, .snpS), (by simp [snoopRows]), by decide +kernel, by decide +kernel, by decide +kernel, rfl, by decide +kernel, by decide +kernel⟩,
  ⟨(cpu .m (fun c => { c with l2 := [(5, ⟨.m, 0, 0, false, some ⟨0, 0, true⟩, none⟩)] })), { agent := 271, line := 5 }, _, (0x40, .snpS), (by simp [snoopRows]), by decide +kernel, by decide +kernel, by decide +kernel, rfl, by decide +kernel, _, _, some_of (by decide +kernel), some_of (by decide +kernel)⟩,
  ⟨(cpu .m (fun c => { c with side := [⟨5, true, 1, false, 9, false⟩] })), { agent := 271, line := 5 }, _, (0x40, .snpS), (by simp [snoopRows]), by decide +kernel, by decide +kernel, by decide +kernel, rfl, by decide +kernel, ⟨5, true, 1, false, 9, false⟩, by decide +kernel, by decide +kernel⟩,
  ⟨(cpu .m (fun c => { c with wbb := [⟨5, true, 1, false⟩] })), { agent := 271, line := 5 }, _, (0x40, .snpS), (by simp [snoopRows]), by decide +kernel, by decide +kernel, by decide +kernel, rfl, by decide +kernel, ⟨5, true, 1, false⟩, by decide +kernel, by decide +kernel, by decide +kernel⟩,
  ⟨cpu .m, { agent := 271, line := 5 }, _, (0x40, .snpS), (by simp [snoopRows]), by decide +kernel, by decide +kernel, by decide +kernel, rfl, by decide +kernel, by decide +kernel, by decide +kernel, by decide +kernel⟩,
  ⟨(live.setPort 8 { dead := true }), { agent := 488, line := 5 }, 8, (0x40, .snpS), (by simp [snoopRows]), by decide +kernel, by decide +kernel, by decide +kernel, by decide +kernel⟩⟩

/-- States and operands that meet the hypotheses of SnoopsAreAnswered. -/
theorem wit_snoops_are_answered_2 :
  (∃ s : State, ∃ m : Msg, ∃ n : Nat, ∃ e ∈ snoopRows, inTransit s e.1 m = false ∧ n < 9 ∧ m.agent = 480 + n ∧ (s.port n).dead = false ∧ ∃ x, (s.port n).pieces.find? (fun x => x.line == m.line && (x.st == .owned || x.st == .committing)) = some x ∧ x.st = .owned) ∧
  (∃ s : State, ∃ m : Msg, ∃ n : Nat, ∃ e ∈ snoopRows, inTransit s e.1 m = false ∧ n < 9 ∧ m.agent = 480 + n ∧ (s.port n).dead = false ∧ (s.port n).pieces.find? (fun x => x.line == m.line && (x.st == .owned || x.st == .committing)) = none) :=
  ⟨⟨(live.setPort 8 { pieces := [{ pc0 with st := .owned }] }), { agent := 488, line := 5 }, 8, (0x40, .snpS), (by simp [snoopRows]), by decide +kernel, by decide +kernel, by decide +kernel, by decide +kernel, { pc0 with st := .owned }, by decide +kernel, by decide +kernel⟩,
  ⟨live, { agent := 488, line := 5 }, 8, (0x40, .snpS), (by simp [snoopRows]), by decide +kernel, by decide +kernel, by decide +kernel, by decide +kernel, by decide +kernel⟩⟩

/-- States and operands that meet the hypotheses of RepliesReachTheRequester. -/
theorem wit_replies_reach_the_requester_1 :
  (∃ s : State, ∃ m : Msg, ∃ r : MReq, m.agent < 272 ∧ (s.core m.agent).dead = false ∧ inTransit s 0xC0 m = false ∧ mrFor s m fillUses = some r ∧ m.arg % 4 ≠ 0) ∧
  (∃ s : State, ∃ m : Msg, ∃ r : MReq, m.agent < 272 ∧ (s.core m.agent).dead = false ∧ inTransit s 0x82 m = false ∧ mrFor s m fillUses = some r) ∧
  (∃ s : State, ∃ m : Msg, ∃ r : MReq, m.agent < 272 ∧ (s.core m.agent).dead = false ∧ inTransit s 0x83 m = false ∧ mrFor s m [.wc, .ucWrite, .spoor, .zero] = some r) ∧
  (∃ s : State, ∃ m : Msg, ∃ r : MReq, m.agent < 272 ∧ (s.core m.agent).dead = false ∧ inTransit s 0x84 m = false ∧ mrFor s m [.wc, .ucWrite, .cbo, .spoor] = some r ∧ r.use = .wc) ∧
  (∃ s : State, ∃ m : Msg, ∃ r : MReq, m.agent < 272 ∧ (s.core m.agent).dead = false ∧ inTransit s 0x84 m = false ∧ mrFor s m [.wc, .ucWrite, .cbo, .spoor] = some r ∧ r.use = .spoor) ∧
  (∃ s : State, ∃ m : Msg, ∃ r : MReq, m.agent < 272 ∧ (s.core m.agent).dead = false ∧ inTransit s 0x84 m = false ∧ mrFor s m [.wc, .ucWrite, .cbo, .spoor] = some r ∧ let u := dropMr m.agent r.txn (takeNet 0x84 m s)
    ∃ i, r.use = .cbo ∧ (u.core m.agent).stall = some i ∧ i.seq ∈ r.waits) ∧
  (∃ s : State, ∃ m : Msg, ∃ r : MReq, m.agent < 272 ∧ (s.core m.agent).dead = false ∧ inTransit s 0x84 m = false ∧ mrFor s m [.wc, .ucWrite, .cbo, .spoor] = some r ∧ let u := dropMr m.agent r.txn (takeNet 0x84 m s)
    ∃ d, r.use = .ucWrite ∧ (u.core m.agent).dev = some d ∧ d.write = true ∧ r.waits = [d.seq]) ∧
  (∃ s : State, ∃ m : Msg, ∃ r : MReq, m.agent < 272 ∧ (s.core m.agent).dead = false ∧ ∃ i, ∃ rd, ∃ n, inTransit s 0xC4 m = false ∧ mrFor s m [.amo, .ad] = some r ∧ r.use = .amo ∧ let u := dropMr m.agent r.txn (takeNet 0xC4 m s)
    (u.core m.agent).amoAt = some (i, .x rd, n)) :=
  ⟨⟨(cpu .m (fun c => { c with mrs := [{ newMr .read 5 with op := 1 }] })), { agent := 271, line := 5, arg := 3 }, { newMr .read 5 with op := 1 }, by decide +kernel, by decide +kernel, by decide +kernel, by decide +kernel, by decide +kernel⟩,
  ⟨(cpu .m (fun c => { c with mrs := [{ newMr .own 5 with op := 1 }] })), { agent := 271, line := 5 }, { newMr .own 5 with op := 1 }, by decide +kernel, by decide +kernel, by decide +kernel, by decide +kernel⟩,
  ⟨(cpu .m (fun c => { c with mrs := [{ newMr .wc 5 with op := 1 }] })), { agent := 271, line := 5 }, { newMr .wc 5 with op := 1 }, by decide +kernel, by decide +kernel, by decide +kernel, by decide +kernel⟩,
  ⟨(cpu .m (fun c => { c with mrs := [{ newMr .wc 5 with op := 1 }] })), { agent := 271, line := 5 }, { newMr .wc 5 with op := 1 }, by decide +kernel, by decide +kernel, by decide +kernel, by decide +kernel, by decide +kernel⟩,
  ⟨(cpu .m (fun c => { c with mrs := [{ newMr .spoor 5 with op := 1 }] })), { agent := 271, line := 5 }, { newMr .spoor 5 with op := 1 }, by decide +kernel, by decide +kernel, by decide +kernel, by decide +kernel, by decide +kernel⟩,
  ⟨(cpu .m (fun c => { c with mrs := [{ newMr .cbo 5 with op := 1, waits := [0] }], stall := some ins })), { agent := 271, line := 5 }, { newMr .cbo 5 with op := 1, waits := [0] }, by decide +kernel, by decide +kernel, by decide +kernel, by decide +kernel, ins, by decide +kernel, by decide +kernel, by decide +kernel⟩,
  ⟨(cpu .m (fun c => { c with mrs := [{ newMr .ucWrite 5 with op := 1, waits := [4] }], dev := some ⟨4, true, 0x140, 8, 0, .none, false⟩ })), { agent := 271, line := 5 }, { newMr .ucWrite 5 with op := 1, waits := [4] }, by decide +kernel, by decide +kernel, by decide +kernel, by decide +kernel, ⟨4, true, 0x140, 8, 0, .none, false⟩, by decide +kernel, by decide +kernel, by decide +kernel, by decide +kernel⟩,
  ⟨(cpu .m (fun c => { c with mrs := [{ newMr .amo 5 with op := 1 }], amoAt := some (ins, .x 5, 8) })), { agent := 271, line := 5 }, { newMr .amo 5 with op := 1 }, by decide +kernel, by decide +kernel, ins, 5, 8, by decide +kernel, by decide +kernel, by decide +kernel, by decide +kernel⟩⟩

/-- States and operands that meet the hypotheses of RepliesReachTheRequester. -/
theorem wit_replies_reach_the_requester_2 :
  (∃ s : State, ∃ m : Msg, ∃ r : MReq, m.agent < 272 ∧ (s.core m.agent).dead = false ∧ inTransit s 0xC4 m = false ∧ mrFor s m [.amo, .ad] = some r ∧ r.use = .ad) ∧
  (∃ s : State, ∃ m : Msg, ∃ r : MReq, m.agent < 272 ∧ (s.core m.agent).dead = false ∧ inTransit s 0xC5 m = false ∧ mrFor s m [.ucRead] = some r ∧ ∃ q, ∃ l, r.waits = q :: l) ∧
  (∃ s : State, ∃ m : Msg, ∃ r : MReq, m.agent < 272 ∧ (s.core m.agent).dead = false ∧ inTransit s 0xC5 m = false ∧ mrFor s m [.ucRead] = some r ∧ r.waits = []) ∧
  (∃ s : State, ∃ m : Msg, inTransit s 0x85 m = false ∧ m.agent < 272 ∧ (s.core m.agent).dead = false ∧ (s.core m.agent).wbb.any (fun w => w.line == m.line) = true) ∧
  (∃ s : State, ∃ m : Msg, inTransit s 0x85 m = false ∧ m.agent < 272 ∧ (s.core m.agent).dead = false ∧ (s.core m.agent).wbb.any (fun w => w.line == m.line) = false) ∧
  (∃ s : State, ∃ m : Msg, m.agent < 272 ∧ (s.core m.agent).dead = false ∧ (∀ uses, mrFor s m uses = none) ∧ inTransit s 0xC0 m = false) ∧
  (∃ s : State, ∃ m : Msg, m.agent < 272 ∧ (s.core m.agent).dead = false ∧ (∀ uses, mrFor s m uses = none) ∧ inTransit s 0x82 m = false) ∧
  (∃ s : State, ∃ m : Msg, m.agent < 272 ∧ (s.core m.agent).dead = false ∧ (∀ uses, mrFor s m uses = none) ∧ inTransit s 0x83 m = false) :=
  ⟨⟨(cpu .m (fun c => { c with mrs := [{ newMr .ad 5 with op := 1 }] })), { agent := 271, line := 5 }, { newMr .ad 5 with op := 1 }, by decide +kernel, by decide +kernel, by decide +kernel, by decide +kernel, by decide +kernel⟩,
  ⟨(cpu .m (fun c => { c with mrs := [{ newMr .ucRead 5 with op := 1, waits := [4] }] })), { agent := 271, line := 5 }, { newMr .ucRead 5 with op := 1, waits := [4] }, by decide +kernel, by decide +kernel, by decide +kernel, by decide +kernel, 4, [], by decide +kernel⟩,
  ⟨(cpu .m (fun c => { c with mrs := [{ newMr .ucRead 5 with op := 1 }] })), { agent := 271, line := 5 }, { newMr .ucRead 5 with op := 1 }, by decide +kernel, by decide +kernel, by decide +kernel, by decide +kernel, by decide +kernel⟩,
  ⟨(cpu .m (fun c => { c with wbb := [⟨5, true, 1, false⟩] })), { agent := 271, line := 5 }, by decide +kernel, by decide +kernel, by decide +kernel, by decide +kernel⟩,
  ⟨cpu .m, { agent := 271, line := 5 }, by decide +kernel, by decide +kernel, by decide +kernel, by decide +kernel⟩,
  ⟨cpu .m, { agent := 271, line := 5 }, by decide +kernel, by decide +kernel, (by intro u; rfl), by decide +kernel⟩,
  ⟨cpu .m, { agent := 271, line := 5 }, by decide +kernel, by decide +kernel, (by intro u; rfl), by decide +kernel⟩,
  ⟨cpu .m, { agent := 271, line := 5 }, by decide +kernel, by decide +kernel, (by intro u; rfl), by decide +kernel⟩⟩

/-- States and operands that meet the hypotheses of RepliesReachTheRequester. -/
theorem wit_replies_reach_the_requester_3 :
  (∃ s : State, ∃ m : Msg, m.agent < 272 ∧ (s.core m.agent).dead = false ∧ (∀ uses, mrFor s m uses = none) ∧ inTransit s 0x84 m = false) ∧
  (∃ s : State, ∃ m : Msg, m.agent < 272 ∧ (s.core m.agent).dead = false ∧ (∀ uses, mrFor s m uses = none) ∧ inTransit s 0xC4 m = false) ∧
  (∃ s : State, ∃ m : Msg, m.agent < 272 ∧ (s.core m.agent).dead = false ∧ (∀ uses, mrFor s m uses = none) ∧ inTransit s 0xC5 m = false) ∧
  (∃ s : State, ∃ m : Msg, ∃ n : Nat, n < 9 ∧ m.agent = 480 + n ∧ (s.port n).dead = false ∧ portAwaits s n m = true ∧ inTransit s 0xC0 m = false ∧ m.arg % 4 ≠ 0) ∧
  (∃ s : State, ∃ m : Msg, ∃ n : Nat, n < 9 ∧ m.agent = 480 + n ∧ (s.port n).dead = false ∧ portAwaits s n m = true ∧ inTransit s 0x82 m = false) ∧
  (∃ s : State, ∃ m : Msg, ∃ n : Nat, n < 9 ∧ m.agent = 480 + n ∧ (s.port n).dead = false ∧ portAwaits s n m = true ∧ inTransit s 0x84 m = false) ∧
  (∃ s : State, ∃ m : Msg, ∃ n : Nat, n < 9 ∧ m.agent = 480 + n ∧ (s.port n).dead = false ∧ portAwaits s n m = true ∧ inTransit s 0xC5 m = false) ∧
  (∃ s : State, ∃ m : Msg, inTransit s 0xC0 m = true) :=
  ⟨⟨cpu .m, { agent := 271, line := 5 }, by decide +kernel, by decide +kernel, (by intro u; rfl), by decide +kernel⟩,
  ⟨cpu .m, { agent := 271, line := 5 }, by decide +kernel, by decide +kernel, (by intro u; rfl), by decide +kernel⟩,
  ⟨cpu .m, { agent := 271, line := 5 }, by decide +kernel, by decide +kernel, (by intro u; rfl), by decide +kernel⟩,
  ⟨(live.setPort 8 { pieces := [{ pc0 with st := .asked }] }), { agent := 488, line := 5, arg := 3 }, 8, by decide +kernel, by decide +kernel, by decide +kernel, by decide +kernel, by decide +kernel, by decide +kernel⟩,
  ⟨(live.setPort 8 { pieces := [{ pc0 with st := .asked }] }), { agent := 488, line := 5, arg := 3 }, 8, by decide +kernel, by decide +kernel, by decide +kernel, by decide +kernel, by decide +kernel⟩,
  ⟨(live.setPort 8 { pieces := [{ pc0 with st := .asked }] }), { agent := 488, line := 5, arg := 3 }, 8, by decide +kernel, by decide +kernel, by decide +kernel, by decide +kernel, by decide +kernel⟩,
  ⟨(live.setPort 8 { pieces := [{ pc0 with st := .asked }] }), { agent := 488, line := 5, arg := 3 }, 8, by decide +kernel, by decide +kernel, by decide +kernel, by decide +kernel, by decide +kernel⟩,
  ⟨(fab (fun f => { f with sent := [(0xC0, { agent := 271, line := 5 })] })), { agent := 271, line := 5 }, by decide +kernel⟩⟩

/-- States and operands that meet the hypotheses of RepliesReachTheRequester. -/
theorem wit_replies_reach_the_requester_4 :
  (∃ s : State, ∃ m : Msg, inTransit s 0x82 m = true) ∧
  (∃ s : State, ∃ m : Msg, inTransit s 0x83 m = true) ∧
  (∃ s : State, ∃ m : Msg, inTransit s 0x84 m = true) ∧
  (∃ s : State, ∃ m : Msg, inTransit s 0xC4 m = true) ∧
  (∃ s : State, ∃ m : Msg, inTransit s 0xC5 m = true) ∧
  (∃ s : State, ∃ m : Msg, inTransit s 0x85 m = true) :=
  ⟨⟨(fab (fun f => { f with sent := [(0x82, { agent := 271, line := 5 })] })), { agent := 271, line := 5 }, by decide +kernel⟩,
  ⟨(fab (fun f => { f with sent := [(0x83, { agent := 271, line := 5 })] })), { agent := 271, line := 5 }, by decide +kernel⟩,
  ⟨(fab (fun f => { f with sent := [(0x84, { agent := 271, line := 5 })] })), { agent := 271, line := 5 }, by decide +kernel⟩,
  ⟨(fab (fun f => { f with sent := [(0xC4, { agent := 271, line := 5 })] })), { agent := 271, line := 5 }, by decide +kernel⟩,
  ⟨(fab (fun f => { f with sent := [(0xC5, { agent := 271, line := 5 })] })), { agent := 271, line := 5 }, by decide +kernel⟩,
  ⟨(fab (fun f => { f with sent := [(0x85, { agent := 271, line := 5 })] })), { agent := 271, line := 5 }, by decide +kernel⟩⟩

/-- States and operands that meet the hypotheses of DeadAgentsAreDeclaredAndSwept. -/
theorem wit_dead_agents_are_declared_and_swept_1 :
  (∃ s : State, ∃ ln : Nat, ∃ a : Nat, ∃ t : Txn, openAt s ln = some t ∧ (a ∈ t.snoops ∨ a ∈ t.wbs ∨ (t.req.agent = a ∧ (t.ack.isSome = true ∨ t.wrData = true))) ∧ s.deadAtSlice (homeOf ln) a = false) ∧
  (∃ s : State, ∃ ln : Nat, ∃ a : Nat, ∃ t : Txn, openAt s ln = some t ∧ (a ∈ t.snoops ∨ a ∈ t.wbs ∨ (t.req.agent = a ∧ (t.ack.isSome = true ∨ t.wrData = true))) ∧ s.deadAtSlice (homeOf ln) a = true) ∧
  (∃ s : State, ∃ ln : Nat, ∃ a : Nat, ∃ t : Txn, openAt s ln = some t ∧ (¬(a ∈ t.snoops ∨ a ∈ t.wbs ∨ (t.req.agent = a ∧ (t.ack.isSome = true ∨ t.wrData = true))))) ∧
  (∃ s : State, ∃ a : Nat, ∃ txn : Nat, ∃ r : MReq, a < 272 ∧ (s.core a).mrs.find? (fun r => r.txn == txn && r.op != 0) = some r) ∧
  (∃ s : State, ∃ n : Nat, ∃ txn : Nat, ∃ t : Nat, ∃ k : Nat, n < 9 ∧ portWait (s.port n) txn = some (t, k)) ∧
  (∃ s : State, ∃ a : Nat, ∃ ln : Nat, ∃ t : Txn, 512 ≤ a ∧ s.txnAt ln = some t ∧ (t.reading = true ∨ 0 < t.writes)) ∧
  (∃ s : State, ∃ h : Nat, ∃ a : Nat, inTransit s 0xE0 { agent := a, line := h } = false ∧ s.hubDead a = true) ∧
  (∃ s : State, ∃ h : Nat, ∃ a : Nat, inTransit s 0xE0 { agent := a, line := h } = false ∧ s.hubDead a = false) :=
  ⟨⟨(fab (fun f => { f with txns := [(5, { tx with ack := some 1 })] })), 5, 271, { tx with ack := some 1 }, by decide +kernel, by decide +kernel, by decide +kernel⟩,
  ⟨(fab (fun f => { f with txns := [(5, { tx with snoops := [271] })], deadAt := [512 * homeOf 5 + 271] })), 5, 271, { tx with snoops := [271] }, by decide +kernel, by decide +kernel, by decide +kernel⟩,
  ⟨(fab (fun f => { f with txns := [(5, { tx with ack := none })] })), 5, 271, { tx with ack := none }, by decide +kernel, by decide +kernel⟩,
  ⟨(cpu .m (fun c => { c with mrs := [{ newMr .read 5 with op := 1 }] })), 271, 0, { newMr .read 5 with op := 1 }, by decide +kernel, by decide +kernel⟩,
  ⟨(live.setPort 8 { pieces := [{ pc0 with st := .asked }] }), 8, 0, 0, 0, by decide +kernel, by decide +kernel⟩,
  ⟨(fab (fun f => { f with txns := [(5, { tx with writes := 1 })] })), 512, 5, { tx with writes := 1 }, by decide +kernel, by decide +kernel, by decide +kernel⟩,
  ⟨put live [(.bchub, Off.DEAD_SET + 56, 0x100)], 135, 456, by decide +kernel, by decide +kernel⟩,
  ⟨live, 135, 488, by decide +kernel, by decide +kernel⟩⟩

/-- States and operands that meet the hypotheses of DeadAgentsAreDeclaredAndSwept. -/
theorem wit_dead_agents_are_declared_and_swept_2 :
  (∃ s : State, ∃ st : Nat, ∃ a : Nat, s.fab.hub.deads.any (fun d => d.1 == a && d.2.contains st) = true ∧ 17 ≤ st ∧ st ≤ 152) ∧
  (∃ s : State, ∃ st : Nat, ∃ a : Nat, s.fab.hub.deads.any (fun d => d.1 == a && d.2.contains st) = true ∧ st = 8 ∧ a < 272) ∧
  (∃ s : State, ∃ st : Nat, ∃ a : Nat, s.fab.hub.deads.any (fun d => d.1 == a && d.2.contains st) = true ∧ st = 160 ∧ a < 272) ∧
  (∃ s : State, ∃ st : Nat, ∃ a : Nat, s.fab.hub.deads.any (fun d => d.1 == a && d.2.contains st) = true ∧ (st < 17 ∨ 152 < st) ∧ st ≠ 8 ∧ st ≠ 160) ∧
  (∃ s : State, ∃ h : Nat, ∃ r : Reclaim, s.fab.reclaims.find? (fun r => r.slice == h) = some r ∧ let u := (reclaimVisit h r.agent s).2
    reclaimLeft h r.agent u = true) ∧
  (∃ s : State, ∃ h : Nat, ∃ r : Reclaim, s.fab.reclaims.find? (fun r => r.slice == h) = some r ∧ let u := (reclaimVisit h r.agent s).2
    reclaimLeft h r.agent u = false) ∧
  (∃ s : State, ∃ h : Nat, ∃ a : Nat, inTransit s 0xE2 { agent := a, line := h } = false ∧ s.fab.hub.sweeps = [(a, [h])]) :=
  ⟨⟨(fab (fun f => { f with hub := { f.hub with deads := [(271, [152])] } })), 152, 271, by decide +kernel, by decide +kernel, by decide +kernel⟩,
  ⟨(fab (fun f => { f with hub := { f.hub with deads := [(271, [8])] } })), 8, 271, by decide +kernel, by decide +kernel, by decide +kernel⟩,
  ⟨(fab (fun f => { f with hub := { f.hub with deads := [(271, [160])] } })), 160, 271, by decide +kernel, by decide +kernel, by decide +kernel⟩,
  ⟨(fab (fun f => { f with hub := { f.hub with deads := [(271, [169])] } })), 169, 271, by decide +kernel, by decide +kernel, by decide +kernel, by decide +kernel⟩,
  ⟨(fab (fun f => { f with reclaims := [⟨135, 271, 0, 0⟩], warren := [((((List.range 4096).find? (fun l => homeOf l == 135)).getD 0), ⟨0, true, false, [271], 0⟩)], txns := [((((List.range 4096).find? (fun l => homeOf l == 135)).getD 0), tx)] })), 135, ⟨135, 271, 0, 0⟩, by decide +kernel, by decide +kernel⟩,
  ⟨(fab (fun f => { f with reclaims := [⟨135, 271, 0, 0⟩] })), 135, ⟨135, 271, 0, 0⟩, by decide +kernel, by decide +kernel⟩,
  ⟨(fab (fun f => { f with hub := { f.hub with sweeps := [(271, [135])] } })), 135, 271, by decide +kernel, by decide +kernel⟩⟩

/-- States and operands that meet the hypotheses of BroadcastTargetsAndCoherenceCommands. -/
theorem wit_broadcast_targets_and_coherence_commands_1 :
  (∃ s : State, ∃ a : Nat, ∃ id : Nat, ∃ b : Bcast, a < 272 ∧ s.fab.hub.bcasts.find? (fun b => b.id == id && b.admitted && b.waits.contains a) = some b ∧ let u := deliverCopy (agentStop a) id s
    (u.core a).dead = true) ∧
  (∃ s : State, ∃ a : Nat, ∃ id : Nat, ∃ b : Bcast, a < 272 ∧ s.fab.hub.bcasts.find? (fun b => b.id == id && b.admitted && b.waits.contains a) = some b ∧ let u := deliverCopy (agentStop a) id s
    (u.core a).dead = false ∧ hearsBcast (u.core a) = false) ∧
  (∃ s : State, ∃ a : Nat, ∃ id : Nat, ∃ b : Bcast, a < 272 ∧ s.fab.hub.bcasts.find? (fun b => b.id == id && b.admitted && b.waits.contains a) = some b ∧ let u := deliverCopy (agentStop a) id s
    let busy := nonRevocable (u.core a) = true ∨ (u.core a).mrs.any (fun r => r.use == .cbo) = true
    (u.core a).dead = false ∧ hearsBcast (u.core a) = true ∧ b.acting.contains a = false ∧ busy) ∧
  (∃ s : State, ∃ a : Nat, ∃ id : Nat, ∃ b : Bcast, a < 272 ∧ s.fab.hub.bcasts.find? (fun b => b.id == id && b.admitted && b.waits.contains a) = some b ∧ let u := deliverCopy (agentStop a) id s
    let busy := nonRevocable (u.core a) = true ∨ (u.core a).mrs.any (fun r => r.use == .cbo) = true
    let v := if b.acting.contains a then drainGone a u else setBcast { b with acting := insNat a b.acting } (coreBcast a b u)
    (u.core a).dead = false ∧ hearsBcast (u.core a) = true ∧ (b.acting.contains a = true ∨ ¬busy) ∧ bcastHeld (v.core a) = true) ∧
  (∃ s : State, ∃ a : Nat, ∃ id : Nat, ∃ b : Bcast, a < 272 ∧ s.fab.hub.bcasts.find? (fun b => b.id == id && b.admitted && b.waits.contains a) = some b ∧ let u := deliverCopy (agentStop a) id s
    let busy := nonRevocable (u.core a) = true ∨ (u.core a).mrs.any (fun r => r.use == .cbo) = true
    let v := if b.acting.contains a then drainGone a u else setBcast { b with acting := insNat a b.acting } (coreBcast a b u)
    (u.core a).dead = false ∧ hearsBcast (u.core a) = true ∧ (b.acting.contains a = true ∨ ¬busy) ∧ bcastHeld (v.core a) = false) ∧
  (∃ s : State, ∃ n : Nat, ∃ id : Nat, ∃ b : Bcast, n < 9 ∧ s.fab.hub.bcasts.find? (fun b => b.id == id && b.admitted && b.waits.contains (480 + n)) = some b ∧ let u := deliverCopy (agentStop (480 + n)) id s
    (u.port n).dead = true) ∧
  (∃ s : State, ∃ n : Nat, ∃ id : Nat, ∃ b : Bcast, n < 9 ∧ s.fab.hub.bcasts.find? (fun b => b.id == id && b.admitted && b.waits.contains (480 + n)) = some b ∧ let u := deliverCopy (agentStop (480 + n)) id s
    (u.port n).dead = false) ∧
  (∃ s : State, ∃ ch : Nat, ∃ tag : Nat, ∃ c : Cmd, Ready s ch tag 0x0350 c ∧ let v := bytesAt c.body 0 0
    (v < 14 ∨ 26 < v ∨ snpTmoOk s v = false)) :=
  ⟨⟨({ (cpu .m (fun c => { c with dead := true })) with fab := { live.fab with hub := { live.fab.hub with bcasts := [⟨3, 0, 2, 511, 0, 0, 12, true, [271], [], [], 0, 0, 16⟩] } } } : State), 271, 3, ⟨3, 0, 2, 511, 0, 0, 12, true, [271], [], [], 0, 0, 16⟩, by decide +kernel, by decide +kernel, by decide +kernel⟩,
  ⟨({ (cpu .m (fun c => { c with on := false })) with fab := { live.fab with hub := { live.fab.hub with bcasts := [⟨3, 0, 2, 511, 0, 0, 12, true, [271], [], [], 0, 0, 16⟩] } } } : State), 271, 3, ⟨3, 0, 2, 511, 0, 0, 12, true, [271], [], [], 0, 0, 16⟩, by decide +kernel, by decide +kernel, by decide +kernel, by decide +kernel⟩,
  ⟨({ (cpu .m (fun c => { c with mrs := [{ newMr .cbo 5 with op := 1 }] })) with fab := { live.fab with hub := { live.fab.hub with bcasts := [⟨3, 0, 2, 511, 0, 0, 12, true, [271], [], [], 0, 0, 16⟩] } } } : State), 271, 3, ⟨3, 0, 2, 511, 0, 0, 12, true, [271], [], [], 0, 0, 16⟩, by decide +kernel, by decide +kernel, by decide +kernel, by decide +kernel, by decide +kernel, Or.inr (by decide +kernel)⟩,
  ⟨({ (cpu .m (fun c => { c with mrs := [{ newMr .wc 5 with op := 1 }] })) with fab := { live.fab with hub := { live.fab.hub with bcasts := [⟨3, 0, 2, 511, 0, 0, 12, true, [271], [], [], 0, 0, 16⟩] } } } : State), 271, 3, ⟨3, 0, 2, 511, 0, 0, 12, true, [271], [], [], 0, 0, 16⟩, by decide +kernel, by decide +kernel, by decide +kernel, by decide +kernel, Or.inr (by decide +kernel), by decide +kernel⟩,
  ⟨({ cpu .m with fab := { live.fab with hub := { live.fab.hub with bcasts := [⟨3, 0, 2, 511, 0, 0, 12, true, [271], [], [271], 0, 0, 16⟩] } } } : State), 271, 3, ⟨3, 0, 2, 511, 0, 0, 12, true, [271], [], [271], 0, 0, 16⟩, by decide +kernel, by decide +kernel, by decide +kernel, by decide +kernel, Or.inl (by decide +kernel), by decide +kernel⟩,
  ⟨({ (live.setPort 8 { dead := true }) with fab := { live.fab with hub := { live.fab.hub with bcasts := [⟨3, 0, 2, 511, 0, 0, 12, true, [488], [], [], 0, 0, 16⟩] } } } : State), 8, 3, ⟨3, 0, 2, 511, 0, 0, 12, true, [488], [], [], 0, 0, 16⟩, by decide +kernel, by decide +kernel, by decide +kernel⟩,
  ⟨({ live with fab := { live.fab with hub := { live.fab.hub with bcasts := [⟨3, 0, 2, 511, 0, 0, 12, true, [480], [], [], 0, 0, 16⟩] } } } : State), 0, 3, ⟨3, 0, 2, 511, 0, 0, 12, true, [480], [], [], 0, 0, 16⟩, by decide +kernel, by decide +kernel, by decide +kernel⟩,
  ⟨asks (live) 0x0350 [13], 0, 7, cmd0 0x0350 [13], ready_of (by decide +kernel), by decide +kernel⟩⟩

/-- States and operands that meet the hypotheses of BroadcastTargetsAndCoherenceCommands. -/
theorem wit_broadcast_targets_and_coherence_commands_2 :
  (∃ s : State, ∃ ch : Nat, ∃ tag : Nat, ∃ c : Cmd, Ready s ch tag 0x0350 c ∧ let v := bytesAt c.body 0 0
    let taken := s.leased Blk.bchub.inst = true ∨ (List.range 136).any (fun h => s.leased (Blk.warren h).inst) = true
    14 ≤ v ∧ v ≤ 26 ∧ snpTmoOk s v = true ∧ taken) ∧
  (∃ s : State, ∃ ch : Nat, ∃ tag : Nat, ∃ c : Cmd, Ready s ch tag 0x0350 c ∧ let v := bytesAt c.body 0 0
    let taken := s.leased Blk.bchub.inst = true ∨ (List.range 136).any (fun h => s.leased (Blk.warren h).inst) = true
    14 ≤ v ∧ v ≤ 26 ∧ snpTmoOk s v = true ∧ (¬taken)) ∧
  (∃ s : State, ∃ ch : Nat, ∃ tag : Nat, ∃ c : Cmd, Ready s ch tag 0x0351 c) :=
  ⟨⟨asks ({ live with sett := { live.sett with leases := [⟨0, Blk.bchub.inst, 0, 9⟩] } }) 0x0350 [14], 0, 7, cmd0 0x0350 [14], ready_of (by decide +kernel), by decide +kernel, by decide +kernel, by decide +kernel, Or.inl (by decide +kernel)⟩,
  ⟨asks (live) 0x0350 [14], 0, 7, cmd0 0x0350 [14], ready_of (by decide +kernel), by decide +kernel, by decide +kernel, by decide +kernel, by decide +kernel⟩,
  ⟨asks (live) 0x0351 [], 0, 7, cmd0 0x0351 [], ready_of (by decide +kernel)⟩⟩

/-- States and operands that meet the hypotheses of MeshLinksReplayRepairAndFail. -/
theorem wit_mesh_links_replay_repair_and_fail_1 :
  (∃ s : State, ∃ st : Nat, ∃ p : Nat, ∃ fs : Nat, ∃ fp : Nat, ∃ eFlit : BitVec 640, ∃ eCrc : BitVec 16, ∃ eSeq : BitVec 5, ∃ eFv : BitVec 1, ∃ eAck : BitVec 5, ∃ eNak : BitVec 1, ∃ eCrd : BitVec 7, ∃ eRsv : BitVec 5, linkPresent st p = true ∧ farEnd st p = (fs, fp) ∧ linkLive s st p = true ∧ linkLive s fs fp = true ∧ laneErr eFlit eCrc eSeq eFv eAck eNak eCrd eRsv = 0) ∧
  (∃ s : State, ∃ st : Nat, ∃ p : Nat, ∃ fs : Nat, ∃ fp : Nat, ∃ eFlit : BitVec 640, ∃ eCrc : BitVec 16, ∃ eSeq : BitVec 5, ∃ eFv : BitVec 1, ∃ eAck : BitVec 5, ∃ eNak : BitVec 1, ∃ eCrd : BitVec 7, ∃ eRsv : BitVec 5, linkPresent st p = true ∧ farEnd st p = (fs, fp) ∧ linkLive s st p = true ∧ linkLive s fs fp = true ∧ let a := sendFlit fs fp s
    let b := sendSide fs fp (a.1.map (·.1)) a.2
    let r := (lanesOf (a.1.map (·.1)) b.1).noisy (laneErr eFlit eCrc eSeq eFv eAck eNak eCrd eRsv)
    r.good = false) ∧
  (∃ s : State, ∃ st : Nat, ∃ p : Nat, ∃ fs : Nat, ∃ fp : Nat, ∃ eFlit : BitVec 640, ∃ eCrc : BitVec 16, ∃ eSeq : BitVec 5, ∃ eFv : BitVec 1, ∃ eAck : BitVec 5, ∃ eNak : BitVec 1, ∃ eCrd : BitVec 7, ∃ eRsv : BitVec 5, linkPresent st p = true ∧ farEnd st p = (fs, fp) ∧ linkLive s st p = true ∧ linkLive s fs fp = true ∧ let a := sendFlit fs fp s
    let b := sendSide fs fp (a.1.map (·.1)) a.2
    let r := (lanesOf (a.1.map (·.1)) b.1).noisy (laneErr eFlit eCrc eSeq eFv eAck eNak eCrd eRsv)
    r.good = true ∧ a.1 = none) ∧
  (∃ s : State, ∃ st : Nat, ∃ p : Nat, ∃ fs : Nat, ∃ fp : Nat, ∃ eFlit : BitVec 640, ∃ eCrc : BitVec 16, ∃ eSeq : BitVec 5, ∃ eFv : BitVec 1, ∃ eAck : BitVec 5, ∃ eNak : BitVec 1, ∃ eCrd : BitVec 7, ∃ eRsv : BitVec 5, linkPresent st p = true ∧ farEnd st p = (fs, fp) ∧ linkLive s st p = true ∧ linkLive s fs fp = true ∧ let a := sendFlit fs fp s
    let b := sendSide fs fp (a.1.map (·.1)) a.2
    let r := (lanesOf (a.1.map (·.1)) b.1).noisy (laneErr eFlit eCrc eSeq eFv eAck eNak eCrd eRsv)
    r.good = true ∧ let q := sideFld r.side 20 16
    let u := linkCredit st p (sideFld r.side 30 28) (sideFld r.side 34 31) (linkAck st p (sideFld r.side 26 22) b.2)
    let v := if sideFld r.side 27 27 = 1 then takeNak st p (sideFld r.side 26 22) u else u
    ∃ f, a.1 = some f ∧ let takes := sideFld r.side 21 21 = 1 ∧ q = ((v.link st p).rxSeq + 1) % 32 ∧ ((v.link st p).skipping = false ∨ f.2 = true)
    takes ∧ hdrGood r.flit = true ∧ r.flit = flitOf f.1.op f.1.msg) ∧
  (∃ s : State, ∃ st : Nat, ∃ p : Nat, ∃ fs : Nat, ∃ fp : Nat, ∃ eFlit : BitVec 640, ∃ eCrc : BitVec 16, ∃ eSeq : BitVec 5, ∃ eFv : BitVec 1, ∃ eAck : BitVec 5, ∃ eNak : BitVec 1, ∃ eCrd : BitVec 7, ∃ eRsv : BitVec 5, linkPresent st p = true ∧ farEnd st p = (fs, fp) ∧ linkLive s st p = true ∧ linkLive s fs fp = true ∧ let a := sendFlit fs fp s
    let b := sendSide fs fp (a.1.map (·.1)) a.2
    let r := (lanesOf (a.1.map (·.1)) b.1).noisy (laneErr eFlit eCrc eSeq eFv eAck eNak eCrd eRsv)
    r.good = true ∧ let q := sideFld r.side 20 16
    let u := linkCredit st p (sideFld r.side 30 28) (sideFld r.side 34 31) (linkAck st p (sideFld r.side 26 22) b.2)
    let v := if sideFld r.side 27 27 = 1 then takeNak st p (sideFld r.side 26 22) u else u
    ∃ f, a.1 = some f ∧ let takes := sideFld r.side 21 21 = 1 ∧ q = ((v.link st p).rxSeq + 1) % 32 ∧ ((v.link st p).skipping = false ∨ f.2 = true)
    takes ∧ hdrGood r.flit = false) ∧
  (∃ s : State, ∃ st : Nat, ∃ p : Nat, ∃ fs : Nat, ∃ fp : Nat, ∃ eFlit : BitVec 640, ∃ eCrc : BitVec 16, ∃ eSeq : BitVec 5, ∃ eFv : BitVec 1, ∃ eAck : BitVec 5, ∃ eNak : BitVec 1, ∃ eCrd : BitVec 7, ∃ eRsv : BitVec 5, linkPresent st p = true ∧ farEnd st p = (fs, fp) ∧ linkLive s st p = true ∧ linkLive s fs fp = true ∧ let a := sendFlit fs fp s
    let b := sendSide fs fp (a.1.map (·.1)) a.2
    let r := (lanesOf (a.1.map (·.1)) b.1).noisy (laneErr eFlit eCrc eSeq eFv eAck eNak eCrd eRsv)
    r.good = true ∧ let q := sideFld r.side 20 16
    let u := linkCredit st p (sideFld r.side 30 28) (sideFld r.side 34 31) (linkAck st p (sideFld r.side 26 22) b.2)
    let v := if sideFld r.side 27 27 = 1 then takeNak st p (sideFld r.side 26 22) u else u
    ∃ f, a.1 = some f ∧ let takes := sideFld r.side 21 21 = 1 ∧ q = ((v.link st p).rxSeq + 1) % 32 ∧ ((v.link st p).skipping = false ∨ f.2 = true)
    (¬takes)) ∧
  (∃ s : State, ∃ st : Nat, ∃ p : Nat, (linkPresent st p = false ∨ linkLive s st p = false ∨ linkLive s (farEnd st p).1 (farEnd st p).2 = false)) ∧
  (∃ s : State, ∃ st : Nat, ∃ p : Nat, ∃ ack : Nat, ∃ fs : Nat, ∃ fp : Nat, linkPresent st p = true ∧ farEnd st p = (fs, fp) ∧ linkLive s st p = true ∧ let u := linkAck st p ack (s.setLink fs fp { s.link fs fp with nak := false })
    (u.link st p).replaying = none) :=
  ⟨⟨put live [(.mesh 169, Off.LINK_STATE + 0xC0, 1), (.mesh 168, Off.LINK_STATE + 0x40, 1), (.mesh 169, Off.LINK_CREDIT + 0xC0, 0xCCCCC), (.mesh 168, Off.LINK_CREDIT + 0x40, 0xCCCCC)], 169, 3, 168, 1, 0, 0, 0, 0, 0, 0, 0, 0, by decide +kernel, by decide +kernel, by decide +kernel, by decide +kernel, by decide +kernel⟩,
  ⟨put live [(.mesh 169, Off.LINK_STATE + 0xC0, 1), (.mesh 168, Off.LINK_STATE + 0x40, 1), (.mesh 169, Off.LINK_CREDIT + 0xC0, 0xCCCCC), (.mesh 168, Off.LINK_CREDIT + 0x40, 0xCCCCC)], 169, 3, 168, 1, 1, 0, 0, 0, 0, 0, 0, 0, by decide +kernel, by decide +kernel, by decide +kernel, by decide +kernel, by decide +kernel⟩,
  ⟨put live [(.mesh 169, Off.LINK_STATE + 0xC0, 1), (.mesh 168, Off.LINK_STATE + 0x40, 1), (.mesh 169, Off.LINK_CREDIT + 0xC0, 0xCCCCC), (.mesh 168, Off.LINK_CREDIT + 0x40, 0xCCCCC)], 169, 3, 168, 1, 0, 0, 0, 0, 0, 0, 0, 0, by decide +kernel, by decide +kernel, by decide +kernel, by decide +kernel, by decide +kernel, by decide +kernel⟩,
  ⟨((put live [(.mesh 169, Off.LINK_STATE + 0xC0, 1), (.mesh 168, Off.LINK_STATE + 0x40, 1), (.mesh 169, Off.LINK_CREDIT + 0xC0, 0xCCCCC), (.mesh 168, Off.LINK_CREDIT + 0x40, 0xCCCCC)]).setLink 168 1 { replay := [⟨0, 0x40, { agent := 271, line := 5 }⟩], resend := some 0 }), 169, 3, 168, 1, 0, 0, 0, 0, 0, 0, 0, 0, by decide +kernel, by decide +kernel, by decide +kernel, by decide +kernel, by decide +kernel, (⟨0, 0x40, { agent := 271, line := 5 }⟩, true), by decide +kernel, by decide +kernel, by decide +kernel, by decide +kernel⟩,
  ⟨((put live [(.mesh 169, Off.LINK_STATE + 0xC0, 1), (.mesh 168, Off.LINK_STATE + 0x40, 1), (.mesh 169, Off.LINK_CREDIT + 0xC0, 0xCCCCC), (.mesh 168, Off.LINK_CREDIT + 0x40, 0xCCCCC)]).setLink 168 1 { replay := [⟨0, 0x7F, { agent := 271, line := 5 }⟩], resend := some 0 }), 169, 3, 168, 1, 0, 0, 0, 0, 0, 0, 0, 0, by decide +kernel, by decide +kernel, by decide +kernel, by decide +kernel, by decide +kernel, (⟨0, 0x7F, { agent := 271, line := 5 }⟩, true), by decide +kernel, by decide +kernel, by decide +kernel⟩,
  ⟨((put live [(.mesh 169, Off.LINK_STATE + 0xC0, 1), (.mesh 168, Off.LINK_STATE + 0x40, 1), (.mesh 169, Off.LINK_CREDIT + 0xC0, 0xCCCCC), (.mesh 168, Off.LINK_CREDIT + 0x40, 0xCCCCC)]).setLink 168 1 { replay := [⟨1, 0x40, { agent := 271, line := 5 }⟩], resend := some 1 }), 169, 3, 168, 1, 0, 0, 0, 0, 0, 0, 0, 0, by decide +kernel, by decide +kernel, by decide +kernel, by decide +kernel, by decide +kernel, (⟨1, 0x40, { agent := 271, line := 5 }⟩, true), by decide +kernel, by decide +kernel⟩,
  ⟨put live [(.mesh 169, Off.LINK_STATE + 0xC0, 0), (.mesh 168, Off.LINK_STATE + 0x40, 0)], 169, 3, by decide +kernel⟩,
  ⟨put live [(.mesh 169, Off.LINK_STATE + 0xC0, 1), (.mesh 168, Off.LINK_STATE + 0x40, 1)], 169, 3, 0, 168, 1, by decide +kernel, by decide +kernel, by decide +kernel, by decide +kernel⟩⟩

/-- States and operands that meet the hypotheses of MeshLinksReplayRepairAndFail. -/
theorem wit_mesh_links_replay_repair_and_fail_2 :
  (∃ s : State, ∃ st : Nat, ∃ p : Nat, ∃ ack : Nat, ∃ fs : Nat, ∃ fp : Nat, linkPresent st p = true ∧ farEnd st p = (fs, fp) ∧ linkLive s st p = true ∧ let u := linkAck st p ack (s.setLink fs fp { s.link fs fp with nak := false })
    let v := startReplay st p u
    let n := min 16 (v.rf (.mesh st) (Off.LINK_STATE + 0x40 * p) 8 4 + 1)
    (u.link st p).replaying ≠ none ∧ n = 16) ∧
  (∃ s : State, ∃ st : Nat, ∃ p : Nat, ∃ ack : Nat, ∃ fs : Nat, ∃ fp : Nat, linkPresent st p = true ∧ farEnd st p = (fs, fp) ∧ linkLive s st p = true ∧ let u := linkAck st p ack (s.setLink fs fp { s.link fs fp with nak := false })
    let v := startReplay st p u
    let n := min 16 (v.rf (.mesh st) (Off.LINK_STATE + 0x40 * p) 8 4 + 1)
    let w := v.wf (.mesh st) (Off.LINK_STATE + 0x40 * p) 8 4 n
    (u.link st p).replaying ≠ none ∧ n ≠ 16 ∧ n = w.rf (.mesh st) Off.MESH_CTL 11 8 ∧ w.rf (.mesh st) Off.MESH_CTL 12 12 = 1 ∧ linkState w st p = 1) ∧
  (∃ s : State, ∃ st : Nat, ∃ p : Nat, ∃ ack : Nat, ∃ fs : Nat, ∃ fp : Nat, linkPresent st p = true ∧ farEnd st p = (fs, fp) ∧ linkLive s st p = true ∧ let u := linkAck st p ack (s.setLink fs fp { s.link fs fp with nak := false })
    let v := startReplay st p u
    let n := min 16 (v.rf (.mesh st) (Off.LINK_STATE + 0x40 * p) 8 4 + 1)
    let w := v.wf (.mesh st) (Off.LINK_STATE + 0x40 * p) 8 4 n
    (u.link st p).replaying ≠ none ∧ n ≠ 16 ∧ (¬(n = w.rf (.mesh st) Off.MESH_CTL 11 8 ∧ w.rf (.mesh st) Off.MESH_CTL 12 12 = 1 ∧ linkState w st p = 1))) ∧
  (∃ s : State, ∃ st : Nat, ∃ p : Nat, ∃ fs : Nat, ∃ fp : Nat, linkPresent st p = true ∧ farEnd st p = (fs, fp) ∧ linkState s st p = 2) ∧
  (∃ s : State, ∃ st : Nat, ∃ p : Nat, ∃ c : Nat, ∃ t : Nat, linkPresent st p = true ∧ linkLive s st p = true ∧ c < 5 ∧ credits s st p c = 0 ∧ waitsFor s st p c = true ∧ smFind (s.link st p).zeroSince c = some t) ∧
  (∃ s : State, ∃ st : Nat, ∃ p : Nat, ∃ c : Nat, linkPresent st p = true ∧ linkLive s st p = true ∧ c < 5 ∧ (credits s st p c ≠ 0 ∨ waitsFor s st p c = false)) :=
  ⟨⟨(put live [(.mesh 169, Off.LINK_STATE + 0xC0, (1 + 15 * 16)), (.mesh 168, Off.LINK_STATE + 0x40, (1 + 15 * 16))]).setLink 169 3 { replay := [⟨4, 0x40, { agent := 271, line := 5 }⟩], replaying := some 4 }, 169, 3, 0, 168, 1, by decide +kernel, by decide +kernel, by decide +kernel, by decide +kernel, by decide +kernel⟩,
  ⟨(put live [(.mesh 169, Off.LINK_STATE + 0xC0, (1 + 3 * 16)), (.mesh 168, Off.LINK_STATE + 0x40, (1 + 3 * 16)), (.mesh 169, Off.MESH_CTL, 0x1400)]).setLink 169 3 { replay := [⟨4, 0x40, { agent := 271, line := 5 }⟩], replaying := some 4 }, 169, 3, 0, 168, 1, by decide +kernel, by decide +kernel, by decide +kernel, by decide +kernel, by decide +kernel, by decide +kernel⟩,
  ⟨(put live [(.mesh 169, Off.LINK_STATE + 0xC0, (1 + 14 * 16)), (.mesh 168, Off.LINK_STATE + 0x40, (1 + 14 * 16))]).setLink 169 3 { replay := [⟨4, 0x40, { agent := 271, line := 5 }⟩], replaying := some 4 }, 169, 3, 0, 168, 1, by decide +kernel, by decide +kernel, by decide +kernel, by decide +kernel, by decide +kernel, by decide +kernel⟩,
  ⟨put live [(.mesh 169, Off.LINK_STATE + 0xC0, 2), (.mesh 168, Off.LINK_STATE + 0x40, 2)], 169, 3, 168, 1, by decide +kernel, by decide +kernel, by decide +kernel⟩,
  ⟨(put live [(.mesh 169, Off.LINK_STATE + 0xC0, 1), (.mesh 169, Off.LINK_CREDIT + 0xC0, 0xCCCC)]).setLink 169 3 { inq := [(4, [⟨0xE5, { agent := 271, line := 5 }, [3]⟩])], zeroSince := [(4, 7)] }, 169, 3, 4, 7, by decide +kernel, by decide +kernel, by decide +kernel, by decide +kernel, by decide +kernel, by decide +kernel⟩,
  ⟨put live [(.mesh 169, Off.LINK_STATE + 0xC0, 1), (.mesh 168, Off.LINK_STATE + 0x40, 1), (.mesh 169, Off.LINK_CREDIT + 0xC0, 0xCCCCC), (.mesh 168, Off.LINK_CREDIT + 0x40, 0xCCCCC)], 169, 3, 4, by decide +kernel, by decide +kernel, by decide +kernel, by decide +kernel⟩⟩

/-- The registers of `live` that do not hold their reset value, while a command of channel 0 waits. -/
def ocr0 : SMap Word := [(2688548872, 1), (2688549376, 257), (2688549384, 1), (2688549392, 1), (2722103304, 3), (2722103312, 8)]
theorem fclass_reset : ∀ h, h < 136 → ∀ j, j < 32 → smGet ocrReset ocr0 ((Blk.llc h).base + (Off.FCLASS + 8 * j)) = 0x300000FFF := by
  decide +kernel
/-- R251 holds at every slice where it holds at one. -/
theorem fclass_all {s : State} {k : Nat} {v : Word} (m : s.ocr = ocr0) (o : fclassOk s 0 k v = true) :
    ∀ h, h < 136 → fclassOk s h k v = true := by
  have f : ∀ h, h < 136 → ∀ j, fclassReg s h j = 0x300000FFF := fun h hh j => by
    have := fclass_reset h hh (j % 32) (Nat.mod_lt _ (by decide))
    rw [← m] at this; exact this
  intro h hh
  rw [← o]; unfold fclassOk; simp only [f h hh, f 0 (by decide)]
/-- Memory channel 15 runs in ACTIVE. -/
def mcOn (f : McSt → McSt) (l : List (Blk × Nat × Nat) := []) : State := (put live ([(.mc 15, Off.MC_STATUS, 2)] ++ l)).setMc 15 (f {})

/-- States and operands that meet the hypotheses of WaysAndLlcCommands. -/
theorem wit_ways_and_llc_commands_1 :
  (∃ s : State, ∃ h : Nat, bgHeld s h 1 (smFind s.fab.warrenSweep h).isSome = true) ∧
  (∃ s : State, ∃ h : Nat, bgHeld s h 2 (smFind s.fab.llcSweep h).isSome = true) ∧
  (∃ s : State, ∃ h : Nat, ∃ p : Nat, ∃ steps : Bool, bgHeld s h 1 (smFind s.fab.warrenSweep h).isSome = false ∧ smFind s.fab.llcSweep h = some (p, steps)) ∧
  (∃ s : State, ∃ h : Nat, ∃ w : Nat, ∃ steps : Bool, bgHeld s h 2 (smFind s.fab.llcSweep h).isSome = false ∧ smFind s.fab.warrenSweep h = some (w, steps) ∧ let u := warEmptyWay h w (bgTake h 2 s)
    warWayHeld h w u = true) ∧
  (∃ s : State, ∃ h : Nat, ∃ w : Nat, ∃ steps : Bool, bgHeld s h 2 (smFind s.fab.llcSweep h).isSome = false ∧ smFind s.fab.warrenSweep h = some (w, steps) ∧ let u := warEmptyWay h w (bgTake h 2 s)
    warWayHeld h w u = false) :=
  ⟨⟨(fab (fun f => { f with bgLast := [(135, 1)], warrenSweep := [(135, (8, true))] })), 135, by decide +kernel⟩,
  ⟨(fab (fun f => { f with bgLast := [(135, 2)], llcSweep := [(135, (16, true))] })), 135, by decide +kernel⟩,
  ⟨(fab (fun f => { f with llcSweep := [(135, (12, true))] })), 135, 12, true, by decide +kernel, by decide +kernel⟩,
  ⟨(fab (fun f => { f with warrenSweep := [(homeOf 5, (0, true))], warren := [(5, ⟨0, true, false, [271], 0⟩)], txns := [(5, tx)] })), (homeOf 5), 0, true, by decide +kernel, by decide +kernel, by decide +kernel⟩,
  ⟨(fab (fun f => { f with warrenSweep := [(135, (25, false))] })), 135, 25, false, by decide +kernel, by decide +kernel, by decide +kernel⟩⟩

/-- States and operands that meet the hypotheses of WaysAndLlcCommands. -/
theorem wit_ways_and_llc_commands_2 :
  (∃ s : State, ∃ ch : Nat, ∃ tag : Nat, ∃ c : Cmd, Ready s ch tag 0x0340 c ∧ let b := fun hi lo => bytesAt c.body hi lo
    let v := BitVec.ofNat 64 (b 3 2 + (b 5 4 <<< 16) + (b 6 6 <<< 32))
    let ok := b 0 0 < 32 ∧ b 3 2 < 4096 ∧ b 5 4 < 4096 ∧ (∀ h, h < 136 → fclassOk s h (b 0 0) v = true)
    ok ∧ anyLlcLeased s = false) ∧
  (∃ s : State, ∃ ch : Nat, ∃ tag : Nat, ∃ c : Cmd, Ready s ch tag 0x0340 c ∧ let b := fun hi lo => bytesAt c.body hi lo
    let v := BitVec.ofNat 64 (b 3 2 + (b 5 4 <<< 16) + (b 6 6 <<< 32))
    let ok := b 0 0 < 32 ∧ b 3 2 < 4096 ∧ b 5 4 < 4096 ∧ (∀ h, h < 136 → fclassOk s h (b 0 0) v = true)
    ok ∧ anyLlcLeased s = true) ∧
  (∃ s : State, ∃ ch : Nat, ∃ tag : Nat, ∃ c : Cmd, Ready s ch tag 0x0340 c ∧ let b := fun hi lo => bytesAt c.body hi lo
    let v := BitVec.ofNat 64 (b 3 2 + (b 5 4 <<< 16) + (b 6 6 <<< 32))
    let ok := b 0 0 < 32 ∧ b 3 2 < 4096 ∧ b 5 4 < 4096 ∧ (∀ h, h < 136 → fclassOk s h (b 0 0) v = true)
    (¬ok)) ∧
  (∃ s : State, ∃ ch : Nat, ∃ tag : Nat, ∃ c : Cmd, Ready s ch tag 0x0341 c ∧ bytesAt c.body 0 0 < 32) ∧
  (∃ s : State, ∃ ch : Nat, ∃ tag : Nat, ∃ c : Cmd, Ready s ch tag 0x0341 c ∧ 32 ≤ bytesAt c.body 0 0) :=
  ⟨⟨asks (live) 0x0340 [31, 0, 0xFF, 0x0F, 0, 0, 0], 0, 7, cmd0 0x0340 [31, 0, 0xFF, 0x0F, 0, 0, 0], ready_of (by decide +kernel), ⟨by decide, by decide, by decide, fclass_all (by decide +kernel) (by decide +kernel)⟩, by decide +kernel⟩,
  ⟨asks ({ live with sett := { live.sett with leases := [⟨0, (Blk.llc 135).inst, 0, 9⟩] } }) 0x0340 [31, 0, 0xFF, 0x0F, 0, 0, 0], 0, 7, cmd0 0x0340 [31, 0, 0xFF, 0x0F, 0, 0, 0], ready_of (by decide +kernel), ⟨by decide, by decide, by decide, fclass_all (by decide +kernel) (by decide +kernel)⟩, by decide +kernel⟩,
  ⟨asks (live) 0x0340 [32, 0, 0xFF, 0x0F, 0, 0, 0], 0, 7, cmd0 0x0340 [32, 0, 0xFF, 0x0F, 0, 0, 0], ready_of (by decide +kernel), by decide +kernel⟩,
  ⟨asks (live) 0x0341 [31], 0, 7, cmd0 0x0341 [31], ready_of (by decide +kernel), by decide +kernel⟩,
  ⟨asks (live) 0x0341 [32], 0, 7, cmd0 0x0341 [32], ready_of (by decide +kernel), by decide +kernel⟩⟩

/-- States and operands that meet the hypotheses of WaysAndLlcCommands. -/
theorem wit_ways_and_llc_commands_3 :
  (∃ s : State, ∃ ch : Nat, ∃ tag : Nat, ∃ c : Cmd, Ready s ch tag 0x0342 c ∧ let a := bytesAt c.body 7 0
    let n := bytesAt c.body 15 8
    let moving := (cachedLines s (a / 64) ((a + n) / 64)).any (fun ln => lineMoving s ln)
    moving = true) ∧
  (∃ s : State, ∃ ch : Nat, ∃ tag : Nat, ∃ c : Cmd, Ready s ch tag 0x0342 c ∧ let a := bytesAt c.body 7 0
    let n := bytesAt c.body 15 8
    let op := bytesAt c.body 16 16
    let moving := (cachedLines s (a / 64) ((a + n) / 64)).any (fun ln => lineMoving s ln)
    let bad := a % 64 ≠ 0 ∨ n = 0 ∨ n % 64 ≠ 0 ∨ 2 ^ 43 < n ∨ 2 < op ∨ s.inBuffer a n = false
    moving = false ∧ bad) ∧
  (∃ s : State, ∃ ch : Nat, ∃ tag : Nat, ∃ c : Cmd, Ready s ch tag 0x0342 c ∧ let a := bytesAt c.body 7 0
    let n := bytesAt c.body 15 8
    let op := bytesAt c.body 16 16
    let moving := (cachedLines s (a / 64) ((a + n) / 64)).any (fun ln => lineMoving s ln)
    let bad := a % 64 ≠ 0 ∨ n = 0 ∨ n % 64 ≠ 0 ∨ 2 ^ 43 < n ∨ 2 < op ∨ s.inBuffer a n = false
    moving = false ∧ (¬bad) ∧ anyLlcLeased s = true) ∧
  (∃ s : State, ∃ ch : Nat, ∃ tag : Nat, ∃ c : Cmd, Ready s ch tag 0x0342 c ∧ let a := bytesAt c.body 7 0
    let n := bytesAt c.body 15 8
    let op := bytesAt c.body 16 16
    let moving := (cachedLines s (a / 64) ((a + n) / 64)).any (fun ln => lineMoving s ln)
    let bad := a % 64 ≠ 0 ∨ n = 0 ∨ n % 64 ≠ 0 ∨ 2 ^ 43 < n ∨ 2 < op ∨ s.inBuffer a n = false
    moving = false ∧ (¬bad) ∧ anyLlcLeased s = false) :=
  ⟨⟨asks ((fab (fun f => { f with llc := [(64, ⟨0, 1, true, false, 0⟩)], txns := [(64, tx)] }))) 0x0342 (leBytes 8 0x1000 ++ leBytes 8 0x40 ++ [2]), 0, 7, cmd0 0x0342 (leBytes 8 0x1000 ++ leBytes 8 0x40 ++ [2]), ready_of (by decide +kernel), by decide +kernel⟩,
  ⟨asks (live) 0x0342 (leBytes 8 0x1000 ++ leBytes 8 0x40 ++ [3]), 0, 7, cmd0 0x0342 (leBytes 8 0x1000 ++ leBytes 8 0x40 ++ [3]), ready_of (by decide +kernel), by decide +kernel, by decide +kernel⟩,
  ⟨asks ({ live with sett := { live.sett with leases := [⟨0, (Blk.llc 135).inst, 0, 9⟩] } }) 0x0342 (leBytes 8 0x1000 ++ leBytes 8 0x40 ++ [0]), 0, 7, cmd0 0x0342 (leBytes 8 0x1000 ++ leBytes 8 0x40 ++ [0]), ready_of (by decide +kernel), by decide +kernel, by decide +kernel, by decide +kernel⟩,
  ⟨asks (live) 0x0342 (leBytes 8 0x1000 ++ leBytes 8 0x40 ++ [2]), 0, 7, cmd0 0x0342 (leBytes 8 0x1000 ++ leBytes 8 0x40 ++ [2]), ready_of (by decide +kernel), by decide +kernel, by decide +kernel, by decide +kernel⟩⟩

/-- States and operands that meet the hypotheses of MemoryRequestsAreTaken. -/
theorem wit_memory_requests_are_taken_1 :
  (∃ s : State, ∃ m : Msg, ∃ n : Nat, m.agent ∈ mcStops ∧ mcStops.idxOf m.agent = n ∧ mcTakes s n = true ∧ headOfStop s 0x20 m = true ∧ m.line ∈ (s.mcs' n).wq) ∧
  (∃ s : State, ∃ m : Msg, ∃ n : Nat, m.agent ∈ mcStops ∧ mcStops.idxOf m.agent = n ∧ mcTakes s n = true ∧ headOfStop s 0x20 m = true ∧ m.line ∉ (s.mcs' n).wq ∧ ((s.mcs' n).rq.filter (fun e => e.line % 2 == m.line % 2)).length < 128) ∧
  (∃ s : State, ∃ m : Msg, ∃ n : Nat, m.agent ∈ mcStops ∧ mcStops.idxOf m.agent = n ∧ mcTakes s n = true ∧ headOfStop s 0x20 m = true ∧ m.line ∉ (s.mcs' n).wq ∧ 128 ≤ ((s.mcs' n).rq.filter (fun e => e.line % 2 == m.line % 2)).length) ∧
  (∃ s : State, ∃ m : Msg, ∃ n : Nat, m.agent ∈ mcStops ∧ mcStops.idxOf m.agent = n ∧ mcTakes s n = true ∧ headOfStop s 0x21 m = true ∧ wqRoom (s.mcs' n) m.line = true) ∧
  (∃ s : State, ∃ m : Msg, ∃ n : Nat, m.agent ∈ mcStops ∧ mcStops.idxOf m.agent = n ∧ mcTakes s n = true ∧ headOfStop s 0x21 m = true ∧ wqRoom (s.mcs' n) m.line = false) ∧
  (∃ s : State, ∃ m : Msg, ∃ n : Nat, m.agent ∈ hoardStops ∧ m.agent ∉ mcStops ∧ hoardStops.idxOf m.agent = n ∧ headOfStop s 0x20 m = true ∧ bankSt s (hbankOf m.line) ≠ 2 ∧ let u := unc (.hoard n) 1 1 (takeNet 0x20 m s)
    bankServes u (hbankOf m.line) = true) ∧
  (∃ s : State, ∃ m : Msg, ∃ n : Nat, m.agent ∈ hoardStops ∧ m.agent ∉ mcStops ∧ hoardStops.idxOf m.agent = n ∧ headOfStop s 0x20 m = true ∧ bankSt s (hbankOf m.line) ≠ 2 ∧ let u := unc (.hoard n) 1 1 (takeNet 0x20 m s)
    bankServes u (hbankOf m.line) = false) ∧
  (∃ s : State, ∃ m : Msg, ∃ n : Nat, m.agent ∈ hoardStops ∧ m.agent ∉ mcStops ∧ hoardStops.idxOf m.agent = n ∧ headOfStop s 0x21 m = true ∧ bankSt s (hbankOf m.line) ≠ 2) :=
  ⟨⟨(mcOn (fun x => { x with wq := [5] }) []), { agent := 168, line := 5 }, 15, by decide +kernel, by decide +kernel, by decide +kernel, by decide +kernel, by decide +kernel⟩,
  ⟨(mcOn (fun x => { x with rq := List.replicate 127 ⟨5, 0, 0, 400⟩ }) []), { agent := 168, line := 5 }, 15, by decide +kernel, by decide +kernel, by decide +kernel, by decide +kernel, by decide +kernel, by decide +kernel⟩,
  ⟨(mcOn (fun x => { x with rq := List.replicate 128 ⟨5, 0, 0, 400⟩ }) []), { agent := 168, line := 5 }, 15, by decide +kernel, by decide +kernel, by decide +kernel, by decide +kernel, by decide +kernel, by decide +kernel⟩,
  ⟨(mcOn (fun x => { x with wq := (List.range 63).map (fun i => 2 * i + 7) }) []), { agent := 168, line := 5 }, 15, by decide +kernel, by decide +kernel, by decide +kernel, by decide +kernel, by decide +kernel⟩,
  ⟨(mcOn (fun x => { x with wq := (List.range 64).map (fun i => 2 * i + 7) }) []), { agent := 168, line := 5 }, 15, by decide +kernel, by decide +kernel, by decide +kernel, by decide +kernel, by decide +kernel⟩,
  ⟨(put live [(.hoard 3, Off.BANK_STATE + 8 * 15, 0)]), { agent := 163, line := bankLine 63 }, 3, by decide +kernel, by decide +kernel, by decide +kernel, by decide +kernel, by decide +kernel, by decide +kernel⟩,
  ⟨(put live [(.hoard 3, Off.BANK_STATE + 8 * 15, 1)]), { agent := 163, line := bankLine 63 }, 3, by decide +kernel, by decide +kernel, by decide +kernel, by decide +kernel, by decide +kernel, by decide +kernel⟩,
  ⟨(put live [(.hoard 3, Off.BANK_STATE + 8 * 15, 1)]), { agent := 163, line := bankLine 63 }, 3, by decide +kernel, by decide +kernel, by decide +kernel, by decide +kernel, by decide +kernel⟩⟩

/-- States and operands that meet the hypotheses of MemoryRequestsAreTaken. -/
theorem wit_memory_requests_are_taken_2 :
  (∃ s : State, ∃ m : Msg, ∃ n : Nat, m.agent ∈ hoardStops ∧ m.agent ∉ mcStops ∧ hoardStops.idxOf m.agent = n ∧ headOfStop s 0x20 m = true ∧ bankSt s (hbankOf m.line) = 2) ∧
  (∃ s : State, ∃ m : Msg, ∃ n : Nat, m.agent ∈ hoardStops ∧ m.agent ∉ mcStops ∧ hoardStops.idxOf m.agent = n ∧ headOfStop s 0x21 m = true ∧ bankSt s (hbankOf m.line) = 2) ∧
  (∃ s : State, ∃ m : Msg, headOfStop s 0x20 m = false) ∧
  (∃ s : State, ∃ m : Msg, headOfStop s 0x21 m = false) :=
  ⟨⟨(put live [(.hoard 3, Off.BANK_STATE + 8 * 15, 2)]), { agent := 163, line := bankLine 63 }, 3, by decide +kernel, by decide +kernel, by decide +kernel, by decide +kernel, by decide +kernel⟩,
  ⟨(put live [(.hoard 3, Off.BANK_STATE + 8 * 15, 2)]), { agent := 163, line := bankLine 63 }, 3, by decide +kernel, by decide +kernel, by decide +kernel, by decide +kernel, by decide +kernel⟩,
  ⟨(fab (fun f => { f with net := [(0x21, { agent := 168, line := 7 }), (0x20, { agent := 168, line := 5 })] })), { agent := 168, line := 5 }, by decide +kernel⟩,
  ⟨(fab (fun f => { f with net := [(0x20, { agent := 168, line := 7 }), (0x21, { agent := 168, line := 5 })] })), { agent := 168, line := 5 }, by decide +kernel⟩⟩

/-- States and operands that meet the hypotheses of DramCommandsAndTimers. -/
theorem wit_dram_commands_and_timers_1 :
  (∃ s : State, ∃ n : Nat, ∃ sc : Nat, ∃ busy : List Nat, n < 16 ∧ sc < 2 ∧ mcState s n = 2 ∧ s.pwr.memOn = true ∧ ∃ rk, ∃ ba, chooseCmd s n sc busy = some (.refresh rk ba)) ∧
  (∃ s : State, ∃ n : Nat, ∃ sc : Nat, ∃ busy : List Nat, n < 16 ∧ sc < 2 ∧ mcState s n = 2 ∧ s.pwr.memOn = true ∧ ∃ rk, ∃ ba, chooseCmd s n sc busy = some (.rfm rk ba)) ∧
  (∃ s : State, ∃ n : Nat, ∃ sc : Nat, ∃ busy : List Nat, n < 16 ∧ sc < 2 ∧ mcState s n = 2 ∧ s.pwr.memOn = true ∧ ∃ rk, chooseCmd s n sc busy = some (.zq rk)) ∧
  (∃ s : State, ∃ n : Nat, ∃ sc : Nat, ∃ busy : List Nat, n < 16 ∧ sc < 2 ∧ mcState s n = 2 ∧ s.pwr.memOn = true ∧ ∃ b, chooseCmd s n sc busy = some (.pre b)) ∧
  (∃ s : State, ∃ n : Nat, ∃ sc : Nat, ∃ busy : List Nat, n < 16 ∧ sc < 2 ∧ mcState s n = 2 ∧ s.pwr.memOn = true ∧ ∃ b, ∃ row, ∃ ten, chooseCmd s n sc busy = some (.act b row ten)) ∧
  (∃ s : State, ∃ n : Nat, ∃ sc : Nat, ∃ busy : List Nat, n < 16 ∧ sc < 2 ∧ mcState s n = 2 ∧ s.pwr.memOn = true ∧ ∃ r, chooseCmd s n sc busy = some (.read r)) ∧
  (∃ s : State, ∃ n : Nat, ∃ sc : Nat, ∃ busy : List Nat, n < 16 ∧ sc < 2 ∧ mcState s n = 2 ∧ s.pwr.memOn = true ∧ ∃ ln, chooseCmd s n sc busy = some (.write ln)) ∧
  (∃ s : State, ∃ n : Nat, ∃ sc : Nat, ∃ busy : List Nat, n < 16 ∧ sc < 2 ∧ mcState s n = 2 ∧ s.pwr.memOn = true ∧ chooseCmd s n sc busy = some .scrub) :=
  ⟨⟨(mcOn (fun x => { x with debt := [(4, 4)] }) []), 15, 1, [], by decide +kernel, by decide +kernel, by decide +kernel, by decide +kernel, 0, none, by decide +kernel⟩,
  ⟨(mcOn (fun x => { x with raa := [(1, 255)] }) [(.mc 15, Off.SCHED, 2 ^ 26 + 2 ^ 27 + 2 ^ 35)]), 15, 1, [], by decide +kernel, by decide +kernel, by decide +kernel, by decide +kernel, 0, none, by decide +kernel⟩,
  ⟨(mcOn (fun x => { x with zq := [(4, 2)] }) []), 15, 1, [], by decide +kernel, by decide +kernel, by decide +kernel, by decide +kernel, 0, by decide +kernel⟩,
  ⟨(mcOn (fun x => { x with rows := [(1, 1)] }) []), 15, 1, [], by decide +kernel, by decide +kernel, by decide +kernel, by decide +kernel, 1, by decide +kernel⟩,
  ⟨(mcOn (fun x => { x with rq := [⟨5, 0, 0, 400⟩] }) []), 15, 1, [], by decide +kernel, by decide +kernel, by decide +kernel, by decide +kernel, 1, 0, false, by decide +kernel⟩,
  ⟨(mcOn (fun x => { x with rq := [⟨5, 0, 0, 400⟩], rows := [(1, 1)] }) []), 15, 1, [], by decide +kernel, by decide +kernel, by decide +kernel, by decide +kernel, ⟨5, 0, 0, 400⟩, by decide +kernel⟩,
  ⟨(mcOn (fun x => { x with wq := [5], drain := [1], rows := [(1, 1)] }) []), 15, 1, [], by decide +kernel, by decide +kernel, by decide +kernel, by decide +kernel, 5, by decide +kernel⟩,
  ⟨(mcOn (fun x => { x with scrub := some { ca := 64, left := 1 } }) []), 15, 1, [], by decide +kernel, by decide +kernel, by decide +kernel, by decide +kernel, by decide +kernel⟩⟩

/-- States and operands that meet the hypotheses of DramCommandsAndTimers. -/
theorem wit_dram_commands_and_timers_2 :
  (∃ s : State, ∃ n : Nat, ∃ sc : Nat, ∃ busy : List Nat, n < 16 ∧ sc < 2 ∧ mcState s n = 2 ∧ s.pwr.memOn = true ∧ chooseCmd s n sc busy = none) ∧
  (∃ s : State, ∃ n : Nat, ∃ rk : Nat, n < 16 ∧ mcState s n = 2 ∧ rk ∈ ranksOf (s.geom n)) ∧
  (∃ s : State, ∃ n : Nat, n < 16 ∧ mcState s n = 2 ∧ s.rf (.mc n) Off.MC_CTL 3 3 = 1 ∧ (s.mcs' n).rq = [] ∧ (s.mcs' n).wq = [] ∧ (s.mcs' n).scrub = none) ∧
  (∃ s : State, ∃ n : Nat, ∃ ln : Nat, ∃ e : Nat, ∃ r : MRead, (s.mcs' n).rq.find? (fun r => r.line == ln) = some r ∧ (urgencyEdges r.tc).find? (fun e => decide ((s.tick - r.tick) * mcPerTick s n < e)) = some e) ∧
  (∃ s : State, ∃ n : Nat, n < 16 ∧ (mcState s n = 2 ∨ mcState s n = 3 ∨ mcState s n = 4)) :=
  ⟨⟨(mcOn (fun x => { x with ahead := [(4, 4)] }) []), 15, 1, [], by decide +kernel, by decide +kernel, by decide +kernel, by decide +kernel, by decide +kernel⟩,
  ⟨(mcOn id []), 15, 0, by decide +kernel, by decide +kernel, by decide +kernel⟩,
  ⟨(mcOn (fun x => { x with lastReq := 7 }) [(.mc 15, Off.MC_CTL, 0xA8)]), 15, by decide +kernel, by decide +kernel, by decide +kernel, by decide +kernel, by decide +kernel, by decide +kernel⟩,
  ⟨(mcOn (fun x => { x with rq := [⟨5, 0, 0, 400⟩] }) []), 15, 5, _, ⟨5, 0, 0, 400⟩, by decide +kernel, some_of (by decide +kernel)⟩,
  ⟨(mcOn id []), 15, by decide +kernel, by decide +kernel⟩⟩

/-- States and operands that meet the hypotheses of RetuneTrainingAndRetraining. -/
theorem wit_retune_training_and_retraining_1 :
  (∃ s : State, ∃ n : Nat, ∃ p : Nat, ∃ q : Nat, n < 16 ∧ mcPhase s n = p ∧ p ≠ 0 ∧ p ≠ 7 ∧ let u := if p = 1 then s.modMc n (fun x => { x with rows := [], hits := [] }) else if p = 2 then mcOcc n (s.modMc n (fun x => { x with debt := [], ahead := [] })) else if p = 3 then mcFreq n (s.wf (.mc n) Off.MC_STATUS 3 3 (1 - mcSet s n)) else s
    ((List.range 7).map (· + 1)).find? (fun q => decide (p < q) && phaseApplies u n q) = some q) ∧
  (∃ s : State, ∃ n : Nat, (mcPhase s n = 0 ∨ mcPhase s n = 7)) ∧
  (∃ s : State, ∃ n : Nat, n < 16 ∧ mcPhase s n = 3 ∧ ratesDiffer s n = true) ∧
  (∃ s : State, ∃ n : Nat, n < 16 ∧ mcPhase s n = 7 ∧ (s.mcs' n).job = .idle) ∧
  (∃ s : State, ∃ n : Nat, n < 16 ∧ mcPhase s n = 7 ∧ (s.mcs' n).job = .measure) ∧
  (∃ s : State, ∃ n : Nat, n < 16 ∧ mcPhase s n = 7 ∧ (s.mcs' n).job = .rate) ∧
  (∃ s : State, ∃ n : Nat, n < 16 ∧ mcPhase s n = 7 ∧ (s.mcs' n).job = .final) ∧
  (∃ s : State, ∃ n : Nat, n < 16 ∧ s.rf (.mc n) Off.TRAIN_CTL 7 7 = 1) :=
  ⟨⟨(put live [(.mc 15, Off.MC_STATUS, 18)]), 15, 1, 7, by decide +kernel, by decide +kernel, by decide +kernel, by decide +kernel, by decide +kernel⟩,
  ⟨live, 15, by decide +kernel⟩,
  ⟨(put live [(.mc 15, Off.MC_STATUS, 50), (.mc 15, Off.TIMING_A, 1)]), 15, by decide +kernel, by decide +kernel, by decide +kernel⟩,
  ⟨((put live [(.mc 15, Off.MC_STATUS, 0x72)]).setMc 15 { job := .idle, fellBack := false }), 15, by decide +kernel, by decide +kernel, by decide +kernel⟩,
  ⟨((put live [(.mc 15, Off.MC_STATUS, 0x72)]).setMc 15 { job := .measure, fellBack := false }), 15, by decide +kernel, by decide +kernel, by decide +kernel⟩,
  ⟨((put live [(.mc 15, Off.MC_STATUS, 0x72)]).setMc 15 { job := .rate, fellBack := true }), 15, by decide +kernel, by decide +kernel, by decide +kernel⟩,
  ⟨((put live [(.mc 15, Off.MC_STATUS, 0x72)]).setMc 15 { job := .final, fellBack := false }), 15, by decide +kernel, by decide +kernel, by decide +kernel⟩,
  ⟨(put live [(.mc 15, Off.MC_STATUS, 2), (.mc 15, Off.TRAIN_CTL, 0x80)]), 15, by decide +kernel, by decide +kernel⟩⟩

/-- States and operands that meet the hypotheses of RetuneTrainingAndRetraining. -/
theorem wit_retune_training_and_retraining_2 :
  (∃ s : State, ∃ n : Nat, n < 16 ∧ s.rf (.mc n) Off.TRAIN_CTL 7 7 = 0) ∧
  (∃ s : State, ∃ n : Nat, n < 16 ∧ anyRetune s = false ∧ s.leased (mcInst n) = false ∧ s.serving = true ∧ s.modeFlag 9 = false ∧ let drift := ((degrees (s.rf (.mc n) Off.MC_TEMP 7 0)) - (degrees (s.rf (.mc n) Off.MC_TEMP 15 8))).natAbs
    (s.mcs' n).job = .idle ∧ (mcState s n = 2 ∨ mcState s n = 3) ∧ (drift > (retrainCfg s).1 ∨ ((retrainCfg s).2 ≠ 0 ∧ (s.mcs' n).trainedAt + (retrainCfg s).2 * 1000 * ms ≤ s.tick))) ∧
  (∃ s : State, ∃ n : Nat, n < 16 ∧ anyRetune s = false ∧ s.leased (mcInst n) = false ∧ s.serving = true ∧ s.modeFlag 9 = false ∧ let drift := ((degrees (s.rf (.mc n) Off.MC_TEMP 7 0)) - (degrees (s.rf (.mc n) Off.MC_TEMP 15 8))).natAbs
    (s.mcs' n).job = .idle ∧ drift ≤ (retrainCfg s).1 ∧ ((retrainCfg s).2 = 0 ∨ s.tick < (s.mcs' n).trainedAt + (retrainCfg s).2 * 1000 * ms)) ∧
  (∃ s : State, ∃ n : Nat, n < 16 ∧ anyRetune s = false ∧ s.leased (mcInst n) = false ∧ s.serving = true ∧ s.modeFlag 9 = false ∧ ∃ due, (s.mcs' n).job = .ready due) :=
  ⟨⟨live, 15, by decide +kernel, by decide +kernel⟩,
  ⟨(put live [(.mc 15, Off.MC_STATUS, 2), (.mc 15, Off.MC_TEMP, 0x000B)]), 15, by decide +kernel, by decide +kernel, by decide +kernel, by decide +kernel, by decide +kernel, by decide +kernel, by decide +kernel, by decide +kernel⟩,
  ⟨(put live [(.mc 15, Off.MC_STATUS, 2), (.mc 15, Off.MC_TEMP, 0x000A)]), 15, by decide +kernel, by decide +kernel, by decide +kernel, by decide +kernel, by decide +kernel, by decide +kernel, by decide +kernel, by decide +kernel⟩,
  ⟨(live.setMc 15 { job := .ready 9 }), 15, by decide +kernel, by decide +kernel, by decide +kernel, by decide +kernel, by decide +kernel, 9, by decide +kernel⟩⟩

/-- States and operands that meet the hypotheses of ChannelCommands. -/
theorem wit_channel_commands_1 :
  (∃ s : State, ∃ ch : Nat, ∃ tag : Nat, ∃ c : Cmd, Ready s ch tag 0x0301 c ∧ let n := bytesAt c.body 0 0
    n < 16) ∧
  (∃ s : State, ∃ ch : Nat, ∃ tag : Nat, ∃ c : Cmd, Ready s ch tag 0x0301 c ∧ let n := bytesAt c.body 0 0
    16 ≤ n) ∧
  (∃ s : State, ∃ ch : Nat, ∃ tag : Nat, ∃ c : Cmd, Ready s ch tag 0x0302 c ∧ let q := bytesAt c.body 0 0
    let ns := bytesAt c.body 3 2
    let k := bytesAt c.body 4 4
    (64 ≤ q ∨ ns < 16 ∨ 1 < k)) ∧
  (∃ s : State, ∃ ch : Nat, ∃ tag : Nat, ∃ c : Cmd, Ready s ch tag 0x0302 c ∧ let q := bytesAt c.body 0 0
    let ns := bytesAt c.body 3 2
    let k := bytesAt c.body 4 4
    q < 64 ∧ 16 ≤ ns ∧ k ≤ 1 ∧ anyMcLeased s = true) ∧
  (∃ s : State, ∃ ch : Nat, ∃ tag : Nat, ∃ c : Cmd, Ready s ch tag 0x0302 c ∧ let q := bytesAt c.body 0 0
    let ns := bytesAt c.body 3 2
    let k := bytesAt c.body 4 4
    q < 64 ∧ 16 ≤ ns ∧ k ≤ 1 ∧ anyMcLeased s = false) ∧
  (∃ s : State, ∃ ch : Nat, ∃ tag : Nat, ∃ c : Cmd, Ready s ch tag 0x0303 c ∧ let q := bytesAt c.body 0 0
    q < 64) ∧
  (∃ s : State, ∃ ch : Nat, ∃ tag : Nat, ∃ c : Cmd, Ready s ch tag 0x0303 c ∧ let q := bytesAt c.body 0 0
    64 ≤ q) :=
  ⟨⟨asks (live) 0x0301 [15], 0, 7, cmd0 0x0301 [15], ready_of (by decide +kernel), by decide +kernel⟩,
  ⟨asks (live) 0x0301 [16], 0, 7, cmd0 0x0301 [16], ready_of (by decide +kernel), by decide +kernel⟩,
  ⟨asks (live) 0x0302 [64, 0, 16, 0, 1], 0, 7, cmd0 0x0302 [64, 0, 16, 0, 1], ready_of (by decide +kernel), by decide +kernel⟩,
  ⟨asks ({ live with sett := { live.sett with leases := [⟨0, (Blk.mc 15).inst, 0, 9⟩] } }) 0x0302 [63, 0, 16, 0, 1], 0, 7, cmd0 0x0302 [63, 0, 16, 0, 1], ready_of (by decide +kernel), by decide +kernel, by decide +kernel, by decide +kernel, by decide +kernel⟩,
  ⟨asks (live) 0x0302 [63, 0, 16, 0, 1], 0, 7, cmd0 0x0302 [63, 0, 16, 0, 1], ready_of (by decide +kernel), by decide +kernel, by decide +kernel, by decide +kernel, by decide +kernel⟩,
  ⟨asks (live) 0x0303 [63], 0, 7, cmd0 0x0303 [63], ready_of (by decide +kernel), by decide +kernel⟩,
  ⟨asks (live) 0x0303 [64], 0, 7, cmd0 0x0303 [64], ready_of (by decide +kernel), by decide +kernel⟩⟩

/-- States and operands that meet the hypotheses of ChannelCommands. -/
theorem wit_channel_commands_2 :
  (∃ s : State, ∃ ch : Nat, ∃ tag : Nat, ∃ c : Cmd, Ready s ch tag 0x0304 c ∧ let mask := bytesAt c.body 1 0
    let rate := bytesAt c.body 2 2
    let chs := (List.range 16).filter (fun k => mask.testBit k)
    let bad := mask = 0 ∨ 9 < rate ∨ (rate ≠ 0 ∧ chs.any (fun k => (trainingOf s k rate).isNone) = true)
    bad) ∧
  (∃ s : State, ∃ ch : Nat, ∃ tag : Nat, ∃ c : Cmd, Ready s ch tag 0x0304 c ∧ let mask := bytesAt c.body 1 0
    let rate := bytesAt c.body 2 2
    let chs := (List.range 16).filter (fun k => mask.testBit k)
    let bad := mask = 0 ∨ 9 < rate ∨ (rate ≠ 0 ∧ chs.any (fun k => (trainingOf s k rate).isNone) = true)
    (¬bad) ∧ chs.any (fun k => s.leased (mcInst k)) = true) ∧
  (∃ s : State, ∃ ch : Nat, ∃ tag : Nat, ∃ c : Cmd, Ready s ch tag 0x0304 c ∧ let mask := bytesAt c.body 1 0
    let rate := bytesAt c.body 2 2
    let chs := (List.range 16).filter (fun k => mask.testBit k)
    let bad := mask = 0 ∨ 9 < rate ∨ (rate ≠ 0 ∧ chs.any (fun k => (trainingOf s k rate).isNone) = true)
    (¬bad) ∧ chs.any (fun k => s.leased (mcInst k)) = false ∧ (anyRetune s = true ∨ chs.any (fun k => (s.mcs' k).job != .idle) = true)) ∧
  (∃ s : State, ∃ ch : Nat, ∃ tag : Nat, ∃ c : Cmd, Ready s ch tag 0x0304 c ∧ let mask := bytesAt c.body 1 0
    let rate := bytesAt c.body 2 2
    let chs := (List.range 16).filter (fun k => mask.testBit k)
    let bad := mask = 0 ∨ 9 < rate ∨ (rate ≠ 0 ∧ chs.any (fun k => (trainingOf s k rate).isNone) = true)
    (¬bad) ∧ chs.any (fun k => s.leased (mcInst k)) = false ∧ (¬(anyRetune s = true ∨ chs.any (fun k => (s.mcs' k).job != .idle) = true))) ∧
  (∃ s : State, ∃ ch : Nat, ∃ tag : Nat, ∃ c : Cmd, Ready s ch tag 0x0305 c ∧ let d := bytesAt c.body 0 0
    let iv := bytesAt c.body 7 4
    let bad := d < 2 ∨ 40 < d ∨ (iv ≠ 0 ∧ (iv < 3600 ∨ 2592000 < iv))
    bad) ∧
  (∃ s : State, ∃ ch : Nat, ∃ tag : Nat, ∃ c : Cmd, Ready s ch tag 0x0305 c ∧ let d := bytesAt c.body 0 0
    let iv := bytesAt c.body 7 4
    let bad := d < 2 ∨ 40 < d ∨ (iv ≠ 0 ∧ (iv < 3600 ∨ 2592000 < iv))
    (¬bad) ∧ jrnHasRoom s = true) ∧
  (∃ s : State, ∃ ch : Nat, ∃ tag : Nat, ∃ c : Cmd, Ready s ch tag 0x0306 c ∧ let a := bytesAt c.body 0 0
    let u := bytesAt c.body 3 2
    let bad := 1 < a ∨ u = 0 ∨ 10000 < u
    bad) :=
  ⟨⟨asks (live) 0x0304 [0, 0, 0], 0, 7, cmd0 0x0304 [0, 0, 0], ready_of (by decide +kernel), by decide +kernel⟩,
  ⟨asks ({ live with sett := { live.sett with leases := [⟨0, (Blk.mc 15).inst, 0, 9⟩] } }) 0x0304 [0, 0x80, 0], 0, 7, cmd0 0x0304 [0, 0x80, 0], ready_of (by decide +kernel), by decide +kernel, by decide +kernel⟩,
  ⟨asks ((put live [(.mc 15, Off.MC_STATUS, 18)])) 0x0304 [0, 0x80, 0], 0, 7, cmd0 0x0304 [0, 0x80, 0], ready_of (by decide +kernel), by decide +kernel, by decide +kernel, by decide +kernel⟩,
  ⟨asks (live) 0x0304 [0, 0x80, 0], 0, 7, cmd0 0x0304 [0, 0x80, 0], ready_of (by decide +kernel), by decide +kernel, by decide +kernel, by decide +kernel⟩,
  ⟨asks (live) 0x0305 (1 :: leBytes 7 0), 0, 7, cmd0 0x0305 (1 :: leBytes 7 0), ready_of (by decide +kernel), by decide +kernel⟩,
  ⟨asks (live) 0x0305 (leBytes 4 2 ++ leBytes 4 3600), 0, 7, cmd0 0x0305 (leBytes 4 2 ++ leBytes 4 3600), ready_of (by decide +kernel), by decide +kernel, by decide +kernel⟩,
  ⟨asks (live) 0x0306 [1, 0, 0, 0], 0, 7, cmd0 0x0306 [1, 0, 0, 0], ready_of (by decide +kernel), by decide +kernel⟩⟩

/-- States and operands that meet the hypotheses of ChannelCommands. -/
theorem wit_channel_commands_3 :
  (∃ s : State, ∃ ch : Nat, ∃ tag : Nat, ∃ c : Cmd, Ready s ch tag 0x0306 c ∧ let a := bytesAt c.body 0 0
    let u := bytesAt c.body 3 2
    let bad := 1 < a ∨ u = 0 ∨ 10000 < u
    (¬bad) ∧ anyMcLeased s = true) ∧
  (∃ s : State, ∃ ch : Nat, ∃ tag : Nat, ∃ c : Cmd, Ready s ch tag 0x0306 c ∧ let a := bytesAt c.body 0 0
    let u := bytesAt c.body 3 2
    let bad := 1 < a ∨ u = 0 ∨ 10000 < u
    (¬bad) ∧ anyMcLeased s = false) ∧
  (∃ s : State, ∃ ch : Nat, ∃ tag : Nat, ∃ c : Cmd, Ready s ch tag 0x0307 c ∧ let w := BitVec.ofNat 64 (bytesAt c.body 7 0)
    let bad := schedOk w = false ∨ fld w 13 13 ≠ 0 ∨ fld w 63 43 ≠ 0
    bad) ∧
  (∃ s : State, ∃ ch : Nat, ∃ tag : Nat, ∃ c : Cmd, Ready s ch tag 0x0307 c ∧ let w := BitVec.ofNat 64 (bytesAt c.body 7 0)
    let bad := schedOk w = false ∨ fld w 13 13 ≠ 0 ∨ fld w 63 43 ≠ 0
    (¬bad) ∧ anyMcLeased s = true) ∧
  (∃ s : State, ∃ ch : Nat, ∃ tag : Nat, ∃ c : Cmd, Ready s ch tag 0x0307 c ∧ let w := BitVec.ofNat 64 (bytesAt c.body 7 0)
    let bad := schedOk w = false ∨ fld w 13 13 ≠ 0 ∨ fld w 63 43 ≠ 0
    (¬bad) ∧ anyMcLeased s = false) :=
  ⟨⟨asks ({ live with sett := { live.sett with leases := [⟨0, (Blk.mc 15).inst, 0, 9⟩] } }) 0x0306 [1, 0, 0x10, 0x27], 0, 7, cmd0 0x0306 [1, 0, 0x10, 0x27], ready_of (by decide +kernel), by decide +kernel, by decide +kernel⟩,
  ⟨asks (live) 0x0306 [0, 0, 0x10, 0x27], 0, 7, cmd0 0x0306 [0, 0, 0x10, 0x27], ready_of (by decide +kernel), by decide +kernel, by decide +kernel⟩,
  ⟨asks (live) 0x0307 [], 0, 7, cmd0 0x0307 [], ready_of (by decide +kernel), by decide +kernel⟩,
  ⟨asks ({ live with sett := { live.sett with leases := [⟨0, (Blk.mc 15).inst, 0, 9⟩] } }) 0x0307 (leBytes 8 0x301010C1040), 0, 7, cmd0 0x0307 (leBytes 8 0x301010C1040), ready_of (by decide +kernel), by decide +kernel, by decide +kernel⟩,
  ⟨asks (live) 0x0307 (leBytes 8 0x301010C1040), 0, 7, cmd0 0x0307 (leBytes 8 0x301010C1040), ready_of (by decide +kernel), by decide +kernel, by decide +kernel⟩⟩

/-- A live chip whose lodge 511 runs, and one with pools set and a saved lodge at 0x2000. -/
def lodged : State := { live with lodges := [(511, { state := .running })] }
def cmdL (op : Nat) (body : List Byte) : Cmd := { cmd0 op body with lid := 511 }
def saved : List Byte := leBytes 4 0x47444F4C ++ leBytes 4 1 ++ leBytes 4 192 ++ leBytes 4 0xC29B02A1 ++ leBytes 16 0 ++ [4, 1] ++ leBytes 158 0
def pooled : State := { live.setMemBytes 0x2000 saved with pools := { extSlots := 1, srcBase := 1024, srcCount := 16 } }
def okE (e : Except Nat (Nat × LodgeSt)) : Bool := match e with | .ok _ => true | _ => false
def getE (e : Except Nat (Nat × LodgeSt)) : Nat × LodgeSt := match e with | .ok x => x | _ => (0, {})
theorem ok_of {e : Except Nat (Nat × LodgeSt)} (h : okE e = true) : e = .ok ((getE e).1, (getE e).2) := by
  cases e <;> simp_all [okE, getE]

/-- States and operands that meet the hypotheses of IntegrityCommands. -/
theorem wit_integrity_commands_1 :
  (∃ s : State, ∃ n : Nat, ∃ b : ScrubSt, (s.mcs' n).scrub = some b ∧ b.left = 0) ∧
  (∃ s : State, ∃ n : Nat, ∃ b : ScrubSt, (s.mcs' n).scrub = some b ∧ b.left ≠ 0) ∧
  (∃ s : State, ∃ ch : Nat, ∃ tag : Nat, ∃ c : Cmd, Ready s ch tag 0x0360 c) ∧
  (∃ s : State, ∃ ch : Nat, ∃ tag : Nat, ∃ c : Cmd, Ready s ch tag 0x0361 c) ∧
  (∃ s : State, ∃ ch : Nat, ∃ tag : Nat, ∃ c : Cmd, Ready s ch tag 0x0362 c) ∧
  (∃ s : State, ∃ ch : Nat, ∃ tag : Nat, ∃ c : Cmd, Ready s ch tag 0x0363 c) ∧
  (∃ s : State, ∃ ch : Nat, ∃ tag : Nat, ∃ c : Cmd, Ready s ch tag 0x0364 c ∧ jrnHasRoom s = true) ∧
  (∃ s : State, ∃ ch : Nat, ∃ tag : Nat, ∃ c : Cmd, Ready s ch tag 0x0365 c) :=
  ⟨⟨(live.setMc 15 { scrub := some { ca := 0, left := 0 } }), 15, { ca := 0, left := 0 }, by decide +kernel, by decide +kernel⟩,
  ⟨(live.setMc 15 { scrub := some { ca := 0, left := 1 } }), 15, { ca := 0, left := 1 }, by decide +kernel, by decide +kernel⟩,
  ⟨asks (live) 0x0360 [], 0, 7, cmd0 0x0360 [], ready_of (by decide +kernel)⟩,
  ⟨asks (live) 0x0361 [], 0, 7, cmd0 0x0361 [], ready_of (by decide +kernel)⟩,
  ⟨asks (live) 0x0362 [], 0, 7, cmd0 0x0362 [], ready_of (by decide +kernel)⟩,
  ⟨asks (live) 0x0363 [], 0, 7, cmd0 0x0363 [], ready_of (by decide +kernel)⟩,
  ⟨asks (live) 0x0364 [], 0, 7, cmd0 0x0364 [], ready_of (by decide +kernel), by decide +kernel⟩,
  ⟨asks (live) 0x0365 [], 0, 7, cmd0 0x0365 [], ready_of (by decide +kernel)⟩⟩

/-- States and operands that meet the hypotheses of IntegrityCommands. -/
theorem wit_integrity_commands_2 :
  (∃ s : State, ∃ ch : Nat, ∃ tag : Nat, ∃ c : Cmd, Ready s ch tag 0x0366 c ∧ jrnHasRoom (restoreRow c s) = true) ∧
  (∃ s : State, ∃ mc : Nat, ∃ c : Cmd, repairNow s = true ∧ s.sett.cmds.find? (fun c => c.opcode == 0x0366 && c.phase == .accepted && bytesAt c.body 0 0 == mc) = some c ∧ Ready s c.ch c.tag 0x0366 c ∧ repairBad s c = false ∧ spareRowUsed s (repairOf c false) = false) ∧
  (∃ s : State, ∃ ch : Nat, ∃ tag : Nat, ∃ c : Cmd, Ready s ch tag 0x0367 c ∧ jrnHasRoom s = true) :=
  ⟨⟨asks (live) 0x0366 [], 0, 7, cmd0 0x0366 [], ready_of (by decide +kernel), by decide +kernel⟩,
  ⟨(asks (put live [(.pwrc, Off.MODE_FLAGS, 0x408)]) 0x0366 [0, 0, 0, 0, 0, 0, 0, 0, 1]), 0, cmd0 0x0366 [0, 0, 0, 0, 0, 0, 0, 0, 1], by decide +kernel, by decide +kernel, ready_of (by decide +kernel), by decide +kernel, by decide +kernel⟩,
  ⟨asks (live) 0x0367 [], 0, 7, cmd0 0x0367 [], ready_of (by decide +kernel), by decide +kernel⟩⟩

/-- States and operands that meet the hypotheses of LodgeCommands. -/
theorem wit_lodge_commands_1 :
  (∃ s : State, ∃ ch : Nat, ∃ tag : Nat, ∃ c : Cmd, Ready s ch tag 0x0201 c ∧ let f := fun hi lo => bytesAt c.body hi lo
    let r : LodgeReq := ⟨f 1 0, f 2 2, f 3 3, f 4 4, f 5 5, f 7 6, f 8 8, f 9 9⟩
    ∃ st, planLodge r s = .error st) ∧
  (∃ s : State, ∃ ch : Nat, ∃ tag : Nat, ∃ c : Cmd, Ready s ch tag 0x0201 c ∧ let f := fun hi lo => bytesAt c.body hi lo
    let r : LodgeReq := ⟨f 1 0, f 2 2, f 3 3, f 4 4, f 5 5, f 7 6, f 8 8, f 9 9⟩
    ∃ lid, ∃ l, planLodge r s = .ok (lid, l)) ∧
  (∃ s : State, ∃ ch : Nat, ∃ tag : Nat, ∃ c : Cmd, Ready s ch tag 0x0202 c) ∧
  (∃ s : State, ∃ lid : Nat, ∃ w : LodgeWork, findWork s lid = some w ∧ w.step = 4) ∧
  (∃ s : State, ∃ lid : Nat, ∃ w : LodgeWork, findWork s lid = some w ∧ w.step = 6) ∧
  (∃ s : State, ∃ lid : Nat, ∃ w : LodgeWork, findWork s lid = some w ∧ w.step = 0) ∧
  (∃ s : State, ∃ lid : Nat, ∃ c : Cmd, s.sett.cmds.find? (fun c => c.opcode == 0x0202 && c.phase == .accepted && c.lid % 512 == lid) = some c ∧ Ready s c.ch c.tag 0x0202 c) ∧
  (∃ s : State, ∃ ch : Nat, ∃ tag : Nat, ∃ c : Cmd, Ready s ch tag 0x0203 c) :=
  ⟨⟨asks (live) 0x0201 [], 0, 7, cmd0 0x0201 [], ready_of (by decide +kernel), stBadLid, rfl⟩,
  ⟨asks (pooled) 0x0201 [0xFF, 0xFF, 0x20, 0x40, 0x41, 4, 1, 0, 0, 0], 0, 7, cmd0 0x0201 [0xFF, 0xFF, 0x20, 0x40, 0x41, 4, 1, 0, 0, 0], ready_of (by decide +kernel), _, _, ok_of (by decide +kernel)⟩,
  ⟨withCmds (lodged) [cmdL 0x0202 []], 0, 7, cmdL 0x0202 [], ready_of (by decide +kernel)⟩,
  ⟨{ lodged with lodgeWork := [⟨511, 1, 4, 9⟩] }, 511, ⟨511, 1, 4, 9⟩, by decide +kernel, by decide +kernel⟩,
  ⟨{ lodged with lodgeWork := [⟨511, 1, 6, 9⟩] }, 511, ⟨511, 1, 6, 9⟩, by decide +kernel, by decide +kernel⟩,
  ⟨{ lodged with lodgeWork := [⟨511, 1, 0, 9⟩] }, 511, ⟨511, 1, 0, 9⟩, by decide +kernel, by decide +kernel⟩,
  ⟨withCmds lodged [cmdL 0x0202 []], 511, cmdL 0x0202 [], by decide +kernel, ready_of (by decide +kernel)⟩,
  ⟨withCmds (lodged) [cmdL 0x0203 []], 0, 7, cmdL 0x0203 [], ready_of (by decide +kernel)⟩⟩

/-- States and operands that meet the hypotheses of LodgeCommands. -/
theorem wit_lodge_commands_2 :
  (∃ s : State, ∃ ch : Nat, ∃ tag : Nat, ∃ c : Cmd, Ready s ch tag 0x0204 c) ∧
  (∃ s : State, ∃ ch : Nat, ∃ tag : Nat, ∃ c : Cmd, Ready s ch tag 0x0205 c ∧ bufOk s c = false) ∧
  (∃ s : State, ∃ ch : Nat, ∃ tag : Nat, ∃ c : Cmd, Ready s ch tag 0x0205 c ∧ let b := settRd s (bufPa c) (min (bufLen c) 8320)
    bufOk s c = true ∧ bufPoisoned s (bufPa c) (bufLen c) = none ∧ blobOk b = false) ∧
  (∃ s : State, ∃ ch : Nat, ∃ tag : Nat, ∃ c : Cmd, Ready s ch tag 0x0205 c ∧ let f := fun hi lo => bytesAt c.body hi lo
    let b := settRd s (bufPa c) (min (bufLen c) 8320)
    let u := cohLook (bufPa c) (min (bufLen c) 8320) s
    let g := fun hi lo => bytesAt b hi lo
    let r : LodgeReq := ⟨f 17 16, f 18 18, f 19 19, f 20 20, g 32 32, g 34 33, g 36 36, g 35 35⟩
    bufOk s c = true ∧ bufPoisoned s (bufPa c) (bufLen c) = none ∧ ∃ st, blobOk b = true ∧ planLodge r u = .error st) ∧
  (∃ s : State, ∃ ch : Nat, ∃ tag : Nat, ∃ c : Cmd, Ready s ch tag 0x0205 c ∧ let f := fun hi lo => bytesAt c.body hi lo
    let b := settRd s (bufPa c) (min (bufLen c) 8320)
    let u := cohLook (bufPa c) (min (bufLen c) 8320) s
    let g := fun hi lo => bytesAt b hi lo
    let r : LodgeReq := ⟨f 17 16, f 18 18, f 19 19, f 20 20, g 32 32, g 34 33, g 36 36, g 35 35⟩
    bufOk s c = true ∧ bufPoisoned s (bufPa c) (bufLen c) = none ∧ ∃ lid, ∃ l, blobOk b = true ∧ planLodge r u = .ok (lid, l)) ∧
  (∃ s : State, ∃ ch : Nat, ∃ tag : Nat, ∃ c : Cmd, Ready s ch tag 0x0206 c) ∧
  (∃ s : State, ∃ ch : Nat, ∃ tag : Nat, ∃ c : Cmd, Ready s ch tag 0x0207 c) ∧
  (∃ s : State, ∃ ch : Nat, ∃ tag : Nat, ∃ c : Cmd, Ready s ch tag 0x0208 c) :=
  ⟨⟨withCmds (lodged) [cmdL 0x0204 []], 0, 7, cmdL 0x0204 [], ready_of (by decide +kernel)⟩,
  ⟨asks (live) 0x0205 [1], 0, 7, cmd0 0x0205 [1], ready_of (by decide +kernel), by decide +kernel⟩,
  ⟨asks (live) 0x0205 (leBytes 8 0x2000 ++ leBytes 4 192), 0, 7, cmd0 0x0205 (leBytes 8 0x2000 ++ leBytes 4 192), ready_of (by decide +kernel), by decide +kernel, by decide +kernel, by decide +kernel⟩,
  ⟨asks (pooled) 0x0205 (leBytes 8 0x2000 ++ leBytes 4 192 ++ leBytes 4 0 ++ leBytes 2 0 ++ [0x20, 0x40, 0x41]), 0, 7, cmd0 0x0205 (leBytes 8 0x2000 ++ leBytes 4 192 ++ leBytes 4 0 ++ leBytes 2 0 ++ [0x20, 0x40, 0x41]), ready_of (by decide +kernel), by decide +kernel, by decide +kernel, stBadLid, by decide +kernel, rfl⟩,
  ⟨asks (pooled) 0x0205 (leBytes 8 0x2000 ++ leBytes 4 192 ++ leBytes 4 0 ++ leBytes 2 511 ++ [0x20, 0x40, 0x41]), 0, 7, cmd0 0x0205 (leBytes 8 0x2000 ++ leBytes 4 192 ++ leBytes 4 0 ++ leBytes 2 511 ++ [0x20, 0x40, 0x41]), ready_of (by decide +kernel), by decide +kernel, by decide +kernel, _, _, by decide +kernel, ok_of (by decide +kernel)⟩,
  ⟨withCmds (lodged) [cmdL 0x0206 []], 0, 7, cmdL 0x0206 [], ready_of (by decide +kernel)⟩,
  ⟨withCmds (lodged) [cmdL 0x0207 []], 0, 7, cmdL 0x0207 [], ready_of (by decide +kernel)⟩,
  ⟨withCmds (lodged) [cmdL 0x0208 []], 0, 7, cmdL 0x0208 [], ready_of (by decide +kernel)⟩⟩

/-- States and operands that meet the hypotheses of LodgeCommands. -/
theorem wit_lodge_commands_3 :
  (∃ s : State, ∃ ch : Nat, ∃ tag : Nat, ∃ c : Cmd, Ready s ch tag 0x0209 c ∧ jrnHasRoom s = true) :=
  ⟨asks (live) 0x0209 [], 0, 7, cmd0 0x0209 [], ready_of (by decide +kernel), by decide +kernel⟩

/-- States and operands that meet the hypotheses of IdistInputsAndDeliveries. -/
theorem wit_idist_inputs_and_deliveries_1 :
  (∃ s : State, ∃ m : Msg, inTransit s 0xE4 m = false) ∧
  (∃ s : State, ∃ id, ∃ h, ∃ l, idistRuns s = true ∧ bestSrc s = some (id, .hart h l)) ∧
  (∃ s : State, ∃ id, idistRuns s = true ∧ bestSrc s = some (id, .post)) ∧
  (∃ s : State, (idistRuns s = false ∨ bestSrc s = none)) ∧
  (∃ s : State, ∃ g : Nat, ∃ t : Nat, smFind s.idist.holdEnd g = some t) ∧
  (∃ s : State, ∃ p : Nat, ∃ d : Delivery, s.idist.inFlight.find? (fun d => d.pcn == p) = some d ∧ let u : State := { s with idist := { s.idist with inFlight := s.idist.inFlight.erase d } }
    refusal u d = none) ∧
  (∃ s : State, ∃ p : Nat, ∃ d : Delivery, s.idist.inFlight.find? (fun d => d.pcn == p) = some d ∧ let u : State := { s with idist := { s.idist with inFlight := s.idist.inFlight.erase d } }
    ∃ r, refusal u d = some r) ∧
  (∃ s : State, ∃ d : Delivery, ∃ r : Nat, ∃ l : List (Delivery × Nat), s.idist.refused = (d, r) :: l) :=
  ⟨⟨live, { agent := 480, line := 0, arg := 8191 }, by decide +kernel⟩,
  ⟨{ put live [(.idist, Off.HART_MAP + 8 * 255, 0x30F), (.idist, Off.TSET + 24, 2 ^ 63), (.idist, Off.SRC + 8 * 32, 2 ^ 32 + 0x8F)] with idist := { live.idist with copies := [(4 * 255 + 1, { extEn := true })] } }, 32, 255, .k, by decide +kernel, by decide +kernel⟩,
  ⟨put { lodged with lodges := [(511, { state := .running, srcBase := 1024, log2Src := 4, slotBase := 4095, slots := 1 })] } [(.idist, Off.SRC + 8 * 1024, 2 ^ 32 + 0x201), (.idist, Off.SRC_LID + 4 * 64, 511), (.idist, Off.VSLOT_AREA + 16 * 4095, 1)], 1024, by decide +kernel, by decide +kernel⟩,
  ⟨live, Or.inr (by decide +kernel)⟩,
  ⟨{ put live [] with idist := { live.idist with holdEnd := [(63, 9)] } }, 63, 9, by decide +kernel⟩,
  ⟨{ put ((cpu .k (fun c => { c with csr := [(0x5C1, 2)] }))) [] with idist := { live.idist with inFlight := [⟨32, 1, false, .k, 255, 271, 0, false⟩] } }, 271, ⟨32, 1, false, .k, 255, 271, 0, false⟩, by decide +kernel, by decide +kernel⟩,
  ⟨{ put live [] with idist := { live.idist with inFlight := [⟨32, 1, false, .k, 255, 271, 0, false⟩] } }, 271, ⟨32, 1, false, .k, 255, 271, 0, false⟩, by decide +kernel, 4, by decide +kernel⟩,
  ⟨{ put live [] with idist := { live.idist with refused := [(⟨32, 1, false, .k, 255, 271, 0, false⟩, 4)] } }, ⟨32, 1, false, .k, 255, 271, 0, false⟩, 4, [], by decide +kernel⟩⟩

/-- States and operands that meet the hypotheses of IdistInputsAndDeliveries. -/
theorem wit_idist_inputs_and_deliveries_2 :
  (∃ s : State, ∃ v : Nat, ∃ p : Posting, s.idist.postings.find? (fun p => p.slot == v) = some p) ∧
  (∃ s : State, ∃ v : Nat, ∃ h : Nat, ∃ lid : Nat, ∃ p : Nat, s.idist.recalls.find? (fun r => r.1 == v) = some (v, h, lid) ∧ mapPcn s h = some p ∧ let moving := s.idist.inFlight.any (fun d => d.pcn == p && d.lid == lid) = true ∨ s.idist.refused.any (fun d => d.1.pcn == p) = true
    moving) ∧
  (∃ s : State, ∃ v : Nat, ∃ h : Nat, ∃ lid : Nat, ∃ p : Nat, s.idist.recalls.find? (fun r => r.1 == v) = some (v, h, lid) ∧ mapPcn s h = some p ∧ let moving := s.idist.inFlight.any (fun d => d.pcn == p && d.lid == lid) = true ∨ s.idist.refused.any (fun d => d.1.pcn == p) = true
    (¬moving)) :=
  ⟨⟨{ put live [] with idist := { live.idist with postings := [⟨1024, 4095, 511, 0, 0, 1, 0, none⟩] } }, 4095, ⟨1024, 4095, 511, 0, 0, 1, 0, none⟩, by decide +kernel⟩,
  ⟨{ put live [(.idist, Off.HART_MAP + 8 * 255, 0x30F)] with idist := { live.idist with recalls := [(4095, 255, 0)], inFlight := [⟨32, 1, false, .k, 255, 271, 0, false⟩] } }, 4095, 255, 0, 271, by decide +kernel, by decide +kernel, Or.inl (by decide +kernel)⟩,
  ⟨{ put live [(.idist, Off.HART_MAP + 8 * 255, 0x30F)] with idist := { live.idist with recalls := [(4095, 255, 0)] } }, 4095, 255, 0, 271, by decide +kernel, by decide +kernel, by decide +kernel⟩⟩

/-- States and operands that meet the hypotheses of ClaimsAndInterruptCommands. -/
theorem wit_claims_and_interrupt_commands_1 :
  (∃ s : State, ∃ i : Ins, ∃ l : Lvl, atHead s i = true ∧ l ≠ .u ∧ csrPermitted (s.core i.pcn) (claimCsr l) false = true) ∧
  (∃ s : State, ∃ i : Ins, ∃ l : Lvl, atHead s i = true ∧ (l = .u ∨ csrPermitted (s.core i.pcn) (claimCsr l) false = false)) ∧
  (∃ s : State, ∃ p : Nat, ∃ l : Lvl, let slot := fun (f : Bool) => s.idist.slots.find? (fun d => d.pcn == p && d.lvl == l && d.fast == f)
    ∃ d, (slot true = some d ∨ (slot true = none ∧ slot false = some d))) ∧
  (∃ s : State, ∃ p : Nat, ∃ l : Lvl, let slot := fun (f : Bool) => s.idist.slots.find? (fun d => d.pcn == p && d.lvl == l && d.fast == f)
    slot true = none ∧ slot false = none ∧ l ≠ .h) ∧
  (∃ s : State, ∃ p : Nat, ∃ l : Lvl, let slot := fun (f : Bool) => s.idist.slots.find? (fun d => d.pcn == p && d.lvl == l && d.fast == f)
    ∃ d, ∃ h, slot true = none ∧ slot false = none ∧ l = .h ∧ s.idist.doorbells.find? (fun d => d.1 == p) = some d ∧ let u : State := { s with idist := { s.idist with doorbells := s.idist.doorbells.erase d } }
    mapHart u p = some h) ∧
  (∃ s : State, ∃ i : Ins, ∃ l : Lvl, Oldest s i ∧ max 1 l.num ≤ (s.core i.pcn).lvl.num ∧ csrPermitted (s.core i.pcn) (csrBase l + 0xD) true = true) ∧
  (∃ s : State, ∃ i : Ins, ∃ l : Lvl, Oldest s i ∧ max 1 l.num ≤ (s.core i.pcn).lvl.num ∧ csrPermitted (s.core i.pcn) (csrBase l + 0xE) true = true) ∧
  (∃ s : State, ∃ i : Ins, ∃ l : Lvl, Oldest s i ∧ (s.core i.pcn).lvl.num < max 1 l.num) :=
  ⟨⟨cpu .m, ins, .m, by decide +kernel, by decide +kernel, by decide +kernel⟩,
  ⟨cpu .k, ins, .m, by decide +kernel, by decide +kernel⟩,
  ⟨{ put live [] with idist := { live.idist with slots := [⟨32, 1, false, .k, 255, 271, 0, false⟩] } }, 271, .k, ⟨32, 1, false, .k, 255, 271, 0, false⟩, Or.inr (by decide +kernel)⟩,
  ⟨live, 271, .m, by decide +kernel, by decide +kernel, by decide +kernel⟩,
  ⟨{ put live [(.idist, Off.HART_MAP + 8 * 255, 0x30F)] with idist := { live.idist with doorbells := [(271, 4095)] } }, 271, .h, (271, 4095), 255, by decide +kernel, by decide +kernel, by decide +kernel, by decide +kernel, by decide +kernel⟩,
  ⟨cpu .m, ins, .k, ⟨by decide +kernel, by decide +kernel⟩, by decide +kernel, by decide +kernel⟩,
  ⟨cpu .k, ins, .k, ⟨by decide +kernel, by decide +kernel⟩, by decide +kernel, by decide +kernel⟩,
  ⟨cpu .u, ins, .u, ⟨by decide +kernel, by decide +kernel⟩, by decide +kernel⟩⟩

/-- States and operands that meet the hypotheses of ClaimsAndInterruptCommands. -/
theorem wit_claims_and_interrupt_commands_2 :
  (∃ s : State, ∃ p : Nat, ∃ h : Nat, ∃ l : Lvl, ∃ v : Word, let pri := fld v 19 16
    let id := fld v 12 0
    let w := (s.core p).csr' (csrBase l + 0xD)
    let u := putCpri p l (if pri = 0 then w else setFld w (7 + pri) (7 + pri) 0) s
    let lid := (u.core p).csrF HLID 8 0
    mapHart u p = some h ∧ (u.core p).lvl = .k ∧ eoiMatches u h l id lid = true) ∧
  (∃ s : State, ∃ p : Nat, ∃ h : Nat, ∃ l : Lvl, ∃ v : Word, let pri := fld v 19 16
    let id := fld v 12 0
    let w := (s.core p).csr' (csrBase l + 0xD)
    let u := putCpri p l (if pri = 0 then w else setFld w (7 + pri) (7 + pri) 0) s
    let lid := (u.core p).csrF HLID 8 0
    mapHart u p = some h ∧ (u.core p).lvl = .k ∧ eoiMatches u h l id lid = false) ∧
  (∃ s : State, ∃ ch : Nat, ∃ tag : Nat, ∃ c : Cmd, Ready s ch tag 0x0520 c ∧ let id := bytesAt c.body 1 0
    let v := BitVec.ofNat 64 (bytesAt c.body 7 4)
    let legal := id ≤ 8191 ∧ srcLegal s id v = (true, true, true)
    legal) ∧
  (∃ s : State, ∃ ch : Nat, ∃ tag : Nat, ∃ c : Cmd, Ready s ch tag 0x0520 c ∧ let id := bytesAt c.body 1 0
    let v := BitVec.ofNat 64 (bytesAt c.body 7 4)
    let legal := id ≤ 8191 ∧ srcLegal s id v = (true, true, true)
    (¬legal)) ∧
  (∃ s : State, ∃ ch : Nat, ∃ tag : Nat, ∃ c : Cmd, Ready s ch tag 0x0521 c) ∧
  (∃ s : State, ∃ ch : Nat, ∃ tag : Nat, ∃ c : Cmd, Ready s ch tag 0x0522 c) ∧
  (∃ s : State, ∃ ch : Nat, ∃ tag : Nat, ∃ c : Cmd, Ready s ch tag 0x0523 c) :=
  ⟨⟨{ put (cpu .k) [(.idist, Off.HART_MAP + 8 * 255, 0x30F), (.idist, Off.SRC + 8 * 32, 2 ^ 33 + 255 * 2 ^ 36)] with idist := { live.idist with actLvl := [(32, 1)] } }, 271, 255, .k, 32, by decide +kernel, by decide +kernel, by decide +kernel⟩,
  ⟨{ put (cpu .k) [(.idist, Off.HART_MAP + 8 * 255, 0x30F), (.idist, Off.SRC + 8 * 32, 2 ^ 33 + 254 * 2 ^ 36)] with idist := { live.idist with actLvl := [(32, 1)] } }, 271, 255, .k, 32, by decide +kernel, by decide +kernel, by decide +kernel⟩,
  ⟨asks (live) 0x0520 ([32, 0, 0, 0] ++ leBytes 4 0x1E0), 0, 7, cmd0 0x0520 ([32, 0, 0, 0] ++ leBytes 4 0x1E0), ready_of (by decide +kernel), by decide +kernel⟩,
  ⟨asks (live) 0x0520 ([32, 0, 0, 0] ++ leBytes 4 0), 0, 7, cmd0 0x0520 ([32, 0, 0, 0] ++ leBytes 4 0), ready_of (by decide +kernel), by decide +kernel⟩,
  ⟨asks (live) 0x0521 [], 0, 7, cmd0 0x0521 [], ready_of (by decide +kernel)⟩,
  ⟨asks (live) 0x0522 [], 0, 7, cmd0 0x0522 [], ready_of (by decide +kernel)⟩,
  ⟨asks (live) 0x0523 [], 0, 7, cmd0 0x0523 [], ready_of (by decide +kernel)⟩⟩

/-- Core 271 waits on a device access at port 7. -/
def outAt (d : DevAcc) (port : Port → Port) (l : List (Blk × Nat × Nat)) : State :=
  ((put live l).modPort 7 port).setCore 271 { on := true, lvl := .m, pc := 0x100000, dev := some d }
def running (op : Nat) (aux : List Nat) : Cmd := { cmd0 op [] with phase := .running, aux := aux }
/-- An answer of a translation: its error, and its value. -/
def isErr {α : Type} (r : Except Nat α × State) : Bool := match r.1 with | .error _ => true | _ => false
def errOf {α : Type} (r : Except Nat α × State) : Nat := match r.1 with | .error k => k | _ => 0
theorem xerr_of {α : Type} {r : Except Nat α × State} (h : isErr r = true) : r = (.error (errOf r), r.2) := by
  obtain ⟨a, s⟩ := r; cases a <;> simp_all [isErr, errOf]
def okOf {α : Type} [Inhabited α] (r : Except Nat α × State) : α := match r.1 with | .ok x => x | _ => default
theorem xok_of {α : Type} [Inhabited α] {r : Except Nat α × State} (h : isErr r = false) : r = (.ok (okOf r), r.2) := by
  obtain ⟨a, s⟩ := r; cases a <;> simp_all [isErr, okOf]

/-- States and operands that meet the hypotheses of RootComplexTraffic. -/
theorem wit_root_complex_traffic_1 :
  (∃ s : State, ∃ pcn : Nat, ∃ n : Nat, ∃ d : DevAcc, (s.core pcn).dev = some d ∧ outPort s d.pa = n ∧ isRc s n = true ∧ outBusy s n pcn = false ∧ (s.port n).dead = true) ∧
  (∃ s : State, ∃ pcn : Nat, ∃ n : Nat, ∃ d : DevAcc, (s.core pcn).dev = some d ∧ outPort s d.pa = n ∧ isRc s n = true ∧ outBusy s n pcn = false ∧ (s.port n).dead = false ∧ ∃ p, ∃ o, outRoute s n d.pa = .own p o) ∧
  (∃ s : State, ∃ pcn : Nat, ∃ n : Nat, ∃ d : DevAcc, (s.core pcn).dev = some d ∧ outPort s d.pa = n ∧ isRc s n = true ∧ outBusy s n pcn = false ∧ (s.port n).dead = false ∧ outRoute s n d.pa = .absent) ∧
  (∃ s : State, ∃ pcn : Nat, ∃ n : Nat, ∃ d : DevAcc, (s.core pcn).dev = some d ∧ outPort s d.pa = n ∧ isRc s n = true ∧ outBusy s n pcn = false ∧ (s.port n).dead = false ∧ outRoute s n d.pa = .ur) ∧
  (∃ s : State, ∃ pcn : Nat, ∃ n : Nat, ∃ d : DevAcc, (s.core pcn).dev = some d ∧ outPort s d.pa = n ∧ isRc s n = true ∧ outBusy s n pcn = false ∧ (s.port n).dead = false ∧ ∃ p, ∃ a, ∃ cfg, outRoute s n d.pa = .port p a cfg ∧ linkOf s n p = 1) ∧
  (∃ s : State, ∃ pcn : Nat, ∃ n : Nat, ∃ d : DevAcc, (s.core pcn).dev = some d ∧ outPort s d.pa = n ∧ isRc s n = true ∧ outBusy s n pcn = false ∧ (s.port n).dead = false ∧ ∃ p, ∃ a, ∃ cfg, outRoute s n d.pa = .port p a cfg ∧ linkOf s n p ≠ 1) ∧
  (∃ s : State, ∃ n : Nat, ∃ tag : Nat, let all := (s.port n).reqs.find? (fun q => q.tag == tag)
    let live := (s.port n).reqs.find? (fun q => q.tag == tag && !q.quar)
    let late := (s.port n).reqs.find? (fun q => q.tag == tag && q.quar)
    ∃ q, all = some q ∧ late = some q ∧ live = none ∧ q.quar = true ∧ s.tick < q.sent + 2 * q.wait) :=
  ⟨⟨outAt (⟨0, false, (0x400000000000 + 7 * 0x40000000000 + 0x3FF80000000), 8, 0, .x 31, true⟩) (fun p => { p with dead := true }) [], 271, 7, ⟨0, false, (0x400000000000 + 7 * 0x40000000000 + 0x3FF80000000), 8, 0, .x 31, true⟩, by decide +kernel, by decide +kernel, by decide +kernel, by decide +kernel, by decide +kernel⟩,
  ⟨outAt (⟨0, false, (0x7E0000000000 + 7 * 0x10000000), 8, 0, .x 31, true⟩) id [], 271, 7, ⟨0, false, (0x7E0000000000 + 7 * 0x10000000), 8, 0, .x 31, true⟩, by decide +kernel, by decide +kernel, by decide +kernel, by decide +kernel, by decide +kernel, 0, 0, by decide +kernel⟩,
  ⟨outAt (⟨0, false, ((0x7E0000000000 + 7 * 0x10000000) + 0xFFFF000), 8, 0, .x 31, true⟩) id [], 271, 7, ⟨0, false, ((0x7E0000000000 + 7 * 0x10000000) + 0xFFFF000), 8, 0, .x 31, true⟩, by decide +kernel, by decide +kernel, by decide +kernel, by decide +kernel, by decide +kernel, by decide +kernel⟩,
  ⟨outAt (⟨0, false, (0x400000000000 + 7 * 0x40000000000 + 0x3FF80000000), 8, 0, .x 31, true⟩) id [], 271, 7, ⟨0, false, (0x400000000000 + 7 * 0x40000000000 + 0x3FF80000000), 8, 0, .x 31, true⟩, by decide +kernel, by decide +kernel, by decide +kernel, by decide +kernel, by decide +kernel, by decide +kernel⟩,
  ⟨outAt (⟨0, false, (0x400000000000 + 7 * 0x40000000000 + 0x3FF80000000), 8, 0, .x 31, true⟩) (fun p => { p with cfg := [(4, 2), (0x20, 0x80008000)] }) [(.rc 7, Off.PORT_STATE, 1)], 271, 7, ⟨0, false, (0x400000000000 + 7 * 0x40000000000 + 0x3FF80000000), 8, 0, .x 31, true⟩, by decide +kernel, by decide +kernel, by decide +kernel, by decide +kernel, by decide +kernel, 0, 0x80000000, false, by decide +kernel, by decide +kernel⟩,
  ⟨outAt (⟨0, false, (0x400000000000 + 7 * 0x40000000000 + 0x3FF80000000), 8, 0, .x 31, true⟩) (fun p => { p with cfg := [(4, 2), (0x20, 0x80008000)] }) [], 271, 7, ⟨0, false, (0x400000000000 + 7 * 0x40000000000 + 0x3FF80000000), 8, 0, .x 31, true⟩, by decide +kernel, by decide +kernel, by decide +kernel, by decide +kernel, by decide +kernel, 0, 0x80000000, false, by decide +kernel, by decide +kernel⟩,
  ⟨{ live.modPort 7 (fun p => { p with reqs := [⟨1023, 0, .core 271, 0x80000000, 8, false, false, 0, 1000, true, 0, 0⟩] }) with tick := 5 }, 7, 1023, ⟨1023, 0, .core 271, 0x80000000, 8, false, false, 0, 1000, true, 0, 0⟩, by decide +kernel, by decide +kernel, by decide +kernel, by decide +kernel, by decide +kernel⟩⟩

/-- States and operands that meet the hypotheses of RootComplexTraffic. -/
theorem wit_root_complex_traffic_2 :
  (∃ s : State, ∃ n : Nat, ∃ tag : Nat, ∃ status : Nat, ∃ low : Nat, ∃ l : List Byte, let all := (s.port n).reqs.find? (fun q => q.tag == tag)
    let live := (s.port n).reqs.find? (fun q => q.tag == tag && !q.quar)
    let late := (s.port n).reqs.find? (fun q => q.tag == tag && q.quar)
    ∃ q, all = some q ∧ live = some q ∧ late = none ∧ s.tick < q.sent + q.wait ∧ q.quar = false ∧ let bad := status = 0 ∧ q.write = false ∧ (l.length ≠ q.size ∨ low % 128 ≠ q.addr % 128)
    bad) ∧
  (∃ s : State, ∃ n : Nat, ∃ tag : Nat, ∃ status : Nat, ∃ low : Nat, ∃ l : List Byte, let all := (s.port n).reqs.find? (fun q => q.tag == tag)
    let live := (s.port n).reqs.find? (fun q => q.tag == tag && !q.quar)
    let late := (s.port n).reqs.find? (fun q => q.tag == tag && q.quar)
    ∃ q, all = some q ∧ live = some q ∧ late = none ∧ s.tick < q.sent + q.wait ∧ q.quar = false ∧ let bad := status = 0 ∧ q.write = false ∧ (l.length ≠ q.size ∨ low % 128 ≠ q.addr % 128)
    (¬bad) ∧ staleReq (lateGen n q s) n q = true) ∧
  (∃ s : State, ∃ n : Nat, ∃ tag : Nat, ∃ status : Nat, ∃ low : Nat, ∃ l : List Byte, let all := (s.port n).reqs.find? (fun q => q.tag == tag)
    let live := (s.port n).reqs.find? (fun q => q.tag == tag && !q.quar)
    let late := (s.port n).reqs.find? (fun q => q.tag == tag && q.quar)
    ∃ q, all = some q ∧ live = some q ∧ late = none ∧ s.tick < q.sent + q.wait ∧ q.quar = false ∧ let bad := status = 0 ∧ q.write = false ∧ (l.length ≠ q.size ∨ low % 128 ≠ q.addr % 128)
    (¬bad) ∧ staleReq s n q = false ∧ retried s n q status = true) ∧
  (∃ s : State, ∃ n : Nat, ∃ tag : Nat, ∃ status : Nat, ∃ low : Nat, ∃ l : List Byte, ∃ ep : Bool, let all := (s.port n).reqs.find? (fun q => q.tag == tag)
    let live := (s.port n).reqs.find? (fun q => q.tag == tag && !q.quar)
    let late := (s.port n).reqs.find? (fun q => q.tag == tag && q.quar)
    ∃ q, all = some q ∧ live = some q ∧ late = none ∧ s.tick < q.sent + q.wait ∧ q.quar = false ∧ let bad := status = 0 ∧ q.write = false ∧ (l.length ≠ q.size ∨ low % 128 ≠ q.addr % 128)
    (¬bad) ∧ staleReq s n q = false ∧ ∃ p, retried s n q status = false ∧ q.owner = .core p ∧ q.write = false ∧ status = 0 ∧ ep = false) ∧
  (∃ s : State, ∃ n : Nat, ∃ tag : Nat, ∃ status : Nat, ∃ low : Nat, ∃ l : List Byte, let all := (s.port n).reqs.find? (fun q => q.tag == tag)
    let live := (s.port n).reqs.find? (fun q => q.tag == tag && !q.quar)
    let late := (s.port n).reqs.find? (fun q => q.tag == tag && q.quar)
    ∃ q, all = some q ∧ live = some q ∧ late = none ∧ s.tick < q.sent + q.wait ∧ q.quar = false ∧ let bad := status = 0 ∧ q.write = false ∧ (l.length ≠ q.size ∨ low % 128 ≠ q.addr % 128)
    (¬bad) ∧ staleReq s n q = false ∧ ∃ v, ∃ r, ∃ i, retried s n q status = false ∧ q.owner = .ring v r i) ∧
  (∃ s : State, ∃ n : Nat, ∃ tag : Nat, let all := (s.port n).reqs.find? (fun q => q.tag == tag)
    all = none) ∧
  (∃ s : State, ∃ n : Nat, ∃ tag : Nat, ∃ q : OutReq, (s.port n).reqs.find? (fun q => q.tag == tag && !q.quar) = some q) :=
  ⟨⟨{ live.modPort 7 (fun p => { p with reqs := [⟨1023, 0, .core 271, 0x80000000, 8, false, false, 0, 1000, false, 0, 0⟩] }) with tick := 5 }, 7, 1023, 0, 0, [1], ⟨1023, 0, .core 271, 0x80000000, 8, false, false, 0, 1000, false, 0, 0⟩, by decide +kernel, by decide +kernel, by decide +kernel, by decide +kernel, by decide +kernel, ⟨by decide +kernel, by decide +kernel, Or.inl (by decide +kernel)⟩⟩,
  ⟨{ live.modPort 8 (fun p => { p with reqs := [⟨1023, 0, .ring 63 1 4095, 0x80000000, 8, false, false, 0, 1000, false, 511, 0⟩] }) with tick := 5 }, 8, 1023, 0, 0, (leBytes 8 5), ⟨1023, 0, .ring 63 1 4095, 0x80000000, 8, false, false, 0, 1000, false, 511, 0⟩, by decide +kernel, by decide +kernel, by decide +kernel, by decide +kernel, by decide +kernel, (by rintro ⟨_, _, h⟩; revert h; decide +kernel), by decide +kernel⟩,
  ⟨{ live.modPort 7 (fun p => { p with reqs := [⟨1023, 0, .core 271, 0x80000000, 8, false, true, 0, 1000, false, 0, 0⟩] }) with tick := 5 }, 7, 1023, 2, 0, (leBytes 8 5), ⟨1023, 0, .core 271, 0x80000000, 8, false, true, 0, 1000, false, 0, 0⟩, by decide +kernel, by decide +kernel, by decide +kernel, by decide +kernel, by decide +kernel, (by rintro ⟨h, _⟩; revert h; decide +kernel), by decide +kernel, by decide +kernel⟩,
  ⟨{ live.modPort 7 (fun p => { p with reqs := [⟨1023, 0, .core 271, 0x80000000, 8, false, false, 0, 1000, false, 0, 0⟩] }) with tick := 5 }, 7, 1023, 0, 0, (leBytes 8 5), false, ⟨1023, 0, .core 271, 0x80000000, 8, false, false, 0, 1000, false, 0, 0⟩, by decide +kernel, by decide +kernel, by decide +kernel, by decide +kernel, by decide +kernel, (by rintro ⟨_, _, h⟩; revert h; decide +kernel), by decide +kernel, 271, by decide +kernel, by decide +kernel, by decide +kernel, by decide +kernel, by decide +kernel⟩,
  ⟨(put live [(.tp, Off.TP_LODGE_ATTR + 4 * 511, 2 ^ 25)]).modPort 8 (fun p => { p with reqs := [⟨1023, 0, .ring 63 1 4095, 0x80000000, 8, false, false, 0, 1000, false, 511, 0⟩] }), 8, 1023, 0, 0, (leBytes 8 5), ⟨1023, 0, .ring 63 1 4095, 0x80000000, 8, false, false, 0, 1000, false, 511, 0⟩, by decide +kernel, by decide +kernel, by decide +kernel, by decide +kernel, by decide +kernel, (by rintro ⟨_, _, h⟩; revert h; decide +kernel), by decide +kernel, 63, 1, 4095, by decide +kernel, by decide +kernel⟩,
  ⟨live, 8, 1023, by decide +kernel⟩,
  ⟨live.modPort 8 (fun p => { p with reqs := [⟨1023, 0, .core 271, 0x80000000, 8, false, false, 0, 1000, false, 0, 0⟩] }), 8, 1023, ⟨1023, 0, .core 271, 0x80000000, 8, false, false, 0, 1000, false, 0, 0⟩, by decide +kernel⟩⟩

/-- States and operands that meet the hypotheses of RootComplexTraffic. -/
theorem wit_root_complex_traffic_3 :
  (∃ s : State, ∃ n : Nat, ∃ tag : Nat, ∃ q : OutReq, (s.port n).reqs.find? (fun q => q.tag == tag && q.quar) = some q) ∧
  (∃ s : State, ∃ n : Nat, ∃ p : Nat, ∃ rid : Nat, ∃ addr : Nat, ∃ len : Nat, ∃ l : List Byte, portLive s n p = true ∧ ((s.rd (.rc n) Off.MSI_ADDR).toNat + 4 ≤ addr ∨ addr + l.length ≤ (s.rd (.rc n) Off.MSI_ADDR).toNat) ∧ 0 < len ∧ l ≠ [] ∧ streamOf s n p rid = none) ∧
  (∃ s : State, ∃ n : Nat, ∃ p : Nat, ∃ rid : Nat, ∃ addr : Nat, ∃ len : Nat, ∃ atype : Nat, ∃ pasid : Bool, ∃ l : List Byte, portLive s n p = true ∧ ((s.rd (.rc n) Off.MSI_ADDR).toNat + 4 ≤ addr ∨ addr + l.length ≤ (s.rd (.rc n) Off.MSI_ADDR).toNat) ∧ 0 < len ∧ l ≠ [] ∧ ∃ i, ∃ lid, streamOf s n p rid = some (i, lid) ∧ (atype ≠ 0 ∨ pasid = true)) ∧
  (∃ s : State, ∃ n : Nat, ∃ p : Nat, ∃ rid : Nat, ∃ addr : Nat, ∃ len : Nat, ∃ atype : Nat, ∃ pasid : Bool, ∃ l : List Byte, portLive s n p = true ∧ ((s.rd (.rc n) Off.MSI_ADDR).toNat + 4 ≤ addr ∨ addr + l.length ≤ (s.rd (.rc n) Off.MSI_ADDR).toNat) ∧ 0 < len ∧ l ≠ [] ∧ ∃ i, ∃ lid, streamOf s n p rid = some (i, lid) ∧ atype = 0 ∧ pasid = false ∧ attrValid (portAttr s n lid) = false) ∧
  (∃ s : State, ∃ n : Nat, ∃ p : Nat, ∃ rid : Nat, ∃ addr : Nat, ∃ len : Nat, ∃ l : List Byte, portLive s n p = true ∧ ((s.rd (.rc n) Off.MSI_ADDR).toNat + 4 ≤ addr ∨ addr + l.length ≤ (s.rd (.rc n) Off.MSI_ADDR).toNat) ∧ 0 < len ∧ l ≠ [] ∧ ∃ i, ∃ lid, streamOf s n p rid = some (i, lid) ∧ attrValid (portAttr s n lid) = true) ∧
  (∃ s : State, ∃ n : Nat, ∃ p : Nat, ∃ rid : Nat, ∃ addr : Nat, ∃ len : Nat, ∃ atype : Nat, ∃ pasid : Bool, ∃ l : List Byte, portLive s n p = true ∧ ((s.rd (.rc n) Off.MSI_ADDR).toNat + 4 ≤ addr ∨ addr + l.length ≤ (s.rd (.rc n) Off.MSI_ADDR).toNat) ∧ 0 < len ∧ l ≠ [] ∧ ∃ i, ∃ lid, streamOf s n p rid = some (i, lid) ∧ atype = 0 ∧ pasid = false ∧ attrValid (portAttr s n lid) = true ∧ attrHold (portAttr s n lid) = true) ∧
  (∃ s : State, ∃ n : Nat, ∃ p : Nat, ∃ rid : Nat, ∃ addr : Nat, ∃ len : Nat, ∃ atype : Nat, ∃ pasid : Bool, ∃ l : List Byte, portLive s n p = true ∧ ((s.rd (.rc n) Off.MSI_ADDR).toNat + 4 ≤ addr ∨ addr + l.length ≤ (s.rd (.rc n) Off.MSI_ADDR).toNat) ∧ 0 < len ∧ l ≠ [] ∧ ∃ i, ∃ lid, streamOf s n p rid = some (i, lid) ∧ atype = 0 ∧ pasid = false ∧ attrValid (portAttr s n lid) = true ∧ attrHold (portAttr s n lid) = false ∧ ∃ k, ∃ u, portXlate n lid addr len false s = (.error k, u)) :=
  ⟨⟨live.modPort 8 (fun p => { p with reqs := [⟨1023, 0, .core 271, 0x80000000, 8, false, false, 0, 1000, true, 0, 0⟩] }), 8, 1023, ⟨1023, 0, .core 271, 0x80000000, 8, false, false, 0, 1000, true, 0, 0⟩, by decide +kernel⟩,
  ⟨put live [(.rc 7, Off.PORT_STATE, 1), (.rc 7, Off.RC_CFG, 0)], 7, 0, 0x1FF, 0xFFFC0, 64, [1], by decide +kernel, by decide +kernel, by decide +kernel, by decide +kernel, by decide +kernel⟩,
  ⟨put live [(.rc 7, Off.STREAM + 8 * 255, 511 * 2 ^ 35 + 2 ^ 34 + 0xFFFF01FF), (.rc 7, Off.PORT_STATE, 1)], 7, 0, 0x1FF, 0xFFFC0, 64, 1, false, [1], by decide +kernel, by decide +kernel, by decide +kernel, by decide +kernel, 255, 511, by decide +kernel, by decide +kernel⟩,
  ⟨put live [(.rc 7, Off.STREAM + 8 * 255, 511 * 2 ^ 35 + 2 ^ 34 + 0xFFFF01FF), (.rc 7, Off.PORT_STATE, 1)], 7, 0, 0x1FF, 0xFFFC0, 64, 0, false, [1], by decide +kernel, by decide +kernel, by decide +kernel, by decide +kernel, 255, 511, by decide +kernel, by decide +kernel, by decide +kernel, by decide +kernel⟩,
  ⟨put live [(.rc 7, Off.STREAM + 8 * 255, 511 * 2 ^ 35 + 2 ^ 34 + 0xFFFF01FF), (.rc 7, Off.PORT_STATE, 1), (.rc 7, Off.RC_LODGE_ATTR + 4 * 511, 2 ^ 25)], 7, 0, 0x1FF, 0xFFFC0, 64, [1], by decide +kernel, by decide +kernel, by decide +kernel, by decide +kernel, 255, 511, by decide +kernel, by decide +kernel⟩,
  ⟨put live [(.rc 7, Off.STREAM + 8 * 255, 511 * 2 ^ 35 + 2 ^ 34 + 0xFFFF01FF), (.rc 7, Off.PORT_STATE, 1), (.rc 7, Off.RC_LODGE_ATTR + 4 * 511, 2 ^ 25 + 2 ^ 26)], 7, 0, 0x1FF, 0xFFFC0, 64, 0, false, [1], by decide +kernel, by decide +kernel, by decide +kernel, by decide +kernel, 255, 511, by decide +kernel, by decide +kernel, by decide +kernel, by decide +kernel, by decide +kernel⟩,
  ⟨put live [(.rc 7, Off.STREAM + 8 * 255, 511 * 2 ^ 35 + 2 ^ 34 + 0xFFFF01FF), (.rc 7, Off.PORT_STATE, 1), (.rc 7, Off.RC_LODGE_ATTR + 4 * 511, 2 ^ 25)], 7, 0, 0x1FF, 0xFFFC0, 64, 0, false, [1], by decide +kernel, by decide +kernel, by decide +kernel, by decide +kernel, 255, 511, by decide +kernel, by decide +kernel, by decide +kernel, by decide +kernel, by decide +kernel, _, _, xerr_of (by decide +kernel)⟩⟩

/-- States and operands that meet the hypotheses of RootComplexTraffic. -/
theorem wit_root_complex_traffic_4 :
  (∃ s : State, ∃ n : Nat, ∃ p : Nat, ∃ rid : Nat, ∃ addr : Nat, ∃ len : Nat, ∃ atype : Nat, ∃ pasid : Bool, ∃ l : List Byte, portLive s n p = true ∧ ((s.rd (.rc n) Off.MSI_ADDR).toNat + 4 ≤ addr ∨ addr + l.length ≤ (s.rd (.rc n) Off.MSI_ADDR).toNat) ∧ 0 < len ∧ l ≠ [] ∧ ∃ i, ∃ lid, streamOf s n p rid = some (i, lid) ∧ atype = 0 ∧ pasid = false ∧ attrValid (portAttr s n lid) = true ∧ attrHold (portAttr s n lid) = false ∧ ∃ pa, ∃ u, portXlate n lid addr len false s = (.ok pa, u)) ∧
  (∃ s : State, ∃ n : Nat, ∃ p : Nat, ∃ rid : Nat, ∃ addr : Nat, ∃ len : Nat, ∃ atype : Nat, ∃ pasid : Bool, ∃ l : List Byte, portLive s n p = true ∧ ((s.rd (.rc n) Off.MSI_ADDR).toNat + 4 ≤ addr ∨ addr + l.length ≤ (s.rd (.rc n) Off.MSI_ADDR).toNat) ∧ 0 < len ∧ l ≠ [] ∧ ∃ i, ∃ lid, streamOf s n p rid = some (i, lid) ∧ atype = 0 ∧ pasid = false ∧ attrValid (portAttr s n lid) = true ∧ attrHold (portAttr s n lid) = false ∧ ∃ k, ∃ u, portXlate n lid addr l.length true s = (.error k, u)) ∧
  (∃ s : State, ∃ n : Nat, ∃ p : Nat, ∃ rid : Nat, ∃ addr : Nat, ∃ len : Nat, ∃ atype : Nat, ∃ pasid : Bool, ∃ l : List Byte, portLive s n p = true ∧ ((s.rd (.rc n) Off.MSI_ADDR).toNat + 4 ≤ addr ∨ addr + l.length ≤ (s.rd (.rc n) Off.MSI_ADDR).toNat) ∧ 0 < len ∧ l ≠ [] ∧ ∃ i, ∃ lid, streamOf s n p rid = some (i, lid) ∧ atype = 0 ∧ pasid = false ∧ attrValid (portAttr s n lid) = true ∧ attrHold (portAttr s n lid) = false ∧ ∃ pa, ∃ u, portXlate n lid addr l.length true s = (.ok pa, u)) ∧
  (∃ s : State, ∃ n : Nat, ∃ p : Nat, ∃ bit : Nat, isRc s n = true ∧ p < 4 ∧ portLanes s n p ≠ 0 ∧ bit < 32) :=
  ⟨⟨(put live [(.rc 7, Off.STREAM + 8 * 255, 511 * 2 ^ 35 + 2 ^ 34 + 0xFFFF01FF), (.rc 7, Off.PORT_STATE, 1), (.rc 7, Off.RC_LODGE_ATTR + 4 * 511, 2 ^ 25)]).modPort 7 (fun p => { p with ext := [⟨511, 0, 20, 0x10000, true, true, false⟩] }), 7, 0, 0x1FF, 0xFFFC0, 64, 0, false, [1], by decide +kernel, by decide +kernel, by decide +kernel, by decide +kernel, 255, 511, by decide +kernel, by decide +kernel, by decide +kernel, by decide +kernel, by decide +kernel, _, _, xok_of (by decide +kernel)⟩,
  ⟨put live [(.rc 7, Off.STREAM + 8 * 255, 511 * 2 ^ 35 + 2 ^ 34 + 0xFFFF01FF), (.rc 7, Off.PORT_STATE, 1), (.rc 7, Off.RC_LODGE_ATTR + 4 * 511, 2 ^ 25)], 7, 0, 0x1FF, 0xFFFC0, 64, 0, false, [1], by decide +kernel, by decide +kernel, by decide +kernel, by decide +kernel, 255, 511, by decide +kernel, by decide +kernel, by decide +kernel, by decide +kernel, by decide +kernel, _, _, xerr_of (by decide +kernel)⟩,
  ⟨(put live [(.rc 7, Off.STREAM + 8 * 255, 511 * 2 ^ 35 + 2 ^ 34 + 0xFFFF01FF), (.rc 7, Off.PORT_STATE, 1), (.rc 7, Off.RC_LODGE_ATTR + 4 * 511, 2 ^ 25)]).modPort 7 (fun p => { p with ext := [⟨511, 0, 20, 0x10000, true, true, false⟩] }), 7, 0, 0x1FF, 0xFFFC0, 64, 0, false, [1], by decide +kernel, by decide +kernel, by decide +kernel, by decide +kernel, 255, 511, by decide +kernel, by decide +kernel, by decide +kernel, by decide +kernel, by decide +kernel, _, _, xok_of (by decide +kernel)⟩,
  ⟨put live [(.rc 7, Off.RC_CFG, 4)], 7, 3, 31, by decide +kernel, by decide +kernel, by decide +kernel, by decide +kernel⟩⟩

/-- States and operands that meet the hypotheses of RootPortLinksAndCommands. -/
theorem wit_root_port_links_and_commands_1 :
  (∃ s : State, ∃ n : Nat, ∃ p : Nat, ∃ speed : Nat, ∃ width : Nat, isRc s n = true ∧ p < 4 ∧ perstOf s n p = false ∧ linkOf s n p ≠ 3 ∧ 1 ≤ speed ∧ speed ≤ 6 ∧ width ∈ [1, 2, 4, 8, 16] ∧ width ≤ portLanes s n p) ∧
  (∃ s : State, ∃ n : Nat, ∃ p : Nat, portLive s n p = true) ∧
  (∃ s : State, ∃ n : Nat, ∃ p : Nat, portLive s n p = false) ∧
  (∃ s : State, ∃ n : Nat, ∃ p : Nat, ∃ t : Nat, smFind (s.port n).perstDue p = some t ∧ portLanes s n p ≠ 0 ∧ let u := ((s.toTick t).modPort n (fun x => { x with perstDue := smDel x.perstDue p })).wr (.rc n) (Off.PORT_STATE + 8 * p) 2
    ∃ c, ∃ l, u.sett.cmds.filter (fun c => c.opcode == 0x0504 && c.phase == .running && c.aux == [4 * n + p]) = c :: l) ∧
  (∃ s : State, ∃ n : Nat, ∃ p : Nat, ∃ t : Nat, smFind (s.port n).perstDue p = some t ∧ portLanes s n p ≠ 0 ∧ let u := ((s.toTick t).modPort n (fun x => { x with perstDue := smDel x.perstDue p })).wr (.rc n) (Off.PORT_STATE + 8 * p) 2
    u.sett.cmds.filter (fun c => c.opcode == 0x0504 && c.phase == .running && c.aux == [4 * n + p]) = []) ∧
  (∃ s : State, ∃ ch : Nat, ∃ tag : Nat, ∃ n : Nat, ∃ c : Cmd, Ready s ch tag 0x0501 c ∧ jrnHasRoom s = true ∧ bytesAt c.body 0 0 = n ∧ isRc s n = true) ∧
  (∃ s : State, ∃ ch : Nat, ∃ tag : Nat, ∃ n : Nat, ∃ c : Cmd, Ready s ch tag 0x0502 c ∧ bytesAt c.body 0 0 = n ∧ isRc s n = true) ∧
  (∃ s : State, ∃ ch : Nat, ∃ tag : Nat, ∃ n : Nat, ∃ c : Cmd, Ready s ch tag 0x0503 c ∧ bytesAt c.body 0 0 = n ∧ isRc s n = true) :=
  ⟨⟨put live [(.rc 7, Off.RC_CFG, 4), (.rc 7, Off.PORT_STATE + 24, 0)], 7, 3, 6, 4, by decide +kernel, by decide +kernel, by decide +kernel, by decide +kernel, by decide +kernel, by decide +kernel, by decide +kernel, by decide +kernel⟩,
  ⟨put live [(.rc 7, Off.PORT_STATE, 1)], 7, 0, by decide +kernel⟩,
  ⟨live, 7, 0, by decide +kernel⟩,
  ⟨{ live.modPort 7 (fun p => { p with perstDue := [(0, 5)] }) with sett := { live.sett with cmds := [running 0x0504 [28]] } }, 7, 0, 5, by decide +kernel, by decide +kernel, (running 0x0504 [28]), [], by decide +kernel⟩,
  ⟨live.modPort 7 (fun p => { p with perstDue := [(0, 5)] }), 7, 0, 5, by decide +kernel, by decide +kernel, by decide +kernel⟩,
  ⟨asks (live) 0x0501 [7], 0, 7, 7, cmd0 0x0501 [7], ready_of (by decide +kernel), by decide +kernel, by decide +kernel, by decide +kernel⟩,
  ⟨asks (live) 0x0502 [7], 0, 7, 7, cmd0 0x0502 [7], ready_of (by decide +kernel), by decide +kernel, by decide +kernel⟩,
  ⟨asks (live) 0x0503 [7], 0, 7, 7, cmd0 0x0503 [7], ready_of (by decide +kernel), by decide +kernel, by decide +kernel⟩⟩

/-- States and operands that meet the hypotheses of RootPortLinksAndCommands. -/
theorem wit_root_port_links_and_commands_2 :
  (∃ s : State, ∃ ch : Nat, ∃ tag : Nat, ∃ c : Cmd, Ready s ch tag 0x0504 c) ∧
  (∃ s : State, ∃ ch : Nat, ∃ tag : Nat, ∃ n : Nat, ∃ c : Cmd, Ready s ch tag 0x0505 c ∧ bytesAt c.body 0 0 = n ∧ isRc s n = true) ∧
  (∃ s : State, ∃ ch : Nat, ∃ tag : Nat, ∃ op : Nat, ∃ c : Cmd, Ready s ch tag op c ∧ isRc s (bytesAt c.body 0 0) = false ∧ op = 0x0501) ∧
  (∃ s : State, ∃ ch : Nat, ∃ tag : Nat, ∃ op : Nat, ∃ c : Cmd, Ready s ch tag op c ∧ isRc s (bytesAt c.body 0 0) = false ∧ op = 0x0502) ∧
  (∃ s : State, ∃ ch : Nat, ∃ tag : Nat, ∃ op : Nat, ∃ c : Cmd, Ready s ch tag op c ∧ isRc s (bytesAt c.body 0 0) = false ∧ op = 0x0503) ∧
  (∃ s : State, ∃ ch : Nat, ∃ tag : Nat, ∃ op : Nat, ∃ c : Cmd, Ready s ch tag op c ∧ isRc s (bytesAt c.body 0 0) = false ∧ op = 0x0505) :=
  ⟨⟨asks (live) 0x0504 [7], 0, 7, cmd0 0x0504 [7], ready_of (by decide +kernel)⟩,
  ⟨asks (live) 0x0505 [7], 0, 7, 7, cmd0 0x0505 [7], ready_of (by decide +kernel), by decide +kernel, by decide +kernel⟩,
  ⟨asks live 0x0501 [8], 0, 7, 0x0501, cmd0 0x0501 [8], ready_of (by decide +kernel), by decide +kernel, by decide +kernel⟩,
  ⟨asks live 0x0502 [8], 0, 7, 0x0502, cmd0 0x0502 [8], ready_of (by decide +kernel), by decide +kernel, by decide +kernel⟩,
  ⟨asks live 0x0503 [8], 0, 7, 0x0503, cmd0 0x0503 [8], ready_of (by decide +kernel), by decide +kernel, by decide +kernel⟩,
  ⟨asks live 0x0505 [8], 0, 7, 0x0505, cmd0 0x0505 [8], ready_of (by decide +kernel), by decide +kernel, by decide +kernel⟩⟩

/-- States and operands that meet the hypotheses of PartnerRequestsAndRingDescriptors. -/
theorem wit_partner_requests_and_ring_descriptors_1 :
  (∃ s : State, ∃ wr : Bool, ∃ off : Nat, ∃ len : Nat, ∃ l : List Byte, twinUp s = true ∧ let n := if wr then l.length else len
    s.pf0.d3 = false ∧ 0 < n ∧ n ≤ 64 ∧ off + n ≤ 0x2000 ∧ wr = true) ∧
  (∃ s : State, ∃ wr : Bool, ∃ off : Nat, ∃ len : Nat, ∃ l : List Byte, twinUp s = true ∧ let n := if wr then l.length else len
    s.pf0.d3 = false ∧ 0 < n ∧ n ≤ 64 ∧ off + n ≤ 0x2000 ∧ wr = false) ∧
  (∃ s : State, ∃ wr : Bool, ∃ off : Nat, ∃ len : Nat, ∃ l : List Byte, twinUp s = true ∧ let n := if wr then l.length else len
    (s.pf0.d3 = true ∨ n = 0 ∨ 64 < n ∨ 0x2000 < off + n)) ∧
  (∃ s : State, ∃ v : Nat, ∃ off : Nat, ∃ len : Nat, ∃ wr : Bool, ∃ l : List Byte, isVf v = true ∧ twinUp s = true ∧ vfEnabled s v = true ∧ (s.vf v).d3 = false ∧ off < 2 ^ 36 ∧ let n := if wr then l.length else len
    0 < n ∧ vfLid s v = none) ∧
  (∃ s : State, ∃ v : Nat, ∃ off : Nat, ∃ len : Nat, ∃ wr : Bool, ∃ l : List Byte, isVf v = true ∧ twinUp s = true ∧ vfEnabled s v = true ∧ (s.vf v).d3 = false ∧ off < 2 ^ 36 ∧ let n := if wr then l.length else len
    let w := off / 2 ^ 34
    let o := off % 2 ^ 34
    let live := winLive s v w
    let sz := fld live 6 1
    0 < n ∧ ∃ lid, vfLid s v = some lid ∧ (bitOf live 0 = false ∨ 2 ^ sz < o + n)) ∧
  (∃ s : State, ∃ v : Nat, ∃ off : Nat, ∃ len : Nat, ∃ wr : Bool, ∃ l : List Byte, isVf v = true ∧ twinUp s = true ∧ vfEnabled s v = true ∧ (s.vf v).d3 = false ∧ off < 2 ^ 36 ∧ let n := if wr then l.length else len
    let w := off / 2 ^ 34
    let o := off % 2 ^ 34
    let live := winLive s v w
    let sz := fld live 6 1
    0 < n ∧ ∃ lid, vfLid s v = some lid ∧ bitOf live 0 = true ∧ o + n ≤ 2 ^ sz ∧ attrValid (portAttr s 8 lid) = true ∧ attrHold (portAttr s 8 lid) = true) ∧
  (∃ s : State, ∃ v : Nat, ∃ off : Nat, ∃ len : Nat, ∃ wr : Bool, ∃ l : List Byte, isVf v = true ∧ twinUp s = true ∧ vfEnabled s v = true ∧ (s.vf v).d3 = false ∧ off < 2 ^ 36 ∧ let n := if wr then l.length else len
    let w := off / 2 ^ 34
    let o := off % 2 ^ 34
    let live := winLive s v w
    let sz := fld live 6 1
    0 < n ∧ ∃ lid, vfLid s v = some lid ∧ bitOf live 0 = true ∧ o + n ≤ 2 ^ sz ∧ attrValid (portAttr s 8 lid) = true ∧ attrHold (portAttr s 8 lid) = false ∧ let g := fld live 47 12 * 4096 / 2 ^ sz * 2 ^ sz + o
    ∃ k, ∃ u, portXlate 8 lid g n wr s = (.error k, u)) ∧
  (∃ s : State, ∃ v : Nat, ∃ off : Nat, ∃ len : Nat, ∃ wr : Bool, ∃ l : List Byte, isVf v = true ∧ twinUp s = true ∧ vfEnabled s v = true ∧ (s.vf v).d3 = false ∧ off < 2 ^ 36 ∧ let n := if wr then l.length else len
    let w := off / 2 ^ 34
    let o := off % 2 ^ 34
    let live := winLive s v w
    let sz := fld live 6 1
    0 < n ∧ ∃ lid, vfLid s v = some lid ∧ bitOf live 0 = true ∧ o + n ≤ 2 ^ sz ∧ attrValid (portAttr s 8 lid) = true ∧ attrHold (portAttr s 8 lid) = false ∧ let g := fld live 47 12 * 4096 / 2 ^ sz * 2 ^ sz + o
    ∃ pa, ∃ u, portXlate 8 lid g n wr s = (.ok pa, u) ∧ wr = true) :=
  ⟨⟨put live [(.tp, Off.TP_LINK, 0x3F801)], true, 0x1FFF, 64, [1], by decide +kernel, by decide +kernel, by decide +kernel, by decide +kernel, by decide +kernel, by decide +kernel⟩,
  ⟨put live [(.tp, Off.TP_LINK, 0x3F801)], false, 0x1FC0, 64, [1], by decide +kernel, by decide +kernel, by decide +kernel, by decide +kernel, by decide +kernel, by decide +kernel⟩,
  ⟨put live [(.tp, Off.TP_LINK, 0x3F801)], false, 0x1FC1, 64, [1], by decide +kernel, by decide +kernel⟩,
  ⟨put live [(.tp, Off.TP_LINK, 0x3F801)], 63, (3 * 2 ^ 34 + 0xFC0), 64, true, [1], by decide +kernel, by decide +kernel, by decide +kernel, by decide +kernel, by decide +kernel, by decide +kernel, by decide +kernel⟩,
  ⟨put live [(.tp, Off.TP_LINK, 0x3F801), (.tp, Off.VF_BIND + 8 * 63, 0x3FF), (.vf 63, Off.WIN_LIVE + 0x60, 0x19)], 63, (3 * 2 ^ 34 + 0xFC1), 64, false, [1], by decide +kernel, by decide +kernel, by decide +kernel, by decide +kernel, by decide +kernel, by decide +kernel, 511, by decide +kernel, Or.inr (by decide +kernel)⟩,
  ⟨put live [(.tp, Off.TP_LINK, 0x3F801), (.tp, Off.VF_BIND + 8 * 63, 0x3FF), (.vf 63, Off.WIN_LIVE + 0x60, 0x19), (.tp, Off.TP_LODGE_ATTR + 4 * 511, 2 ^ 25 + 2 ^ 26)], 63, (3 * 2 ^ 34 + 0xFC0), 64, false, [1], by decide +kernel, by decide +kernel, by decide +kernel, by decide +kernel, by decide +kernel, by decide +kernel, 511, by decide +kernel, by decide +kernel, by decide +kernel, by decide +kernel, by decide +kernel⟩,
  ⟨put live [(.tp, Off.TP_LINK, 0x3F801), (.tp, Off.VF_BIND + 8 * 63, 0x3FF), (.vf 63, Off.WIN_LIVE + 0x60, 0x19), (.tp, Off.TP_LODGE_ATTR + 4 * 511, 2 ^ 25)], 63, (3 * 2 ^ 34 + 0xFC0), 64, false, [1], by decide +kernel, by decide +kernel, by decide +kernel, by decide +kernel, by decide +kernel, by decide +kernel, 511, by decide +kernel, by decide +kernel, by decide +kernel, by decide +kernel, by decide +kernel, _, _, xerr_of (by decide +kernel)⟩,
  ⟨(put live [(.tp, Off.TP_LINK, 0x3F801), (.tp, Off.VF_BIND + 8 * 63, 0x3FF), (.vf 63, Off.WIN_LIVE + 0x60, 0x19), (.tp, Off.TP_LODGE_ATTR + 4 * 511, 2 ^ 25)]).modPort 8 (fun p => { p with ext := [⟨511, 0, 20, 0x10000, true, true, false⟩] }), 63, (3 * 2 ^ 34 + 0xFC0), 64, true, [1], by decide +kernel, by decide +kernel, by decide +kernel, by decide +kernel, by decide +kernel, by decide +kernel, 511, by decide +kernel, by decide +kernel, by decide +kernel, by decide +kernel, by decide +kernel, _, _, xok_of (by decide +kernel), by decide +kernel⟩⟩

/-- States and operands that meet the hypotheses of PartnerRequestsAndRingDescriptors. -/
theorem wit_partner_requests_and_ring_descriptors_2 :
  (∃ s : State, ∃ v : Nat, ∃ off : Nat, ∃ len : Nat, ∃ wr : Bool, ∃ l : List Byte, isVf v = true ∧ twinUp s = true ∧ vfEnabled s v = true ∧ (s.vf v).d3 = false ∧ off < 2 ^ 36 ∧ let n := if wr then l.length else len
    let w := off / 2 ^ 34
    let o := off % 2 ^ 34
    let live := winLive s v w
    let sz := fld live 6 1
    0 < n ∧ ∃ lid, vfLid s v = some lid ∧ bitOf live 0 = true ∧ o + n ≤ 2 ^ sz ∧ attrValid (portAttr s 8 lid) = true ∧ attrHold (portAttr s 8 lid) = false ∧ let g := fld live 47 12 * 4096 / 2 ^ sz * 2 ^ sz + o
    ∃ pa, ∃ u, portXlate 8 lid g n wr s = (.ok pa, u) ∧ wr = false) ∧
  (∃ s : State, ∃ v : Nat, isVf v = true ∧ s.rf (.vf v) Off.WIN_COMMIT 4 4 ≠ 0 ∧ oldWindow s v (s.vf v).commit = false) ∧
  (∃ s : State, ∃ v : Nat, oldWindow s v (s.vf v).commit = true) ∧
  (∃ s : State, ∃ v : Nat, ∃ lid : Nat, isVf v = true ∧ twinUp s = true ∧ vfEnabled s v = true ∧ (s.vf v).d3 = false ∧ vfLid s v = some lid) ∧
  (∃ s : State, ∃ v : Nat, ∃ r : Nat, ∃ lid : Nat, isVf v = true ∧ r < 2 ∧ twinEp s = true ∧ vfLid s v = some lid ∧ ringState s v r = 1 ∧ ringHeld s v = false ∧ (s.vf v).next r ≠ ringTail s v r ∧ (((s.vf v).prog r).filter (fun d => !d.complete)).length < 8 ∧ (((s.vf v).prog r).filter (fun d => !d.complete)).any (fun d => d.op == 4) = false ∧ fetchTurn s v r = false) ∧
  (∃ s : State, ∃ v : Nat, ∃ r : Nat, ∃ lid : Nat, isVf v = true ∧ r < 2 ∧ twinEp s = true ∧ vfLid s v = some lid ∧ ringState s v r = 1 ∧ ringHeld s v = false ∧ (s.vf v).next r ≠ ringTail s v r ∧ (((s.vf v).prog r).filter (fun d => !d.complete)).length < 8 ∧ (((s.vf v).prog r).filter (fun d => !d.complete)).any (fun d => d.op == 4) = false ∧ fetchTurn s v r = true ∧ let i := (s.vf v).next r
    let w := slotTaken 8 (some (pairOf v r)) s
    let g := w.rf (.vf v) (Off.RING_BASE + 0x20 * r) 47 5 * 32 + 32 * (i % ringN w v r)
    ∃ c, ∃ u, localRead lid 2 g 32 w = (.error c, u)) ∧
  (∃ s : State, ∃ v : Nat, ∃ r : Nat, ∃ lid : Nat, isVf v = true ∧ r < 2 ∧ twinEp s = true ∧ vfLid s v = some lid ∧ ringState s v r = 1 ∧ ringHeld s v = false ∧ (s.vf v).next r ≠ ringTail s v r ∧ (((s.vf v).prog r).filter (fun d => !d.complete)).length < 8 ∧ (((s.vf v).prog r).filter (fun d => !d.complete)).any (fun d => d.op == 4) = false ∧ fetchTurn s v r = true ∧ let i := (s.vf v).next r
    let w := slotTaken 8 (some (pairOf v r)) s
    let g := w.rf (.vf v) (Off.RING_BASE + 0x20 * r) 47 5 * 32 + 32 * (i % ringN w v r)
    ∃ b, ∃ u, localRead lid 2 g 32 w = (.ok b, u) ∧ descBad b = true) ∧
  (∃ s : State, ∃ v : Nat, ∃ r : Nat, ∃ lid : Nat, isVf v = true ∧ r < 2 ∧ twinEp s = true ∧ vfLid s v = some lid ∧ ringState s v r = 1 ∧ ringHeld s v = false ∧ (s.vf v).next r ≠ ringTail s v r ∧ (((s.vf v).prog r).filter (fun d => !d.complete)).length < 8 ∧ (((s.vf v).prog r).filter (fun d => !d.complete)).any (fun d => d.op == 4) = false ∧ fetchTurn s v r = true ∧ let i := (s.vf v).next r
    let w := slotTaken 8 (some (pairOf v r)) s
    let g := w.rf (.vf v) (Off.RING_BASE + 0x20 * r) 47 5 * 32 + 32 * (i % ringN w v r)
    ∃ b, ∃ u, localRead lid 2 g 32 w = (.ok b, u) ∧ descBad b = false ∧ 3 < bytesAt b 0 0 % 8) :=
  ⟨⟨(put live [(.tp, Off.TP_LINK, 0x3F801), (.tp, Off.VF_BIND + 8 * 63, 0x3FF), (.vf 63, Off.WIN_LIVE + 0x60, 0x19), (.tp, Off.TP_LODGE_ATTR + 4 * 511, 2 ^ 25)]).modPort 8 (fun p => { p with ext := [⟨511, 0, 20, 0x10000, true, true, false⟩] }), 63, (3 * 2 ^ 34 + 0xFC0), 64, false, [1], by decide +kernel, by decide +kernel, by decide +kernel, by decide +kernel, by decide +kernel, by decide +kernel, 511, by decide +kernel, by decide +kernel, by decide +kernel, by decide +kernel, by decide +kernel, _, _, xok_of (by decide +kernel), by decide +kernel⟩,
  ⟨put live [(.vf 63, Off.WIN_COMMIT, 0x10)], 63, by decide +kernel, by decide +kernel, by decide +kernel⟩,
  ⟨(live.modVf 63 (fun x => { x with commit := 8 })).modPort 8 (fun p => { p with pieces := [{ pc0 with win := some (63, 3, 1) }] }), 63, by decide +kernel⟩,
  ⟨put live [(.tp, Off.TP_LINK, 0x3F801), (.tp, Off.VF_BIND + 8 * 63, 0x3FF)], 63, 511, by decide +kernel, by decide +kernel, by decide +kernel, by decide +kernel, by decide +kernel⟩,
  ⟨((put live [(.tp, Off.TP_LINK, 0x3F801), (.tp, Off.VF_BIND + 8 * 63, 0x3FF), (.tp, Off.TP_LODGE_ATTR + 4 * 511, 2 ^ 25), (.vf 63, Off.VF_STATUS, 5), (.vf 63, Off.RING_TAIL + 0x20, 1), (.vf 63, Off.RING_TAIL, 1)]).modVf 63 (fun x => { x with bme := true })).modPort 8 (fun p => { p with rot := 124 }), 63, 1, 511, by decide +kernel, by decide +kernel, by decide +kernel, by decide +kernel, by decide +kernel, by decide +kernel, by decide +kernel, by decide +kernel, by decide +kernel, by decide +kernel⟩,
  ⟨(put live [(.tp, Off.TP_LINK, 0x3F801), (.tp, Off.VF_BIND + 8 * 63, 0x3FF), (.tp, Off.TP_LODGE_ATTR + 4 * 511, 2 ^ 25), (.vf 63, Off.VF_STATUS, 1), (.vf 63, Off.RING_TAIL, 1)]).modVf 63 (fun x => { x with bme := true }), 63, 0, 511, by decide +kernel, by decide +kernel, by decide +kernel, by decide +kernel, by decide +kernel, by decide +kernel, by decide +kernel, by decide +kernel, by decide +kernel, by decide +kernel, _, _, xerr_of (by decide +kernel)⟩,
  ⟨((put live [(.tp, Off.TP_LINK, 0x3F801), (.tp, Off.VF_BIND + 8 * 63, 0x3FF), (.tp, Off.TP_LODGE_ATTR + 4 * 511, 2 ^ 25), (.vf 63, Off.VF_STATUS, 1), (.vf 63, Off.RING_TAIL, 1)]).modPort 8 (fun p => { p with ext := [⟨511, 0, 20, 0x10000, true, true, false⟩] })).modVf 63 (fun x => { x with bme := true }), 63, 0, 511, by decide +kernel, by decide +kernel, by decide +kernel, by decide +kernel, by decide +kernel, by decide +kernel, by decide +kernel, by decide +kernel, by decide +kernel, by decide +kernel, _, _, xok_of (by decide +kernel), by decide +kernel⟩,
  ⟨(((put live [(.tp, Off.TP_LINK, 0x3F801), (.tp, Off.VF_BIND + 8 * 63, 0x3FF), (.tp, Off.TP_LODGE_ATTR + 4 * 511, 2 ^ 25), (.vf 63, Off.VF_STATUS, 1), (.vf 63, Off.RING_TAIL, 1)]).setMemBytes 0x10000 [4]).modPort 8 (fun p => { p with ext := [⟨511, 0, 20, 0x10000, true, true, false⟩] })).modVf 63 (fun x => { x with bme := true }), 63, 0, 511, by decide +kernel, by decide +kernel, by decide +kernel, by decide +kernel, by decide +kernel, by decide +kernel, by decide +kernel, by decide +kernel, by decide +kernel, by decide +kernel, _, _, xok_of (by decide +kernel), by decide +kernel, by decide +kernel⟩⟩

/-- States and operands that meet the hypotheses of PartnerRequestsAndRingDescriptors. -/
theorem wit_partner_requests_and_ring_descriptors_3 :
  (∃ s : State, ∃ v : Nat, ∃ r : Nat, ∃ i : Nat, ∃ d : Desc, isVf v = true ∧ r < 2 ∧ ((s.vf v).prog r).find? (fun d => d.idx == i && !d.complete) = some d ∧ let earlier := (((s.vf v).prog r).takeWhile (fun x => x.idx != i)).all (·.complete)
    (descWorkDone s d = false ∨ ((d.op = 4 ∨ d.op = 5 ∨ d.flags / 4 % 2 = 1) ∧ earlier = false))) ∧
  (∃ s : State, ∃ v : Nat, ∃ r : Nat, ∃ i : Nat, ∃ d : Desc, isVf v = true ∧ r < 2 ∧ ((s.vf v).prog r).find? (fun d => d.idx == i && !d.complete) = some d ∧ let earlier := (((s.vf v).prog r).takeWhile (fun x => x.idx != i)).all (·.complete)
    descWorkDone s d = true ∧ earlier = true ∧ ringHeld s v = false) :=
  ⟨⟨(put live [(.tp, Off.TP_LINK, 0x3F801), (.tp, Off.VF_BIND + 8 * 63, 0x3FF), (.tp, Off.TP_LODGE_ATTR + 4 * 511, 2 ^ 25), (.vf 63, Off.VF_STATUS, 1), (.vf 63, Off.RING_TAIL, 1)]).modVf 63 (fun x => { x with bme := true, prog1 := [⟨3, 2, 0, 0, 64, 0, 0, 0, 0, [], false⟩] }), 63, 1, 3, ⟨3, 2, 0, 0, 64, 0, 0, 0, 0, [], false⟩, by decide +kernel, by decide +kernel, by decide +kernel, Or.inl (by decide +kernel)⟩,
  ⟨(put live [(.tp, Off.TP_LINK, 0x3F801), (.tp, Off.VF_BIND + 8 * 63, 0x3FF), (.tp, Off.TP_LODGE_ATTR + 4 * 511, 2 ^ 25), (.vf 63, Off.VF_STATUS, 1), (.vf 63, Off.RING_TAIL, 1)]).modVf 63 (fun x => { x with bme := true, prog1 := [⟨3, 3, 0, 0, 64, 0, 0, 0, 0, [], false⟩] }), 63, 1, 3, ⟨3, 3, 0, 0, 64, 0, 0, 0, 0, [], false⟩, by decide +kernel, by decide +kernel, by decide +kernel, by decide +kernel, by decide +kernel, by decide +kernel⟩⟩

/-- States and operands that meet the hypotheses of TwinLinkFunctionsAndHeartbeat. -/
theorem wit_twin_link_functions_and_heartbeat_1 :
  (∃ s : State, ∃ speed : Nat, ∃ width : Nat, twinEp s = true ∧ s.chState 3 ≠ 0 ∧ s.pwr.twinPerst = false ∧ twinMode s = true ∧ s.rf .tp Off.TP_LINK 1 0 ≠ 1 ∧ 1 ≤ speed ∧ speed ≤ 6 ∧ width ∈ [1, 2, 4, 8, 16]) ∧
  (∃ s : State, twinEp s = true ∧ ∃ c, s.rf .tp Off.TP_LINK 1 0 = 1 ∧ (c = 1 ∨ c = 2)) ∧
  (∃ s : State, twinEp s = true ∧ s.rf .tp Off.TP_LINK 1 0 ≠ 1) ∧
  (∃ s : State, twinUp s = true ∧ s.rf .tp Off.TP_LINK 17 17 = 1) ∧
  (∃ s : State, ∃ n : Nat, twinUp s = true ∧ s.rf .tp Off.TP_LINK 17 17 ≠ 1 ∧ n ≤ 63) ∧
  (∃ s : State, ∃ n : Nat, twinUp s = true ∧ n ∈ [128, 256, 512]) ∧
  (∃ s : State, ∃ n : Nat, twinUp s = true ∧ n ∈ [128, 256, 512, 1024, 2048, 4096]) ∧
  (∃ s : State, ∃ n : Nat, twinUp s = true ∧ n ∈ [0, 1, 2, 5, 6, 9, 10, 13, 14]) :=
  ⟨⟨{ put live [(.sett, Off.CHAN_STATE + 24, 1)] with pwr := { live.pwr with twinPerst := false } }, 6, 16, by decide +kernel, by decide +kernel, by decide +kernel, by decide +kernel, by decide +kernel, by decide +kernel, by decide +kernel, by decide +kernel⟩,
  ⟨put live [(.tp, Off.TP_LINK, 0x3F801)], by decide +kernel, 1, by decide +kernel, Or.inl rfl⟩,
  ⟨live, by decide +kernel, by decide +kernel⟩,
  ⟨put live [(.tp, Off.TP_LINK, 0x3F801)], by decide +kernel, by decide +kernel⟩,
  ⟨put live [(.tp, Off.TP_LINK, 1)], 63, by decide +kernel, by decide +kernel, by decide +kernel⟩,
  ⟨put live [(.tp, Off.TP_LINK, 0x3F801)], 512, by decide +kernel, by decide +kernel⟩,
  ⟨put live [(.tp, Off.TP_LINK, 0x3F801)], 4096, by decide +kernel, by decide +kernel⟩,
  ⟨put live [(.tp, Off.TP_LINK, 0x3F801)], 14, by decide +kernel, by decide +kernel⟩⟩

/-- States and operands that meet the hypotheses of TwinLinkFunctionsAndHeartbeat. -/
theorem wit_twin_link_functions_and_heartbeat_2 :
  (∃ s : State, ∃ v : Nat, twinUp s = true ∧ isVf v = true ∧ vfEnabled s v = true) ∧
  (∃ s : State, ∃ v : Nat, twinUp s = true ∧ isVf v = true) ∧
  (∃ s : State, ∃ v : Nat, ∃ t : Nat, (s.vf v).flr = some t ∧ let u := (s.modVf v (fun x => { x with flr := none })).wf (.vf v) Off.VF_CTL 2 2 0
    ∃ c, ∃ l, u.sett.cmds.filter (fun c => c.opcode == 0x0541 && c.phase == .running && c.aux == [v]) = c :: l) ∧
  (∃ s : State, ∃ v : Nat, ∃ t : Nat, (s.vf v).flr = some t ∧ let u := (s.modVf v (fun x => { x with flr := none })).wf (.vf v) Off.VF_CTL 2 2 0
    u.sett.cmds.filter (fun c => c.opcode == 0x0541 && c.phase == .running && c.aux == [v]) = []) ∧
  (∃ s : State, s.sett.timeStill = false ∧ s.rf .sett Off.SETT_STATE 1 0 = 1 ∧ twinEp s = true) ∧
  (∃ s : State, ∃ ch : Nat, ∃ tag : Nat, ∃ op : Nat, ∃ c : Cmd, Ready s ch tag op c ∧ op = 0x0540) ∧
  (∃ s : State, ∃ ch : Nat, ∃ tag : Nat, ∃ op : Nat, ∃ v : Nat, ∃ c : Cmd, Ready s ch tag op c ∧ op = 0x0541 ∧ bytesAt c.body 0 0 = v ∧ s.pwr.tpRoot = true) ∧
  (∃ s : State, ∃ ch : Nat, ∃ tag : Nat, ∃ op : Nat, ∃ v : Nat, ∃ c : Cmd, Ready s ch tag op c ∧ op = 0x0541 ∧ bytesAt c.body 0 0 = v ∧ s.pwr.tpRoot = false ∧ (isVf v = false ∨ vfLid s v = none)) :=
  ⟨⟨put live [(.tp, Off.TP_LINK, 0x3F801)], 63, by decide +kernel, by decide +kernel, by decide +kernel⟩,
  ⟨put live [(.tp, Off.TP_LINK, 0x3F801)], 63, by decide +kernel, by decide +kernel⟩,
  ⟨{ live.modVf 63 (fun x => { x with flr := some 5 }) with sett := { live.sett with cmds := [running 0x0541 [63]] } }, 63, 5, by decide +kernel, (running 0x0541 [63]), [], by decide +kernel⟩,
  ⟨live.modVf 63 (fun x => { x with flr := some 5 }), 63, 5, by decide +kernel, by decide +kernel⟩,
  ⟨live, by decide +kernel, by decide +kernel, by decide +kernel⟩,
  ⟨asks live 0x0540 [], 0, 7, 0x0540, cmd0 0x0540 [], ready_of (by decide +kernel), by decide +kernel⟩,
  ⟨asks { live with pwr := { live.pwr with tpRoot := true } } 0x0541 [63], 0, 7, 0x0541, 63, cmd0 0x0541 [63], ready_of (by decide +kernel), by decide +kernel, by decide +kernel, by decide +kernel⟩,
  ⟨asks live 0x0541 [64], 0, 7, 0x0541, 64, cmd0 0x0541 [64], ready_of (by decide +kernel), by decide +kernel, by decide +kernel, by decide +kernel, Or.inl (by decide +kernel)⟩⟩

/-- States and operands that meet the hypotheses of TwinLinkFunctionsAndHeartbeat. -/
theorem wit_twin_link_functions_and_heartbeat_3 :
  (∃ s : State, ∃ ch : Nat, ∃ tag : Nat, ∃ op : Nat, ∃ v : Nat, ∃ c : Cmd, Ready s ch tag op c ∧ op = 0x0541 ∧ bytesAt c.body 0 0 = v ∧ ∃ l, s.pwr.tpRoot = false ∧ isVf v = true ∧ vfLid s v = some l) :=
  ⟨asks (put live [(.tp, Off.VF_BIND + 8 * 63, 0x3FF)]) 0x0541 [63], 0, 7, 0x0541, 63, cmd0 0x0541 [63], ready_of (by decide +kernel), by decide +kernel, by decide +kernel, 511, by decide +kernel, by decide +kernel, by decide +kernel⟩

/-- States and operands that meet the hypotheses of HoardBanksOwnersClearsAndMarches. -/
theorem wit_hoard_banks_owners_clears_and_marches_1 :
  (∃ s : State, ∃ b : Nat, (s.hoard (b / 16)).clears.contains b = true ∧ let u := settleBank b (setBankSt b 1 (zeroBank b (s.modHoard (b / 16) (fun h => { h with clears := h.clears.filter (· != b) }))))
    ∃ c, u.sett.cmds.find? (fun c => c.opcode == 0x0370 && c.phase == .running && c.aux == [b]) = some c) ∧
  (∃ s : State, ∃ b : Nat, (s.hoard (b / 16)).clears.contains b = true ∧ let u := settleBank b (setBankSt b 1 (zeroBank b (s.modHoard (b / 16) (fun h => { h with clears := h.clears.filter (· != b) }))))
    u.sett.cmds.find? (fun c => c.opcode == 0x0370 && c.phase == .running && c.aux == [b]) = none) ∧
  (∃ s : State, ∃ n : Nat, ∃ b : Nat, ∃ t : Nat, ∃ bad : Option (Nat × Nat), (s.hoard n).march = some (b, t) ∧ bad = none) ∧
  (∃ s : State, ∃ n : Nat, ∃ b : Nat, ∃ t : Nat, ∃ bad : Option (Nat × Nat), (s.hoard n).march = some (b, t) ∧ let trans := s.rf (.hoard n) Off.MARCH_CTL 4 4 = 1
    let u := settleBank b (setBankSt b 1 (if trans then s.modHoard n (fun h => { h with march := none }) else zeroBank b (s.modHoard n (fun h => { h with march := none }))))
    ∃ ln, ∃ subs, bad = some (ln, subs) ∧ let v := ((u.wf (.hoard n) Off.MARCH_RESULT 1 1 1).wf (.hoard n) Off.MARCH_RESULT 21 8 ln).wf (.hoard n) Off.MARCH_RESULT 29 22 subs
    let spare := v.rf (.hoard n) Off.SPARE 4 4 = 0 ∧ v.rf (.hoard n) Off.SPARE 24 24 = 0
    spare ∧ trans) ∧
  (∃ s : State, ∃ n : Nat, ∃ b : Nat, ∃ t : Nat, ∃ bad : Option (Nat × Nat), (s.hoard n).march = some (b, t) ∧ let trans := s.rf (.hoard n) Off.MARCH_CTL 4 4 = 1
    let u := settleBank b (setBankSt b 1 (if trans then s.modHoard n (fun h => { h with march := none }) else zeroBank b (s.modHoard n (fun h => { h with march := none }))))
    ∃ ln, ∃ subs, bad = some (ln, subs) ∧ let v := ((u.wf (.hoard n) Off.MARCH_RESULT 1 1 1).wf (.hoard n) Off.MARCH_RESULT 21 8 ln).wf (.hoard n) Off.MARCH_RESULT 29 22 subs
    let spare := v.rf (.hoard n) Off.SPARE 4 4 = 0 ∧ v.rf (.hoard n) Off.SPARE 24 24 = 0
    spare ∧ (¬trans)) ∧
  (∃ s : State, ∃ n : Nat, ∃ b : Nat, ∃ t : Nat, ∃ bad : Option (Nat × Nat), (s.hoard n).march = some (b, t) ∧ let trans := s.rf (.hoard n) Off.MARCH_CTL 4 4 = 1
    let u := settleBank b (setBankSt b 1 (if trans then s.modHoard n (fun h => { h with march := none }) else zeroBank b (s.modHoard n (fun h => { h with march := none }))))
    ∃ ln, ∃ subs, bad = some (ln, subs) ∧ let v := ((u.wf (.hoard n) Off.MARCH_RESULT 1 1 1).wf (.hoard n) Off.MARCH_RESULT 21 8 ln).wf (.hoard n) Off.MARCH_RESULT 29 22 subs
    let spare := v.rf (.hoard n) Off.SPARE 4 4 = 0 ∧ v.rf (.hoard n) Off.SPARE 24 24 = 0
    (¬spare)) ∧
  (∃ s : State, ∃ n : Nat, ∃ b : Nat, (s.hoard n).copy = some b) ∧
  (∃ s : State, ∃ ch : Nat, ∃ tag : Nat, ∃ b : Nat, ∃ kind : Nat, ∃ id : Nat, ∃ c : Cmd, Ready s ch tag 0x0370 c ∧ bytesAt c.body 0 0 = b ∧ bytesAt c.body 2 2 = kind ∧ bytesAt c.body 4 3 = id ∧ (bytesAt c.body 1 1 ≠ 1 ∨ bytesAt c.body 5 5 / 2 % 2 ≠ 1 ∨ bankSt s b < 2)) :=
  ⟨⟨{ live.modHoard 3 (fun h => { h with clears := [63] }) with sett := { live.sett with cmds := [running 0x0370 [63]] } }, 63, by decide +kernel, _, some_of (by decide +kernel)⟩,
  ⟨live.modHoard 3 (fun h => { h with clears := [63] }), 63, by decide +kernel, by decide +kernel⟩,
  ⟨live.modHoard 3 (fun h => { h with march := some (63, 5) }), 3, 63, 5, none, by decide +kernel, by decide +kernel⟩,
  ⟨(put live [(.hoard 3, Off.MARCH_CTL, 16)]).modHoard 3 (fun h => { h with march := some (63, 5) }), 3, 63, 5, (some (16383, 255)), by decide +kernel, 16383, 255, by decide +kernel, ⟨by decide +kernel, by decide +kernel⟩, by decide +kernel⟩,
  ⟨live.modHoard 3 (fun h => { h with march := some (63, 5) }), 3, 63, 5, (some (16383, 255)), by decide +kernel, 16383, 255, by decide +kernel, ⟨by decide +kernel, by decide +kernel⟩, by decide +kernel⟩,
  ⟨(put live [(.hoard 3, Off.SPARE, 16)]).modHoard 3 (fun h => { h with march := some (63, 5) }), 3, 63, 5, (some (16383, 255)), by decide +kernel, 16383, 255, by decide +kernel, (fun h => absurd h.1 (by decide +kernel))⟩,
  ⟨live.modHoard 3 (fun h => { h with copy := some 63 }), 3, 63, by decide +kernel⟩,
  ⟨asks live 0x0370 [63, 0, 1, 255, 1, 0], 0, 7, 63, 1, 511, cmd0 0x0370 [63, 0, 1, 255, 1, 0], ready_of (by decide +kernel), by decide +kernel, by decide +kernel, by decide +kernel, Or.inl (by decide +kernel)⟩⟩

/-- States and operands that meet the hypotheses of HoardBanksOwnersClearsAndMarches. -/
theorem wit_hoard_banks_owners_clears_and_marches_2 :
  (∃ s : State, ∃ ch : Nat, ∃ tag : Nat, ∃ b : Nat, ∃ algo : Nat, ∃ c : Cmd, Ready s ch tag 0x0371 c ∧ bytesAt c.body 0 0 = b ∧ bytesAt c.body 1 1 = algo) :=
  ⟨asks live 0x0371 [63, 1], 0, 7, 63, 1, cmd0 0x0371 [63, 1], ready_of (by decide +kernel), by decide +kernel, by decide +kernel⟩


/-- States and operands that meet the hypotheses of ReportsReactionsAndFaultCommands. -/
theorem wit_reports_reactions_and_fault_commands_1 :
  (∃ s : State, ∃ inst : Nat, ∃ cls : Nat, ∃ sev : Nat, s.modeFlag 0 = false ∧ s.pwr.coldHeld = false ∧ classOk cls = true ∧ sev ≤ 3 ∧ unitOn s inst = true) ∧
  (∃ s : State, ∃ cls : Nat, ∃ sev : Nat, s.modeFlag 0 = false ∧ s.pwr.coldHeld = false ∧ (classOk cls = false ∨ 3 < sev)) ∧
  (∃ s : State, s.modeFlag 0 = false ∧ s.pwr.coldHeld = false ∧ s.owl.domainDown = true) ∧
  (∃ s : State, s.modeFlag 0 = false ∧ s.pwr.coldHeld = false ∧ s.owl.domainDown = false) ∧
  (∃ s : State, ∃ w : Nat, s.owl.warmFrom = some w ∧ s.sett.timeStill = false) ∧
  (∃ s : State, s.owl.warmFrom = none) ∧
  (∃ s : State, ∃ ch : Nat, ∃ tag : Nat, ∃ op : Nat, ∃ c : Cmd, Ready s ch tag op c ∧ op = 0x0601) ∧
  (∃ s : State, ∃ ch : Nat, ∃ tag : Nat, ∃ op : Nat, ∃ c : Cmd, Ready s ch tag op c ∧ op = 0x0602) :=
  ⟨⟨live, ((Blk.mc 15).inst), 22, 3, by decide +kernel, by decide +kernel, by decide +kernel, by decide +kernel, by decide +kernel⟩,
  ⟨live, 23, 3, by decide +kernel, by decide +kernel, Or.inl rfl⟩,
  ⟨{ live with owl := { live.owl with domainDown := true } }, by decide +kernel, by decide +kernel, by decide +kernel⟩,
  ⟨live, by decide +kernel, by decide +kernel, by decide +kernel⟩,
  ⟨{ live with owl := { live.owl with warmFrom := some 5 } }, 5, by decide +kernel, by decide +kernel⟩,
  ⟨live, by decide +kernel⟩,
  ⟨asks (live) 0x0601 [], 0, 7, 0x0601, cmd0 0x0601 [], ready_of (by decide +kernel), by decide +kernel⟩,
  ⟨asks (live) 0x0602 [], 0, 7, 0x0602, cmd0 0x0602 [], ready_of (by decide +kernel), by decide +kernel⟩⟩

/-- States and operands that meet the hypotheses of ReportsReactionsAndFaultCommands. -/
theorem wit_reports_reactions_and_fault_commands_2 :
  (∃ s : State, ∃ ch : Nat, ∃ tag : Nat, ∃ op : Nat, ∃ c : Cmd, Ready s ch tag op c ∧ op = 0x0603) ∧
  (∃ s : State, ∃ ch : Nat, ∃ tag : Nat, ∃ op : Nat, ∃ c : Cmd, Ready s ch tag op c ∧ op = 0x0604) ∧
  (∃ s : State, ∃ ch : Nat, ∃ tag : Nat, ∃ op : Nat, ∃ c : Cmd, Ready s ch tag op c ∧ op = 0x0605) ∧
  (∃ s : State, ∃ ch : Nat, ∃ tag : Nat, ∃ op : Nat, ∃ c : Cmd, Ready s ch tag op c ∧ op = 0x0606) :=
  ⟨⟨asks (live) 0x0603 [], 0, 7, 0x0603, cmd0 0x0603 [], ready_of (by decide +kernel), by decide +kernel⟩,
  ⟨asks (live) 0x0604 [], 0, 7, 0x0604, cmd0 0x0604 [], ready_of (by decide +kernel), by decide +kernel⟩,
  ⟨asks (live) 0x0605 [], 0, 7, 0x0605, cmd0 0x0605 [], ready_of (by decide +kernel), by decide +kernel⟩,
  ⟨asks (live) 0x0606 [], 0, 7, 0x0606, cmd0 0x0606 [], ready_of (by decide +kernel), by decide +kernel⟩⟩

/-- States and operands that meet the hypotheses of WearEvaluationAndCoreCommands. -/
theorem wit_wear_evaluation_and_core_commands :
  (∃ s : State, s.serving = true) ∧
  (∃ s : State, s.serving = false) ∧
  (∃ s : State, ∃ ch : Nat, ∃ tag : Nat, ∃ v : Nat, ∃ c : Cmd, Ready s ch tag 0x0401 c ∧ bytesAt c.body 1 0 = v) ∧
  (∃ s : State, ∃ ch : Nat, ∃ tag : Nat, ∃ c : Cmd, Ready s ch tag 0x0403 c) ∧
  (∃ s : State, ∃ ch : Nat, ∃ tag : Nat, ∃ k : Nat, ∃ c : Cmd, Ready s ch tag 0x0404 c ∧ jrnHasRoom s = true ∧ bytesAt c.body 0 0 = k) ∧
  (∃ s : State, ∃ ch : Nat, ∃ tag : Nat, ∃ c : Cmd, Ready s ch tag 0x0402 c ∧ jrnHasRoom s = true ∧ let h := bytesAt c.body 0 0
    s.pcnOf h = none) ∧
  (∃ s : State, ∃ ch : Nat, ∃ tag : Nat, ∃ c : Cmd, Ready s ch tag 0x0402 c ∧ jrnHasRoom s = true ∧ let h := bytesAt c.body 0 0
    ∃ old, s.pcnOf h = some old) :=
  ⟨⟨live, by decide +kernel⟩,
  ⟨State.reset, by decide +kernel⟩,
  ⟨asks live 0x0401 [255, 0], 0, 7, 255, cmd0 0x0401 [255, 0], ready_of (by decide +kernel), by decide +kernel⟩,
  ⟨asks (live) 0x0403 [], 0, 7, cmd0 0x0403 [], ready_of (by decide +kernel)⟩,
  ⟨asks live 0x0404 [6], 0, 7, 6, cmd0 0x0404 [6], ready_of (by decide +kernel), by decide +kernel, by decide +kernel⟩,
  ⟨asks { live with org := { live.org with coreMap := [] } } 0x0402 [255], 0, 7, cmd0 0x0402 [255], ready_of (by decide +kernel), by decide +kernel, by decide +kernel⟩,
  ⟨asks live 0x0402 [255], 0, 7, cmd0 0x0402 [255], ready_of (by decide +kernel), by decide +kernel, _, some_of (by decide +kernel)⟩⟩

/-- States and operands that meet the hypotheses of SuppliesTemperaturesAndClamps. -/
theorem wit_supplies_temperatures_and_clamps_1 :
  (∃ s : State, ∃ va : Nat, ∃ vb : Nat, s.modeFlag 0 = false ∧ s.pwr.coldHeld = false ∧ s.pwr.pwrFailN = true ∧ max va vb < 870) ∧
  (∃ s : State, ∃ va : Nat, ∃ vb : Nat, s.modeFlag 0 = false ∧ s.pwr.pwrFailN = false ∧ 880 ≤ max va vb ∧ va ≤ 7500 ∧ vb ≤ 7500) ∧
  (∃ va : Nat, ∃ vb : Nat, max va vb < 850) ∧
  (∃ s : State, ∃ f : Nat, ∃ v : Nat, f < 2 ∧ s.modeFlag 0 = false ∧ s.pwr.coldHeld = false ∧ v < 870) ∧
  (∃ s : State, ∃ f : Nat, ∃ v : Nat, f < 2 ∧ s.modeFlag 0 = false ∧ s.pwr.coldHeld = false ∧ 880 ≤ v ∧ v ≤ 7500) ∧
  (∃ s : State, ∃ va : Nat, ∃ vb : Nat, s.modeFlag 0 = false ∧ s.sett.timeStill = false ∧ s.pwr.coldHeld = false ∧ va ≤ 7500 ∧ vb ≤ 7500) ∧
  (∃ s : State, s.modeFlag 0 = false ∧ s.sett.timeStill = false ∧ s.pwr.coldHeld = false) ∧
  (∃ s : State, ∃ i : Nat, ∃ v : Int, s.modeFlag 0 = false ∧ s.pwr.coldHeld = false ∧ v ≤ 500 ∧ -220 ≤ v ∧ i < 136 ∧ s.pwr.mainOn = true ∧ inRetention s = false) :=
  ⟨⟨live, 869, 869, by decide +kernel, by decide +kernel, by decide +kernel, by decide +kernel⟩,
  ⟨{ put live [] with pwr := { live.pwr with pwrFailN := false } }, 7500, 880, by decide +kernel, by decide +kernel, by decide +kernel, by decide +kernel, by decide +kernel⟩,
  ⟨849, 0, by decide +kernel⟩,
  ⟨live, 1, 869, by decide +kernel, by decide +kernel, by decide +kernel, by decide +kernel⟩,
  ⟨live, 1, 7500, by decide +kernel, by decide +kernel, by decide +kernel, by decide +kernel, by decide +kernel⟩,
  ⟨live, 7500, 7500, by decide +kernel, by decide +kernel, by decide +kernel, by decide +kernel, by decide +kernel⟩,
  ⟨live, by decide +kernel, by decide +kernel, by decide +kernel⟩,
  ⟨live, 135, 500, by decide +kernel, by decide +kernel, by decide +kernel, by decide +kernel, by decide +kernel, by decide +kernel, by decide +kernel⟩⟩

/-- States and operands that meet the hypotheses of SuppliesTemperaturesAndClamps. -/
theorem wit_supplies_temperatures_and_clamps_2 :
  (∃ s : State, ∃ i : Nat, ∃ v : Int, s.modeFlag 0 = false ∧ s.pwr.coldHeld = false ∧ v ≤ 500 ∧ -220 ≤ v ∧ i < 16 ∧ s.pwr.memOn = true) ∧
  (∃ v : Nat, 7500 < v) ∧
  (∃ st : Nat, islKind st ≠ 3 ∧ islKind st ≠ 5) :=
  ⟨⟨live, 15, (-220), by decide +kernel, by decide +kernel, by decide +kernel, by decide +kernel, by decide +kernel, by decide +kernel⟩,
  ⟨7501, by decide +kernel⟩,
  ⟨159, by decide +kernel, by decide +kernel⟩⟩

/-- States and operands that meet the hypotheses of PowerCommands. -/
theorem wit_power_commands_1 :
  (∃ s : State, ∃ ch : Nat, ∃ tag : Nat, ∃ op : Nat, ∃ c : Cmd, Ready s ch tag op c ∧ op = 0x0701) ∧
  (∃ s : State, ∃ ch : Nat, ∃ tag : Nat, ∃ op : Nat, ∃ c : Cmd, Ready s ch tag op c ∧ op = 0x0702 ∧ jrnHasRoom s = true) ∧
  (∃ s : State, ∃ ch : Nat, ∃ tag : Nat, ∃ op : Nat, ∃ c : Cmd, Ready s ch tag op c ∧ op = 0x0703) ∧
  (∃ s : State, ∃ ch : Nat, ∃ tag : Nat, ∃ op : Nat, ∃ c : Cmd, Ready s ch tag op c ∧ op = 0x0704) ∧
  (∃ s : State, ∃ ch : Nat, ∃ tag : Nat, ∃ op : Nat, ∃ c : Cmd, Ready s ch tag op c ∧ op = 0x0706) ∧
  (∃ s : State, ∃ ch : Nat, ∃ tag : Nat, ∃ op : Nat, ∃ c : Cmd, Ready s ch tag op c ∧ op = 0x0707 ∧ s.pwr.den = .awake) ∧
  (∃ s : State, ∃ ch : Nat, ∃ tag : Nat, ∃ op : Nat, ∃ c : Cmd, Ready s ch tag op c ∧ op = 0x0707 ∧ ∃ t, s.pwr.den = .armed t) ∧
  (∃ s : State, ∃ ch : Nat, ∃ tag : Nat, ∃ op : Nat, ∃ c : Cmd, Ready s ch tag op c ∧ op = 0x0707 ∧ s.pwr.den ≠ .awake ∧ (∀ t, s.pwr.den ≠ .armed t)) :=
  ⟨⟨asks (live) 0x0701 [], 0, 7, 0x0701, cmd0 0x0701 [], ready_of (by decide +kernel), by decide +kernel⟩,
  ⟨asks (live) 0x0702 [], 0, 7, 0x0702, cmd0 0x0702 [], ready_of (by decide +kernel), by decide +kernel, by decide +kernel⟩,
  ⟨asks (live) 0x0703 [], 0, 7, 0x0703, cmd0 0x0703 [], ready_of (by decide +kernel), by decide +kernel⟩,
  ⟨asks (live) 0x0704 [], 0, 7, 0x0704, cmd0 0x0704 [], ready_of (by decide +kernel), by decide +kernel⟩,
  ⟨asks (live) 0x0706 [], 0, 7, 0x0706, cmd0 0x0706 [], ready_of (by decide +kernel), by decide +kernel⟩,
  ⟨asks (live) 0x0707 [], 0, 7, 0x0707, cmd0 0x0707 [], ready_of (by decide +kernel), by decide +kernel, by decide +kernel⟩,
  ⟨asks ({ put live [] with pwr := { live.pwr with den := .armed 9 } }) 0x0707 [], 0, 7, 0x0707, cmd0 0x0707 [], ready_of (by decide +kernel), by decide +kernel, 9, by decide +kernel⟩,
  ⟨asks ({ put live [] with pwr := { live.pwr with den := .phaseB 1 } }) 0x0707 [], 0, 7, 0x0707, cmd0 0x0707 [], ready_of (by decide +kernel), by decide +kernel, by decide +kernel, (by intro t h; revert h; simp [asks, withCmds])⟩⟩

/-- States and operands that meet the hypotheses of PowerCommands. -/
theorem wit_power_commands_2 :
  (∃ s : State, ∃ ch : Nat, ∃ tag : Nat, ∃ op : Nat, ∃ c : Cmd, Ready s ch tag op c ∧ let f := fun hi lo => bytesAt c.body hi lo
    op = 0x0708 ∧ 2 < f 0 0) ∧
  (∃ s : State, ∃ ch : Nat, ∃ tag : Nat, ∃ op : Nat, ∃ c : Cmd, Ready s ch tag op c ∧ let f := fun hi lo => bytesAt c.body hi lo
    op = 0x0708 ∧ 1 ≤ f 0 0 ∧ f 0 0 ≤ 2 ∧ s.rf .pwrc Off.SUPPLY 5 5 = 1) ∧
  (∃ s : State, ∃ ch : Nat, ∃ tag : Nat, ∃ op : Nat, ∃ c : Cmd, Ready s ch tag op c ∧ let f := fun hi lo => bytesAt c.body hi lo
    op = 0x0708 ∧ f 0 0 = 1 ∧ s.rf .pwrc Off.SUPPLY 5 5 ≠ 1) ∧
  (∃ s : State, ∃ ch : Nat, ∃ tag : Nat, ∃ op : Nat, ∃ c : Cmd, Ready s ch tag op c ∧ let f := fun hi lo => bytesAt c.body hi lo
    op = 0x0708 ∧ f 0 0 = 0) ∧
  (∃ s : State, ∃ ch : Nat, ∃ tag : Nat, ∃ op : Nat, ∃ c : Cmd, Ready s ch tag op c ∧ let f := fun hi lo => bytesAt c.body hi lo
    op = 0x0708 ∧ f 0 0 = 2 ∧ s.rf .pwrc Off.SUPPLY 5 5 ≠ 1) ∧
  (∃ s : State, ∃ ch : Nat, ∃ tag : Nat, ∃ c : Cmd, Ready s ch tag 0x0705 c ∧ let r := bytesAt c.body 0 0
    let opr := s.pwr.operating
    r = 1 ∧ opr = true) ∧
  (∃ s : State, ∃ ch : Nat, ∃ tag : Nat, ∃ c : Cmd, Ready s ch tag 0x0705 c ∧ let r := bytesAt c.body 0 0
    let opr := s.pwr.operating
    r = 1 ∧ opr = false ∧ s.modeFlag 2 = true ∧ s.pwr.handOff = true) ∧
  (∃ s : State, ∃ ch : Nat, ∃ tag : Nat, ∃ c : Cmd, Ready s ch tag 0x0705 c ∧ let r := bytesAt c.body 0 0
    let opr := s.pwr.operating
    r = 1 ∧ opr = false ∧ (s.modeFlag 2 = false ∨ s.pwr.handOff = false)) :=
  ⟨⟨asks (live) 0x0708 [3], 0, 7, 0x0708, cmd0 0x0708 [3], ready_of (by decide +kernel), by decide +kernel, by decide +kernel⟩,
  ⟨asks (put live [(.pwrc, Off.SUPPLY, 32)]) 0x0708 [2], 0, 7, 0x0708, cmd0 0x0708 [2], ready_of (by decide +kernel), by decide +kernel, by decide +kernel, by decide +kernel, by decide +kernel⟩,
  ⟨asks (live) 0x0708 [1], 0, 7, 0x0708, cmd0 0x0708 [1], ready_of (by decide +kernel), by decide +kernel, by decide +kernel, by decide +kernel⟩,
  ⟨asks (live) 0x0708 [0], 0, 7, 0x0708, cmd0 0x0708 [0], ready_of (by decide +kernel), by decide +kernel, by decide +kernel⟩,
  ⟨asks (live) 0x0708 [2], 0, 7, 0x0708, cmd0 0x0708 [2], ready_of (by decide +kernel), by decide +kernel, by decide +kernel, by decide +kernel⟩,
  ⟨asks (live) 0x0705 [1], 0, 7, cmd0 0x0705 [1], ready_of (by decide +kernel), by decide +kernel, by decide +kernel⟩,
  ⟨asks ({ put live [(.pwrc, Off.MODE_FLAGS, 4)] with pwr := { live.pwr with operating := false, handOff := true } }) 0x0705 [1], 0, 7, cmd0 0x0705 [1], ready_of (by decide +kernel), by decide +kernel, by decide +kernel, by decide +kernel, by decide +kernel⟩,
  ⟨asks ({ put live [(.pwrc, Off.MODE_FLAGS, 8)] with pwr := { live.pwr with operating := false } }) 0x0705 [1], 0, 7, cmd0 0x0705 [1], ready_of (by decide +kernel), by decide +kernel, by decide +kernel, Or.inl (by decide +kernel)⟩⟩

/-- States and operands that meet the hypotheses of PowerCommands. -/
theorem wit_power_commands_3 :
  (∃ s : State, ∃ ch : Nat, ∃ tag : Nat, ∃ c : Cmd, Ready s ch tag 0x0705 c ∧ let r := bytesAt c.body 0 0
    r = 2 ∧ s.modeFlag 9 = true) ∧
  (∃ s : State, ∃ ch : Nat, ∃ tag : Nat, ∃ c : Cmd, Ready s ch tag 0x0705 c ∧ let r := bytesAt c.body 0 0
    let opr := s.pwr.operating
    r = 2 ∧ s.modeFlag 9 = false ∧ (opr = false ∨ s.modeFlag 6 = true ∨ s.modeFlag 7 = true ∨ s.modeFlag 10 = true ∨ s.pwr.den ≠ .awake)) ∧
  (∃ s : State, ∃ ch : Nat, ∃ tag : Nat, ∃ c : Cmd, Ready s ch tag 0x0705 c ∧ let r := bytesAt c.body 0 0
    let opr := s.pwr.operating
    r = 2 ∧ s.modeFlag 9 = false ∧ opr = true ∧ s.modeFlag 6 = false ∧ s.modeFlag 7 = false ∧ s.modeFlag 10 = false ∧ s.pwr.den = .awake) ∧
  (∃ s : State, ∃ ch : Nat, ∃ tag : Nat, ∃ c : Cmd, Ready s ch tag 0x0705 c ∧ let r := bytesAt c.body 0 0
    r = 3) ∧
  (∃ s : State, ∃ ch : Nat, ∃ tag : Nat, ∃ c : Cmd, Ready s ch tag 0x0705 c ∧ let r := bytesAt c.body 0 0
    r = 4 ∧ s.modeFlag 10 = true) ∧
  (∃ s : State, ∃ ch : Nat, ∃ tag : Nat, ∃ c : Cmd, Ready s ch tag 0x0705 c ∧ let r := bytesAt c.body 0 0
    let opr := s.pwr.operating
    r = 4 ∧ s.modeFlag 10 = false ∧ ((s.modeFlag 2 = true ∧ s.pwr.handOff = true) ∨ (opr = true ∧ s.modeFlag 9 = false ∧ s.pwr.den = .awake))) ∧
  (∃ s : State, ∃ ch : Nat, ∃ tag : Nat, ∃ c : Cmd, Ready s ch tag 0x0705 c ∧ let r := bytesAt c.body 0 0
    let opr := s.pwr.operating
    r = 4 ∧ s.modeFlag 10 = false ∧ (¬((s.modeFlag 2 = true ∧ s.pwr.handOff = true) ∨ (opr = true ∧ s.modeFlag 9 = false ∧ s.pwr.den = .awake)))) ∧
  (∃ s : State, ∃ ch : Nat, ∃ tag : Nat, ∃ c : Cmd, Ready s ch tag 0x0705 c ∧ let r := bytesAt c.body 0 0
    r = 5) :=
  ⟨⟨asks (put live [(.pwrc, Off.MODE_FLAGS, 0x200)]) 0x0705 [2], 0, 7, cmd0 0x0705 [2], ready_of (by decide +kernel), by decide +kernel, by decide +kernel⟩,
  ⟨asks ({ put live [(.pwrc, Off.MODE_FLAGS, 8)] with pwr := { live.pwr with operating := false } }) 0x0705 [2], 0, 7, cmd0 0x0705 [2], ready_of (by decide +kernel), by decide +kernel, by decide +kernel, Or.inl rfl⟩,
  ⟨asks (live) 0x0705 [2], 0, 7, cmd0 0x0705 [2], ready_of (by decide +kernel), by decide +kernel, by decide +kernel, by decide +kernel, by decide +kernel, by decide +kernel, by decide +kernel, by decide +kernel⟩,
  ⟨asks (live) 0x0705 [3], 0, 7, cmd0 0x0705 [3], ready_of (by decide +kernel), by decide +kernel⟩,
  ⟨asks (put live [(.pwrc, Off.MODE_FLAGS, 0x400)]) 0x0705 [4], 0, 7, cmd0 0x0705 [4], ready_of (by decide +kernel), by decide +kernel, by decide +kernel⟩,
  ⟨asks (live) 0x0705 [4], 0, 7, cmd0 0x0705 [4], ready_of (by decide +kernel), by decide +kernel, by decide +kernel, Or.inr ⟨rfl, by decide +kernel, rfl⟩⟩,
  ⟨asks ({ put live [(.pwrc, Off.MODE_FLAGS, 8)] with pwr := { live.pwr with operating := false } }) 0x0705 [4], 0, 7, cmd0 0x0705 [4], ready_of (by decide +kernel), by decide +kernel, by decide +kernel, (by rintro (h | h); exact absurd h.1 (by decide +kernel); exact absurd h.1 (by decide +kernel))⟩,
  ⟨asks (live) 0x0705 [5], 0, 7, cmd0 0x0705 [5], ready_of (by decide +kernel), by decide +kernel⟩⟩

/-- States and operands that meet the hypotheses of PowerCommands. -/
theorem wit_power_commands_4 :
  (∃ s : State, ∃ ch : Nat, ∃ tag : Nat, ∃ c : Cmd, Ready s ch tag 0x0705 c ∧ let r := bytesAt c.body 0 0
    (r = 0 ∨ 5 < r)) ∧
  (∃ s : State, ∃ t : Nat, s.pwr.cycleAt = some t ∧ s.modeFlag 1 = true ∧ s.rf .pwrc Off.SUPPLY 5 5 ≠ 1 ∧ s.pwr.pwrFailN = true ∧ let u := enterBringup (s.toTick t)
    ∃ c, runningCmd u 0x0708 = some c) ∧
  (∃ s : State, ∃ t : Nat, s.pwr.cycleAt = some t ∧ s.modeFlag 1 = true ∧ s.rf .pwrc Off.SUPPLY 5 5 ≠ 1 ∧ s.pwr.pwrFailN = true ∧ let u := enterBringup (s.toTick t)
    runningCmd u 0x0708 = none) :=
  ⟨⟨asks (live) 0x0705 [6], 0, 7, cmd0 0x0705 [6], ready_of (by decide +kernel), by decide +kernel⟩,
  ⟨{ { put live [(.pwrc, Off.MODE_FLAGS, 2)] with pwr := { live.pwr with cycleAt := some 5 } } with sett := { live.sett with cmds := [running 0x0708 []] } }, 5, by decide +kernel, by decide +kernel, by decide +kernel, by decide +kernel, _, some_of (by decide +kernel)⟩,
  ⟨{ put live [(.pwrc, Off.MODE_FLAGS, 2)] with pwr := { live.pwr with cycleAt := some 5 } }, 5, by decide +kernel, by decide +kernel, by decide +kernel, by decide +kernel, by decide +kernel⟩⟩

/-- States and operands that meet the hypotheses of DenEntryAndWake. -/
theorem wit_den_entry_and_wake_1 :
  (∃ s : State, ∃ e : Nat, s.pwr.den = .armed e ∧ allParked s = false) ∧
  (∃ s : State, ∃ e : Nat, s.pwr.den = .armed e ∧ allParked s = true) ∧
  (∃ s : State, ∃ n : Nat, s.modeFlag 11 = false ∧ 1 ≤ n ∧ n ≤ 7 ∧ ∃ e, s.pwr.den = .armed e ∧ allParked s = true ∧ s.settTime < e) ∧
  (∃ s : State, ∃ n : Nat, s.modeFlag 11 = false ∧ 1 ≤ n ∧ n ≤ 7 ∧ ∃ e, s.pwr.den = .armed e ∧ (allParked s = false ∨ e ≤ s.settTime)) ∧
  (∃ s : State, ∃ n : Nat, s.modeFlag 11 = false ∧ 1 ≤ n ∧ n ≤ 7 ∧ ∃ k, s.pwr.den = .phaseB k) ∧
  (∃ s : State, ∃ n : Nat, ∃ k : Nat, s.pwr.den = .phaseB k ∧ (n ≤ k ∨ s.pwr.wake.isSome = true)) ∧
  (∃ s : State, ∃ n : Nat, ∃ k : Nat, s.pwr.den = .phaseB k ∧ k < n ∧ s.pwr.wake = none ∧ denStep (k + 1) s = none) ∧
  (∃ s : State, ∃ n : Nat, ∃ k : Nat, s.pwr.den = .phaseB k ∧ ∃ t, k < n ∧ s.pwr.wake = none ∧ denStep (k + 1) s = some t) :=
  ⟨⟨{ { put live [] with pwr := { live.pwr with den := .armed 0 } } with cores := [(271, { on := true })] }, 0, by decide +kernel, by decide +kernel⟩,
  ⟨{ put live [] with pwr := { live.pwr with den := .armed 0 } }, 0, by decide +kernel, by decide +kernel⟩,
  ⟨{ put live [] with pwr := { live.pwr with den := .armed 9 } }, 7, by decide +kernel, by decide +kernel, by decide +kernel, 9, by decide +kernel, by decide +kernel, by decide +kernel⟩,
  ⟨{ put live [] with pwr := { live.pwr with den := .armed 0 } }, 7, by decide +kernel, by decide +kernel, by decide +kernel, 0, by decide +kernel, Or.inr (by decide +kernel)⟩,
  ⟨{ put live [] with pwr := { live.pwr with den := .phaseB 3 } }, 7, by decide +kernel, by decide +kernel, by decide +kernel, 3, by decide +kernel⟩,
  ⟨{ put live [] with pwr := { live.pwr with den := .phaseB 3 } }, 3, 3, by decide +kernel, Or.inl (by decide)⟩,
  ⟨asks ({ put live [] with pwr := { live.pwr with den := .phaseB 1 } }) 0x0101 [], 7, 1, by decide +kernel, by decide +kernel, by decide +kernel, by decide +kernel⟩,
  ⟨{ put live [] with pwr := { live.pwr with den := .phaseB 0 } }, 7, 0, by decide +kernel, _, by decide +kernel, by decide +kernel, some_of (by decide +kernel)⟩⟩

/-- States and operands that meet the hypotheses of DenEntryAndWake. -/
theorem wit_den_entry_and_wake_2 :
  (∃ s : State, s.sett.cmds ≠ []) ∧
  (∃ s : State, wakeArmed s 2 = true ∧ (s.pwr.den = .den ∨ (s.chState 2 = 0 ∧ s.modeFlag 8 = true)) ∧ s.modeFlag 11 = false) ∧
  (∃ s : State, wakeArmed s 2 = false) ∧
  (∃ s : State, wakeArmed s 4 = true ∧ s.pwr.den = .den) ∧
  (∃ s : State, wakeArmed s 4 = false) ∧
  (∃ s : State, ∃ pin : Nat, pin < 8 ∧ (s.rf .pwrc Off.DEN_CFG 15 8).testBit pin = true ∧ extActive s pin = true) ∧
  (∃ s : State, ∃ pin : Nat, ((s.rf .pwrc Off.DEN_CFG 15 8).testBit pin = false ∨ extActive s pin = false)) ∧
  (∃ s : State, s.modeFlag 11 = false ∧ s.pwr.wake = none ∧ ∃ k, s.pwr.den = .phaseB k) :=
  ⟨⟨asks live 0x0101 [], by decide +kernel⟩,
  ⟨{ put live [(.pwrc, Off.DEN_CFG, 4)] with pwr := { live.pwr with den := .den } }, by decide +kernel, Or.inl rfl, by decide +kernel⟩,
  ⟨put live [(.pwrc, Off.DEN_CFG, 0)], by decide +kernel⟩,
  ⟨{ put live [(.pwrc, Off.DEN_CFG, 16)] with pwr := { live.pwr with den := .den } }, by decide +kernel, by decide +kernel⟩,
  ⟨put live [(.pwrc, Off.DEN_CFG, 0)], by decide +kernel⟩,
  ⟨{ put live [(.pwrc, Off.DEN_CFG, 0x8000)] with pwr := { live.pwr with extIrq := [] } }, 7, by decide +kernel, by decide +kernel, by decide +kernel⟩,
  ⟨put live [(.pwrc, Off.DEN_CFG, 0)], 7, Or.inl (by decide +kernel)⟩,
  ⟨{ put live [] with pwr := { live.pwr with den := .phaseB 3 } }, by decide +kernel, by decide +kernel, 3, by decide +kernel⟩⟩

/-- States and operands that meet the hypotheses of DenEntryAndWake. -/
theorem wit_den_entry_and_wake_3 :
  (∃ s : State, s.modeFlag 11 = false ∧ s.pwr.wake = none ∧ s.pwr.den = .den) ∧
  (∃ s : State, s.modeFlag 11 = false ∧ s.pwr.wake = none ∧ s.pwr.den = .awake) ∧
  (∃ s : State, ∃ n : Nat, s.modeFlag 11 = false ∧ n ≤ 7 ∧ s.pwr.wake.isSome = true ∧ ∃ k, s.pwr.den = .phaseB k) ∧
  (∃ s : State, ∃ n : Nat, s.modeFlag 11 = false ∧ n ≤ 7 ∧ s.pwr.wake.isSome = true ∧ s.pwr.den = .den) ∧
  (∃ s : State, ∃ n : Nat, s.modeFlag 11 = false ∧ n ≤ 7 ∧ s.pwr.wake.isSome = true ∧ ∃ f, ∃ k, s.pwr.den = .waking f k) ∧
  (∃ s : State, ∃ n : Nat, ∃ f : Nat, ∃ k : Nat, ∃ cause : Nat, ∃ pin : Nat, ∃ t : Nat, ∃ early : Bool, s.pwr.den = .waking f k ∧ s.pwr.wake = some (cause, pin, early, t) ∧ n ≤ k) ∧
  (∃ s : State, ∃ n : Nat, ∃ f : Nat, ∃ k : Nat, ∃ cause : Nat, ∃ pin : Nat, ∃ t : Nat, ∃ early : Bool, s.pwr.den = .waking f k ∧ s.pwr.wake = some (cause, pin, early, t) ∧ k < n ∧ k + 1 ≠ 7) ∧
  (∃ s : State, ∃ n : Nat, ∃ f : Nat, ∃ k : Nat, ∃ cause : Nat, ∃ pin : Nat, ∃ t : Nat, ∃ early : Bool, s.pwr.den = .waking f k ∧ s.pwr.wake = some (cause, pin, early, t) ∧ 6 < n ∧ k = 6) :=
  ⟨⟨{ put live [] with pwr := { live.pwr with den := .den } }, by decide +kernel, by decide +kernel, by decide +kernel⟩,
  ⟨live, by decide +kernel, by decide +kernel, by decide +kernel⟩,
  ⟨{ put live [] with pwr := { live.pwr with den := .phaseB 3, wake := some (1, 0, false, 5) } }, 7, by decide +kernel, by decide +kernel, by decide +kernel, 3, by decide +kernel⟩,
  ⟨{ put live [] with pwr := { live.pwr with den := .den, wake := some (1, 0, false, 5) } }, 7, by decide +kernel, by decide +kernel, by decide +kernel, by decide +kernel⟩,
  ⟨{ put live [] with pwr := { live.pwr with den := .waking 7 3, wake := some (1, 0, false, 5) } }, 7, by decide +kernel, by decide +kernel, by decide +kernel, 7, 3, by decide +kernel⟩,
  ⟨{ put live [] with pwr := { live.pwr with den := .waking 7 7, wake := some (1, 0, false, 5) } }, 7, 7, 7, 1, 0, 5, false, by decide +kernel, by decide +kernel, by decide +kernel⟩,
  ⟨{ put live [] with pwr := { live.pwr with den := .waking 7 3, wake := some (1, 0, false, 5) } }, 7, 7, 3, 1, 0, 5, false, by decide +kernel, by decide +kernel, by decide +kernel, by decide +kernel⟩,
  ⟨{ put live [] with pwr := { live.pwr with den := .waking 7 6, wake := some (1, 0, false, 5) } }, 7, 7, 6, 1, 0, 5, false, by decide +kernel, by decide +kernel, by decide +kernel, by decide +kernel⟩⟩

/-- States and operands that meet the hypotheses of DenEntryAndWake. -/
theorem wit_den_entry_and_wake_4 :
  (∃ s : State, s.sett.mi2c.stretching = true ∧ s.chState 2 ≠ 1 ∧ ∃ a, ∃ b, ∃ d, ∃ t, s.pwr.wake = some (a, b, d, t)) ∧
  (∃ s : State, s.sett.mi2c.stretching = true ∧ s.chState 2 ≠ 1 ∧ s.pwr.wake = none) ∧
  (∃ s : State, (s.sett.mi2c.stretching = false ∨ s.chState 2 = 1)) :=
  ⟨⟨{ { put live [(.sett, Off.CHAN_STATE + 16, 0)] with pwr := { live.pwr with wake := some (1, 0, false, 5) } } with sett := { (put live [(.sett, Off.CHAN_STATE + 16, 0)]).sett with mi2c := { live.sett.mi2c with stretching := true } } }, by decide +kernel, by decide +kernel, 1, 0, false, 5, by decide +kernel⟩,
  ⟨{ put live [(.sett, Off.CHAN_STATE + 16, 0)] with sett := { live.sett with mi2c := { live.sett.mi2c with stretching := true } } }, by decide +kernel, by decide +kernel, by decide +kernel⟩,
  ⟨live, Or.inl rfl⟩⟩

/-- A probe that finds every channel sound. -/
def good : Probe := { chans := List.replicate 16 ⟨0, 0, 0, false, false, []⟩, laneBad := [], marchFail := [], domainFail := false, repaired := [] }
theorem mainUp_sound (pr : Probe) (s : State) (h : pr.laneBad = []) : failedStop (mainUp pr s) = none := by
  unfold mainUp; rw [h]; exact links_sound _
theorem mainUp_fails (pr : Probe) (s : State) (h : pr.laneBad = [(168, 1, 0)]) (hw : s.flash.jst.wear = []) (hs : s.flash.jst.spareRegs = [])
    (hl : s.rd (.mesh 168) (Off.LINK_LANEMAP + 0x40 * 1) = 0x60005) : (failedStop (mainUp pr s)).isSome = true := by
  unfold mainUp applyWear applySpare
  rw [h, hs, List.foldl_nil, hw, List.filter_nil, List.foldl_nil]
  refine links_fail _ 0 (by decide) (by decide) (by decide) ?_
  show (setStage 4 s).rd _ _ = _
  unfold setStage
  rw [rd_wf_other _ _ _ _ _ _ _ _ (by decide)]; exact hl

/-- States and operands that meet the hypotheses of ResetsBringUpAndHandOff. -/
theorem wit_resets_bring_up_and_hand_off_1 :
  (∃ s : State, ∃ cause : Nat, ∃ va : Nat, ∃ vb : Nat, cause < 2 ∧ va ≤ 7500 ∧ vb ≤ 7500 ∧ (if cause = 0 then 880 else 850) ≤ max va vb ∧ (cause = 1 → s.modeFlag 0 = false)) ∧
  (∃ s : State, mayBringUp s = false) ∧
  (∃ s : State, ∃ pr : Probe, mayBringUp s = true ∧ pr.domainFail = true) ∧
  (∃ s : State, ∃ pr : Probe, mayBringUp s = true ∧ let a := if s.modeFlag 1 then enterBringup s else s
    let m := mainUp pr a
    ∃ st, pr.domainFail = false ∧ failedStop m = some st) ∧
  (∃ s : State, ∃ pr : Probe, mayBringUp s = true ∧ let a := if s.modeFlag 1 then enterBringup s else s
    let m := mainUp pr a
    ∃ n, pr.domainFail = false ∧ failedStop m = none ∧ disabledChan pr = some n) ∧
  (∃ s : State, ∃ pr : Probe, mayBringUp s = true ∧ let a := if s.modeFlag 1 then enterBringup s else s
    let m := mainUp pr a
    pr.domainFail = false ∧ failedStop m = none ∧ disabledChan pr = none) ∧
  (∃ s : State, stageNow s = 8 ∧ s.rf .pwrc Off.BRINGUP 12 12 ≠ 0 ∧ s.modeFlag 2 = true ∧ s.modeFlag 11 = false ∧ s.pwr.handOff = false ∧ s.pwr.pwrFailN = true) ∧
  (∃ s : State, (stageNow s ≠ 8 ∨ s.rf .pwrc Off.BRINGUP 12 12 = 0 ∨ s.modeFlag 2 = false)) :=
  ⟨⟨live, 1, 7500, 850, by decide +kernel, by decide +kernel, by decide +kernel, by decide +kernel, (fun _ => by decide +kernel)⟩,
  ⟨live, by decide +kernel⟩,
  ⟨{ put live [(.pwrc, Off.MODE_FLAGS, 4)] with pwr := { live.pwr with mainOn := false, memOn := false, ioOn := false, operating := false, handOff := false } }, { good with domainFail := true }, by decide +kernel, by decide +kernel⟩,
  ⟨{ put live [(.pwrc, Off.MODE_FLAGS, 4), (.mesh 168, Off.LINK_LANEMAP + 0x40, 0x60005)] with pwr := { live.pwr with mainOn := false, memOn := false, ioOn := false, operating := false, handOff := false } }, { good with laneBad := [(168, 1, 0)] }, by decide +kernel, _, by decide +kernel, some_of (mainUp_fails _ _ rfl rfl rfl (by decide +kernel))⟩,
  ⟨{ put live [(.pwrc, Off.MODE_FLAGS, 4)] with pwr := { live.pwr with mainOn := false, memOn := false, ioOn := false, operating := false, handOff := false } }, { good with chans := [] }, by decide +kernel, 0, by decide +kernel, mainUp_sound _ _ rfl, by decide +kernel⟩,
  ⟨{ put live [(.pwrc, Off.MODE_FLAGS, 4)] with pwr := { live.pwr with mainOn := false, memOn := false, ioOn := false, operating := false, handOff := false } }, good, by decide +kernel, by decide +kernel, mainUp_sound _ _ rfl, by decide +kernel⟩,
  ⟨{ put live [(.pwrc, Off.MODE_FLAGS, 4), (.pwrc, Off.BRINGUP, 0x1008)] with pwr := { live.pwr with handOff := false, operating := false } }, by decide +kernel, by decide +kernel, by decide +kernel, by decide +kernel, by decide +kernel, by decide +kernel⟩,
  ⟨live, Or.inl (by decide +kernel)⟩⟩

/-- States and operands that meet the hypotheses of ResetsBringUpAndHandOff. -/
theorem wit_resets_bring_up_and_hand_off_2 :
  (∃ s : State, s.modeFlag 0 = false ∧ s.pwr.coldHeld = false ∧ warmIgnored s = true) ∧
  (∃ s : State, s.modeFlag 0 = false ∧ s.pwr.coldHeld = false ∧ warmIgnored s = false ∧ s.pwr.warmRunning = true) ∧
  (∃ s : State, s.modeFlag 0 = false ∧ s.pwr.coldHeld = false ∧ warmIgnored s = false ∧ s.pwr.warmRunning = false) :=
  ⟨⟨put live [(.pwrc, Off.MODE_FLAGS, 2)], by decide +kernel, by decide +kernel, by decide +kernel⟩,
  ⟨{ put live [] with pwr := { live.pwr with warmRunning := true } }, by decide +kernel, by decide +kernel, by decide +kernel, by decide +kernel⟩,
  ⟨live, by decide +kernel, by decide +kernel, by decide +kernel, by decide +kernel⟩⟩

/-- States and operands that meet the hypotheses of MonitorsAndPerfCommands. -/
theorem wit_monitors_and_perf_commands_1 :
  (∃ s : State, ∃ st : Nat, ∃ b : Blk, (bwBlks s).find? (fun b => b.stop == st) = some b ∧ (winOff s b = true ∨ s.rf b Off.BW_CTL 5 5 = 0)) ∧
  (∃ s : State, ∃ st : Nat, ∃ b : Blk, (bwBlks s).find? (fun b => b.stop == st) = some b ∧ winOff s b = false ∧ s.rf b Off.BW_CTL 5 5 ≠ 0 ∧ let w := bwOf s b
    let due := (w.opened / (2 ^ w.k * us) + 1) * (2 ^ w.k * us)
    s.tick ≤ due) ∧
  (∃ s : State, ∃ ch : Nat, ∃ tag : Nat, ∃ op : Nat, ∃ c : Cmd, Ready s ch tag op c ∧ let f := fun hi lo => bytesAt c.body hi lo
    op = 0x0A01 ∧ s.pcnOf (f 16 16) = none) ∧
  (∃ s : State, ∃ ch : Nat, ∃ tag : Nat, ∃ op : Nat, ∃ c : Cmd, Ready s ch tag op c ∧ let f := fun hi lo => bytesAt c.body hi lo
    op = 0x0A01 ∧ ∃ p, s.pcnOf (f 16 16) = some p) ∧
  (∃ s : State, ∃ ch : Nat, ∃ tag : Nat, ∃ op : Nat, ∃ c : Cmd, Ready s ch tag op c ∧ let f := fun hi lo => bytesAt c.body hi lo
    op = 0x0A05 ∧ let t := (uncBlk s (f 17 16)).bind (fun b => (bwBlks s).find? (fun x => x == b))
    t = none) ∧
  (∃ s : State, ∃ ch : Nat, ∃ tag : Nat, ∃ op : Nat, ∃ c : Cmd, Ready s ch tag op c ∧ let f := fun hi lo => bytesAt c.body hi lo
    op = 0x0A05 ∧ let t := (uncBlk s (f 17 16)).bind (fun b => (bwBlks s).find? (fun x => x == b))
    ∃ b, t = some b) ∧
  (∃ s : State, ∃ ch : Nat, ∃ tag : Nat, ∃ op : Nat, ∃ c : Cmd, Ready s ch tag op c ∧ let f := fun hi lo => bytesAt c.body hi lo
    op = 0x0A06 ∧ uncBlk s (f 17 16) = none) ∧
  (∃ s : State, ∃ ch : Nat, ∃ tag : Nat, ∃ op : Nat, ∃ c : Cmd, Ready s ch tag op c ∧ let f := fun hi lo => bytesAt c.body hi lo
    op = 0x0A06 ∧ ∃ b, uncBlk s (f 17 16) = some b) :=
  ⟨⟨put live [(.mc 15, Off.BW_CTL, 0)], (Blk.mc 15).stop, .mc 15, by decide +kernel, Or.inr (by decide +kernel)⟩,
  ⟨put live [(.mc 15, Off.BW_CTL, 32)], (Blk.mc 15).stop, .mc 15, by decide +kernel, by decide +kernel, by decide +kernel, by decide +kernel⟩,
  ⟨asks ({ live with org := { live.org with coreMap := [] } }) 0x0A01 (leBytes 16 0 ++ [255]), 0, 7, 0x0A01, cmd0 0x0A01 (leBytes 16 0 ++ [255]), ready_of (by decide +kernel), by decide +kernel, by decide +kernel⟩,
  ⟨asks (live) 0x0A01 (leBytes 16 0 ++ [255]), 0, 7, 0x0A01, cmd0 0x0A01 (leBytes 16 0 ++ [255]), ready_of (by decide +kernel), by decide +kernel, _, some_of (by decide +kernel)⟩,
  ⟨asks (live) 0x0A05 ([0, 0, 0, 0, 0, 0, 0, 0, 0, 0, 0, 0, 0, 0, 0, 0] ++ leBytes 2 ((Blk.llc 135).inst)), 0, 7, 0x0A05, cmd0 0x0A05 ([0, 0, 0, 0, 0, 0, 0, 0, 0, 0, 0, 0, 0, 0, 0, 0] ++ leBytes 2 ((Blk.llc 135).inst)), ready_of (by decide +kernel), by decide +kernel, by decide +kernel⟩,
  ⟨asks (live) 0x0A05 ([0, 0, 0, 0, 0, 0, 0, 0, 0, 0, 0, 0, 0, 0, 0, 0] ++ leBytes 2 ((Blk.mc 15).inst)), 0, 7, 0x0A05, cmd0 0x0A05 ([0, 0, 0, 0, 0, 0, 0, 0, 0, 0, 0, 0, 0, 0, 0, 0] ++ leBytes 2 ((Blk.mc 15).inst)), ready_of (by decide +kernel), by decide +kernel, .mc 15, by decide +kernel⟩,
  ⟨asks (live) 0x0A06 ([0, 0, 0, 0, 0, 0, 0, 0, 0, 0, 0, 0, 0, 0, 0, 0] ++ leBytes 2 (65535)), 0, 7, 0x0A06, cmd0 0x0A06 ([0, 0, 0, 0, 0, 0, 0, 0, 0, 0, 0, 0, 0, 0, 0, 0] ++ leBytes 2 (65535)), ready_of (by decide +kernel), by decide +kernel, by decide +kernel⟩,
  ⟨asks (live) 0x0A06 ([0, 0, 0, 0, 0, 0, 0, 0, 0, 0, 0, 0, 0, 0, 0, 0] ++ leBytes 2 ((Blk.mc 15).inst)), 0, 7, 0x0A06, cmd0 0x0A06 ([0, 0, 0, 0, 0, 0, 0, 0, 0, 0, 0, 0, 0, 0, 0, 0] ++ leBytes 2 ((Blk.mc 15).inst)), ready_of (by decide +kernel), by decide +kernel, .mc 15, by decide +kernel⟩⟩

/-- States and operands that meet the hypotheses of MonitorsAndPerfCommands. -/
theorem wit_monitors_and_perf_commands_2 :
  (∃ s : State, ∃ ch : Nat, ∃ tag : Nat, ∃ op : Nat, ∃ c : Cmd, Ready s ch tag op c ∧ let f := fun hi lo => bytesAt c.body hi lo
    op = 0x0A02 ∧ s.pcnOf (f 0 0) = none) ∧
  (∃ s : State, ∃ ch : Nat, ∃ tag : Nat, ∃ op : Nat, ∃ c : Cmd, Ready s ch tag op c ∧ let f := fun hi lo => bytesAt c.body hi lo
    op = 0x0A02 ∧ ∃ p, s.pcnOf (f 0 0) = some p) ∧
  (∃ s : State, ∃ ch : Nat, ∃ tag : Nat, ∃ op : Nat, ∃ c : Cmd, Ready s ch tag op c ∧ let f := fun hi lo => bytesAt c.body hi lo
    op = 0x0A03 ∧ s.pcnOf (f 0 0) = none) ∧
  (∃ s : State, ∃ ch : Nat, ∃ tag : Nat, ∃ op : Nat, ∃ c : Cmd, Ready s ch tag op c ∧ let f := fun hi lo => bytesAt c.body hi lo
    op = 0x0A03 ∧ ∃ p, s.pcnOf (f 0 0) = some p) ∧
  (∃ s : State, ∃ ch : Nat, ∃ tag : Nat, ∃ op : Nat, ∃ c : Cmd, Ready s ch tag op c ∧ op = 0x0A04) :=
  ⟨⟨asks ({ live with org := { live.org with coreMap := [] } }) 0x0A02 [255], 0, 7, 0x0A02, cmd0 0x0A02 [255], ready_of (by decide +kernel), by decide +kernel, by decide +kernel⟩,
  ⟨asks (live) 0x0A02 [255], 0, 7, 0x0A02, cmd0 0x0A02 [255], ready_of (by decide +kernel), by decide +kernel, _, some_of (by decide +kernel)⟩,
  ⟨asks ({ live with org := { live.org with coreMap := [] } }) 0x0A03 [255], 0, 7, 0x0A03, cmd0 0x0A03 [255], ready_of (by decide +kernel), by decide +kernel, by decide +kernel⟩,
  ⟨asks (live) 0x0A03 [255], 0, 7, 0x0A03, cmd0 0x0A03 [255], ready_of (by decide +kernel), by decide +kernel, _, some_of (by decide +kernel)⟩,
  ⟨asks (live) 0x0A04 [], 0, 7, 0x0A04, cmd0 0x0A04 [], ready_of (by decide +kernel), by decide +kernel⟩⟩

/-- States and operands that meet the hypotheses of MemoryReadsBackInOneForm. -/
theorem wit_memory_reads_back_in_one_form :
  (∃ a : Nat, ∃ x : Nat, ∃ l : List Byte, (x < a ∨ a + l.length ≤ x)) ∧
  (∃ a : Nat, ∃ b : Nat, ∃ l : List Byte, ∃ m : List Byte, (a + l.length ≤ b ∨ b + m.length ≤ a)) ∧
  (∃ s : State, s.mem = []) ∧
  (∃ s : State, Memory.wf s.mem = true) :=
  ⟨⟨0x40, 0x3F, [1], Or.inl (by decide)⟩,
  ⟨0x40, 0x41, [1], [2], Or.inl (by decide)⟩,
  ⟨live, by decide +kernel⟩,
  ⟨live, by decide +kernel⟩⟩

/-- States and operands that meet the hypotheses of CommandsWaitToStart. -/
theorem wit_commands_wait_to_start :
  (∃ op : Nat, ∃ row : Nat → Nat → Instr, BeletRow op row ∧ ∃ s : State, ∃ ch : Nat, ∃ tag : Nat, s.Live ∧ canStart s ch tag op = false) ∧
  (∃ op : Nat, ∃ row : Nat → Nat → Instr, BeletRow op row ∧ ∃ s : State, ∃ ch : Nat, ∃ tag : Nat, ∃ c, ∃ st, findCmd s ch tag op = some c ∧ mayStart s c = true ∧ lidBad s op c = some st) :=
  ⟨⟨0x0101, .sysNop, Or.inl (by simp), live, 3, 65535, ⟨by decide +kernel, by decide +kernel⟩, by decide +kernel⟩,
  ⟨0x0204, .lodgeSave, Or.inl (by simp), asks live 0x0204 [], 0, 7, cmd0 0x0204 [], stBadLid, by decide +kernel, by decide +kernel, by decide +kernel⟩⟩

/-- States and operands that meet the hypotheses of ReservedEncodingsLeaveTheirField. -/
theorem wit_reserved_encodings_leave_their_field :
  (∃ d : RegDef, ∃ f : FieldDef, d.apart = true ∧ f ∈ d.fields ∧ (f.acc = .rw ∨ f.acc = .rwl)) ∧
  (∃ d : RegDef, d ∈ regs_mesh ++ regs_isl ++ regs_err ++ regs_core ++ regs_llc ++ regs_warren ++ regs_mc ++ regs_rc ++ regs_tp ++
    regs_vf ++ regs_hoard ++ regs_idist ++ regs_bchub ++ regs_sett ++ regs_owl ++ regs_pwrc) :=
  ⟨⟨(defAt (.core 271) 397336), ⟨20, 0, .rw, .any⟩, by decide +kernel, by decide +kernel, by decide +kernel⟩,
  ⟨(defAt .pwrc Off.MODE_FLAGS), by decide +kernel⟩⟩

/-- States and operands that meet the hypotheses of RefusedControllerWritesChangeNothing. -/
theorem wit_refused_controller_writes_change_nothing :
  (∃ s : State, ∃ who : Agent, ∃ n : Nat, ∃ v : Word, ∃ d : RegDef, let b : Blk := .mc n
    let w := fun (o size : Nat) => mergeReg true d (s.rd b o) (asked d (s.rd b o) v size)
    OpenWrite s who b Off.GEOM 4 d ∧ (s.rf b Off.MC_CTL 0 0 = 1 ∨ 19 < (geomOf (w Off.GEOM 4)).rank + (geomOf (w Off.GEOM 4)).cid + (geomOf (w Off.GEOM 4)).row)) ∧
  (∃ s : State, ∃ who : Agent, ∃ n : Nat, ∃ v : Word, ∃ d : RegDef, let b : Blk := .mc n
    let w := fun (o size : Nat) => mergeReg true d (s.rd b o) (asked d (s.rd b o) v size)
    OpenWrite s who b Off.SCHED 8 d ∧ (fld (w Off.SCHED 8) 19 14 < fld (w Off.SCHED 8) 25 20 + 8 ∨ fld (w Off.SCHED 8) 42 35 < fld (w Off.SCHED 8) 34 27)) ∧
  (∃ s : State, ∃ who : Agent, ∃ n : Nat, ∃ d : RegDef, let b : Blk := .mc n
    OpenWrite s who b Off.RETUNE 4 d ∧ s.rf b Off.RETUNE 0 0 = 1) ∧
  (∃ s : State, ∃ who : Agent, ∃ n : Nat, ∃ d : RegDef, let b : Blk := .mc n
    OpenWrite s who b Off.TRAIN_CTL 8 d ∧ s.rf b Off.TRAIN_CTL 7 7 = 1) :=
  ⟨⟨(put live [(.mc 15, Off.MC_CTL, 1)]), .sett, 15, 0, (defAt (.mc 15) Off.GEOM), write_of (by decide +kernel), Or.inl (by decide +kernel)⟩,
  ⟨(put live []), .sett, 15, 1 <<< 27, (defAt (.mc 15) Off.SCHED), write_of (by decide +kernel), Or.inr (by decide +kernel)⟩,
  ⟨(put live [(.mc 15, Off.RETUNE, 1)]), .sett, 15, (defAt (.mc 15) Off.RETUNE), write_of (by decide +kernel), by decide +kernel⟩,
  ⟨(put live [(.mc 15, Off.TRAIN_CTL, 0x80)]), .sett, 15, (defAt (.mc 15) Off.TRAIN_CTL), write_of (by decide +kernel), by decide +kernel⟩⟩

/-! ## Small checks against the spec's numbers -/

/-- R225: along the row first, then along the column. -/
theorem test_route_row_first : routeOut 20 73 = 1 ∧ routeOut 22 73 = 2 ∧ routeOut 73 20 = 3 ∧ routeOut 73 73 = 4 := by decide
/-- R227, R278: the fields of a header stand apart; a flit spells the message it was made of. -/
theorem test_flit_spells_its_message :
    let m : Msg := { agent := 271, line := 2 ^ 42 - 1, txn := 4095, lid := 511, gen := 255, qport := 63, fclass := 31, poison := true, data := 5 }
    msgOf (flitOf 0xC0 m) = (0xC0, m) := by decide +kernel
/-- An empty queue: one tick passes; a command at the front runs (log entry 1). -/
theorem test_step_idle : (match step State.reset with | .next t => t.tick | _ => 0) = 1 := by decide +kernel
theorem test_step_front : (match step { live with pending := [.sscApply 5, .sscApply 6] } with | .next t => t.pending | _ => []) = [.sscApply 6] := by
  decide +kernel
/-- R125: its examples and its words with all used fields 0; then a funct3, a funct7 and a marked field that are not as listed. -/
theorem test_raermien_words :
    ([0x10C5850B, 0x30C0050B, 0x0000000B, 0x0200000B, 0x0400000B, 0x1000000B, 0x1200000B, 0x1400000B, 0x1600000B, 0x1800000B,
      0x1A00000B, 0x2000000B, 0x2200000B].all (fun (w : Word) => !raermienBad w)) = true ∧
    ([0x0400100B, 0x0600000B, 0x18C5850B, 0x2000050B].all (fun (w : Word) => raermienBad w)) = true := by decide +kernel


end Sys2Proof.Tests
end

/-! ## Registers: what a write of each does, the rows that make one whole access, the fields of a write, reset (family 00_scope) -/
namespace Sys2Proof.Machine

/-! ### What a whole access that reaches its register answers -/

/-- A whole write answers the effect of its register, acknowledged. -/
theorem regRow_effect {s t : State} {who : Agent} {b : Blk} {o size : Nat} {v : Word} {d : RegDef} (h : OpenWrite s who b o size d)
    (effect : regPut who b d o (asked d (s.rd b o) v size) s = t) :
    regRow who b o size v s = .next (settle s (ackWrite who (regOff b o) t)) := by
  rw [regRow_open v h, effect]

/-- A register that an offset reaches is one of its window's map, and starts there. -/
theorem startsAt_of_regAt {b : Blk} {o : Nat} {d : RegDef} (h : regAt b o = some d) : d ∈ regsOf b ∧ d.startsAt o = true := by
  have found : (regsOf b).find? (fun d => d.startsAt o) = some d := by
    unfold regAt at h
    split at h
    · next st =>
      split at h
      · cases h
      · exact h
    · exact h
  exact ⟨List.mem_of_find?_eq_some found, List.find?_some (p := fun d : RegDef => d.startsAt o) found⟩

/-! ### Which register of an array an offset names (R33) -/

theorem lanemap_at : ∀ k < 4, ∀ d ∈ regs_mesh, d.startsAt (Off.LINK_LANEMAP + 0x40 * k) = true →
    d.off = Off.LINK_LANEMAP ∧ d.idx (Off.LINK_LANEMAP + 0x40 * k) = k := by decide

theorem fclass_at : ∀ k < 32, ∀ d ∈ regs_llc, d.startsAt (Off.FCLASS + 8 * k) = true →
    d.off = Off.FCLASS ∧ d.idx (Off.FCLASS + 8 * k) = k := by decide +kernel

theorem owner_at : ∀ k < 16, ∀ d ∈ regs_hoard, d.startsAt (Off.OWNER + 8 * k) = true →
    d.off = Off.OWNER ∧ d.idx (Off.OWNER + 8 * k) = k := by decide +kernel

theorem marchCtl_not_owner : ∀ d ∈ regs_hoard, d.startsAt Off.MARCH_CTL = true → d.off ≠ Off.OWNER := by decide

/-! ### The effect of a write, register by register -/

section
variable {who : Agent} {d : RegDef} {x : Word} {s : State}

theorem regPut_predFlush {p : Nat} : regPut who (.core p) d Off.PRED_FLUSH x s = if bitOf x 0 then predFlush p s else s := by
  unfold regPut; exact if_pos rfl

theorem regPut_errStatus {st p : Nat} :
    regPut who (.err st p) d Off.ERR_STATUS x s = if bitOf x 0 then clearCapture (st + 256 * p) s else s := by
  unfold regPut; exact if_pos rfl

/-- Past its bandwidth monitor, a memory controller's registers follow `mcPut`. -/
theorem regPut_mc {n o : Nat} (h : o ≠ Off.BW_CTL) :
    regPut who (.mc n) d o x s = mcPut n o x (mergeReg true d (s.rd (.mc n) o) x) s := by
  unfold regPut; exact if_neg h

theorem mcPut_trainCtl {n : Nat} {w : Word} : mcPut n Off.TRAIN_CTL x w s = trainWrite n x s := by
  have geom : Off.TRAIN_CTL ≠ Off.GEOM := by decide
  have sched : Off.TRAIN_CTL ≠ Off.SCHED := by decide
  have retune : Off.TRAIN_CTL ≠ Off.RETUNE := by decide
  unfold mcPut
  rw [if_neg geom, if_neg sched, if_neg retune, if_pos rfl]

theorem mcPut_scrubCtl {n : Nat} {w : Word} : mcPut n Off.SCRUB_CTL x w s = scrubWrite n x s := by
  have geom : Off.SCRUB_CTL ≠ Off.GEOM := by decide
  have sched : Off.SCRUB_CTL ≠ Off.SCHED := by decide
  have retune : Off.SCRUB_CTL ≠ Off.RETUNE := by decide
  have train : Off.SCRUB_CTL ≠ Off.TRAIN_CTL := by decide
  have irq : ¬(Off.SCRUB_CTL = Off.MC_IRQ_STATUS ∨ Off.SCRUB_CTL = Off.MC_IRQ_EN) := by decide
  unfold mcPut
  rw [if_neg geom, if_neg sched, if_neg retune, if_neg train, if_neg irq, if_pos rfl]

theorem regPut_trainCtl {n : Nat} : regPut who (.mc n) d Off.TRAIN_CTL x s = trainWrite n x s :=
  (regPut_mc (by decide)).trans mcPut_trainCtl

theorem regPut_scrubCtl {n : Nat} : regPut who (.mc n) d Off.SCRUB_CTL x s = scrubWrite n x s :=
  (regPut_mc (by decide)).trans mcPut_scrubCtl

theorem regPut_lanemap {st k : Nat} (hk : k < 4) (h : regAt (.mesh st) (Off.LINK_LANEMAP + 0x40 * k) = some d) :
    regPut who (.mesh st) d (Off.LINK_LANEMAP + 0x40 * k) x s =
      lanemapPut st k (mergeReg true d (s.rd (.mesh st) (Off.LINK_LANEMAP + 0x40 * k)) x) s := by
  obtain ⟨hd, hs⟩ := startsAt_of_regAt h
  obtain ⟨hoff, hidx⟩ := lanemap_at k hk d hd hs
  simp only [regPut, if_pos hoff, hidx]

theorem regPut_fclass {n k : Nat} (hk : k < 32) (h : regAt (.llc n) (Off.FCLASS + 8 * k) = some d) :
    regPut who (.llc n) d (Off.FCLASS + 8 * k) x s =
      let w := mergeReg true d (s.rd (.llc n) (Off.FCLASS + 8 * k)) x
      if fclassOk s n k w then s.wr (.llc n) (Off.FCLASS + 8 * k) w else s := by
  obtain ⟨hd, hs⟩ := startsAt_of_regAt h
  obtain ⟨hoff, hidx⟩ := fclass_at k hk d hd hs
  have hne : Off.FCLASS + 8 * k ≠ Off.LLC_WAYCFG := by simp only [Off.FCLASS, Off.LLC_WAYCFG]; omega
  simp only [regPut, if_neg hne, if_pos hoff, hidx]

theorem regPut_owner {n k : Nat} (hk : k < 16) (h : regAt (.hoard n) (Off.OWNER + 8 * k) = some d) :
    regPut who (.hoard n) d (Off.OWNER + 8 * k) x s =
      ownerWrite (who == .sett) (16 * n + k) (mergeReg true d (s.rd (.hoard n) (Off.OWNER + 8 * k)) x) s := by
  obtain ⟨hd, hs⟩ := startsAt_of_regAt h
  obtain ⟨hoff, hidx⟩ := owner_at k hk d hd hs
  have hne : Off.OWNER + 8 * k ≠ Off.SPARE := by simp only [Off.OWNER, Off.SPARE]; omega
  simp only [regPut, if_neg hne, if_pos hoff, hidx]

theorem regPut_marchCtl {n : Nat} (h : regAt (.hoard n) Off.MARCH_CTL = some d) :
    regPut who (.hoard n) d Off.MARCH_CTL x s = marchWrite n (mergeReg true d (s.rd (.hoard n) Off.MARCH_CTL) x) s := by
  obtain ⟨hd, hs⟩ := startsAt_of_regAt h
  have hne : Off.MARCH_CTL ≠ Off.SPARE := by decide
  simp only [regPut, if_neg hne, if_neg (marchCtl_not_owner d hd hs), if_true]

theorem regPut_pmovf {p k : Nat} (hk : k < 2) :
    regPut who (.core p) d (Off.PMOVF + 8 * k) x s =
      s.wr (.core p) (Off.PMOVF + 8 * k) (mergeReg true d (s.rd (.core p) (Off.PMOVF + 8 * k)) x) := by
  obtain rfl | rfl : k = 0 ∨ k = 1 := by omega
  all_goals rfl

/-- A write of ERASE, which no other rule of its controller guards, puts what the fields accept. -/
theorem regPut_erase {n k : Nat} (hk : k < 4) :
    regPut who (.mc n) d (Off.ERASE + 8 * k) x s =
      s.wr (.mc n) (Off.ERASE + 8 * k) (mergeReg true d (s.rd (.mc n) (Off.ERASE + 8 * k)) x) := by
  obtain rfl | rfl | rfl | rfl : k = 0 ∨ k = 1 ∨ k = 2 ∨ k = 3 := by omega
  all_goals rfl

theorem regPut_src {k : Nat} (hk : k < 8192) :
    regPut who .idist d (Off.SRC + 8 * k) x s = srcWrite k x s := by
  have hne : Off.SRC + 8 * k ≠ Off.IPI_SEND := by simp only [Off.SRC, Off.IPI_SEND]; omega
  have hin : 0x20000 ≤ Off.SRC + 8 * k ∧ Off.SRC + 8 * k < 0x30000 := by simp only [Off.SRC]; omega
  have hidx : (Off.SRC + 8 * k - 0x20000) / 8 = k := by simp only [Off.SRC]; omega
  simp only [regPut, idistPut, if_neg hne, if_pos hin, hidx]

theorem regPut_vslotCfg {k : Nat} :
    regPut who .idist d (Off.VSLOT_CFG + 16 * k) x s = vslotCfgWrite k x s := by
  have hne : Off.VSLOT_CFG + 16 * k ≠ Off.IPI_SEND := by simp only [Off.VSLOT_CFG, Off.IPI_SEND]; omega
  have hsrc : ¬(0x20000 ≤ Off.VSLOT_CFG + 16 * k ∧ Off.VSLOT_CFG + 16 * k < 0x30000) := by simp only [Off.VSLOT_CFG]; omega
  have hin : 0x40000 ≤ Off.VSLOT_CFG + 16 * k := Nat.le_add_right ..
  have hidx : (Off.VSLOT_CFG + 16 * k - 0x40000) / 16 = k := by simp only [Off.VSLOT_CFG]; omega
  have hcfg : (Off.VSLOT_CFG + 16 * k) % 16 = 0 := by simp only [Off.VSLOT_CFG]; omega
  simp only [regPut, idistPut, if_neg hne, if_neg hsrc, if_pos hin, hidx, if_pos hcfg]

theorem regPut_winLive {n k : Nat} (hk : k < 4) :
    regPut who (.vf n) d (Off.WIN_LIVE + 0x20 * k) x s = winLiveWrite n k x s := by
  obtain rfl | rfl | rfl | rfl : k = 0 ∨ k = 1 ∨ k = 2 ∨ k = 3 := by omega
  all_goals rfl

end

/-! ### System registers (R109) -/

/-- A permitted access of a system register acts; one that writes refetches what is younger, with its effect. -/
theorem csrGo_permitted {i : Ins} {n rd : Nat} {op : CsrOp} {v : Word} {s : State} (head : atHead s i = true)
    (drained : (op != .read) = true → sbEmpty (s.core i.pcn) i.seq = true) (may : csrPermitted (s.core i.pcn) n (op != .read) = true) :
    csrGo i n rd op v s = completeX i rd (csrRead s i.pcn n) 0
      (let t := issue i.pcn 0 s
       if op != .read then flushFrom i.pcn (i.seq + 1)
         (csrEffect i.pcn n (csrNew op (csrRead s i.pcn n) v) (bump i.pcn 19 1 (pNow t i.pcn) t)) else t) := by
  have acts : ¬((!atHead s i) = true ∨ ((op != .read) = true ∧ (!sbEmpty (s.core i.pcn) i.seq) = true)) := by
    rintro (h | ⟨w, h⟩)
    · rw [head] at h; cases h
    · rw [drained w] at h; cases h
  have allowed : ¬(!csrPermitted (s.core i.pcn) n (op != .read)) = true := by rw [may]; decide
  simp only [csrGo, if_neg acts, if_neg allowed]

/-- An access that is not permitted is illegal. -/
theorem csrGo_forbidden {i : Ins} {n rd : Nat} {op : CsrOp} {v : Word} {s : State} (h : Oldest s i)
    (no : csrPermitted (s.core i.pcn) n (op != .read) = false) : csrGo i n rd op v s = illegal i s := by
  obtain ⟨head, drained⟩ := h
  have acts : ¬((!atHead s i) = true ∨ ((op != .read) = true ∧ (!sbEmpty (s.core i.pcn) i.seq) = true)) := by
    rw [head, drained]; rintro (h | ⟨-, h⟩) <;> cases h
  have denied : (!csrPermitted (s.core i.pcn) n (op != .read)) = true := by rw [no]; rfl
  simp only [csrGo, if_neg acts, if_pos denied]

/-- A core's own access of a system register. -/
theorem exec_csr (i : Ins) (l : Lvl) (n rd : Nat) (op : CsrOp) (v : Word) (s : State) :
    exec (.regWrite (.core i.pcn l) (.csr i n rd op) v) s = .next (settle s (csrGo i n rd op v s)) := by
  show finish s (anyRegWrite (.core i.pcn l) (.csr i n rd op) v s) = _
  simp only [anyRegWrite, beq_self_eq_true, if_true, finish_eq]

/-- The partner's write of ring 1's TAIL in a page that is up, enabled and awake (R429). -/
theorem exec_ringTail_partner {s : State} {n : Nat} {v : Word} (page : isVf n = true) (up : twinUp s = true)
    (enabled : vfEnabled s n = true) (awake : (s.vf n).d3 = false) :
    exec (.ringTailWrite (.partner n) n 1 v) s = .next (settle s (ringTailWrite n 1 (fld v 12 0) s)) := by
  show finish s (anyRegWrite (.partner n) (.vf n (Off.RING_TAIL + 0x20) 4) v s) = _
  have sized : accessOk (Off.RING_TAIL + 0x20) 4 = true := by decide
  simp only [anyRegWrite, sized, page, up, enabled, awake, Bool.not_false, and_self, if_true, vfPartnerWrite, finish_eq]

/-- A write of ring 0's TAIL through the local face. -/
theorem exec_ringTail_local {s : State} {who : Agent} {p : Nat} {v : Word} {d : RegDef} (h : OpenWrite s who (.vf p) Off.RING_TAIL 4 d) :
    exec (.ringTailWrite who p 0 v) s = .next (settle s (ackWrite who (regOff (.vf p) Off.RING_TAIL)
      (ringTailWrite p 0 (fld (asked d (s.rd (.vf p) Off.RING_TAIL) v 4) 12 0) s))) := by
  have page : isVf p = true := h.there
  show finish s (if 0 = 0 then if isVf p then regWrite who (regOff (.vf p) Off.RING_TAIL) 4 v s else s else _) = _
  rw [if_pos rfl, if_pos page, regWrite_open v h, finish_eq]
  rfl

/-! ### The fields of a register (R5) -/

/-- A field's share of a write either leaves the word or sets that field. -/
theorem mergeField_cases (lease : Bool) (v w : Word) (g : FieldDef) :
    mergeField lease v w g = w ∨ ∃ n, mergeField lease v w g = setFld w g.hi g.lo n := by
  unfold mergeField
  dsimp only
  split
  · split
    · exact .inr ⟨_, rfl⟩
    · exact .inl rfl
  · split
    · exact .inr ⟨_, rfl⟩
    · exact .inl rfl
  · exact .inr ⟨_, rfl⟩
  · exact .inr ⟨_, rfl⟩
  · exact .inl rfl

/-- Fields that share no bit with a field leave it as it was. -/
theorem fld_mergeFields_apart (lease : Bool) (v : Word) (f : FieldDef) (gs : List FieldDef) (w : Word)
    (fit : ∀ g ∈ gs, g.lo ≤ g.hi ∧ g.hi < 64) (apart : ∀ g ∈ gs, f.hi < g.lo ∨ g.hi < f.lo) :
    fld (gs.foldl (mergeField lease v) w) f.hi f.lo = fld w f.hi f.lo := by
  induction gs generalizing w with
  | nil => rfl
  | cons g gs ih =>
    rw [List.forall_mem_cons] at fit apart
    rw [List.foldl_cons, ih _ fit.2 apart.2]
    obtain h | ⟨n, h⟩ := mergeField_cases lease v w g
    · rw [h]
    · rw [h, fld_setFld_other _ _ _ _ _ _ fit.1.1 fit.1.2 apart.1]

/-- A field's own share of a write, with the lease that an RWL field needs. -/
theorem fld_mergeField_same (v w : Word) (f : FieldDef) (acc : f.acc = .rw ∨ f.acc = .rwl) (fit : f.lo ≤ f.hi ∧ f.hi < 64) :
    fld (mergeField true v w f) f.hi f.lo = if f.legal.ok (fld v f.hi f.lo) then fld v f.hi f.lo else fld w f.hi f.lo := by
  have share : mergeField true v w f = if f.legal.ok (fld v f.hi f.lo) then setFld w f.hi f.lo (fld v f.hi f.lo) else w := by
    rcases acc with acc | acc <;> simp only [mergeField, acc, Bool.true_and]
  rw [share]
  split
  · rw [fld_setFld_same _ _ _ _ fit.1 fit.2]; exact Nat.mod_mod _ _
  · rfl

/-- The fields of a register lie inside it and are apart from each other. -/
theorem apart_iff (d : RegDef) : d.apart = true ↔
    (∀ g ∈ d.fields, g.lo ≤ g.hi ∧ g.hi < 64) ∧ d.fields.Pairwise (fun f g => f.hi < g.lo ∨ g.hi < f.lo) := by
  simp only [RegDef.apart, Bool.and_eq_true, List.all_eq_true, decide_eq_true_eq]

/-! ### Reset -/

/-- A register that is not listed holds its COLD reset value. -/
theorem rd_of_ocr_nil {s : State} (h : s.ocr = []) (b : Blk) (o : Nat) : s.rd b o = ocrReset (b.base + o) := by
  unfold State.rd State.rdOff; rw [h]; rfl

/-! ### The statements -/

/-- Settles O59: the fields before and after the field in its register share no bit with it, so that only its own share
of the write reaches it. -/
theorem reservedEncodingsLeaveTheirField : Obligations.ReservedEncodingsLeaveTheirField := by
  refine ⟨fun d old v f hd hf acc => ?_, by decide +kernel⟩
  obtain ⟨fit, apart⟩ := (apart_iff d).mp hd
  obtain ⟨before, after, hfields⟩ := List.append_of_mem hf
  rw [hfields] at fit apart
  obtain ⟨-, apartTail, apartHead⟩ := List.pairwise_append.mp apart
  have fitAt := List.forall_mem_append.mp fit
  have fitAfter := List.forall_mem_cons.mp fitAt.2
  have apartAfter := (List.pairwise_cons.mp apartTail).1
  have apartBefore : ∀ g ∈ before, f.hi < g.lo ∨ g.hi < f.lo := fun g hg => (apartHead g hg f (List.mem_cons_self ..)).symm
  unfold mergeReg
  rw [hfields, List.foldl_append, List.foldl_cons, fld_mergeFields_apart _ _ _ _ _ fitAfter.2 apartAfter,
    fld_mergeField_same _ _ _ acc fitAfter.1, fld_mergeFields_apart _ _ _ _ _ fitAt.1 apartBefore]

/-- Settles O1: each half is the branch of `step` for its queue. -/
theorem stepRunsFrontCommand : Obligations.StepRunsFrontCommand := by
  refine ⟨fun s c rest h => ?_, fun s h => ?_⟩
  · unfold step; rw [h]
  · unfold step; rw [h]

/-- Settles O23, row by row: each is one whole write, with the effect of its register. -/
theorem coreAndFabricRegisterWrites : Obligations.CoreAndFabricRegisterWrites := by
  refine ⟨?predFlush, ?l2Waycfg, ?pmovf, ?spoorTail, ?lanemap, ?freq, ?ssc, ?errStatus, ?inject, ?fclass, ?llcWaycfg, ?warrenWaycfg⟩
  case pmovf => exact fun s who p k v d h => regRow_effect h (regPut_pmovf (Nat.mod_lt k (by decide)))
  case lanemap => exact fun s who p k v d h => regRow_effect h (regPut_lanemap (Nat.mod_lt k (by decide)) h.reg)
  case fclass => exact fun s who p k v d h => regRow_effect h (regPut_fclass (Nat.mod_lt k (by decide)) h.reg)
  case predFlush => exact fun s who p v d h => regRow_effect h regPut_predFlush
  case errStatus => exact fun s who p k v d h => regRow_effect h regPut_errStatus
  case inject => exact fun s who p k v d h => regRow_effect h rfl
  all_goals exact fun s who p v d h => regRow_effect h rfl

/-- Settles O24, row by row: each is one whole write, with the effect of its register. -/
theorem edgeRegisterWrites : Obligations.EdgeRegisterWrites := by
  refine ⟨?retune, ?train, ?irqStatus, ?scrub, ?erase, ?ipi, ?src, ?recallSlot, ?replaySlot, ?commit, ?live, ?tail, ?vfCtl, ?changed, ?march,
    ?owner, ?owlStatus⟩
  case train => exact fun s who p v d h => regRow_effect h regPut_trainCtl
  case scrub => exact fun s who p v d h => regRow_effect h regPut_scrubCtl
  case erase => exact fun s who p k v d h => regRow_effect h (regPut_erase (Nat.mod_lt k (by decide)))
  case src => exact fun s who k v d h => regRow_effect h (regPut_src (Nat.mod_lt k (by decide)))
  case recallSlot => exact fun s who k v d h => regRow_effect h regPut_vslotCfg
  case replaySlot => exact fun s who k v d h => regRow_effect h regPut_vslotCfg
  case live => exact fun s who p k v d h => regRow_effect h (regPut_winLive (Nat.mod_lt k (by decide)))
  case march => exact fun s who p v d h => regRow_effect h (regPut_marchCtl h.reg)
  case owner => exact fun s who k v d h => regRow_effect h (regPut_owner (Nat.mod_lt k (by decide)) h.reg)
  case tail => exact fun s who p v d h => exec_ringTail_local h
  case ipi => exact fun s who v d h => regRow_effect h rfl
  case changed => exact fun s who v d h => regRow_effect h rfl
  case owlStatus => exact fun s who v d h => regRow_effect h rfl
  all_goals exact fun s who p v d h => regRow_effect h rfl

/-- Settles O25: a port's RC.CFG is its root complex's, the general row is the write itself, and a system register access
is `csrGo` of the core that makes it. -/
theorem registerWriteForms : Obligations.RegisterWriteForms := by
  refine ⟨?rcCfg, fun s n v page up enabled awake => exec_ringTail_partner page up enabled awake, ?general, ?csrWrite, ?csrRead, ?csrIllegal⟩
  case rcCfg =>
    intro s who p n v d win h
    show regRow who (portWin s p) Off.RC_CFG 4 v s = _
    rw [win]
    exact regRow_effect h rfl
  case general =>
    intro s who b o size v d h
    show finish s (regWrite who (regOff b o) size v s) = _
    rw [regWrite_open v h, finish_eq]
  case csrWrite =>
    intro s i n rd l v ⟨head, drained⟩ may
    rw [exec_csr, csrGo_permitted head (fun _ => drained) may]
    rfl
  case csrRead =>
    intro s i n rd l v head may
    rw [exec_csr, csrGo_permitted head (fun w => absurd w (by decide)) may]
    rfl
  case csrIllegal =>
    intro s i n rd l v op old no
    rw [exec_csr, csrGo_forbidden old no]
    rfl

/-- Settles O26: every row is one whole read of its register. -/
theorem registerReads : Obligations.RegisterReads := by
  refine ⟨?ocrErr, ?spoorLost, ?errCnt, ?maxwait, ?deadDiscard, ?idistCounter, ?faultLog, ?portCounter, ?vfCounter, ?closedAcc, ?violCount⟩
  case errCnt => exact fun s who p k d h => rdReg_open h
  case portCounter => exact fun s who p k d h => rdReg_open h
  case vfCounter => exact fun s who p k d h => rdReg_open h
  case violCount => exact fun s who d h => (rdReg_open h : rdReg who .sett Off.VIOL_COUNT 4 s = _)
  all_goals exact fun s who p d h => rdReg_open h

/-- Settles O56: a state that lists no register shows each at its reset value, and the values written out are computed. -/
theorem resetLeavesTheColdState : Obligations.ResetLeavesTheColdState := by
  refine ⟨rfl, rfl, rfl, rfl, rfl, rfl, rfl, rfl, rfl, rfl, rfl, rfl, rfl, rfl, rd_of_ocr_nil rfl, ?_⟩
  decide +kernel

end Sys2Proof.Machine

/-! ## Memory through a store of bytes, bandwidth windows, and the PERF commands (family 01_organization) -/
namespace Sys2Proof.Machine

/-! ### A byte after a store of bytes -/

/-- A byte after a store: inside the range the byte stored there, outside it what it was. -/
theorem memByte_setMemBytes (s : State) (a x : Nat) (l : List Byte) :
    (s.setMemBytes a l).memByte x = if a ≤ x ∧ x < a + l.length then l.getD (x - a) 0 else s.memByte x := by
  split
  · next h =>
    obtain ⟨i, rfl⟩ := Nat.exists_eq_add_of_le h.1
    have hi : i < l.length := by omega
    rw [memByte_setMemBytes_in l s a i hi, Nat.add_sub_cancel_left, List.getD_eq_getElem?_getD, List.getElem?_eq_getElem hi,
      Option.getD_some]
  · exact memByte_setMemBytes_out l s a x (by omega)

/-- Settles O57: each part is what a byte reads after a store, or the canonical form that an operation on memory keeps. -/
theorem memoryReadsBackInOneForm : Obligations.MemoryReadsBackInOneForm := by
  refine ⟨fun s a l => memBytes_setMemBytes l s a, fun s a x l => memByte_setMemBytes_out l s a x, ?twice, ?apart, ?unlisted, ?form⟩
  case twice =>
    intro s a x l
    simp only [memByte_setMemBytes]
    split <;> rfl
  case apart =>
    intro s a b x l m hapart
    simp only [memByte_setMemBytes]
    by_cases inM : b ≤ x ∧ x < b + m.length
    · have outL : ¬(a ≤ x ∧ x < a + l.length) := by omega
      rw [if_pos inM, if_neg outL, if_pos inM]
    · rw [if_neg inM, if_neg inM]
  case unlisted => intro s a h; unfold State.memByte; rw [h]; rfl
  case form =>
    intro s h
    exact ⟨fun a l => setMemBytes_wf l s a h, fun ln d p => setMemLine_wf ln d p s h, fun b => zeroBank_wf b s h,
      loseMemory_wf s h, loseHoard_wf s h⟩

/-! ### Bandwidth windows (R561) -/

/-- A window opens before its closing tick. -/
theorem opened_lt_bwDue (w : BwSt) : w.opened < bwDue w := by
  have len : 0 < 2 ^ w.k * us := Nat.mul_pos (Nat.two_pow_pos _) (by decide)
  unfold bwDue
  rw [Nat.add_one_mul]
  exact Nat.lt_div_mul_add len

/-- Writing a list of registers takes no time. -/
theorem foldl_wr_tick (b : Blk) (o : Nat → Nat) (v : Nat → Word) (l : List Nat) (s : State) :
    (l.foldl (fun s i => s.wr b (o i) (v i)) s).tick = s.tick := by
  induction l generalizing s with
  | nil => rfl
  | cons i l ih => rw [List.foldl_cons, ih, State.wr_tick]

theorem incWrap_tick (s : State) (b : Blk) (o hi lo : Nat) : (s.incWrap b o hi lo).tick = s.tick := State.wf_tick ..

theorem withBw_tick (s : State) (m : SMap BwSt) : ({ s with bw := m } : State).tick = s.tick := rfl

theorem bwSwap_tick (b : Blk) (partly : Bool) (from_ : Nat) (s : State) : (bwSwap b partly from_ s).tick = s.tick := by
  unfold bwSwap
  extract_lets
  rw [withBw_tick, State.wf_tick, incWrap_tick, foldl_wr_tick]

theorem bwSwap_opened (b : Blk) (partly : Bool) (from_ : Nat) (s : State) :
    (bwOf (bwSwap b partly from_ s) b).opened = from_ := by
  unfold bwOf bwSwap
  rw [smGet_smSet_same]

/-- A window that opens at this tick has not ended. -/
theorem bwSwap_not_due (b : Blk) (partly : Bool) (s : State) :
    (bwSwap b partly s.tick s).tick < bwDue (bwOf (bwSwap b partly s.tick s) b) :=
  calc (bwSwap b partly s.tick s).tick
    _ = s.tick := bwSwap_tick ..
    _ = (bwOf (bwSwap b partly s.tick s) b).opened := (bwSwap_opened ..).symm
    _ < _ := opened_lt_bwDue _

/-- At its closing tick one window is closed, and the next one, which opens then, stands. -/
theorem bwCatch_at_due {s : State} {b : Blk} (h : s.tick = bwDue (bwOf s b)) : bwCatch b s = bwSwap b false (bwDue (bwOf s b)) s := by
  have ended : ¬ s.tick < bwDue (bwOf s b) := by omega
  have stands := bwSwap_not_due b false s
  rw [h] at stands
  simp only [bwCatch, if_neg ended, if_pos stands]

theorem bwClose_idle {s : State} {st : Nat} {b : Blk} (found : (bwBlks s).find? (fun b => b.stop == st) = some b)
    (idle : winOff s b = true ∨ s.rf b Off.BW_CTL 5 5 = 0) : bwClose st s = s := by
  unfold bwClose
  rw [found]
  exact if_pos idle

theorem bwClose_running {s : State} {st : Nat} {b : Blk} (found : (bwBlks s).find? (fun b => b.stop == st) = some b)
    (on : winOff s b = false) (enabled : s.rf b Off.BW_CTL 5 5 ≠ 0) :
    bwClose st s = bwCatch b (s.toTick (bwDue (bwOf s b))) := by
  have runs : ¬(winOff s b = true ∨ s.rf b Off.BW_CTL 5 5 = 0) := by simp [on, enabled]
  unfold bwClose
  rw [found]
  exact if_neg runs

theorem bwCatch_toTick_due {s : State} {b : Blk} (h : s.tick ≤ bwDue (bwOf s b)) :
    bwCatch b (s.toTick (bwDue (bwOf s b))) = bwSwap b false (bwDue (bwOf s b)) (s.toTick (bwDue (bwOf s b))) :=
  bwCatch_at_due (s := s.toTick (bwDue (bwOf s b))) (Nat.max_eq_right h)

/-! ### PERF commands (R565, R566) -/

/-- A Belet row whose command is ready answers what the command's body answers. -/
theorem belet_answers {s t : State} {ch tag op : Nat} {c : Cmd} {body : Cmd → State → CmdRes} (h : Ready s ch tag op c)
    (answer : finishCmd c (body c s) = t) : finish s (runBelet op ch tag body s) = .next (settle s t) := by
  rw [runBelet_ready body h, finish_eq, answer]

/-- What the Sett reads of a window goes into the client's buffer, or nothing is read. -/
theorem finishCmd_putBuffer (c : Cmd) (bytes rsp : List Byte) (look : State → State) (s : State) :
    finishCmd c (putBuffer c bytes rsp look s) =
      if bufOk s c = false ∨ bufLen c < bytes.length then respond c stBadBuffer [] s
      else respond c stOk rsp (settWr (bufPa c) bytes (look s)) := by
  simp only [putBuffer, apply_ite (finishCmd c), Bool.not_eq_true', finishCmd_fail, finishCmd_done]

/-- Settles O55: a window is closed at its closing tick, and every PERF row answers what its body answers. -/
theorem monitorsAndPerfCommands : Obligations.MonitorsAndPerfCommands := by
  refine ⟨fun s st b found => ⟨fun idle => ?idle, fun on enabled => ⟨?catches, fun early => ?closes⟩⟩,
    fun s ch tag op c h => ⟨?coreRead, ?bwRead, ?uncRead, ?coreCfg, ?spoor, ?bwCfg⟩⟩
  case idle =>
    show finish s (bwClose st s) = _
    rw [bwClose_idle found idle, finish_eq]
  case catches =>
    show finish s (bwClose st s) = _
    rw [bwClose_running found on enabled, finish_eq]
    rfl
  case closes =>
    show finish s (bwClose st s) = _
    rw [bwClose_running found on enabled, bwCatch_toTick_due early, finish_eq]
    rfl
  case coreRead =>
    rintro rfl
    refine ⟨fun absent => belet_answers (body := perfCoreRead) h ?_, fun p served => belet_answers (body := perfCoreRead) h ?_⟩
    · simp only [perfCoreRead, absent, finishCmd_fail]
    · simp only [perfCoreRead, served, finishCmd_putBuffer, List.append_nil]
  case bwRead =>
    rintro rfl
    refine ⟨fun absent => belet_answers (body := perfBwRead) h ?_, fun b found => belet_answers (body := perfBwRead) h ?_⟩
    · simp only [perfBwRead, absent, finishCmd_fail]
    · simp only [perfBwRead, found, finishCmd_putBuffer]
  case uncRead =>
    rintro rfl
    refine ⟨fun absent => belet_answers (body := perfUncRead) h ?_, fun b found => belet_answers (body := perfUncRead) h ?_⟩
    · simp only [perfUncRead, absent, finishCmd_fail]
    · simp only [perfUncRead, found, finishCmd_putBuffer, List.append_nil]
  case coreCfg =>
    rintro rfl
    refine ⟨fun absent => belet_answers (body := perfCoreCfg) h ?_, fun p served => belet_answers (body := perfCoreCfg) h ?_⟩
    · simp only [perfCoreCfg, absent, finishCmd_fail]
    · simp only [perfCoreCfg, served, apply_ite (finishCmd c), finishCmd_fail, finishCmd_done]
  case spoor =>
    rintro rfl
    refine ⟨fun absent => belet_answers (body := perfSpoor) h ?_, fun p served => belet_answers (body := perfSpoor) h ?_⟩
    · simp only [perfSpoor, absent, finishCmd_fail]
    · simp only [perfSpoor, served, apply_ite (finishCmd c), Bool.not_eq_true', finishCmd_fail, finishCmd_done]
  case bwCfg =>
    rintro rfl
    refine belet_answers (body := perfBwCfg) h ?_
    simp only [perfBwCfg, apply_ite (finishCmd c), finishCmd_fail, finishCmd_done] <;> rfl

end Sys2Proof.Machine

/-! ## The Sett: rings, responses, leases, the SYS, EXPERT and FW commands, MI2C, and the Den (family 02_sett_and_belet) -/
namespace Sys2Proof.Machine

/-! ### Rows and commands that act -/

/-- A row answers the state that its effect equals, settled. -/
theorem finish_of_eq {s t u : State} (effect : t = u) : finish s t = .next (settle s u) := by rw [effect, finish_eq]

/-- On a live chip a row without an effect leaves the state as it is. -/
theorem settle_self {s : State} (live : s.Live) : settle s s = s := settle_live s s live

/-- A row of this opcode runs a command body through `runBelet`, and does nothing else. -/
def RunsBody (op : Nat) (row : Nat → Nat → Instr) : Prop :=
  ∃ body : Cmd → State → CmdRes, ∀ ch tag s, exec (row ch tag) s = finish s (runBelet op ch tag body s)

/-- Every row of the Belet tables that only waits to start runs a command body. -/
theorem beletRow_runsBody {op : Nat} {row : Nat → Nat → Instr} (h : BeletRow op row) : RunsBody op row := by
  unfold BeletRow at h
  simp only [List.mem_cons, List.not_mem_nil, Prod.mk.injEq, or_assoc] at h
  repeat' rcases h with ⟨rfl, rfl⟩ | h
  all_goals exact ⟨_, fun _ _ _ => rfl⟩

/-- Settles O58: a command that waits leaves the state, which settles to itself on a live chip, and one that names a wrong lodge
answers what its check says. -/
theorem commandsWaitToStart : Obligations.CommandsWaitToStart := by
  intro op row hrow s ch tag
  obtain ⟨body, hexec⟩ := beletRow_runsBody hrow
  rw [hexec]
  refine ⟨fun live waits => ?waits, fun c st found starts bad => finish_of_eq (runBelet_badLid body found starts bad)⟩
  case waits =>
    rw [runBelet_waits body waits, finish_eq, settle_self live]

/-! ### What a write of a register field leaves of the others -/

section
variable {s : State} {b c : Blk} {o p hi lo n : Nat}

theorem rf_wf_same (fit : lo ≤ hi ∧ hi < 64) : (s.wf b o hi lo n).rf b o hi lo = n % 2 ^ (hi + 1 - lo) := by
  unfold State.rf; rw [rd_wf_same, fld_setFld_same _ _ _ _ fit.1 fit.2]

theorem rf_wf_apart {hi' lo' : Nat} (fit : lo ≤ hi ∧ hi < 64) (apart : hi' < lo ∨ hi < lo') :
    (s.wf b o hi lo n).rf b o hi' lo' = s.rf b o hi' lo' := by
  unfold State.rf; rw [rd_wf_same, fld_setFld_other _ _ _ _ _ _ fit.1 fit.2 apart]

theorem rf_wf_other {hi' lo' : Nat} (h : c.base + p ≠ b.base + o) : (s.wf b o hi lo n).rf c p hi' lo' = s.rf c p hi' lo' := by
  unfold State.rf; rw [rd_wf_other _ _ _ _ _ _ _ _ h]

end

theorem hdrPut_rf (ch off v : Nat) (s : State) (b : Blk) (o hi lo : Nat) : (hdrPut ch off v s).rf b o hi lo = s.rf b o hi lo := by
  unfold State.rf; rw [hdrPut_rd]

/-! ### Examining a ring (R47, R51) -/

/-- A client's index of the channel breaks the rules of its ring. -/
def RingIndexBad (s : State) (ch : Nat) : Prop :=
  hdrGet s ch 0x10 ≥ 32 ∨ hdrGet s ch 0x1C ≥ 32 ∨ hdrGet s ch 0x24 ≥ 96 ∨
    (hdrGet s ch 0x10 + 32 - (s.chan ch).reqCons) % 32 > 16 ∨
    ((s.chan ch).rspProd + 32 - hdrGet s ch 0x1C) % 32 > ((s.chan ch).rspProd + 32 - (s.chan ch).rspSeen) % 32 ∨
    ((s.chan ch).evtProd + 96 - hdrGet s ch 0x24) % 96 > ((s.chan ch).evtProd + 96 - (s.chan ch).evtSeen) % 96

theorem examine_of_not_open {s : State} {ch : Nat} (h : s.chState ch ≠ 1) : examine ch s = s := by
  unfold examine; exact if_pos h

theorem examine_of_bad {s : State} {ch : Nat} (isOpen : s.chState ch = 1) (bad : RingIndexBad s ch) :
    examine ch s = setChState ch 3 s := by
  unfold examine; rw [if_neg (not_not_intro isOpen)]; exact if_pos bad

theorem examine_of_good {s : State} {ch : Nat} (isOpen : s.chState ch = 1) (good : ¬RingIndexBad s ch) :
    examine ch s = evtOverflow ch (s.setChan ch { s.chan ch with
      reqSeen := hdrGet s ch 0x10, rspSeen := hdrGet s ch 0x1C, evtSeen := hdrGet s ch 0x24 }) := by
  unfold examine; rw [if_neg (not_not_intro isOpen)]; exact if_neg good

theorem setChState_chState (ch v : Nat) (s : State) : (setChState ch v s).chState ch = v % 8 := by
  unfold setChState State.chState; exact (hdrPut_rf ..).trans (rf_wf_same (by decide))

theorem setChState_sett (ch v : Nat) (s : State) : (setChState ch v s).sett = s.sett := by
  unfold setChState; rw [hdrPut_sett, State.wf_sett]

/-- Settles O9, by the three cases of `examine`. -/
theorem badRingIndexFaultsChannel : Obligations.BadRingIndexFaultsChannel := by
  refine ⟨fun s ch => examine_of_not_open, fun s ch isOpen _ bad => ?faulted, fun s ch => examine_of_good⟩
  case faulted =>
    rw [examine_of_bad isOpen bad]
    exact ⟨setChState_chState ch 3 s, setChState_sett ch 3 s⟩

/-- A byte of memory reads alike where memory is the same. -/
theorem memByte_congr {s t : State} (h : t.mem = s.mem) (x : Nat) : t.memByte x = s.memByte x := by
  unfold State.memByte; rw [h]

/-! ### A response (R55, R56) -/

/-- What a response may change: registers, memory, the caches and ports that hold mailbox lines, the Sett's own state, and what
the Owl and the partner hear. -/
def ResponseOnly (s t : State) : Prop :=
  ∃ r m p c q f o e pf tw, t = { s with
    ocr := r, mem := m, poison := p, cores := c, ports := q, fab := f, owl := o, sett := e, pf0 := pf, twinMsix := tw }

theorem ResponseOnly.trans {s t u : State} (h : ResponseOnly s t) (k : ResponseOnly t u) : ResponseOnly s u := by
  obtain ⟨_, _, _, _, _, _, _, _, _, _, rfl⟩ := h
  obtain ⟨_, _, _, _, _, _, _, _, _, _, rfl⟩ := k
  exact ⟨_, _, _, _, _, _, _, _, _, _, rfl⟩

/-- What it leaves alone. -/
theorem ResponseOnly.frame {s t : State} (h : ResponseOnly s t) : t.org = s.org ∧ t.flash = s.flash ∧ t.wear = s.wear ∧ t.pwr = s.pwr ∧
    t.lodges = s.lodges ∧ t.pools = s.pools ∧ t.idist = s.idist ∧ t.vfs = s.vfs ∧ t.mcs = s.mcs ∧ t.hoards = s.hoards ∧
    t.elog = s.elog ∧ t.tick = s.tick := by
  obtain ⟨_, _, _, _, _, _, _, _, _, _, rfl⟩ := h
  exact ⟨rfl, rfl, rfl, rfl, rfl, rfl, rfl, rfl, rfl, rfl, rfl, rfl⟩

theorem CohOnly.responseOnly {s t : State} (h : CohOnly s t) : ResponseOnly s t := by
  obtain ⟨_, _, _, _, _, _, rfl⟩ := h
  exact ⟨_, _, _, _, _, _, _, _, _, _, rfl⟩

/-! What setting a channel's state leaves. -/

section
variable (s : State) (ch : Nat) (k : Chan)

theorem setChan_rd (b : Blk) (o : Nat) : (s.setChan ch k).rd b o = s.rd b o := rfl
theorem setChan_mem : (s.setChan ch k).mem = s.mem := rfl
theorem setChan_owl : (s.setChan ch k).owl = s.owl := rfl
theorem setChan_cmds : (s.setChan ch k).sett.cmds = s.sett.cmds := rfl
theorem setChan_responseOnly : ResponseOnly s (s.setChan ch k) := ⟨_, _, _, _, _, _, _, _, _, _, rfl⟩
theorem chan_setChan_same : (s.setChan ch k).chan ch = k := smGet_smSet_same ..

end

theorem setChan_tagsGood {s : State} (ch : Nat) (k : Chan) (good : s.tagsGood) : (s.setChan ch k).tagsGood := good

theorem chan_congr {s t : State} (h : t.sett = s.sett) (ch : Nat) : t.chan ch = s.chan ch := by
  unfold State.chan; rw [h]

theorem settWr_cohOnly (a : Nat) (l : List Byte) (s : State) : CohOnly s (settWr a l s) := cohPut_coh a l s

theorem settWr_owl (a : Nat) (l : List Byte) {s : State} (good : s.tagsGood) : (settWr a l s).owl = s.owl := cohPut_owl a l s good

/-- Telling the partner reaches its interrupt vectors alone. -/
theorem raiseTwin_only (v : Nat) (s : State) : ∃ pf tw, raiseTwin v s = { s with pf0 := pf, twinMsix := tw } := by
  unfold raiseTwin
  split
  · exact ⟨_, _, rfl⟩
  · dsimp only
    split <;> exact ⟨_, _, rfl⟩

/-- Telling a client reaches its interrupt source or the partner's vectors alone. -/
theorem notify_only (ch : Nat) (evt : Bool) (s : State) : ∃ r pf tw, notify ch evt s = { s with ocr := r, pf0 := pf, twinMsix := tw } := by
  unfold notify
  split
  · exact ⟨_, _, _, rfl⟩
  · split
    · obtain ⟨_, _, h⟩ := raiseTwin_only (b2n evt) s
      exact ⟨_, _, _, h⟩
    · exact ⟨_, _, _, rfl⟩

theorem notify_sett (ch : Nat) (evt : Bool) (s : State) : (notify ch evt s).sett = s.sett := by
  obtain ⟨_, _, _, h⟩ := notify_only ch evt s; rw [h]

theorem notify_mem (ch : Nat) (evt : Bool) (s : State) : (notify ch evt s).mem = s.mem := by
  obtain ⟨_, _, _, h⟩ := notify_only ch evt s; rw [h]

theorem notify_owl (ch : Nat) (evt : Bool) (s : State) : (notify ch evt s).owl = s.owl := by
  obtain ⟨_, _, _, h⟩ := notify_only ch evt s; rw [h]

theorem notify_responseOnly (ch : Nat) (evt : Bool) (s : State) : ResponseOnly s (notify ch evt s) := by
  obtain ⟨_, _, _, h⟩ := notify_only ch evt s
  rw [h]
  exact ⟨_, _, _, _, _, _, _, _, _, _, rfl⟩

/-- A response notifies through SETT_RSP of channels 0 and 1 alone. -/
theorem notify_rsp_rd {ch : Nat} (s : State) {b : Blk} {o : Nat}
    (h : ch < 2 → b.base + o ≠ Blk.idist.base + (Off.SRC + 8 * (8 + ch))) : (notify ch false s).rd b o = s.rd b o := by
  unfold notify
  split
  · next local_ => exact rd_wf_other _ _ _ _ _ _ _ _ (h local_)
  · split
    · obtain ⟨_, _, k⟩ := raiseTwin_only (b2n false) s
      rw [k]; rfl
    · rfl

/-- A response sets PENDING of SETT_RSP of channel 0 or 1. -/
theorem notify_rsp_pending {ch : Nat} (s : State) (h : ch < 2) :
    (notify ch false s).rf .idist (Off.SRC + 8 * (8 + ch)) 32 32 = 1 := by
  unfold notify
  rw [if_pos h]
  exact rf_wf_same (by decide)

theorem mboxBase_aligned (ch : Nat) : mboxBase ch % 64 = 0 := by
  simp only [mboxBase, bank32]; omega

/-! A response entry is 128 bytes long, so that it and the header field lie in the mailbox. -/

theorem rspEntry_length (c : Cmd) (st : Nat) (rsp : List Byte) : (rspEntry c st rsp).length = 128 := by
  simp [rspEntry]

section
variable (c : Cmd) (st : Nat) (rsp : List Byte) (s : State)

theorem putResponse_responseOnly : ResponseOnly s (putResponse c st rsp s) := by
  unfold putResponse hdrPut
  refine .trans ?_ (notify_responseOnly ..)
  refine .trans ?_ (settWr_cohOnly ..).responseOnly
  exact .trans (settWr_cohOnly ..).responseOnly (setChan_responseOnly ..)

theorem putResponse_cmds : (putResponse c st rsp s).sett.cmds = s.sett.cmds := by
  unfold putResponse
  rw [notify_sett, hdrPut_sett, setChan_cmds, settWr_sett]

theorem putResponse_rspProd : ((putResponse c st rsp s).chan c.ch).rspProd = ((s.chan c.ch).rspProd + 1) % 32 := by
  unfold putResponse
  rw [chan_congr (notify_sett ..), chan_congr (hdrPut_sett ..), chan_setChan_same]

theorem putResponse_rd {b : Blk} {o : Nat} (h : c.ch < 2 → b.base + o ≠ Blk.idist.base + (Off.SRC + 8 * (8 + c.ch))) :
    (putResponse c st rsp s).rd b o = s.rd b o := by
  unfold putResponse
  rw [notify_rsp_rd _ h, hdrPut_rd, setChan_rd, settWr_rd]

theorem putResponse_rf {b : Blk} {o hi lo : Nat} (h : c.ch < 2 → b.base + o ≠ Blk.idist.base + (Off.SRC + 8 * (8 + c.ch))) :
    (putResponse c st rsp s).rf b o hi lo = s.rf b o hi lo := by
  unfold State.rf; rw [putResponse_rd c st rsp s h]

theorem putResponse_pending (h : c.ch < 2) : (putResponse c st rsp s).rf .idist (Off.SRC + 8 * (8 + c.ch)) 32 32 = 1 :=
  notify_rsp_pending _ h

theorem putResponse_memByte {x : Nat} (h : x < mboxBase c.ch ∨ mboxBase c.ch + 0x2000 ≤ x) :
    (putResponse c st rsp s).memByte x = s.memByte x := by
  have slot : (s.chan c.ch).rspProd % 16 < 16 := Nat.mod_lt _ (by decide)
  have aligned := mboxBase_aligned c.ch
  unfold putResponse hdrPut settWr
  rw [memByte_congr (notify_mem ..), cohPut_memByte _ _ _ x ?header, memByte_congr (setChan_mem ..), cohPut_memByte _ _ s x ?entry]
  case header => rw [leBytes_length]; omega
  case entry => rw [rspEntry_length]; omega

theorem putResponse_owl (good : s.tagsGood) : (putResponse c st rsp s).owl = s.owl := by
  have goodThen : (settWr (mboxBase c.ch + 0x900 + 128 * ((s.chan c.ch).rspProd % 16)) (rspEntry c st rsp) s).tagsGood :=
    (settWr_cohOnly ..).tagsGood good
  unfold putResponse hdrPut
  rw [notify_owl, settWr_owl _ _ (setChan_tagsGood _ _ goodThen), setChan_owl, settWr_owl _ _ good]

end

/-! The command leaves the accepted list, its response slot is given back, and the response is written there. -/

/-- The command has left the accepted list. -/
def unlisted (c : Cmd) (s : State) : State :=
  { s with sett := { s.sett with cmds := s.sett.cmds.filter (fun x => x.ord != c.ord) } }

/-- A command's response slot is given back: OUTSTANDING falls. -/
def slotFreed (c : Cmd) (s : State) : State := s.wf .sett (Off.CHAN_STATE + 8 * c.ch) 15 8 (s.outstanding c.ch - 1)

section
variable (c : Cmd) (s : State)

theorem unlisted_cmds : (unlisted c s).sett.cmds = s.sett.cmds.filter (fun x => x.ord != c.ord) := rfl
theorem unlisted_rd (b : Blk) (o : Nat) : (unlisted c s).rd b o = s.rd b o := rfl
theorem unlisted_chState : (unlisted c s).chState c.ch = s.chState c.ch := rfl
theorem unlisted_outstanding : (unlisted c s).outstanding c.ch = s.outstanding c.ch := rfl
theorem unlisted_chan : (unlisted c s).chan c.ch = s.chan c.ch := rfl
theorem unlisted_responseOnly : ResponseOnly s (unlisted c s) := ⟨_, _, _, _, _, _, _, _, _, _, rfl⟩

theorem unlisted_mem : (unlisted c s).mem = s.mem := rfl
theorem unlisted_owl : (unlisted c s).owl = s.owl := rfl
theorem slotFreed_sett : (slotFreed c s).sett = s.sett := State.wf_sett ..
theorem slotFreed_mem : (slotFreed c s).mem = s.mem := State.wf_mem ..
theorem slotFreed_owl : (slotFreed c s).owl = s.owl := State.wf_owl ..
theorem slotFreed_responseOnly : ResponseOnly s (slotFreed c s) := ⟨_, _, _, _, _, _, _, _, _, _, rfl⟩

theorem slotFreed_rd {b : Blk} {o : Nat} (h : b.base + o ≠ Blk.sett.base + (Off.CHAN_STATE + 8 * c.ch)) :
    (slotFreed c s).rd b o = s.rd b o := rd_wf_other _ _ _ _ _ _ _ _ h

theorem slotFreed_chState : (slotFreed c s).chState c.ch = s.chState c.ch := rf_wf_apart (by decide) (by decide)

theorem slotFreed_outstanding : (slotFreed c s).outstanding c.ch = s.outstanding c.ch - 1 := by
  have small : s.outstanding c.ch < 256 := Nat.mod_lt _ (by decide)
  unfold slotFreed
  rw [State.outstanding, rf_wf_same (by decide), Nat.mod_eq_of_lt (by omega)]

end

theorem unlisted_tagsGood {c : Cmd} {s : State} (good : s.tagsGood) : (unlisted c s).tagsGood := good

theorem slotFreed_tagsGood {c : Cmd} {s : State} (good : s.tagsGood) : (slotFreed c s).tagsGood := good

theorem answer_of_open {c : Cmd} {s : State} (st : Nat) (rsp : List Byte) (isOpen : (slotFreed c s).chState c.ch = 1) :
    answer c st rsp s = putResponse c st rsp (slotFreed c s) := if_pos isOpen

theorem respond_of_kept {c : Cmd} (st : Nat) (rsp : List Byte) (s : State) (kept : c.discard = false) :
    respond c st rsp s = answer c st rsp (unlisted c s) := if_neg (by rw [kept]; decide)

/-- The response of a command that was not reset, on an OPEN channel. -/
theorem respond_of_open {c : Cmd} {s : State} (st : Nat) (rsp : List Byte) (kept : c.discard = false) (isOpen : s.chState c.ch = 1) :
    respond c st rsp s = putResponse c st rsp (slotFreed c (unlisted c s)) := by
  have stays : (slotFreed c (unlisted c s)).chState c.ch = 1 := by rw [slotFreed_chState, unlisted_chState, isOpen]
  rw [respond_of_kept st rsp s kept, answer_of_open st rsp stays]

/-- CHAN_STATE of a channel is apart from its SETT_RSP. -/
theorem chanState_ne_settRsp (ch : Nat) :
    Blk.sett.base + (Off.CHAN_STATE + 8 * ch) ≠ Blk.idist.base + (Off.SRC + 8 * (8 + ch)) := by
  have sett : Blk.sett.base = 0xA0400000 := by decide
  have idist : Blk.idist.base = 0x8400000 := by decide
  rw [sett, idist]
  simp only [Off.CHAN_STATE, Off.SRC]
  omega

theorem putResponse_chState (c : Cmd) (st : Nat) (rsp : List Byte) (s : State) : (putResponse c st rsp s).chState c.ch = s.chState c.ch :=
  putResponse_rf c st rsp s (fun _ => chanState_ne_settRsp c.ch)

theorem putResponse_outstanding (c : Cmd) (st : Nat) (rsp : List Byte) (s : State) :
    (putResponse c st rsp s).outstanding c.ch = s.outstanding c.ch :=
  putResponse_rf c st rsp s (fun _ => chanState_ne_settRsp c.ch)

/-- Settles O11: a response is what `putResponse` writes once its command has left the list and its slot is free, and each part of the
statement is what these three leave. -/
theorem responseReachesItsSlotAlone : Obligations.ResponseReachesItsSlotAlone := by
  intro s c st rsp kept _ isOpen _
  dsimp only
  rw [respond_of_open st rsp kept isOpen]
  refine ⟨?cmds, ?outstanding, ?state, ?produced, putResponse_pending c st rsp _, ?registers, ?memory, ?frame⟩
  case cmds => rw [putResponse_cmds, slotFreed_sett, unlisted_cmds]
  case outstanding => rw [putResponse_outstanding, slotFreed_outstanding, unlisted_outstanding]
  case state => rw [putResponse_chState, slotFreed_chState, unlisted_chState, isOpen]
  case produced => rw [putResponse_rspProd, chan_congr (slotFreed_sett ..), unlisted_chan]
  case registers =>
    intro b o notState notRsp
    rw [putResponse_rd c st rsp _ notRsp, slotFreed_rd _ _ notState, unlisted_rd]
  case memory =>
    intro x outside
    rw [putResponse_memByte c st rsp _ outside, memByte_congr (slotFreed_mem ..), memByte_congr (unlisted_mem ..)]
  case frame =>
    have only := ((unlisted_responseOnly c s).trans (slotFreed_responseOnly c _)).trans (putResponse_responseOnly c st rsp _)
    obtain ⟨org, flash, rest⟩ := only.frame
    refine ⟨org, flash, fun good => ?_, rest⟩
    rw [putResponse_owl c st rsp _ (slotFreed_tagsGood (unlisted_tagsGood good)), slotFreed_owl, unlisted_owl]

/-! ### SYS commands (R65, R68) -/

/-- SYS.ABORT of a command that waits answers it ABORTED; of a started one, or of itself, BUSY. -/
theorem sysAbort_of_found {c d : Cmd} {s : State}
    (found : s.sett.cmds.find? (fun x => x.ch == c.ch && x.tag == bytesAt c.body 1 0 && !x.discard) = some d) :
    sysAbort c s = if d.phase ≠ .accepted ∨ d.ord = c.ord then .fail stBusy s else .done stOk [] (respond d stAborted [] s) := by
  simp only [sysAbort, found]

theorem sysAbort_of_absent {c : Cmd} {s : State}
    (absent : s.sett.cmds.find? (fun x => x.ch == c.ch && x.tag == bytesAt c.body 1 0 && !x.discard) = none) :
    sysAbort c s = .fail stNoTarget s := by
  simp only [sysAbort, absent]

/-- Settles O6: each row answers what its command's body answers. -/
theorem sysCommandsRespond : Obligations.SysCommandsRespond := by
  refine ⟨?nop, ?ident, ?status, ?abortWaiting, ?abortStarted, ?abortAbsent, ?eventMask⟩
  case nop => exact fun s ch tag c h => belet_answers (body := sysNop) h rfl
  case ident => exact fun s ch tag c h => belet_answers (body := sysIdent) h rfl
  case status => exact fun s ch tag c h => belet_answers (body := sysStatus) h rfl
  case eventMask => exact fun s ch tag c h => belet_answers (body := sysEventMask) h rfl
  case abortWaiting =>
    intro s ch tag c d h found waits other
    refine belet_answers (body := sysAbort) h ?_
    have mayAbort : ¬(d.phase ≠ .accepted ∨ d.ord = c.ord) := not_or.mpr ⟨not_not_intro waits, other⟩
    rw [sysAbort_of_found found, if_neg mayAbort, finishCmd_done]
  case abortStarted =>
    intro s ch tag c d h found started
    refine belet_answers (body := sysAbort) h ?_
    rw [sysAbort_of_found found, if_pos (.inl started), finishCmd_fail]
  case abortAbsent =>
    intro s ch tag c h absent
    refine belet_answers (body := sysAbort) h ?_
    rw [sysAbort_of_absent absent, finishCmd_fail]

/-! ### Leases (R60 to R63) -/

section
variable {c : Cmd} {s : State}

/-- The fields of a GRANT pass its first two tests. -/
structure GrantOk (c : Cmd) : Prop where
  inst : instBad (bytesAt c.body 1 0) = false
  least : 1 ≤ bytesAt c.body 7 4
  most : bytesAt c.body 7 4 ≤ 60000
  allowed : instDenied c.ch (bytesAt c.body 1 0) = false

theorem GrantOk.fieldsOk (h : GrantOk c) :
    ¬(instBad (bytesAt c.body 1 0) = true ∨ bytesAt c.body 7 4 < 1 ∨ 60000 < bytesAt c.body 7 4) := by
  obtain ⟨inst, least, most, -⟩ := h
  rw [inst]
  simp only [Bool.false_eq_true, false_or]
  omega

theorem GrantOk.notDenied (h : GrantOk c) : ¬instDenied c.ch (bytesAt c.body 1 0) = true := Bool.eq_false_iff.mp h.allowed

theorem expertGrant_held (h : GrantOk c) (held : (endExpired s).leased (bytesAt c.body 1 0) = true) :
    expertGrant c s = .fail stLeaseHeld (endExpired s) := by
  simp only [expertGrant, if_neg h.fieldsOk, if_neg h.notDenied, if_pos held]

theorem expertGrant_full (h : GrantOk c) (free : (endExpired s).leased (bytesAt c.body 1 0) = false)
    (full : 16 ≤ ((endExpired s).sett.leases.filter (fun l => l.ch == c.ch)).length ∨ freeSlot (endExpired s) = none) :
    expertGrant c s = .fail stNoResource (endExpired s) := by
  simp only [expertGrant, if_neg h.fieldsOk, if_neg h.notDenied, free, Bool.false_eq_true, if_false]
  rcases full with many | none_
  · rw [if_pos many]
  · rw [none_, ite_self]

/-- The grant itself: the lowest free slot, the unit's relocks taking effect, and the unit unlocked for the channel. -/
theorem expertGrant_granted {i : Nat} (h : GrantOk c) (free : (endExpired s).leased (bytesAt c.body 1 0) = false)
    (few : ((endExpired s).sett.leases.filter (fun l => l.ch == c.ch)).length < 16) (slot : freeSlot (endExpired s) = some i) :
    expertGrant c s =
      let ex := s.settTime + bytesAt c.body 7 4 * 1000
      let t := ((endExpired s).sett.relocks.filter (fun r => r.inst == bytesAt c.body 1 0)).foldl (fun s r => relockNow r s) (endExpired s)
      .done stOk (leBytes 1 i ++ leBytes 3 0 ++ leBytes 8 ex) (({ t with sett := { t.sett with
        leases := t.sett.leases ++ [⟨i, bytesAt c.body 1 0, c.ch, ex⟩],
        unlocked := (t.sett.unlocked.filter (fun u => u.1 != bytesAt c.body 1 0)) ++ [(bytesAt c.body 1 0, c.ch)] } } :
          State).wf .sett Off.LEASE_ACTIVE i i 1) := by
  simp only [expertGrant, if_neg h.fieldsOk, if_neg h.notDenied, free, Bool.false_eq_true, if_false, if_neg (Nat.not_le.mpr few), slot]

end

/-- The lease that a slot names has not expired, and RENEW's and RELEASE's slot is one of the 32. -/
theorem expertRenew_of_lease {c : Cmd} {s : State} {l : Lease} (slot : bytesAt c.body 0 0 < 32) (least : 1 ≤ bytesAt c.body 7 4)
    (most : bytesAt c.body 7 4 ≤ 60000) (found : s.sett.leases.find? (fun l => l.slot == bytesAt c.body 0 0) = some l)
    (stands : s.settTime < l.expiry) :
    expertRenew c s = if l.ch ≠ c.ch then .fail stDenied s else
      .done stOk (leBytes 1 (bytesAt c.body 0 0) ++ leBytes 3 0 ++ leBytes 8 (s.settTime + bytesAt c.body 7 4 * 1000))
        { s with sett := { s.sett with leases := s.sett.leases.map (fun x =>
            if x.slot = bytesAt c.body 0 0 then { x with expiry := s.settTime + bytesAt c.body 7 4 * 1000 } else x) } } := by
  have fieldsOk : ¬(bytesAt c.body 7 4 < 1 ∨ 60000 < bytesAt c.body 7 4 ∨ 32 ≤ bytesAt c.body 0 0) := by omega
  simp only [expertRenew, if_neg fieldsOk, found, if_neg (Nat.not_le.mpr stands)]

theorem expertRelease_of_lease {c : Cmd} {s : State} {l : Lease} (slot : bytesAt c.body 0 0 < 32)
    (found : s.sett.leases.find? (fun l => l.slot == bytesAt c.body 0 0) = some l) (stands : s.settTime < l.expiry) :
    expertRelease c s = if l.ch ≠ c.ch then .fail stDenied s else .done stOk [] (endLease l (some 1) s) := by
  simp only [expertRelease, if_neg (Nat.not_le.mpr slot), found, if_neg (Nat.not_le.mpr stands)]

/-- No lease stands in the slot: it is free, or the one it held has expired. -/
def NoLeaseIn (s : State) (slot : Nat) : Prop :=
  ∀ l, s.sett.leases.find? (fun l => l.slot == slot) = some l → l.expiry ≤ s.settTime

theorem expertRenew_noTarget {c : Cmd} {s : State} (slot : bytesAt c.body 0 0 < 32) (least : 1 ≤ bytesAt c.body 7 4)
    (most : bytesAt c.body 7 4 ≤ 60000) (gone : NoLeaseIn s (bytesAt c.body 0 0)) : expertRenew c s = .fail stNoTarget s := by
  have fieldsOk : ¬(bytesAt c.body 7 4 < 1 ∨ 60000 < bytesAt c.body 7 4 ∨ 32 ≤ bytesAt c.body 0 0) := by omega
  simp only [expertRenew, if_neg fieldsOk]
  split
  · rfl
  · next l found => rw [if_pos (gone l found)]

theorem expertRelease_noTarget {c : Cmd} {s : State} (slot : bytesAt c.body 0 0 < 32) (gone : NoLeaseIn s (bytesAt c.body 0 0)) :
    expertRelease c s = .fail stNoTarget s := by
  simp only [expertRelease, if_neg (Nat.not_le.mpr slot)]
  split
  · rfl
  · next l found => rw [if_pos (gone l found)]

/-- Settles O7: each row answers what its command's body answers in that case. -/
theorem leaseCommands : Obligations.LeaseCommands := by
  refine ⟨?granted, ?refused, ?renew, ?release, ?noTarget⟩
  case granted =>
    intro s ch tag i c h inst least most allowed free few slot
    refine belet_answers (body := expertGrant) h ?_
    rw [expertGrant_granted ⟨inst, least, most, allowed⟩ free few slot]
    rfl
  case refused =>
    intro s ch tag c h inst least most allowed
    have ok : GrantOk c := ⟨inst, least, most, allowed⟩
    refine ⟨fun held => belet_answers (body := expertGrant) h ?_, fun free full => belet_answers (body := expertGrant) h ?_⟩
    · rw [expertGrant_held ok held, finishCmd_fail]
    · rw [expertGrant_full ok free full, finishCmd_fail]
  case renew =>
    intro s ch tag c l h slot least most found stands
    have body := expertRenew_of_lease slot least most found stands
    refine ⟨fun own => belet_answers (body := expertRenew) h ?_, fun other => belet_answers (body := expertRenew) h ?_⟩
    · rw [body, if_neg (not_not_intro own)]; rfl
    · rw [body, if_pos other, finishCmd_fail]
  case release =>
    intro s ch tag c l h slot found stands
    have body := expertRelease_of_lease slot found stands
    refine ⟨fun own => belet_answers (body := expertRelease) h ?_, fun other => belet_answers (body := expertRelease) h ?_⟩
    · rw [body, if_neg (not_not_intro own), finishCmd_done]
    · rw [body, if_pos other, finishCmd_fail]
  case noTarget =>
    intro s ch tag c slot least most gone
    refine ⟨fun h => belet_answers (body := expertRenew) h ?_, fun h => belet_answers (body := expertRelease) h ?_⟩
    · rw [expertRenew_noTarget slot least most gone, finishCmd_fail]
    · rw [expertRelease_noTarget slot gone, finishCmd_fail]

/-! ### Doorbells, channel resets, polls and acceptance (R42, R51 to R53, R70 to R72) -/

/-- SETT.STATE is apart from every CHAN_STATE. -/
theorem settState_ne_chanState (ch : Nat) : Blk.sett.base + Off.SETT_STATE ≠ Blk.sett.base + (Off.CHAN_STATE + 8 * ch) := by
  simp only [Off.SETT_STATE, Off.CHAN_STATE]; omega

/-- Recording a doorbell's tag does not stop the Sett serving. -/
theorem serving_wf_chanState (s : State) (ch hi lo n : Nat) :
    (s.wf .sett (Off.CHAN_STATE + 8 * ch) hi lo n).serving = s.serving := by
  unfold State.serving
  rw [rf_wf_other (settState_ne_chanState ch), State.wf_sett]

theorem ringDoorbell_serving {s : State} {ch : Nat} (tag : Nat) (notClosed : s.chState ch ≠ 0) (serves : s.serving = true) :
    ringDoorbell ch tag s = examine ch (s.wf .sett (Off.CHAN_STATE + 8 * ch) 31 16 tag) := by
  have servesThen := (serving_wf_chanState s ch 31 16 tag).trans serves
  simp only [ringDoorbell, if_neg notClosed, if_pos servesThen]

theorem ringReset_serving {s : State} {ch : Nat} (notClosed : s.chState ch ≠ 0) (notResetting : s.chState ch ≠ 2)
    (serves : s.serving = true) : ringReset ch s = resetChan ch none s := by
  have acts : ¬(s.chState ch = 0 ∨ s.chState ch = 2 ∨ s.serving = false) := by
    rw [serves]; simp [notClosed, notResetting]
  unfold ringReset
  rw [if_neg acts]

/-- A tag sits in DOORBELL's low half, and CHRESET is clear. -/
theorem doorbellWrite_tag {who : Agent} {ch tag : Nat} {s : State} (admitted : doorbellAdmitted who ch = true) (fits : tag < 65536) :
    doorbellWrite who ch (BitVec.ofNat 64 (tag % 65536)) s = ringDoorbell ch tag s := by
  have noReset : bitOf (BitVec.ofNat 64 (tag % 65536)) 31 = false := by
    unfold bitOf
    rw [BitVec.getLsbD_ofNat, Nat.testBit_lt_two_pow (by omega), Bool.and_false]
  have tagField : fld (BitVec.ofNat 64 (tag % 65536)) 15 0 = tag := by
    unfold fld
    rw [BitVec.toNat_ofNat, Nat.shiftRight_zero]
    omega
  simp only [doorbellWrite, if_pos admitted, noReset, Bool.false_eq_true, if_false, tagField]

theorem doorbellWrite_chreset {who : Agent} {ch : Nat} {s : State} (admitted : doorbellAdmitted who ch = true) :
    doorbellWrite who ch (BitVec.ofNat 64 (2 ^ 31)) s = ringReset ch s := by
  have reset : bitOf (BitVec.ofNat 64 (2 ^ 31)) 31 = true := by decide
  simp only [doorbellWrite, if_pos admitted, if_pos reset]

theorem doorbellWrite_refused {who : Agent} {ch : Nat} {v : Word} {s : State} (refused : doorbellAdmitted who ch = false) :
    doorbellWrite who ch v s = s := by
  unfold doorbellWrite
  rw [if_neg (Bool.eq_false_iff.mp refused)]

/-! ### MI2C (R69, R70) -/

/-- MI2C after the STOP of a write whose bytes were all acknowledged. -/
def mi2cAcked (s : State) : State :=
  { s with sett := { s.sett with mi2c := { s.sett.mi2c with part := none, nacked := false } } }

/-- The bytes of a write that stays inside the mailbox are all acknowledged. -/
theorem mi2cScan_mailbox {off : Nat} (l : List Byte) : ∀ i, off + i + l.length ≤ 0x2000 → mi2cScan off l i = (l, false) := by
  induction l with
  | nil => intro i _; rfl
  | cons b l ih =>
    intro i inside
    rw [List.length_cons] at inside
    have here : off + i < 0x2000 := by omega
    simp only [mi2cScan, if_pos here, ih (i + 1) (by omega)]

theorem mi2cStop_mailbox {off : Nat} {d : List Byte} {s : State} (inside : off + d.length ≤ 0x2000) :
    mi2cStop off d s = if off < 0x2000 then settWr (mboxBase 2 + off) d (mi2cAcked s) else mi2cAcked s := by
  have rings : ¬(off = 0x2000 ∧ d.length = 2) := by omega
  have resets : ¬(off = 0x2002 ∧ d.length = 1) := by omega
  simp only [mi2cStop, mi2cScan_mailbox d 0 inside, Bool.false_eq_true, if_false, if_neg rings, if_neg resets, mi2cAcked]

theorem mi2cStop_doorbell {tag : Nat} {s : State} (fits : tag < 65536) :
    mi2cStop 0x2000 (leBytes 2 tag) s = ringDoorbell 2 tag (mi2cAcked s) := by
  have spells : leNat (leBytes 2 tag) = tag := (leNat_leBytes 2 tag).trans (Nat.mod_eq_of_lt fits)
  show ringDoorbell 2 (leNat (leBytes 2 tag)) (mi2cAcked s) = _
  rw [spells]

theorem mi2cStop_chreset (s : State) : mi2cStop 0x2002 [0xA5#8] s = ringReset 2 (mi2cAcked s) := rfl

theorem mi2cUp_notClosed {s : State} (up : mi2cUp s = true) : s.chState 2 ≠ 0 := by
  simp only [mi2cUp, Bool.and_eq_true, bne_iff_ne] at up
  exact up.1.1

theorem mi2cWrite_stop {off : Nat} {d : List Byte} {s : State} (up : mi2cUp s = true) : mi2cWrite off d true s = mi2cStop off d s := by
  unfold mi2cWrite
  rw [if_pos up, if_pos rfl]

theorem requestAccept_none {s : State} (none_ : acceptTurn s = none) : exec .requestAccept s = .next (settle s s) := by
  refine finish_of_eq ?_
  simp only [none_, ite_self]

/-- Settles O8, row by row: each is the shared operation of its doorbell. -/
theorem channelsAreRungPolledAndServed : Obligations.ChannelsAreRungPolledAndServed := by
  refine ⟨?doorbell, ?chreset, ?refused, ?poll, ?accept, fun s => requestAccept_none, ?mi2cChreset, ?mi2cDoorbell, ?partner⟩
  case doorbell =>
    intro s who ch tag admitted fits notClosed
    exact ⟨finish_of_eq (doorbellWrite_tag admitted fits), fun serves _ => ringDoorbell_serving tag notClosed serves⟩
  case chreset =>
    intro s who ch admitted serves notClosed notResetting
    exact finish_of_eq ((doorbellWrite_chreset admitted).trans (ringReset_serving notClosed notResetting serves))
  case refused =>
    intro s who ch tag refused
    exact ⟨finish_of_eq (doorbellWrite_refused refused), finish_of_eq (doorbellWrite_refused refused)⟩
  case poll => exact fun s serves => finish_of_eq (if_pos serves)
  case accept =>
    intro s ch serves turn
    refine finish_of_eq ?_
    rw [if_pos serves, turn]
  case mi2cChreset =>
    intro s up serves notResetting
    refine finish_of_eq ((mi2cWrite_stop up).trans ((mi2cStop_chreset s).trans ?_))
    exact ringReset_serving (s := mi2cAcked s) (mi2cUp_notClosed up) notResetting serves
  case mi2cDoorbell => exact fun s tag up fits => finish_of_eq ((mi2cWrite_stop up).trans (mi2cStop_doorbell fits))
  case partner =>
    intro s tag up awake
    have reaches : twinUp s = true ∧ (!s.pf0.d3) = true := ⟨up, by rw [awake]; rfl⟩
    refine ⟨finish_of_eq (if_pos reaches), fun serves notClosed notResetting => finish_of_eq ?_⟩
    rw [if_pos reaches, ringReset_serving notClosed notResetting serves]

/-! ### Timed events, MI2C transactions and SYS.CHAN_CTL (R40, R62, R63, R69, R70, R579) -/

/-- SYS.CHAN_CTL names channel 1 or 3. -/
def NamesCtlChan (c : Cmd) : Prop := bytesAt c.body 0 0 = 1 ∨ bytesAt c.body 0 0 = 3

section
variable {c : Cmd} {s : State}

theorem NamesCtlChan.fieldsOk (names : NamesCtlChan c) (op : bytesAt c.body 1 1 < 2) :
    ¬((bytesAt c.body 0 0 ≠ 1 ∧ bytesAt c.body 0 0 ≠ 3) ∨ 1 < bytesAt c.body 1 1) := by
  unfold NamesCtlChan at names; omega

theorem sysChanCtl_satisfied (names : NamesCtlChan c) (op : bytesAt c.body 1 1 < 2)
    (satisfied : s.chState (bytesAt c.body 0 0) = bytesAt c.body 1 1) : sysChanCtl c s = .done stOk (leBytes 1 (bytesAt c.body 1 1)) s := by
  have already : (bytesAt c.body 1 1 = 1 ∧ s.chState (bytesAt c.body 0 0) = 1) ∨
      (bytesAt c.body 1 1 = 0 ∧ s.chState (bytesAt c.body 0 0) = 0) := by omega
  simp only [sysChanCtl, if_neg (names.fieldsOk op), if_pos already]
  rw [satisfied]

theorem sysChanCtl_opens (names : NamesCtlChan c) (op : bytesAt c.body 1 1 = 1) (closed : s.chState (bytesAt c.body 0 0) = 0)
    (mode : ¬(s.modeFlag 2 = true ∨ s.modeFlag 10 = true)) (there : ¬(bytesAt c.body 0 0 = 3 ∧ s.pwr.tpRoot = true)) :
    sysChanCtl c s = .done stOk (leBytes 1 ((openChan (bytesAt c.body 0 0) s).chState (bytesAt c.body 0 0)))
      (openChan (bytesAt c.body 0 0) s) := by
  have notYet : ¬((bytesAt c.body 1 1 = 1 ∧ s.chState (bytesAt c.body 0 0) = 1) ∨
      (bytesAt c.body 1 1 = 0 ∧ s.chState (bytesAt c.body 0 0) = 0)) := by omega
  simp only [sysChanCtl, if_neg (names.fieldsOk (by omega)), if_neg notYet, if_pos op, if_neg mode, if_neg there, if_pos closed]

theorem sysChanCtl_closes (names : NamesCtlChan c) (op : bytesAt c.body 1 1 = 0) (notClosed : s.chState (bytesAt c.body 0 0) ≠ 0) :
    sysChanCtl c s =
      .run [] (resetChan (bytesAt c.body 0 0) (some c.ord) (if bytesAt c.body 0 0 = 3 then twinLoss 3 s else s)) := by
  have notYet : ¬((bytesAt c.body 1 1 = 1 ∧ s.chState (bytesAt c.body 0 0) = 1) ∨
      (bytesAt c.body 1 1 = 0 ∧ s.chState (bytesAt c.body 0 0) = 0)) := by omega
  have notOpen : ¬bytesAt c.body 1 1 = 1 := by omega
  simp only [sysChanCtl, if_neg (names.fieldsOk (by omega)), if_neg notYet, if_neg notOpen]

end

/-- Settles O10, row by row; SYS.CHAN_CTL by whether the channel already stands as asked. -/
theorem settTimedEventsAndMi2c : Obligations.SettTimedEventsAndMi2c := by
  refine ⟨?alive, ?expiry, ?relock, ?mi2cWrite, ?mi2cRead, fun s => rfl, ?chanCtl⟩
  case alive =>
    intro s runs notDen notSafe
    have inverts : (s.rf .sett Off.SETT_STATE 1 0 == 1 && !s.modeFlag 8 && !s.modeFlag 11) = true := by
      rw [runs, notDen, notSafe]; rfl
    exact finish_of_eq (if_pos inverts)
  case expiry =>
    intro s slot l found
    refine finish_of_eq ?_
    rw [found]
    rfl
  case relock =>
    intro s inst r found
    refine finish_of_eq ?_
    rw [found]
    rfl
  case mi2cWrite =>
    intro s off d up
    refine ⟨finish_of_eq ?_, fun inside => finish_of_eq ((mi2cWrite_stop up).trans (mi2cStop_mailbox inside))⟩
    unfold mi2cWrite
    rw [if_pos up]
    rfl
  case mi2cRead => exact fun s off len up => finish_of_eq (if_pos up)
  case chanCtl =>
    intro s ch tag c h names
    refine ⟨?opens, ?closes, ?satisfied⟩
    case opens =>
      intro op closed notBringup notDiag endpoint
      have mode : ¬(s.modeFlag 2 = true ∨ s.modeFlag 10 = true) := by rw [notBringup, notDiag]; decide
      have there : ¬(bytesAt c.body 0 0 = 3 ∧ s.pwr.tpRoot = true) :=
        fun ⟨three, root⟩ => Bool.eq_false_iff.mp (endpoint three) root
      refine belet_answers (body := sysChanCtl) h ?_
      rw [sysChanCtl_opens names op closed mode there, finishCmd_done]
    case closes =>
      intro op notClosed
      refine belet_answers (body := sysChanCtl) h ?_
      rw [sysChanCtl_closes names op notClosed, finishCmd_run]
    case satisfied =>
      intro op same
      refine belet_answers (body := sysChanCtl) h ?_
      rw [sysChanCtl_satisfied names op same, finishCmd_done]

/-! ### FW commands (R65 to R67, R466 to R468) -/

section
variable {c : Cmd} {s : State}

theorem fwStage_busy {ok : Bool} (busy : fwBusy s c.ch = true) : fwStage ok c s = .fail stBusy s := by
  unfold fwStage; exact if_pos busy

theorem fwVerify_busy (busy : fwBusy s c.ch = true) : fwVerify c s = .fail stBusy s := by
  unfold fwVerify; exact if_pos busy

theorem fwActivate_busy {ok : Bool} (busy : fwBusy s c.ch = true) : fwActivate ok c s = .fail stBusy s := by
  unfold fwActivate; exact if_pos busy

theorem fwAbandon_busy (busy : fwBusy s c.ch = true) : fwAbandon c s = .fail stBusy s := by
  unfold fwAbandon; exact if_pos busy

/-- Without a session no other channel holds one. -/
theorem fwBusy_of_noSession (noSession : s.sett.fw = none) (ch : Nat) : fwBusy s ch = false := by
  unfold fwBusy; rw [noSession]

theorem fwVerify_noSession (noSession : s.sett.fw = none) : fwVerify c s = .fail stNoTarget s := by
  simp only [fwVerify, fwBusy_of_noSession noSession, noSession, Option.isNone_none, Bool.false_eq_true, if_false, if_true]

theorem fwActivate_noSession {ok : Bool} (noSession : s.sett.fw = none) : fwActivate ok c s = .fail stNoTarget s := by
  simp only [fwActivate, fwBusy_of_noSession noSession, noSession, Bool.false_eq_true, if_false]

theorem fwAbandon_noSession (noSession : s.sett.fw = none) : fwAbandon c s = .fail stNoTarget s := by
  simp only [fwAbandon, fwBusy_of_noSession noSession, noSession, Option.isNone_none, Bool.false_eq_true, if_false, if_true]

/-- A stage with a good, clean buffer inside the slot erases and programs, or stops where the flash fails. -/
theorem fwStage_passes {ok : Bool} (mine : fwBusy s c.ch = false) (buf : bufOk s c = true) (aligned : bytesAt c.body 19 16 % 4096 = 0)
    (inside : bytesAt c.body 19 16 + bufLen c ≤ 0x1000000) (session : bytesAt c.body 19 16 ≠ 0 → s.sett.fw ≠ none)
    (clean : bufPoisoned s (bufPa c) (bufLen c) = none) :
    fwStage ok c s =
      let off := bytesAt c.body 19 16
      let slot := 1 - runSlot s
      let t := flProgram (slotBase slot + off) (settRd s (bufPa c) (bufLen c))
        (stageErase slot off (bufLen c) c.ch (cohLook (bufPa c) (bufLen c) s))
      if ok then .done stOk (leBytes 4 (stagedTo (off + bufLen c) t)) (setStaged (stagedTo (off + bufLen c) t) t)
      else .fail stFlashError (stageErase slot off (bufLen c) c.ch s) := by
  have fieldsOk : ¬(bytesAt c.body 19 16 % 4096 ≠ 0 ∨ bytesAt c.body 19 16 + bufLen c > 0x1000000 ∨
      (bytesAt c.body 19 16 ≠ 0 ∧ s.sett.fw.isNone = true)) := by
    rintro (h | h | ⟨h, none_⟩)
    · exact h aligned
    · omega
    · exact session h (Option.isNone_iff_eq_none.mp none_)
  simp only [fwStage, mine, buf, Bool.not_true, Bool.false_eq_true, if_false, if_neg fieldsOk, clean]

theorem fwVerify_session (mine : fwBusy s c.ch = false) (session : s.sett.fw.isSome = true) :
    fwVerify c s =
      let t := setTested (1 - runSlot s) true s
      if imageValid s (1 - runSlot s) then .done stOk (leBytes 4 (slotVersion t (1 - runSlot s)))
        { t with sett := { t.sett with fw := t.sett.fw.map (fun f => { f with verified := true }) } }
      else .fail stAuthFail s := by
  have open_ : s.sett.fw.isNone = false := by rw [← Option.not_isSome, session]; rfl
  simp only [fwVerify, mine, open_, Bool.false_eq_true, if_false]

theorem fwActivate_verified {ok : Bool} {f : FwSession} (mine : fwBusy s c.ch = false) (session : s.sett.fw = some f)
    (verified : f.verified = true) :
    fwActivate ok c s = if ok then .commit [.fwSlot (1 - runSlot s)] s else .fail stFlashError s := by
  simp only [fwActivate, mine, session, verified, Bool.false_eq_true, if_false, if_true]

theorem fwAbandon_session (mine : fwBusy s c.ch = false) (session : s.sett.fw.isSome = true) :
    fwAbandon c s = .done stOk [] { s with sett := { s.sett with fw := none } } := by
  have open_ : s.sett.fw.isNone = false := by rw [← Option.not_isSome, session]; rfl
  simp only [fwAbandon, mine, open_, Bool.false_eq_true, if_false]

end

/-- A command that waits for one record hands it to the journal, where the journal has room. -/
theorem finishCmd_commit_one {c : Cmd} {p : JPayload} {s : State} (room : jrnHasRoom s = true) :
    finishCmd c (.commit [p] s) = enqueueRec (some c.ord) false p (setPhase c.ord .committing [] s) := by
  simp only [finishCmd, if_pos room]
  rfl

/-- Settles O12: each row answers what its command's body answers in that case. -/
theorem firmwareCommands : Obligations.FirmwareCommands := by
  refine ⟨?info, ?stage, ?verify, ?activate, ?abandon, ?busy, ?noSession⟩
  case info =>
    intro s ch tag c h
    refine belet_answers (body := fwInfo) h ?_
    rfl
  case stage =>
    intro s ch tag ok c h mine buf aligned inside session clean
    refine belet_answers (body := fwStage ok) h ?_
    rw [fwStage_passes mine buf aligned inside session clean]
    simp only [apply_ite (finishCmd c), finishCmd_done, finishCmd_fail]
  case verify =>
    intro s ch tag c h mine session
    refine belet_answers (body := fwVerify) h ?_
    rw [fwVerify_session mine session]
    simp only [apply_ite (finishCmd c), finishCmd_done, finishCmd_fail]
  case activate =>
    intro s ch tag c f h mine session verified room
    refine ⟨belet_answers (body := fwActivate true) h ?_, belet_answers (body := fwActivate false) h ?_⟩
    · rw [fwActivate_verified mine session verified, if_pos rfl, finishCmd_commit_one room]
    · rw [fwActivate_verified mine session verified, if_neg Bool.false_ne_true, finishCmd_fail]
  case abandon =>
    intro s ch tag c h mine session
    refine belet_answers (body := fwAbandon) h ?_
    rw [fwAbandon_session mine session, finishCmd_done]
  case busy =>
    intro s ch tag ok c busy
    exact ⟨fun h => belet_answers (body := fwStage ok) h (congrArg (finishCmd c) (fwStage_busy busy)),
      fun h => belet_answers (body := fwVerify) h (congrArg (finishCmd c) (fwVerify_busy busy)),
      fun h => belet_answers (body := fwActivate ok) h (congrArg (finishCmd c) (fwActivate_busy busy)),
      fun h => belet_answers (body := fwAbandon) h (congrArg (finishCmd c) (fwAbandon_busy busy))⟩
  case noSession =>
    intro s ch tag ok c noSession
    exact ⟨fun h => belet_answers (body := fwVerify) h (congrArg (finishCmd c) (fwVerify_noSession noSession)),
      fun h => belet_answers (body := fwActivate ok) h (congrArg (finishCmd c) (fwActivate_noSession noSession)),
      fun h => belet_answers (body := fwAbandon) h (congrArg (finishCmd c) (fwAbandon_noSession noSession))⟩

/-! ### The Den (R530 to R535) -/

section
variable {s : State}

/-- A step from 1 to 7 lets DEN_PHASE_B act, outside SAFE. -/
theorem denPhaseB_acts {n : Nat} (notSafe : s.modeFlag 11 = false) (least : 1 ≤ n) (most : n ≤ 7) :
    ¬(s.modeFlag 11 = true ∨ 7 < n ∨ n = 0) := by
  rw [notSafe]
  simp only [Bool.false_eq_true, false_or]
  omega

theorem denPhaseB_armed {n e : Nat} (acts : ¬(s.modeFlag 11 = true ∨ 7 < n ∨ n = 0)) (armed : s.pwr.den = .armed e) :
    denPhaseB n s =
      if allParked s ∧ s.settTime < e then denGo n 7 { s with pwr := { s.pwr with den := .phaseB 0 } } else s := by
  simp only [denPhaseB, if_neg acts, armed]

theorem denPhaseB_begun {n k : Nat} (acts : ¬(s.modeFlag 11 = true ∨ 7 < n ∨ n = 0)) (begun : s.pwr.den = .phaseB k) :
    denPhaseB n s = denGo n 7 s := by
  simp only [denPhaseB, if_neg acts, begun]

/-- Phase B rests at the step named, and where a wake has been latched. -/
theorem denGo_rests {n k fuel : Nat} (begun : s.pwr.den = .phaseB k) (rests : n ≤ k ∨ s.pwr.wake.isSome = true) :
    denGo n (fuel + 1) s = s := by
  simp only [denGo, begun, if_pos rests]

theorem denGo_blocked {n k fuel : Nat} (begun : s.pwr.den = .phaseB k) (wait : denStep (k + 1) s = none) :
    denGo n (fuel + 1) s = s := by
  simp only [denGo, begun, wait, ite_self]

theorem denGo_goesOn {n k fuel : Nat} {t : State} (begun : s.pwr.den = .phaseB k) (more : k < n) (noWake : s.pwr.wake = none)
    (taken : denStep (k + 1) s = some t) :
    denGo n (fuel + 1) s = denGo n fuel { t with pwr := { t.pwr with den := if k + 1 = 7 then .den else .phaseB (k + 1) } } := by
  have goes : ¬(n ≤ k ∨ s.pwr.wake.isSome = true) := by rw [noWake]; simp only [Option.isSome_none, Bool.false_eq_true, or_false]; omega
  simp only [denGo, begun, if_neg goes, taken]

/-- Step 2 waits for every command to end. -/
theorem denStep_two_waits (busy : s.sett.cmds ≠ []) : denStep 2 s = none := by
  have waits : (!s.sett.cmds.isEmpty) = true := by rw [Bool.not_eq_true', List.isEmpty_eq_false_iff]; exact busy
  simp only [denStep, if_pos waits]

/-- A wake is latched in phase B, early, and in the Den. -/
theorem latchWake_phaseB {cause pin k : Nat} (notSafe : s.modeFlag 11 = false) (noWake : s.pwr.wake = none) (begun : s.pwr.den = .phaseB k) :
    latchWake cause pin s = { s with pwr := { s.pwr with wake := some (cause, pin, true, s.tick) } } := by
  simp only [latchWake, notSafe, Bool.false_eq_true, if_false, begun, noWake]

theorem latchWake_den {cause pin : Nat} (notSafe : s.modeFlag 11 = false) (noWake : s.pwr.wake = none) (den : s.pwr.den = .den) :
    latchWake cause pin s = { s with pwr := { s.pwr with wake := some (cause, pin, false, s.tick) } } := by
  simp only [latchWake, notSafe, Bool.false_eq_true, if_false, den, noWake]

theorem latchWake_awake {cause pin : Nat} (awake : s.pwr.den = .awake) : latchWake cause pin s = s := by
  simp only [latchWake, awake, ite_self]

/-- A latched wake lets DEN_WAKE act. -/
theorem denWake_acts {n : Nat} (notSafe : s.modeFlag 11 = false) (steps : n ≤ 7) (latched : s.pwr.wake.isSome = true) :
    ¬(s.modeFlag 11 = true ∨ 7 < n ∨ s.pwr.wake.isNone = true) := by
  rw [notSafe, ← Option.not_isSome, latched]
  simp only [Bool.not_true, Bool.false_eq_true, or_false, false_or]
  omega

section
variable {n f k fuel cause pin t : Nat} {early : Bool}

theorem wakeGo_rests (waking : s.pwr.den = .waking f k) (wake : s.pwr.wake = some (cause, pin, early, t)) (rests : n ≤ k) :
    wakeGo n (fuel + 1) s = s := by
  simp only [wakeGo, waking, wake, if_pos rests]

theorem wakeGo_goesOn (waking : s.pwr.den = .waking f k) (wake : s.pwr.wake = some (cause, pin, early, t)) (more : k < n)
    (notLast : k + 1 ≠ 7) :
    wakeGo n (fuel + 1) s =
      let u := wakeStep f (k + 1) cause pin early s
      wakeGo n fuel { u with pwr := { u.pwr with den := .waking f (k + 1) } } := by
  simp only [wakeGo, waking, wake, if_neg (Nat.not_le.mpr more), if_neg notLast]

theorem wakeGo_ends (waking : s.pwr.den = .waking f 6) (wake : s.pwr.wake = some (cause, pin, early, t)) (more : 6 < n) :
    wakeGo n (fuel + 1) s =
      let u := wakeStep f 7 cause pin early s
      { u with pwr := { u.pwr with den := .awake, wake := none } } := by
  simp only [wakeGo, waking, wake, if_neg (Nat.not_le.mpr more), if_pos]

end
end

/-- Settles O53, row by row; the rows of phase B and of the wake by what `denGo` and `wakeGo` do in one step. -/
theorem denEntryAndWake : Obligations.DenEntryAndWake := by
  refine ⟨?parkTimeout, ?phaseB, ?denGo, ?denStep, ?sources, ?latch, ?wake, ?wakeGo, ?stretch⟩
  case parkTimeout =>
    intro s e armed
    refine ⟨fun late => finish_of_eq ?_, fun parked => finish_of_eq ?_⟩
    · rw [armed]
      exact if_neg (Bool.eq_false_iff.mp late)
    · rw [armed]
      exact if_pos parked
  case phaseB =>
    intro s n notSafe least most
    have acts := denPhaseB_acts notSafe least most
    refine ⟨fun e armed parked early => finish_of_eq ?_, fun e armed stays => finish_of_eq ?_, fun k begun => finish_of_eq ?_⟩
    · rw [denPhaseB_armed acts armed, if_pos ⟨parked, early⟩]
    · have no : ¬(allParked s = true ∧ s.settTime < e) := by
        rintro ⟨parked, early⟩
        rcases stays with late | past
        · exact Bool.eq_false_iff.mp late parked
        · exact absurd early (Nat.not_lt.mpr past)
      rw [denPhaseB_armed acts armed, if_neg no]
    · exact denPhaseB_begun acts begun
  case denGo =>
    exact fun s n k fuel begun => ⟨denGo_rests begun, fun _ _ wait => denGo_blocked begun wait,
      fun t more noWake taken => denGo_goesOn begun more noWake taken⟩
  case denStep => exact fun s => ⟨denStep_two_waits, rfl⟩
  case sources =>
    intro s pin
    refine ⟨rfl, rfl, fun armed where_ notSafe => ?i2c, fun unarmed => ?noI2c, fun armed den => ?timer, fun unarmed => ?noTimer,
      fun there armed active => ?extIrq, fun no => ?noExtIrq⟩
    case i2c =>
      have fires : wakeArmed s 2 = true ∧ (s.pwr.den = .den ∨ (s.chState 2 = 0 ∧ s.modeFlag 8 = true)) ∧ (!s.modeFlag 11) = true :=
        ⟨armed, where_, by rw [notSafe]; rfl⟩
      exact finish_of_eq (if_pos fires)
    case noI2c => exact finish_of_eq (if_neg fun h => Bool.eq_false_iff.mp unarmed h.1)
    case timer => exact finish_of_eq (if_pos ⟨armed, den⟩)
    case noTimer => exact finish_of_eq (if_neg fun h => Bool.eq_false_iff.mp unarmed h.1)
    case extIrq => exact finish_of_eq (if_pos ⟨there, armed, active⟩)
    case noExtIrq =>
      refine finish_of_eq (if_neg ?_)
      rintro ⟨-, armed, active⟩
      rcases no with no | no
      · exact Bool.eq_false_iff.mp no armed
      · exact Bool.eq_false_iff.mp no active
  case latch =>
    exact fun s cause pin notSafe noWake => ⟨fun k => latchWake_phaseB notSafe noWake, latchWake_den notSafe noWake, latchWake_awake⟩
  case wake =>
    intro s n notSafe most latched
    have acts := denWake_acts notSafe most latched
    refine ⟨fun k begun => finish_of_eq ?_, fun den => finish_of_eq ?_, fun f k waking => finish_of_eq ?_⟩
    · simp only [denWake, if_neg acts, begun]
    · simp only [denWake, if_neg acts, den]
    · simp only [denWake, if_neg acts, waking]
  case wakeGo =>
    intro s n f k fuel cause pin t early waking wake
    refine ⟨wakeGo_rests waking wake, wakeGo_goesOn waking wake, ?_⟩
    rintro more rfl
    exact wakeGo_ends waking wake more
  case stretch =>
    intro s
    refine ⟨fun stretching notOpen => ⟨fun a b d t wake => finish_of_eq ?_, fun noWake => finish_of_eq ?_⟩, fun no => finish_of_eq (if_neg ?_)⟩
    · rw [if_pos ⟨stretching, notOpen⟩, wake]
    · rw [if_pos ⟨stretching, notOpen⟩, noWake]
    · rintro ⟨stretching, notOpen⟩
      rcases no with no | no
      · exact Bool.eq_false_iff.mp no stretching
      · exact notOpen no

end Sys2Proof.Machine

/-! ## A core's pipeline: control flow, sleep, loads and stores, fences (family 03_core_pipeline) -/
namespace Sys2Proof.Machine

section
variable {s s' : State} {i : Ins} {m : Mapped} {p : Nat}

/-! ### Exceptions and interrupts (R117, R119) -/

/-- An exception goes behind an interrupt that can be taken. -/
theorem takeTrap_eq (p code : Nat) (tval : Word) (gpa : Option Nat) (pc : Word) (s : State) :
    takeTrap p code tval gpa pc s = if takeable s p = [] then trapNow p code tval gpa pc s else takeIntr p s := by
  simp only [takeTrap, List.isEmpty_iff]

/-- The first interrupt that can be taken is entered; counting it leaves the core as it was. -/
theorem takeIntr_of_takeable {l : Lvl} {k : Nat} {rest : List (Lvl × Nat)} (first : takeable s p = (l, k) :: rest) :
    takeIntr p s = enterTrap p l (2 ^ 63 + k) (if k = 2 then 0x180 else 0x100) (k = 2) 0 (s.core p).pc (bump p 13 1 (pNow s p) s) := by
  simp only [takeIntr, first, bump_core]

/-- At the head, a word that R125 does not define is illegal. -/
theorem raermien_illegal (k : State → State) (head : atHead s i = true) (bad : raermienBad i.bits = true) :
    raermien i k s = illegal i s := by
  unfold raermien
  exact if_pos (by rw [head, bad]; rfl)

/-- A word that R125 defines has its own meaning. -/
theorem raermien_defined (k : State → State) (good : raermienBad i.bits = false) : raermien i k s = k s := by
  unfold raermien
  exact if_neg (by rw [good, Bool.and_false]; decide)

/-- A Raermien instruction that is illegal at U is so there, and in a word that R125 does not define. -/
theorem raermien_illegal_of {k : State → State} (head : atHead s i = true)
    (user : (s.core i.pcn).lvl = .u → k s = illegal i s) (no : (s.core i.pcn).lvl = .u ∨ raermienBad i.bits = true) :
    raermien i k s = illegal i s := by
  cases bad : raermienBad i.bits with
  | true => exact raermien_illegal k head bad
  | false =>
    have atU : (s.core i.pcn).lvl = .u := no.resolve_right (by rw [bad]; decide)
    rw [raermien_defined k bad, user atU]

/-! ### Branches, PAUSE and TRET (R76 to R78, R88, R123) -/

/-- A branch that may execute resolves; mispredicted, it discards everything younger first. -/
theorem runBranch_resolves {taken given call ret : Bool} {target : Word} (may : mayRun s i = true) :
    runBranch i taken target given call ret s =
      (let mis := mispredicted s i taken target ret given
       passOn i (fun e => { e with npc := if taken then target else e.npc, branch := some (brOf i taken mis target call ret) }) 3
         (if mis then bump i.pcn 17 1 (pNow s i.pcn) (flushFrom i.pcn (i.seq + 1) s) else s)) := by
  unfold runBranch
  exact if_neg (by rw [may]; decide)

/-- Without a BTB entry a branch was predicted not taken. -/
theorem mispredicted_of_no_entry {taken given ret : Bool} {target : Word} (noEntry : (s.core i.pcn).pred.btbAt i.pc = none) :
    mispredicted s i taken target ret given = taken := by
  simp only [mispredicted, noEntry]

theorem runTret_user (head : atHead s i = true) (user : (s.core i.pcn).lvl = .u) : runTret i s = illegal i s := by
  unfold runTret
  rw [if_neg (by rw [head]; decide), if_pos user]

/-- TRET above U returns. -/
theorem runTret_returns (head : atHead s i = true) (above : (s.core i.pcn).lvl ≠ .u) :
    runTret i s = levelChanged i.pcn (s.core i.pcn).lvl
      ((complete i 0 (flushFrom i.pcn (i.seq + 1) (clearResv i.pcn s))).modCore i.pcn (fun x =>
        { x with csr := smSet csrReset (tretRegs (s.core i.pcn)).csr 0xC02 (x.csr' 0xC02), lvl := tretLvl (s.core i.pcn),
                 pc := tretPc (s.core i.pcn) })) := by
  unfold runTret
  rw [if_neg (by rw [head]; decide), if_neg above]

end

/-- Settles O14, row by row: each instruction at a core where it may act has one branch of its meaning left. -/
theorem controlFlowTrapsAndInterrupts : Obligations.ControlFlowTrapsAndInterrupts := by
  refine ⟨?branch, ?pause, ?pauseHoldEnd, fun s p code tval gpa pc => takeTrap_eq p code tval gpa pc s, ?exceptions, ?tretIllegal, ?tret,
    ?interruptTake, ?timerCompare⟩
  case branch =>
    exact fun s i taken target given call ret may => ⟨finish_of_eq (runBranch_resolves may), mispredicted_of_no_entry⟩
  case pause =>
    intro s i head
    refine ⟨fun quiet => finish_of_eq ?_, fun pending => finish_of_eq ?_⟩
    · rw [if_pos head]; exact if_pos quiet
    · rw [if_pos head]; exact if_neg (by rw [pending]; decide)
  case pauseHoldEnd =>
    intro s p n holds
    refine ⟨fun quiet => finish_of_eq ?_, fun pending => finish_of_eq ?_⟩
    · simp only [holds, if_pos quiet]
    · simp only [holds, pending, Bool.false_eq_true, if_false]
  case exceptions => exact fun s i head => ⟨finish_of_eq (if_pos head), finish_of_eq (if_pos head), finish_of_eq (if_pos head)⟩
  case tretIllegal => exact fun s i head no => finish_of_eq (raermien_illegal_of head (runTret_user head) no)
  case tret =>
    exact fun s i head above good => finish_of_eq ((raermien_defined _ good).trans (runTret_returns head above))
  case interruptTake =>
    intro s p l k rest runs revocable first
    have acts : (s.runs p && !nonRevocable (s.core p)) = true := by rw [runs, revocable]; rfl
    exact finish_of_eq ((if_pos acts).trans (takeIntr_of_takeable first))
  case timerCompare => exact fun s p l on above inReach => finish_of_eq (if_pos ⟨on, above, inReach⟩)

/-! ### Sleep (R99 to R101, R130, R219) -/

section
variable {s : State} {i : Ins} {p : Nat}

theorem runWait_user (head : atHead s i = true) (user : (s.core i.pcn).lvl = .u) : runWait i s = illegal i s := by
  unfold runWait
  rw [if_neg (by rw [head]; decide), if_pos user]

theorem runWait_trapped (head : atHead s i = true) (k : (s.core i.pcn).lvl = .k) (twk : (s.core i.pcn).csrF 0x6C0 12 12 = 1) :
    runWait i s = takeTrap i.pcn 0x17 0 none i.pc s := by
  unfold runWait
  rw [if_neg (by rw [head]; decide), if_neg (by rw [k]; decide), if_pos ⟨k, twk⟩]

/-- A WAIT acts once older stores have committed, nothing is write-combined and every miss register is free. -/
theorem runWait_drained (head : atHead s i = true) (above : (s.core i.pcn).lvl ≠ .u)
    (untrapped : (s.core i.pcn).lvl = .k → (s.core i.pcn).csrF 0x6C0 12 12 ≠ 1) (stores : sbEmpty (s.core i.pcn) i.seq = true)
    (wc : (s.core i.pcn).wc = []) (mrs : (s.core i.pcn).mrs = []) :
    runWait i s = if (enabledPending s i.pcn).isEmpty then
        (clearResv i.pcn s).modCore i.pcn (fun c =>
          { c with sleep := .entering (if (s.core i.pcn).lvl = .k then 0 else (s.core i.pcn).csrF SLEEPCFG 1 0), stall := some i })
      else complete i 0 (clearResv i.pcn s) := by
  have trap : ¬((s.core i.pcn).lvl = .k ∧ (s.core i.pcn).csrF 0x6C0 12 12 = 1) := fun h => untrapped h.1 h.2
  simp only [runWait, head, above, trap, stores, wc, mrs, List.isEmpty_nil, Bool.not_true, Bool.not_eq_true', Bool.false_eq_true, if_false]
  cases (enabledPending s i.pcn).isEmpty <;> rfl

/-- An interrupt that is pending at the end of a step ends the entry. -/
theorem sleepEntryDone_cut {st : Nat} {w : Lvl × Nat} {l : List (Lvl × Nat)} (entering : (s.core p).sleep = .entering st)
    (pending : enabledPending s p = w :: l) :
    sleepEntryDone p s = wakeCore p (wakeCode w).1 (wakeCode w).2 st true (cutEntry p st s) := by
  simp only [sleepEntryDone, entering, pending]

/-- With none pending the entry goes on to the state it is for. -/
theorem sleepEntryDone_quiet {st : Nat} (entering : (s.core p).sleep = .entering st) (quiet : enabledPending s p = []) :
    sleepEntryDone p s =
      if st = 0 then sleepNow p 0 s
      else if st = 1 then sleepNow p 1 (dozeEntry p s)
      else
        let t := endSweeps p 20 s
        if (t.core p).sweep.isSome then t else parkStep p ((dozeEntry p t).modCore p (fun c => { c with sleep := .parking })) := by
  simp only [sleepEntryDone, entering, quiet]

/-- The L2 write-back of PARK sleeps or wakes when nothing is left. -/
theorem parkStep_eq (p : Nat) (s : State) :
    parkStep p s =
      (let t := parkEntry p s
       if l2Empty (t.core p) then
         match enabledPending t p with
         | w :: _ => wakeCore p (wakeCode w).1 (wakeCode w).2 2 true t
         | [] => sleepNow p 2 t
       else t) := by
  unfold parkStep
  dsimp only
  cases l2Empty ((parkEntry p s).core p) <;> rfl

theorem sleepEntryDone_parking (parking : (s.core p).sleep = .parking) : sleepEntryDone p s = parkStep p s := by
  simp only [sleepEntryDone, parking]

/-- A sweep of a core that is not dead writes lines back, and ends with the last one gone. -/
theorem endSweep_runs {w : Nat} {steps : Bool} (sweeps : (s.core p).sweep = some (w, steps)) (alive : (s.core p).dead = false) :
    endSweep p s =
      (let t := evictLines p (wayLines (s.core p) w) s
       if wayLines (t.core p) w = [] then nextSweep p (t.core p).sweepWait (sweepStatus p (if steps then sweepDisable p w t else t))
       else t) := by
  simp only [endSweep, sweeps, alive, Bool.false_eq_true, if_false]
  cases wayLines ((evictLines p (wayLines (s.core p) w) s).core p) w <;> rfl

end

/-- Settles O15: WAIT and the end of a step, by the state that the core is in and the interrupts pending. -/
theorem waitSleepAndWake : Obligations.WaitSleepAndWake := by
  refine ⟨?illegal, ?trapped, ?drained, ?entering, ?parking, ?wake, ?sweep⟩
  case illegal => exact fun s i head no => finish_of_eq (raermien_illegal_of head (runWait_user head) no)
  case trapped =>
    exact fun s i head k twk good => finish_of_eq ((raermien_defined _ good).trans (runWait_trapped head k twk))
  case drained =>
    intro s i head above good untrapped stores wc mrs
    have waits := (raermien_defined (runWait i) good).trans (runWait_drained head above untrapped stores wc mrs)
    exact ⟨fun pending => finish_of_eq (waits.trans (if_neg (by rw [pending]; decide))),
      fun quiet => finish_of_eq (waits.trans (if_pos quiet))⟩
  case entering =>
    intro s p st entering
    refine ⟨fun w l pending => finish_of_eq (sleepEntryDone_cut entering pending), fun quiet => ?_⟩
    have goesOn := sleepEntryDone_quiet entering quiet
    refine ⟨fun nap => finish_of_eq (goesOn.trans (if_pos nap)), fun doze => finish_of_eq (goesOn.trans ?_),
      fun park => finish_of_eq (goesOn.trans ?_)⟩
    · rw [if_neg (by omega), if_pos doze]
    · rw [if_neg (by omega), if_neg (by omega)]
  case parking => exact fun s p parking => finish_of_eq ((sleepEntryDone_parking parking).trans (parkStep_eq p s))
  case wake =>
    intro s p st w l asleep pending notInDen
    refine finish_of_eq ?_
    simp only [asleep, pending, if_neg notInDen]
  case sweep => exact fun s p w steps sweeps alive => finish_of_eq (endSweep_runs sweeps alive)

/-! ### Loads, stores and held loads (R81, R85, R87 to R89, R96) -/

section
variable {s s' : State} {i : Ins} {m : Mapped} {p : Nat} {va : Word} {n : Nat} {dst : Dst} {sg : Bool}

/-- An instruction that may execute has no place in the reorder buffer yet. -/
theorem not_placed_of_mayRun (may : mayRun s i = true) : (s.core i.pcn).rob.find? (fun e => e.seq == i.seq) = none := by
  simp only [mayRun, Bool.and_eq_true, Bool.not_eq_true'] at may
  rw [List.find?_eq_none]
  exact List.any_eq_false.mp may.2

/-- A load with a place in the load queue and a register goes on when its access translates. -/
theorem runLoad_maps {rd : Agent → Nat → Nat → State → Word × State} {r : MapRes} (may : mayRun s i = true)
    (place : lqFree (s.core i.pcn) i.seq = true) (reg : pregFree (s.core i.pcn) i.seq dst = true)
    (maps : mapAccess i.pcn accLoad va n (quietNow (s.core i.pcn) && inShadow (s.core i.pcn) i.seq) false (fun _ => false) s = (r, s')) :
    runLoad rd i va n dst sg false s = match r with
      | .ok m => issueLoad rd i m va n dst sg s'
      | r => failOrWait i accLoad r s s' := by
  simp only [runLoad, not_placed_of_mayRun may, may, place, reg, maps, Bool.not_true, Bool.false_eq_true, or_self, if_false]
  cases r <;> rfl

/-! What a load that translated issues as, in the names of `issueLoad`'s own steps. -/

/-- Whether Spoor tags a load that translated, and the state once it has issued. -/
def issuedLoad (i : Ins) (m : Mapped) (va : Word) (s : State) : Bool × State := dispatch i 1 (accOf i m va s) s

/-- Its place in the reorder buffer. -/
def placedLoad (i : Ins) (m : Mapped) (va : Word) (n : Nat) (dst : Dst) (sg : Bool) (s : State) : RobEnt :=
  loadEnt i m va n dst sg (issuedLoad i m va s).1 s

/-- The state once the write-combining entries of its lines are drained (R145). -/
def drainedLoad (i : Ins) (m : Mapped) (va : Word) (n : Nat) (dst : Dst) (sg : Bool) (s : State) : State :=
  drainLines i.pcn (placedLoad i m va n dst sg s).lines (issuedLoad i m va s).2

section
variable {rd : Agent → Nat → Nat → State → Word × State}
  (drained : wcHolds ((drainedLoad i m va n dst sg s).core i.pcn) (placedLoad i m va n dst sg s).lines = false)
include drained

theorem issueLoad_dev (dev : m.ty = .dev) (ready : devReady s i m = true) :
    issueLoad rd i m va n dst sg s =
      loadDev rd i (placedLoad i m va n dst sg s) (bump i.pcn 78 1 (accOf i m va s) (drainedLoad i m va n dst sg s)) := by
  unfold issueLoad
  refine (if_neg (Bool.eq_false_iff.mp drained)).trans ?_
  rw [if_pos (.inl dev), if_pos ready]; rfl

section
variable (memory : m.ty ≠ .dev) (normal : s.isNormal m.pa = true) (free : depWaits s i = false)
include memory normal free

/-- A load of memory that does not wait for older store addresses looks at the older stores. -/
theorem issueLoad_memory :
    issueLoad rd i m va n dst sg s =
      let e := placedLoad i m va n dst sg s
      let u := drainedLoad i m va n dst sg s
      if !(olderOverlap (s.core i.pcn) i.seq e.pieces).isEmpty then
        (match forwardFrom (s.core i.pcn) e with
        | some b => retireAll i.pcn (bump i.pcn 22 1 (accOf i m va s) (putRob i.pcn (e.forwarded b) u))
        | none => bump i.pcn 23 1 (accOf i m va s) (putRob i.pcn { e with waitFwd := true } u))
      else if m.ty = .wc then (if l2FreeN (u.core i.pcn) e.pieces.length then sendUcReads i.pcn i.seq e (putRob i.pcn e u) else s)
      else match accessCache i.pcn i.seq e.held (putRob i.pcn e (if e.held then u else strideSee i.pcn i.pc m.pa u)) with
        | some t => retireAll i.pcn t
        | none => s := by
  have uncached : ¬(m.ty = .dev ∨ s.isNormal m.pa = false) := not_or.mpr ⟨memory, by rw [normal]; decide⟩
  unfold issueLoad
  refine (if_neg (Bool.eq_false_iff.mp drained)).trans ?_
  rw [if_neg uncached, if_neg (Bool.eq_false_iff.mp free)]; rfl

/-- Older stores that overlap give their bytes where one covers the load; else the load waits for them. -/
theorem issueLoad_older (older : olderOverlap (s.core i.pcn) i.seq (placedLoad i m va n dst sg s).pieces ≠ []) :
    issueLoad rd i m va n dst sg s =
      match forwardFrom (s.core i.pcn) (placedLoad i m va n dst sg s) with
      | some b => retireAll i.pcn (bump i.pcn 22 1 (accOf i m va s)
          (putRob i.pcn ((placedLoad i m va n dst sg s).forwarded b) (drainedLoad i m va n dst sg s)))
      | none => bump i.pcn 23 1 (accOf i m va s)
          (putRob i.pcn { placedLoad i m va n dst sg s with waitFwd := true } (drainedLoad i m va n dst sg s)) := by
  refine (issueLoad_memory drained memory normal free).trans (if_pos ?_)
  rw [List.isEmpty_eq_false_iff.mpr older]; rfl

section
variable (alone : olderOverlap (s.core i.pcn) i.seq (placedLoad i m va n dst sg s).pieces = [])
include alone

theorem issueLoad_wc (wc : m.ty = .wc)
    (room : l2FreeN ((drainedLoad i m va n dst sg s).core i.pcn) (placedLoad i m va n dst sg s).pieces.length = true) :
    issueLoad rd i m va n dst sg s = sendUcReads i.pcn i.seq (placedLoad i m va n dst sg s)
      (putRob i.pcn (placedLoad i m va n dst sg s) (drainedLoad i m va n dst sg s)) := by
  refine (issueLoad_memory drained memory normal free).trans ((if_neg ?_).trans ((if_pos wc).trans (if_pos room)))
  rw [alone]; decide

/-- A load of write-back memory reads the L1D, or sends its misses. -/
theorem issueLoad_wb {t : State} (wb : m.ty = .wb)
    (read : accessCache i.pcn i.seq (placedLoad i m va n dst sg s).held (putRob i.pcn (placedLoad i m va n dst sg s)
      (if (placedLoad i m va n dst sg s).held then drainedLoad i m va n dst sg s
       else strideSee i.pcn i.pc m.pa (drainedLoad i m va n dst sg s))) = some t) :
    issueLoad rd i m va n dst sg s = retireAll i.pcn t := by
  refine (issueLoad_memory drained memory normal free).trans ((if_neg ?_).trans ((if_neg ?_).trans ?_))
  · rw [alone]; decide
  · rw [wb]; decide
  · rw [read]

end
end
end

/-- An access that fails as the oldest instruction, a miss with the older stores committed, is faulted. -/
theorem failOrWait_fail {a : Acc'} {v : Word} {up : Bool} {x : Xl} {low : Option Nat} (head : atHead s i = true) (known : x ≠ .wait)
    (stores : x = .miss → sbEmpty (s.core i.pcn) i.seq = true) :
    failOrWait i a (.fail v up x low) s s' = faultAt i a v up x low s' := by
  have goes : ¬(x = .miss ∧ (!sbEmpty (s.core i.pcn) i.seq) = true) := by
    rintro ⟨miss, held⟩
    rw [stores miss] at held; cases held
  unfold failOrWait
  dsimp only
  rw [if_neg known, if_neg (by rw [head]; decide), if_neg goes]

theorem failOrWait_ad {a : Acc'} {v : Word} {sl : Option Nat} (head : atHead s i = true) :
    failOrWait i a (.ad sl v) s s' = needAd i sl v (a.kind = 2) s' := by
  unfold failOrWait
  exact if_pos head

theorem faultAt_single {a : Acc'} {v : Word} {up : Bool} {x : Xl} (known : x ≠ .wait) :
    faultAt i a v up x none s = xlTrap i a v up x s := by
  unfold faultAt
  rw [if_neg known]

/-- A fetch whose lines hold no poison reads them. -/
theorem runFetch_reads (runs : s.runs i.pcn = true) (reaches : Reaches s i accFetch va n false false (fun _ => false) m s') :
    let e := { robOf i (s.core i.pcn).lvl (s.core i.pcn).lidNow s.tick with pa := m.pa, size := n, n1 := m.n1, pa2 := m.pa2 }
    let u := e.lines.foldl (fun s ln => (lookLine i.pcn ln i.seq true false s).2) s'
    poisonedPiece (u.core i.pcn) e = none → runFetch i va n s = u := by
  intro e u sound
  unfold runFetch
  dsimp only
  rw [if_neg (by rw [runs]; decide), reaches.maps]
  dsimp only
  rw [sound]

/-- A store, or cbo.zero, that translates has its places; a WB store that is not held asks for its missing lines. -/
theorem runStore_reaches {bytes : List Byte} {fwd zero : Bool} (may : mayRun s i = true) (place : sbFree (s.core i.pcn) i.seq = true)
    (nonempty : bytes ≠ []) (reaches : Reaches s i accStore va bytes.length false zero (fun _ => true) m s') :
    runStore i va bytes fwd zero s =
      let x := dispatch i 2 (storeAcc i m va s) s'
      let e := storeEnt i m va bytes.length zero x.1 s
      let u := orderCheck i.pcn i e.pieces (eccWrite (coreStop i.pcn) (corePart i.pcn) 13 i.seq (putStore i m va bytes fwd zero e s x.2))
      retireAll i.pcn (if m.ty = .wb ∧ (!zero) = true ∧ s.isNormal m.pa = true ∧ (!e.held) = true then storeReads i e u else u) := by
  have acts : ¬((!mayRun s i) = true ∨ (!sbFree (s.core i.pcn) i.seq) = true ∨ bytes.length = 0) := by
    rw [may, place]; rintro (h | h | h)
    · cases h
    · cases h
    · exact nonempty (List.length_eq_zero_iff.mp h)
  unfold runStore
  dsimp only
  rw [if_neg acts, reaches.maps]

/-- The store buffer's oldest entry, sound, retired and not yet sent, acts by its type. -/
theorem storeCommit_acts {b : SbEnt} {l : List SbEnt} (on : (s.core p).on = true) (alive : (s.core p).dead = false)
    (sound : (sbCheck p s).1 = false) (oldest : ((sbCheck p s).2.core p).sb = b :: l) (retired : b.retired = true)
    (unsent : b.sent = false) :
    storeCommit p s =
      let t := (sbCheck p s).2
      if b.ty = .dev ∨ t.isNormal b.pa = false then (if (t.core p).dev.isSome then t else commitDev p b t)
      else if b.ty = .wc then commitWc p b t
      else commitWb p b (commitGroup (t.core p) b) t := by
  simp only [storeCommit, on, alive, sound, oldest, retired, unsent, Bool.not_true, Bool.false_eq_true, or_self, if_false]

/-- A load that retired while held makes its updates. -/
theorem shadowRelease_late {e : RobEnt} (late : (s.core p).late.find? (fun e => e.seq == n) = some e) :
    shadowRelease p n s =
      deferredUpdates p e (s.setCore p { s.core p with late := delFirst (fun x => x.seq == n) (s.core p).late }) := by
  simp only [shadowRelease, late]

/-- A load or store out of the shadow is held no more. -/
theorem shadowRelease_held {e : RobEnt} (early : (s.core p).late.find? (fun e => e.seq == n) = none)
    (held : (s.core p).rob.find? (fun e => e.seq == n && e.held) = some e) (lit : inShadow (s.core p) n = false) (runs : s.runs p = true) :
    shadowRelease p n s =
      if e.isStore then e.lines.foldl (fun s ln => (lookLine p ln n false false s).2) (unheldAt p n s)
      else
        let t := deferredUpdates p e (unheldAt p n s)
        if e.done then t else if !(olderOverlap (s.core p) n e.pieces).isEmpty then t else
        match accessCache p n false t with
        | some u => retireAll p u
        | none => s := by
  simp only [shadowRelease, early, held, lit, runs, Bool.not_true, Bool.false_eq_true, or_self, if_false] <;> rfl

end

/-- Settles O18: loads by their type and the stores ahead of them, accesses that fail, and the ends of the store buffer and of
the shadow. -/
theorem loadsAndStores : Obligations.LoadsAndStores := by
  refine ⟨?load, ?failing, ?fetch, ?store, ?commit, ?late, ?held⟩
  case load =>
    intro s s' i va n dst sg m may place reg reaches x e u drained
    have issues : runLoad regRead i va n dst sg false s = issueLoad regRead i m va n dst sg s' := runLoad_maps may place reg reaches.maps
    refine ⟨fun dev ready => finish_of_eq (issues.trans (issueLoad_dev drained dev ready)), fun memory normal free => ?_⟩
    exact ⟨fun older => finish_of_eq (issues.trans (issueLoad_older drained memory normal free older)),
      fun alone wc room => finish_of_eq (issues.trans (issueLoad_wc drained memory normal free alone wc room)),
      fun alone wb t read => finish_of_eq (issues.trans (issueLoad_wb drained memory normal free alone wb read))⟩
  case failing =>
    intro s s' i va v n dst sg head may place reg
    refine ⟨fun up x low fails known stores => ⟨finish_of_eq ?_, ?_⟩, fun sl needs => finish_of_eq ?_⟩
    · exact (runLoad_maps may place reg fails).trans (failOrWait_fail head known stores)
    · rintro rfl; exact faultAt_single known
    · exact (runLoad_maps may place reg needs).trans (failOrWait_ad head)
  case fetch => exact fun s s' i va n dst sg m runs reaches sound => finish_of_eq (runFetch_reads runs reaches sound)
  case store =>
    intro s s' i va bytes fwd m may place nonempty reaches x e u
    refine finish_of_eq ((runStore_reaches may place nonempty reaches).trans ?_)
    simp only [Bool.not_false, Bool.not_eq_true', true_and]; rfl
  case commit =>
    intro s p b l on alive sound oldest retired unsent s'
    have acts := storeCommit_acts on alive sound oldest retired unsent
    refine ⟨fun dev idle => finish_of_eq (acts.trans ?_), fun wc normal => finish_of_eq (acts.trans ?_),
      fun wb normal => finish_of_eq (acts.trans ?_)⟩
    · exact (if_pos (.inl dev)).trans (if_neg (Bool.eq_false_iff.mp idle))
    · exact (if_neg (by rw [wc, normal]; decide)).trans (if_pos wc)
    · exact (if_neg (by rw [wb, normal]; decide)).trans (if_neg (by rw [wb]; decide))
  case late => exact fun s p n e late => finish_of_eq (shadowRelease_late late)
  case held =>
    intro s p n e early held lit runs
    have released := shadowRelease_held early held lit runs
    refine ⟨fun store => finish_of_eq (released.trans (if_pos store)), fun load ended => finish_of_eq (released.trans ?_),
      fun load undone alone t read => finish_of_eq (released.trans ?_)⟩
    · refine (if_neg (Bool.eq_false_iff.mp load)).trans ?_
      rcases ended with done | older
      · exact if_pos done
      · have waits : (!(olderOverlap (s.core p) n e.pieces).isEmpty) = true := by rw [List.isEmpty_eq_false_iff.mpr older]; rfl
        dsimp only
        rw [if_pos waits, ite_self]
    · refine (if_neg (Bool.eq_false_iff.mp load)).trans ((if_neg (Bool.eq_false_iff.mp undone)).trans ?_)
      rw [if_neg (by rw [alone]; decide), read]

/-! ### Fences, cache-block operations and prefetch hints (R88, R105, R138, R211, R215 to R217) -/

section
variable {s s' : State} {i : Ins} {m : Mapped} {va : Word}

/-- A fence with an empty predecessor or successor set orders nothing. -/
theorem runFence_empty {pr sc : BitVec 4} (head : atHead s i = true) (empty : pr = 0 ∨ sc = 0) : runFence i pr sc s = complete i 0 s := by
  unfold runFence
  rw [if_neg (by rw [head]; decide), if_pos empty]

/-- A fence that orders something, as the oldest instruction with the older stores committed. -/
theorem runFence_oldest {pr sc : BitVec 4} (old : Oldest s i) (pred : pr ≠ 0) (succ : sc ≠ 0) :
    runFence i pr sc s =
      if pr.getLsbD 0 && wcPending (s.core i.pcn) then drainAllWc i.pcn s
      else if (pr.getLsbD 2 || pr.getLsbD 3) && (s.core i.pcn).dev.isSome then s
      else if pr.getLsbD 0 || pr.getLsbD 2 then complete i 0 (flushFrom i.pcn (i.seq + 1) s)
      else
        let t := if pr.getLsbD 3 then replayNormal i s else s
        complete i 0 (if pr.getLsbD 1 then replaySnooped i.pcn i.seq t else t) := by
  obtain ⟨head, stores⟩ := old
  unfold runFence
  rw [if_neg (by rw [head]; decide), if_neg (not_or.mpr ⟨pred, succ⟩), if_neg (by rw [stores, Bool.not_true, Bool.and_false]; decide)]

/-- With nothing write-combined and no device access out the fence completes. -/
theorem runFence_completes {pr sc : BitVec 4} (old : Oldest s i) (pred : pr ≠ 0) (succ : sc ≠ 0) (wc : wcPending (s.core i.pcn) = false)
    (dev : (s.core i.pcn).dev.isSome = false) :
    runFence i pr sc s = complete i 0
      (if pr.getLsbD 0 ∨ pr.getLsbD 2 then flushFrom i.pcn (i.seq + 1) s
       else if pr.getLsbD 1 then replaySnooped i.pcn i.seq (if pr.getLsbD 3 then replayNormal i s else s)
       else if pr.getLsbD 3 then replayNormal i s else s) := by
  rw [runFence_oldest old pred succ, if_neg (by rw [wc, Bool.and_false]; decide), if_neg (by rw [dev, Bool.and_false]; decide)]
  simp only [Bool.or_eq_true, apply_ite (complete i 0)]

theorem runFence_drains {pr sc : BitVec 4} (old : Oldest s i) (pred : pr ≠ 0) (succ : sc ≠ 0) (wc : wcPending (s.core i.pcn) = true)
    (w : pr.getLsbD 0 = true) : runFence i pr sc s = drainAllWc i.pcn s := by
  rw [runFence_oldest old pred succ, if_pos (by rw [wc, w]; rfl)]

/-- A Zicbom operation whose line no register works for acts on the core's copies and sends its request. -/
theorem runCbo_sends {op : Nat} {a : Acc'} (old : Oldest s i) (reaches : Reaches s i a va 1 false true (fun _ => decide (a.kind = 2)) m s')
    (drained : wcHolds ((drainLines i.pcn [m.pa / 64] s').core i.pcn) [m.pa / 64] = false)
    (room : cboRoom ((drainLines i.pcn [m.pa / 64] s').core i.pcn) (m.pa / 64) = true) :
    runCbo i va op a s = cboSend i (m.pa / 64) op (cboLocal i (m.pa / 64) m.ty op (drainLines i.pcn [m.pa / 64] s')) := by
  obtain ⟨head, stores⟩ := old
  simp only [runCbo, head, stores, reaches.maps, drained, room, Bool.not_true, Bool.false_eq_true, or_self, if_false]

/-- cbo.inval is cbo.flush at U and K, and keeps its own operation at H and M. -/
theorem inval_low {c : Core} (low : c.lvl = .u ∨ c.lvl = .k) : inval c = (0x0D, accCbo) := by
  have notHigh : ¬(c.lvl = .h ∨ c.lvl = .m) := by rcases low with h | h <;> rw [h] <;> decide
  exact if_neg notHigh

theorem inval_high {c : Core} (high : c.lvl = .h ∨ c.lvl = .m) : inval c = (0x0E, accStore) := if_pos high

theorem runPrefetch_passes {kind : Nat} (may : mayRun s i = true) : runPrefetch i va kind s = passOn i id 0 (hintOf i va kind s) :=
  if_neg (by rw [may]; decide)

end

/-- Settles O20: the fence by what is outstanding, cbo.inval by the level, cbo.zero as a store of 64 zero bytes. -/
theorem fencesAndCacheBlocks : Obligations.FencesAndCacheBlocks := by
  refine ⟨fun s i pr sc head empty => finish_of_eq (runFence_empty head empty), ?fence, ?fenceI, ?zicbom, ?cboInval, ?cboZero, ?hint⟩
  case fence =>
    exact fun s i pr sc old pred succ => ⟨fun wc dev => finish_of_eq (runFence_completes old pred succ wc dev),
      fun wc w => finish_of_eq (runFence_drains old pred succ wc w)⟩
  case fenceI =>
    rintro s i ⟨head, stores⟩ wc
    refine finish_of_eq ?_
    simp only [head, stores, wc, Bool.not_true, Bool.false_eq_true, or_self, if_false]
  case zicbom =>
    intro s s' i va m old reaches u drained room
    refine ⟨finish_of_eq (runCbo_sends old reaches drained room), finish_of_eq (runCbo_sends old reaches drained room),
      fun low => finish_of_eq ?_⟩
    rw [inval_low low]
    exact runCbo_sends old reaches drained room
  case cboInval =>
    intro s s' i va m old high reaches u drained room
    refine finish_of_eq ?_
    rw [inval_high high]
    exact runCbo_sends old reaches drained room
  case cboZero =>
    intro s s' i va m may place a z reaches x e
    refine finish_of_eq ((runStore_reaches may place (by decide) reaches).trans ?_)
    simp only [Bool.not_true, Bool.false_eq_true, false_and, and_false, if_false]; rfl
  case hint => exact fun s i va kind may => finish_of_eq (runPrefetch_passes may)

end Sys2Proof.Machine

/-! ## Traps and returns, TLB and fast-bank instructions, broadcasts, and claims (family 04_privileged_architecture) -/
namespace Sys2Proof.Machine

/-! ### Trap entry (R113, R121, R122) -/

section
variable {c d : Core} {s : State} {t : Lvl} {p q n : Nat}

theorem flushFrom_core (p n : Nat) (s : State) : ∃ rob rs sn sb mrs,
    (flushFrom p n s).core p = { s.core p with rob := rob, rs := rs, spoorNext := sn, sb := sb, mrs := mrs } :=
  ⟨_, _, _, _, _, core_modCore_same s p _⟩

theorem flushFrom_core_other (h : q ≠ p) : (flushFrom p n s).core q = s.core q := core_modCore_other s p q _ h

/-- A change of level can flush predictions and nothing else. -/
theorem levelChanged_cases (p : Nat) (old : Lvl) (s : State) : levelChanged p old s = s ∨ levelChanged p old s = predFlush p s := by
  unfold levelChanged
  split
  · exact .inr rfl
  · exact .inl rfl

theorem levelChanged_core (p : Nat) (old : Lvl) (s : State) : ∃ pr, (levelChanged p old s).core p = { s.core p with pred := pr } := by
  obtain h | h := levelChanged_cases p old s <;> rw [h]
  · exact ⟨_, rfl⟩
  · exact ⟨_, core_modCore_same s p _⟩

theorem levelChanged_core_other {old : Lvl} (h : q ≠ p) : (levelChanged p old s).core q = s.core q := by
  obtain e | e := levelChanged_cases p old s <;> rw [e]
  exact core_modCore_other s p q _ h

theorem levelChanged_mem (p : Nat) (old : Lvl) (s : State) : (levelChanged p old s).mem = s.mem := by
  obtain e | e := levelChanged_cases p old s <;> rw [e]
  exact State.modCore_mem s p _

theorem levelChanged_ocr (p : Nat) (old : Lvl) (s : State) : (levelChanged p old s).ocr = s.ocr := by
  obtain e | e := levelChanged_cases p old s <;> rw [e]
  exact State.modCore_ocr s p _

/-- A read of a system register rests on the system registers alone. -/
theorem csr'_congr (h : d.csr = c.csr) (n : Nat) : d.csr' n = c.csr' n := by unfold Core.csr'; rw [h]
theorem csrF_congr (h : d.csr = c.csr) (n hi lo : Nat) : d.csrF n hi lo = c.csrF n hi lo := by unfold Core.csrF; rw [csr'_congr h]

theorem csrF_lt (c : Core) (n hi lo : Nat) : c.csrF n hi lo < 2 ^ (hi + 1 - lo) := Nat.mod_lt _ (Nat.two_pow_pos _)

theorem lvl_num_lt (l : Lvl) : l.num < 4 := by cases l <;> decide

theorem csrBase_ne_hbank (l : Lvl) : csrBase l ≠ HBANK := by cases l <;> decide
theorem csrBase_lt (l : Lvl) : csrBase l < 0x7C1 := by cases l <;> decide

/-- No system register of a level's trap is the bank's owner: 0x6D3 lies past them. -/
theorem hbank_apart (l : Lvl) (k : Nat) (h : k < 16) : HBANK ≠ csrBase l + k := by
  cases l <;> simp only [csrBase, HBANK] <;> omega

/-- The registers that a normal trap to level `t` writes, with the cause as LCAUSE holds it (R122). -/
def normalTrapRegs (c : Core) (t : Lvl) (cause : Nat) (tval pc : Word) : Core :=
  let b := csrBase t
  let saved := ((((c.setCsr (b + 5) pc).setCsrF b 1 1 (c.csrF b 0 0)).setCsrF b 0 0 0).setCsrF b 3 2 c.lvl.num).setCsrF b 6 6 (c.csrF b 5 5)
  ((saved.setCsrF b 5 5 0).setCsr (b + 6) (BitVec.ofNat 64 cause)).setCsr (b + 7) tval

/-- A trap that does not take the bank is a normal one; a fast-bank trap among them has NOBANK in its cause (R121). -/
theorem trapRegs_normal {cause : Nat} {fast : Bool} {tval pc : Word} (held : takesBank c fast = false) :
    trapRegs c t cause fast tval pc = normalTrapRegs c t (cause + if fast then 2 ^ 62 else 0) tval pc := by
  simp only [trapRegs, held, Bool.false_eq_true, if_false, Bool.not_false, Bool.and_true]
  rfl

section
variable (c : Core) (t : Lvl) (cause : Nat) (tval pc : Word)

theorem normalTrapRegs_epc : (normalTrapRegs c t cause tval pc).csr' (csrBase t + 5) = pc := by
  simp (disch := omega) only [normalTrapRegs, csr'_setCsr_other, csr'_setCsrF_other, csr'_setCsr_same]

theorem normalTrapRegs_cause : (normalTrapRegs c t cause tval pc).csr' (csrBase t + 6) = BitVec.ofNat 64 cause := by
  simp (disch := omega) only [normalTrapRegs, csr'_setCsr_other, csr'_setCsr_same]

theorem normalTrapRegs_tval : (normalTrapRegs c t cause tval pc).csr' (csrBase t + 7) = tval := csr'_setCsr_same _ _ _

theorem normalTrapRegs_other (h0 : n ≠ csrBase t) (h5 : n ≠ csrBase t + 5) (h6 : n ≠ csrBase t + 6) (h7 : n ≠ csrBase t + 7) :
    (normalTrapRegs c t cause tval pc).csr' n = c.csr' n := by
  simp only [normalTrapRegs, csr'_setCsr_other _ _ _ _ h7, csr'_setCsr_other _ _ _ _ h6, csr'_setCsrF_other _ _ _ _ _ _ h0,
    csr'_setCsr_other _ _ _ _ h5]

/-- The fields of LSTATUS: PIE, IE, PPL, PFB and FB. -/
theorem normalTrapRegs_status :
    let d := normalTrapRegs c t cause tval pc
    let b := csrBase t
    d.csrF b 1 1 = c.csrF b 0 0 ∧ d.csrF b 0 0 = 0 ∧ d.csrF b 3 2 = c.lvl.num ∧ d.csrF b 6 6 = c.csrF b 5 5 ∧ d.csrF b 5 5 = 0 := by
  have ie := csrF_lt c (csrBase t) 0 0
  have fb := csrF_lt c (csrBase t) 5 5
  have lvl := lvl_num_lt c.lvl
  refine ⟨?_, ?_, ?_, ?_, ?_⟩ <;>
    simp (disch := omega) only [normalTrapRegs, csrF_setCsr_other, csrF_setCsrF_apart, csrF_setCsrF_same, Nat.mod_eq_of_lt]

end

/-- What a normal trap writes rests on the system registers and the level alone. -/
theorem normalTrapRegs_congr (csr : d.csr = c.csr) (lvl : d.lvl = c.lvl) (t : Lvl) (cause : Nat) (tval pc : Word) :
    (normalTrapRegs d t cause tval pc).csr = (normalTrapRegs c t cause tval pc).csr := by
  simp only [normalTrapRegs, Core.setCsrF, Core.csrF, Core.setCsr, Core.csr', csr, lvl]

/-- The core once everything unretired is discarded and the reservation is gone. -/
theorem discard_core (p : Nat) (s : State) :
    let c := s.core p
    let d := (clearResv p (flushFrom p c.next s)).core p
    d.csr = c.csr ∧ d.lvl = c.lvl ∧ d.fast = c.fast ∧ d.x = c.x ∧ d.f = c.f ∧ d.v = c.v := by
  intro c d
  obtain ⟨rob, rs, sn, sb, mrs, flushed⟩ := flushFrom_core p c.next s
  have cleared : d = _ := clearResv_core p (flushFrom p c.next s)
  rw [flushed] at cleared
  rw [cleared]
  exact ⟨rfl, rfl, rfl, rfl, rfl, rfl⟩

theorem normalTrapRegs_regs (c : Core) (t : Lvl) (cause : Nat) (tval pc : Word) :
    let d := normalTrapRegs c t cause tval pc
    d.fast = c.fast ∧ d.x = c.x ∧ d.f = c.f ∧ d.v = c.v := by
  simp only [normalTrapRegs, setCsr_fast, setCsrF_fast, setCsr_x, setCsrF_x, setCsr_f, setCsrF_f, setCsr_v, setCsrF_v, and_self]

/-- The core that enters a trap: the registers saved, the first fetch at the vector, and what is no part of either as it was. -/
theorem enterTrap_core {cause off : Nat} {fast : Bool} {tval pc : Word} (held : takesBank (s.core p) fast = false) :
    let c := s.core p
    let r := normalTrapRegs c t (cause + if fast then 2 ^ 62 else 0) tval pc
    let d := (enterTrap p t cause off fast tval pc s).core p
    d.csr = r.csr ∧ d.lvl = t ∧ d.pc = BitVec.ofNat 64 ((r.csr' (csrBase t + 3)).toNat / 4096 * 4096 + off) ∧
    d.fast = c.fast ∧ d.x = c.x ∧ d.f = c.f ∧ d.v = c.v := by
  intro c r d
  obtain ⟨csr, lvl, fast', x, f, v⟩ := discard_core p s
  obtain ⟨pr, entered⟩ := levelChanged_core p ((clearResv p (flushFrom p (s.core p).next s)).core p).lvl
    ((clearResv p (flushFrom p (s.core p).next s)).setCore p
      (atVector (trapRegs ((clearResv p (flushFrom p (s.core p).next s)).core p) t cause fast tval pc) t off))
  change d = _ at entered
  rw [core_setCore_same] at entered
  generalize (clearResv p (flushFrom p (s.core p).next s)).core p = u at csr lvl fast' x f v entered
  have held' : takesBank u fast = false := by rw [← held]; unfold takesBank Core.owner; rw [csrF_congr csr]
  rw [trapRegs_normal held'] at entered
  have saved := normalTrapRegs_congr csr lvl t (cause + if fast then 2 ^ 62 else 0) tval pc
  obtain ⟨rfast, rx, rf, rv⟩ := normalTrapRegs_regs u t (cause + if fast then 2 ^ 62 else 0) tval pc
  generalize normalTrapRegs u t (cause + if fast then 2 ^ 62 else 0) tval pc = w at entered saved rfast rx rf rv
  rw [entered]
  refine ⟨saved, rfl, ?_, rfast.trans fast', rx.trans x, rf.trans f, rv.trans v⟩
  rw [← csr'_congr saved]
  rfl

/-- Entering a trap leaves the other cores, memory and the registers of the chip as they were. -/
theorem enterTrap_frame (p : Nat) (t : Lvl) (cause off : Nat) (fast : Bool) (tval pc : Word) (s : State) :
    let u := enterTrap p t cause off fast tval pc s
    (∀ q, q ≠ p → u.core q = s.core q) ∧ u.mem = s.mem ∧ u.ocr = s.ocr := by
  refine ⟨fun q h => ?_, ?_, ?_⟩
  · unfold enterTrap
    rw [levelChanged_core_other h, core_setCore_other _ _ _ _ h, clearResv_core_other _ _ _ h, flushFrom_core_other h]
  · unfold enterTrap
    rw [levelChanged_mem, State.setCore_mem, clearResv_mem]; exact State.modCore_mem s p _
  · unfold enterTrap
    rw [levelChanged_ocr, State.setCore_ocr, clearResv_ocr]; exact State.modCore_ocr s p _

end

/-- Settles O16: a normal trap writes the registers of `normalTrapRegs`, each read back by its own lemma. -/
theorem normalTrapEntry : Obligations.NormalTrapEntry := by
  refine ⟨?entry, fun code => rfl, fun s p l k rest first => takeIntr_of_takeable first⟩
  intro s p l cause off fast tval pc _ owned c t d b
  have held : takesBank c fast = false := by
    cases fast with
    | false => rfl
    | true => exact (Bool.true_and _).trans (beq_eq_false_iff_ne.mpr (owned rfl))
  obtain ⟨csr, lvl, dpc, bank, x, f, v⟩ := enterTrap_core (t := l) (cause := cause) (off := off) (tval := tval) (pc := pc) held
  obtain ⟨others, mem, ocr⟩ := enterTrap_frame p l cause off fast tval pc s
  obtain ⟨pie, ie, ppl, pfb, fb⟩ := normalTrapRegs_status c l (cause + if fast then 2 ^ 62 else 0) tval pc
  have kept : ∀ n : Nat, n ≠ b → n ≠ b + 5 → n ≠ b + 6 → n ≠ b + 7 → d.csr' n = c.csr' n := fun n h0 h5 h6 h7 =>
    (csr'_congr csr n).trans (normalTrapRegs_other c l _ tval pc h0 h5 h6 h7)
  have owner : d.owner = c.owner := by
    unfold Core.owner Core.csrF
    rw [kept HBANK (hbank_apart l 0 (by decide)) (hbank_apart l 5 (by decide)) (hbank_apart l 6 (by decide)) (hbank_apart l 7 (by decide))]
  rw [normalTrapRegs_other c l _ tval pc (by omega) (by omega) (by omega) (by omega)] at dpc
  exact ⟨(csr'_congr csr _).trans (normalTrapRegs_epc ..), (csrF_congr csr ..).trans pie, (csrF_congr csr ..).trans ie,
    (csrF_congr csr ..).trans ppl, (csrF_congr csr ..).trans pfb, (csrF_congr csr ..).trans fb,
    (csr'_congr csr _).trans (normalTrapRegs_cause ..), (csr'_congr csr _).trans (normalTrapRegs_tval ..), lvl, dpc, bank, owner, x, f, v,
    kept, others, mem, ocr⟩

/-! ### TRET (R123, R160) -/

section
variable {c : Core} {s : State} {i : Ins} {n : Nat}

theorem tretFast_iff (c : Core) : tretFast c = true ↔ c.csrF (csrBase c.lvl) 5 5 = 1 := beq_iff_eq

/-- A return from a fast-bank trap restores IE and gives the bank up. -/
theorem tretRegs_of_bank (bank : tretFast c = true) :
    (tretRegs c).csrF (csrBase c.lvl) 0 0 = c.csrF (csrBase c.lvl) 7 7 ∧ (tretRegs c).csrF (csrBase c.lvl) 5 5 = 0 ∧ (tretRegs c).owner = 0 := by
  have fpie := csrF_lt c (csrBase c.lvl) 7 7
  have apart := csrBase_ne_hbank c.lvl
  unfold tretRegs Core.owner
  rw [if_pos bank]
  refine ⟨?_, ?_, ?_⟩ <;>
    simp (disch := omega) only [csrF_setCsrF_other, csrF_setCsrF_apart, csrF_setCsrF_same, Nat.mod_eq_of_lt]

/-- A return from a normal trap restores IE, and FB where this level holds the bank. -/
theorem tretRegs_of_normal (normal : ¬tretFast c = true) :
    (tretRegs c).csrF (csrBase c.lvl) 0 0 = c.csrF (csrBase c.lvl) 1 1 ∧
    (tretRegs c).csrF (csrBase c.lvl) 5 5 = (if c.owner = c.lvl.num then c.csrF (csrBase c.lvl) 6 6 else 0) ∧
    (tretRegs c).csr' HBANK = c.csr' HBANK := by
  have pie := csrF_lt c (csrBase c.lvl) 1 1
  have pfb : (if c.owner = c.lvl.num then c.csrF (csrBase c.lvl) 6 6 else 0) < 2 := by
    split
    · exact csrF_lt c _ 6 6
    · decide
  have apart := (csrBase_ne_hbank c.lvl).symm
  unfold tretRegs
  rw [if_neg normal]
  refine ⟨?_, ?_, ?_⟩
  · simp (disch := omega) only [csrF_setCsrF_apart, csrF_setCsrF_same, Nat.mod_eq_of_lt]
  · rw [csrF_setCsrF_same _ _ _ _ _ (by decide) (by decide)]; exact Nat.mod_eq_of_lt pfb
  · rw [csr'_setCsrF_other _ _ _ _ _ _ apart, csr'_setCsrF_other _ _ _ _ _ _ apart]

/-- TRET writes LSTATUS and HBANK alone. -/
theorem tretRegs_other (status : n ≠ csrBase c.lvl) (bank : n ≠ HBANK) : (tretRegs c).csr' n = c.csr' n := by
  unfold tretRegs
  split <;> simp only [csr'_setCsrF_other _ _ _ _ _ _ status, csr'_setCsrF_other _ _ _ _ _ _ bank]

/-- The state that TRET leaves. -/
def tretState (i : Ins) (s : State) : State :=
  levelChanged i.pcn (s.core i.pcn).lvl
    ((complete i 0 (flushFrom i.pcn (i.seq + 1) (clearResv i.pcn s))).modCore i.pcn (fun x =>
      { x with csr := smSet csrReset (tretRegs (s.core i.pcn)).csr 0xC02 (x.csr' 0xC02), lvl := tretLvl (s.core i.pcn),
               pc := tretPc (s.core i.pcn) }))

/-- Once everything younger is discarded, TRET completes and nothing retires behind it. -/
theorem complete_flushed (i : Ins) (kind : Nat) (s : State) :
    let u := flushFrom i.pcn (i.seq + 1) s
    SpoorOnly (Core.retired false (robOf i (u.core i.pcn).lvl 0 0) (u.core i.pcn)) ((complete i kind u).core i.pcn) ∧
    (∀ q, q ≠ i.pcn → (complete i kind u).core q = u.core q) ∧ (complete i kind u).mem = u.mem := by
  intro u
  refine complete_core i kind u fun e listed => ?_
  have older : (u.core i.pcn).rob = (s.core i.pcn).rob.filter (fun e => decide (e.seq < i.seq + 1)) := by
    rw [show u.core i.pcn = _ from core_modCore_same s i.pcn _]
  rw [older, List.mem_filter, decide_eq_true_eq] at listed
  omega

theorem tretState_core (i : Ins) (s : State) :
    let c := s.core i.pcn
    let d := (tretState i s).core i.pcn
    (∃ w, d.csr = ((tretRegs c).setCsr 0xC02 w).csr) ∧ d.lvl = tretLvl c ∧ d.pc = tretPc c ∧ d.resv = none ∧ d.next = i.seq + 1 ∧
    d.x = c.x ∧ d.fast = c.fast ∧ d.f = c.f ∧ d.v = c.v := by
  intro c d
  obtain ⟨rob, rs, sn, sb, mrs, flushed⟩ := flushFrom_core i.pcn (i.seq + 1) (clearResv i.pcn s)
  rw [clearResv_core] at flushed
  obtain ⟨⟨_, _, _, _, _, done⟩, -, -⟩ := complete_flushed i 0 (clearResv i.pcn s)
  rw [flushed] at done
  obtain ⟨pr, here⟩ := levelChanged_core i.pcn c.lvl ((complete i 0 (flushFrom i.pcn (i.seq + 1) (clearResv i.pcn s))).modCore i.pcn
    (fun x => { x with csr := smSet csrReset (tretRegs c).csr 0xC02 (x.csr' 0xC02), lvl := tretLvl c, pc := tretPc c }))
  have left : d = _ := here
  rw [core_modCore_same, done] at left
  rw [left]
  exact ⟨⟨_, rfl⟩, rfl, rfl, rfl, rfl, rfl, rfl, rfl, rfl⟩

theorem tretState_frame (i : Ins) (s : State) :
    (∀ q, q ≠ i.pcn → (tretState i s).core q = s.core q) ∧ (tretState i s).mem = s.mem := by
  obtain ⟨-, others, mem⟩ := complete_flushed i 0 (clearResv i.pcn s)
  refine ⟨fun q h => ?_, ?_⟩
  · unfold tretState
    rw [levelChanged_core_other h, core_modCore_other _ _ _ _ h, others q h, flushFrom_core_other h, clearResv_core_other _ _ _ h]
  · unfold tretState
    rw [levelChanged_mem, State.modCore_mem, mem]; exact (State.modCore_mem _ _ _).trans (clearResv_mem _ _)

end

/-- Settles O17: TRET leaves `tretState`, whose registers are those of `tretRegs` with the instruction counted. -/
theorem tretRestores : Obligations.TretRestores := by
  intro s i head above good
  refine ⟨tretState i s, finish_of_eq ((raermien_defined _ good).trans (runTret_returns head above)), ?_, tretState_frame i s⟩
  intro c d b
  obtain ⟨⟨w, csr⟩, lvl, pc, resv, next, x, fast, f, v⟩ := tretState_core i s
  have reads : ∀ n, n ≠ 0xC02 → d.csr' n = (tretRegs c).csr' n := fun n h => (csr'_congr csr n).trans (csr'_setCsr_other _ _ _ _ h)
  have status : ∀ hi lo, d.csrF b hi lo = (tretRegs c).csrF b hi lo := fun hi lo => by
    have counted : b ≠ 0xC02 := by have := csrBase_lt c.lvl; omega
    unfold Core.csrF; rw [reads b counted]
  have bank : d.csr' HBANK = (tretRegs c).csr' HBANK := reads HBANK (by decide)
  refine ⟨fun fb => ?_, fun fb => ?_, resv, next, x, fast, f, v, fun n h0 h1 h2 => (reads n h2).trans (tretRegs_other h0 h1)⟩
  · have fromBank : tretFast c = true := (tretFast_iff c).mpr fb
    obtain ⟨ie, fb', owner⟩ := tretRegs_of_bank fromBank
    refine ⟨?_, ?_, (status 0 0).trans ie, (status 5 5).trans fb', ?_⟩
    · rw [pc, tretPc, if_pos fromBank]
    · rw [lvl, tretLvl, if_pos fromBank]
    · rw [← owner]; unfold Core.owner Core.csrF; rw [bank]
  · have fromNormal : ¬tretFast c = true := fun h => fb ((tretFast_iff c).mp h)
    obtain ⟨ie, fb', kept⟩ := tretRegs_of_normal fromNormal
    refine ⟨?_, ?_, (status 0 0).trans ie, (status 5 5).trans fb', bank.trans kept⟩
    · rw [pc, tretPc, if_neg fromNormal]
    · rw [lvl, tretLvl, if_neg fromNormal]

/-! ### TLB instructions, the fast bank, ATOMCTL and BOOTWALK (R125 to R130, R157, R173, R175, R194, R201) -/

section
variable {s : State} {i : Ins} {rd n : Nat} {v w : Word} {sl : Option Word}

/-- The guard that every Raermien instruction starts with lets the oldest pass. -/
theorem Oldest.acts (old : Oldest s i) : ¬((!atHead s i) = true ∨ (!sbEmpty (s.core i.pcn) i.seq) = true) := by
  obtain ⟨head, stores⟩ := old
  rw [head, stores]; decide

/-- At the head, an instruction whose own meaning is ILLEGAL is so in every word. -/
theorem raermien_illegal_either {k : State → State} (head : atHead s i = true) (no : k s = illegal i s) : raermien i k s = illegal i s := by
  cases bad : raermienBad i.bits with
  | true => exact raermien_illegal k head bad
  | false => exact (raermien_defined k bad).trans no

theorem runTlbw_user (old : Oldest s i) (user : (s.core i.pcn).lvl = .u) : runTlbw i sl rd s = illegal i s := by
  unfold runTlbw
  rw [if_neg old.acts, if_pos user]

theorem runTlbr_user (old : Oldest s i) (user : (s.core i.pcn).lvl = .u) : runTlbr i w rd s = illegal i s := by
  unfold runTlbr
  rw [if_neg old.acts, if_pos user]

theorem runTlbp_user (old : Oldest s i) (user : (s.core i.pcn).lvl = .u) : runTlbp i v w rd s = illegal i s := by
  unfold runTlbp
  rw [if_neg old.acts, if_pos user]

/-- What TLBP returns for an address in a context of LID and ASID: the slot that matches, or all ones (R128). -/
def probeValue (c : Core) (ctx : Nat × Nat) (va : Word) : Word :=
  match c.tlbFind false ctx.1 ctx.2 va.toNat with
  | some n => BitVec.ofNat 64 n
  | none => BitVec.allOnes 64

section
variable (old : Oldest s i) (above : (s.core i.pcn).lvl ≠ .u)
include old above

/-- TLBW without an operand writes the slot that the hardware chooses. -/
theorem runTlbw_chosen (ok : tlbwOk (s.core i.pcn) (staged (s.core i.pcn)) = true) (valid : (staged (s.core i.pcn)).v = true) :
    runTlbw i none rd s =
      let k := chooseSlot (s.core i.pcn) (staged (s.core i.pcn))
      completeX i rd (BitVec.ofNat 64 k.1) 0 (eccWrite (coreStop i.pcn) (corePart i.pcn) 10 k.1
        ((bump i.pcn 70 1 (pNow s i.pcn) s).modCore i.pcn (fun c => { k.2.setTlb k.1 (staged (s.core i.pcn)) with csr := c.csr }))) := by
  unfold runTlbw
  simp only [if_neg old.acts, if_neg above, ok, valid, Option.isSome_none, Bool.not_true, Bool.false_eq_true, if_false]

/-- TLBW of a named slot of the entry's set writes it, or clears it where V is 0; what is younger is refetched. -/
theorem runTlbw_named (ok : tlbwOk (s.core i.pcn) (staged (s.core i.pcn)) = true)
    (set : fld w 8 0 / 8 = tlbSet (bankOf (staged (s.core i.pcn)).size) (staged (s.core i.pcn)).va (staged (s.core i.pcn)).lid) :
    runTlbw i (some w) rd s =
      let e := staged (s.core i.pcn)
      let k := bankOf e.size * 512 + fld w 8 0
      let f := flushFrom i.pcn (i.seq + 1) s
      completeX i rd (BitVec.ofNat 64 k) 0 (eccWrite (coreStop i.pcn) (corePart i.pcn) 10 k
        ((bump i.pcn 70 1 (pNow f i.pcn) f).modCore i.pcn (fun c => c.setTlb k (if e.v then e else {})))) := by
  unfold runTlbw
  simp only [if_neg old.acts, if_neg above, ok, set, Option.isSome_some, Bool.not_true, Bool.false_eq_true, if_false, if_true, ne_eq,
    not_true_eq_false]

/-- TLBW of an entry that fails R175 counts and returns all ones. -/
theorem runTlbw_fails (bad : tlbwOk (s.core i.pcn) (staged (s.core i.pcn)) = false) :
    runTlbw i sl rd s =
      let f := if sl.isSome then flushFrom i.pcn (i.seq + 1) s else s
      let u := bump i.pcn 70 1 (pNow f i.pcn) f
      completeX i rd (BitVec.allOnes 64) 0 (bump i.pcn 71 1 (pNow u i.pcn) u) := by
  unfold runTlbw
  simp only [if_neg old.acts, if_neg above, bad, Bool.not_false, if_true]

/-- TLBR beyond the last bank returns all ones; of an entry that is valid and the hart's it stages the entry, else an empty one. -/
theorem runTlbr_eq : runTlbr i w rd s =
    let c := s.core i.pcn
    if 6 ≤ fld w 11 0 / 512 then completeX i rd (BitVec.allOnes 64) 0 s
    else if ((c.tlbAt (fld w 11 0)).v && (c.lvl != .k || (c.tlbAt (fld w 11 0)).lid == c.csrF HLID 8 0)) = true then
      completeX i rd 1 0 (s.setCore i.pcn (unstage c (c.tlbAt (fld w 11 0))))
    else completeX i rd 0 0 (s.setCore i.pcn (unstage c {})) := by
  unfold runTlbr
  rw [if_neg old.acts, if_neg above]

/-- TLBP at K looks in the hart's own context, above it in the one that its operand names. -/
theorem runTlbp_in {x : Nat × Nat} (which : (if (s.core i.pcn).lvl = .k then ((s.core i.pcn).csrF HLID 8 0, (s.core i.pcn).csrF KASID 15 0)
    else (fld w 24 16, fld w 15 0)) = x) : runTlbp i v w rd s = completeX i rd (probeValue (s.core i.pcn) x v) 0 s := by
  subst which
  unfold runTlbp
  rw [if_neg old.acts, if_neg above]
  rfl

end

/-- FBR and FBW at H and M act on x10 to x17, at the port of their cluster. -/
theorem fastRow_acts {k : State → State} (old : Oldest s i) (level : 2 ≤ (s.core i.pcn).lvl.num) (least : 10 ≤ n) (most : n ≤ 17) :
    fastRow i n k s = k (issue i.pcn (if fastCluster i (s.core i.pcn) = .b then 4 else 0) s) := by
  unfold fastRow
  have may : ¬((s.core i.pcn).lvl.num < 2 ∨ n < 10 ∨ 17 < n) := by omega
  rw [if_neg old.acts, if_neg may]

theorem fastRow_illegal {k : State → State} (old : Oldest s i) (no : (s.core i.pcn).lvl.num < 2 ∨ n < 10 ∨ 17 < n) :
    fastRow i n k s = illegal i s := by
  unfold fastRow
  rw [if_neg old.acts, if_pos no]

/-- A permitted serialising write of a system register takes effect, and what is younger is refetched. -/
theorem csrRow_acts {min : Nat} {k : State → State} (old : Oldest s i) (level : min ≤ (s.core i.pcn).lvl.num)
    (may : csrPermitted (s.core i.pcn) n true = true) :
    csrRow i n min k s = complete i 0 (flushFrom i.pcn (i.seq + 1) (k (issue i.pcn 0 (bump i.pcn 19 1 (pNow s i.pcn) s)))) := by
  unfold csrRow
  have allowed : ¬((s.core i.pcn).lvl.num < min ∨ (!csrPermitted (s.core i.pcn) n true) = true) := by
    rw [may]; simp only [Bool.not_true, Bool.false_eq_true, or_false]; omega
  rw [if_neg old.acts, if_neg allowed]

theorem csrRow_illegal {min : Nat} {k : State → State} (old : Oldest s i) (low : (s.core i.pcn).lvl.num < min) :
    csrRow i n min k s = illegal i s := by
  unfold csrRow
  rw [if_neg old.acts, if_pos (.inl low)]

end

/-- Settles O21, row by row: each is the branch of its instruction's meaning for the level, the staged entry and the operands. -/
theorem tlbAndBankInstructions : Obligations.TlbAndBankInstructions := by
  refine ⟨?user, ?tlbw, ?tlbr, ?tlbp, ?bank, ?undefined, ?registers⟩
  case user =>
    intro s i sl rd x y old user
    exact ⟨finish_of_eq (raermien_illegal_either old.1 (runTlbw_user old user)),
      finish_of_eq (raermien_illegal_either old.1 (runTlbr_user old user)),
      finish_of_eq (raermien_illegal_either old.1 (runTlbp_user old user))⟩
  case tlbw =>
    intro s i rd old above good p e u n
    exact ⟨fun ok valid => finish_of_eq ((raermien_defined _ good).trans (runTlbw_chosen old above ok valid)),
      fun w ok set => finish_of_eq ((raermien_defined _ good).trans (runTlbw_named old above ok set)),
      fun sl bad => finish_of_eq ((raermien_defined _ good).trans (runTlbw_fails old above bad))⟩
  case tlbr =>
    intro s i w rd old above good c n
    have reads := (raermien_defined (runTlbr i w rd) good).trans (runTlbr_eq old above)
    exact ⟨fun beyond => finish_of_eq (reads.trans (if_pos beyond)),
      fun inside own => finish_of_eq (reads.trans ((if_neg (Nat.not_le.mpr inside)).trans (if_pos own))),
      fun inside other => finish_of_eq (reads.trans ((if_neg (Nat.not_le.mpr inside)).trans (if_neg (Bool.eq_false_iff.mp other))))⟩
  case tlbp =>
    intro s i va ctx rd old good
    refine ⟨fun k => finish_of_eq ?_, fun high => finish_of_eq ?_⟩
    · have above : (s.core i.pcn).lvl ≠ .u := by rw [k]; decide
      refine (raermien_defined _ good).trans ((runTlbp_in old above (if_pos k)).trans (congrArg (fun v => completeX i rd v 0 s) ?_))
      rfl
    · have above : (s.core i.pcn).lvl ≠ .u := by rcases high with h | h <;> rw [h] <;> decide
      have notK : (s.core i.pcn).lvl ≠ .k := by rcases high with h | h <;> rw [h] <;> decide
      refine (raermien_defined _ good).trans ((runTlbp_in old above (if_neg notK)).trans (congrArg (fun v => completeX i rd v 0 s) ?_))
      rfl
  case bank =>
    intro s i n rd v old
    refine ⟨fun level least most good => ⟨finish_of_eq ?_, finish_of_eq ?_⟩, fun no => ⟨finish_of_eq ?_, finish_of_eq ?_⟩⟩
    · exact (raermien_defined _ good).trans (fastRow_acts old level least most)
    · exact (raermien_defined _ good).trans (fastRow_acts old level least most)
    · exact raermien_illegal_either old.1 (fastRow_illegal old no)
    · exact raermien_illegal_either old.1 (fastRow_illegal old no)
  case undefined =>
    intro s i sl x y n rd head bad
    exact ⟨finish_of_eq (raermien_illegal _ head bad), finish_of_eq (raermien_illegal _ head bad), finish_of_eq (raermien_illegal _ head bad),
      finish_of_eq (raermien_illegal _ head bad), finish_of_eq (raermien_illegal _ head bad)⟩
  case registers =>
    intro s i v old u
    refine ⟨fun level may clear => finish_of_eq ((csrRow_acts old level may).trans ?_),
      fun level may => finish_of_eq (csrRow_acts old level may),
      fun low => finish_of_eq (csrRow_illegal old low), fun low => finish_of_eq (csrRow_illegal old low)⟩
    dsimp only
    rw [if_pos clear]

/-! ### Broadcasts, A/D updates and the boot walker (R129, R184, R185, R189, R190, R193, R198, R200) -/

section
variable {s : State} {i : Ins} {p : Nat}

section
variable {min kind lid asid va size rd : Nat}

/-- A broadcast of a defined kind at a level that may issue it starts; EXTINV.RANGE also wants a size of 12 to 46. -/
theorem issueBcast_starts (old : Oldest s i) (level : min ≤ (s.core i.pcn).lvl.num) (sized : kind = 5 → 12 ≤ size ∧ size ≤ 46) :
    issueBcast i min kind lid asid va size rd s = startBcast i kind lid asid va size rd s := by
  unfold issueBcast
  have may : ¬((s.core i.pcn).lvl.num < min ∨ (kind = 5 ∧ (size < 12 ∨ 46 < size))) := by
    rintro (low | ⟨range, out⟩)
    · omega
    · have := sized range; omega
  rw [if_neg old.acts, if_neg may]

theorem issueBcast_illegal (old : Oldest s i) (no : (s.core i.pcn).lvl.num < min ∨ (kind = 5 ∧ (size < 12 ∨ 46 < size))) :
    issueBcast i min kind lid asid va size rd s = illegal i s := by
  unfold issueBcast
  rw [if_neg old.acts, if_pos no]

end

section
variable {b : Bcast} {agent id : Nat}

/-- An acknowledgement that was sent is counted; the last one ends the broadcast. -/
theorem bcastAck_of_sent (found : s.fab.hub.bcasts.find? (fun b => b.id == id) = some b) (sent : b.acked.contains agent = true) :
    bcastAck agent id s =
      let c := { b with waits := b.waits.filter (· != agent), acked := b.acked.filter (· != agent), lost := b.lost + 0 }
      if c.waits.isEmpty && c.acked.isEmpty then bcastDone c (setBcast c s) else setBcast c s := by
  simp only [bcastAck, countAck, found, if_pos sent]
  rfl

/-- At the close of the window the agent is declared dead; the broadcast ends if none is left to wait for. -/
theorem bcastAckTimeout_of_waits {c : Bcast} (found : s.fab.hub.bcasts.find? (fun b => b.id == id) = some b) (admitted : b.admitted = true)
    (waits : (b.waits.contains agent || b.acked.contains agent) = true)
    (left : (hubDeclare agent (s.toTick (b.since + meshTicks s (2 ^ b.tmo)))).fab.hub.bcasts.find? (fun b => b.id == id) = some c) :
    bcastAckTimeout agent id s =
      let u := hubDeclare agent (s.toTick (b.since + meshTicks s (2 ^ b.tmo)))
      if c.waits.isEmpty && c.acked.isEmpty then bcastDone c u else u := by
  simp only [bcastAckTimeout, found, admitted, waits, left, Bool.and_self, if_true]

end

section
variable {a : AdPend} {pa : Nat} (unsent : a.sent = false) (runs : s.runs p = true) (oldest : a.seq = (s.core p).next)
include unsent runs oldest

/-- The A/D update of the oldest instruction, not yet sent, has its turn. -/
theorem adUpdate_turn : ¬(a.sent = true ∨ (!s.runs p) = true ∨ a.seq ≠ (s.core p).next) := by
  rw [unsent, runs, oldest]
  simp only [Bool.false_eq_true, Bool.not_true, ne_eq, not_true_eq_false, or_self, not_false_eq_true]

variable (pending : (s.core p).ad = some a)
include pending

/-- An A/D update whose entry is gone is given up. -/
theorem runAdUpdate_gone (gone : ((s.core p).tlbAt a.slot).v = false) : runAdUpdate p s = s.setCore p { s.core p with ad := none } := by
  simp only [runAdUpdate, pending, if_neg (adUpdate_turn unsent runs oldest), gone, Bool.not_false, if_true]

variable (valid : ((s.core p).tlbAt a.slot).v = true)
include valid

/-- No extent allows the write. -/
theorem runAdUpdate_forbidden (target : (adTarget p ((s.core p).tlbAt a.slot) s).1 = some none) :
    runAdUpdate p s = takeTrap p 0x16 a.va (some ((s.core p).tlbAt a.slot).addr) a.pc (adTarget p ((s.core p).tlbAt a.slot) s).2 := by
  simp only [runAdUpdate, pending, if_neg (adUpdate_turn unsent runs oldest), valid, target, Bool.not_true, Bool.false_eq_true,
    if_false]

/-- The word lies at an address of the chip: at one that is no memory, or out of reach, the update traps; else it is sent once a
register is free. -/
theorem runAdUpdate_at (target : (adTarget p ((s.core p).tlbAt a.slot) s).1 = some (some pa)) :
    runAdUpdate p s =
      let t := (adTarget p ((s.core p).tlbAt a.slot) s).2
      if (!t.isNormal pa) = true ∨ unreachable t (s.core p).lvl pa = true then takeTrap p 0x12 (BitVec.ofNat 64 pa) none a.pc t
      else if (!l2Free (t.core p) false) = true then t
      else adSend p pa a ((s.core p).tlbAt a.slot) t := by
  simp only [runAdUpdate, pending, if_neg (adUpdate_turn unsent runs oldest), valid, target, Bool.not_true, Bool.false_eq_true,
    if_false]

end

/-- The boot walker's turn: the oldest instruction at M missed on an address that can be walked. -/
theorem walkNeeded_of {va : Word} (old : Oldest s i) (m : (s.core i.pcn).lvl = .m) (on : (s.core i.pcn).csrF BOOTWALK 0 0 = 1)
    (missed : ((s.core i.pcn).tlbFind true 0 0 (va.toNat % 2 ^ 48)).isSome = false)
    (canonical : va.toNat < 2 ^ 47 ∨ 2 ^ 64 - 2 ^ 47 ≤ va.toNat) : walkNeeded i va s = true := by
  obtain ⟨head, stores⟩ := old
  rw [Option.isSome_eq_false_iff] at missed
  simp only [walkNeeded, head, stores, m, on, missed, Bool.true_and, beq_self_eq_true, Bool.or_eq_true, decide_eq_true_eq]
  exact canonical

/-- The walk by what it comes to. -/
theorem runBootWalk_of {va : Word} {kind : Nat} (needed : walkNeeded i va s = true) :
    runBootWalk i va kind s =
      let w := walkFrom i.pcn (walkAcc kind) va 4 0 ((s.core i.pcn).csrF BOOTWALK 47 12 * 4096) s
      match w.1 with
      | .leaf e =>
        let k := chooseSlot (w.2.core i.pcn) e
        eccWrite (coreStop i.pcn) (corePart i.pcn) 10 k.1 (w.2.setCore i.pcn (k.2.setTlb k.1 e))
      | .fault code tval => takeTrap i.pcn code tval none i.pc w.2
      | .bad pa => takeMcheck i.pcn 0x1A pa i.pc w.2
      | .wait => w.2 := by
  simp only [runBootWalk, needed, Bool.not_true, Bool.false_eq_true, if_false]
  obtain ⟨r, t⟩ := walkFrom i.pcn (walkAcc kind) va 4 0 ((s.core i.pcn).csrF BOOTWALK 47 12 * 4096) s
  cases r <;> rfl

end

/-- Settles O22: a broadcast starts or is illegal by its level and size; the rows of BCHUB, of A/D updates and of the walker by what
they find. -/
theorem broadcastsAndWalks : Obligations.BroadcastsAndWalks := by
  refine ⟨?kernel, ?high, ?user, ?undefined, ?admission, ?ack, ?timeout, ?adUpdate, ?walk⟩
  case kernel =>
    intro s i a b rd old level good
    exact ⟨finish_of_eq ((raermien_defined _ good).trans (issueBcast_starts old level (by decide))),
      finish_of_eq ((raermien_defined _ good).trans (issueBcast_starts old level (by decide)))⟩
  case high =>
    intro s i a b rd old level good
    refine ⟨finish_of_eq ((raermien_defined _ good).trans (issueBcast_starts old level (by decide))),
      finish_of_eq ((raermien_defined _ good).trans (issueBcast_starts old level (by decide))),
      finish_of_eq ((raermien_defined _ good).trans (issueBcast_starts old level (by decide))),
      fun least most => finish_of_eq ((raermien_defined _ good).trans (issueBcast_starts old level fun _ => ⟨least, most⟩)),
      fun out => finish_of_eq ((raermien_defined _ good).trans (issueBcast_illegal old (.inr ⟨rfl, out⟩)))⟩
  case user =>
    intro s i a b rd old user
    have zero : (s.core i.pcn).lvl.num = 0 := by rw [user]; rfl
    exact ⟨finish_of_eq (raermien_illegal_either old.1 (issueBcast_illegal old (.inl (by omega)))),
      finish_of_eq (raermien_illegal_either old.1 (issueBcast_illegal old (.inl (by omega)))),
      finish_of_eq (raermien_illegal_either old.1 (issueBcast_illegal old (.inl (by omega))))⟩
  case undefined =>
    intro s i a b rd head bad
    exact ⟨finish_of_eq (raermien_illegal _ head bad), finish_of_eq (raermien_illegal _ head bad), finish_of_eq (raermien_illegal _ head bad),
      finish_of_eq (raermien_illegal _ head bad), finish_of_eq (raermien_illegal _ head bad), finish_of_eq (raermien_illegal _ head bad)⟩
  case admission =>
    intro s b room oldest
    refine finish_of_eq ?_
    dsimp only
    rw [oldest]
    exact if_neg (Nat.not_le.mpr room)
  case ack => exact fun s agent id b found sent => finish_of_eq (congrArg lodgeGo (bcastAck_of_sent found sent))
  case timeout =>
    intro s agent id b found admitted waits u
    refine ⟨fun c left done => finish_of_eq (congrArg lodgeGo ?_), fun c left waiting => finish_of_eq (congrArg lodgeGo ?_)⟩
    · exact (bcastAckTimeout_of_waits found admitted waits left).trans (if_pos done)
    · exact (bcastAckTimeout_of_waits found admitted waits left).trans (if_neg (Bool.eq_false_iff.mp waiting))
  case adUpdate =>
    intro s p a pending unsent runs oldest e x
    refine ⟨fun gone => finish_of_eq (runAdUpdate_gone unsent runs oldest pending gone),
      fun valid target => finish_of_eq (runAdUpdate_forbidden unsent runs oldest pending valid target),
      fun pa valid target no => finish_of_eq ((runAdUpdate_at unsent runs oldest pending valid target).trans (if_pos ?_)),
      fun pa valid target normal reach free =>
        finish_of_eq ((runAdUpdate_at unsent runs oldest pending valid target).trans ((if_neg ?_).trans (if_neg ?_)))⟩
    · rwa [Bool.not_eq_true']
    · rw [normal, reach]; decide
    · rw [free]; decide
  case walk =>
    intro s i va kind old m on missed canonical w
    have walks := runBootWalk_of (kind := kind) (walkNeeded_of old m on missed canonical)
    refine ⟨fun e leaf => finish_of_eq (walks.trans ?_), fun code tval fault => finish_of_eq (walks.trans ?_),
      fun pa bad => finish_of_eq (walks.trans ?_), fun waits => finish_of_eq (walks.trans ?_)⟩
    · dsimp only; rw [leaf]
    · dsimp only; rw [fault]
    · dsimp only; rw [bad]
    · dsimp only; rw [waits]

/-! ### CLAIM, CPRI_WRITE and EOI, and the IO.IRQ commands (R389 to R391, R394, R400 to R402) -/

section
variable {s : State} {i : Ins} {p h : Nat} {l : Lvl} {rd : Nat} {v : Word}

/-- A permitted claim of the oldest instruction returns its value, and what is younger executes afresh. -/
theorem runClaim_permitted (head : atHead s i = true) (level : l ≠ .u) (may : csrPermitted (s.core i.pcn) (claimCsr l) false = true) :
    runClaim i l rd s = completeX i rd (BitVec.ofNat 64 (claimValue i.pcn l s).1) 0 (flushFrom i.pcn (i.seq + 1) (claimValue i.pcn l s).2) := by
  have allowed : ¬(l = .u ∨ (!csrPermitted (s.core i.pcn) (claimCsr l) false) = true) := by rw [may]; simp [level]
  unfold runClaim
  rw [if_neg (by rw [head]; decide), if_neg allowed]

theorem runClaim_forbidden (head : atHead s i = true) (no : l = .u ∨ csrPermitted (s.core i.pcn) (claimCsr l) false = false) :
    runClaim i l rd s = illegal i s := by
  unfold runClaim
  rw [if_neg (by rw [head]; decide), if_pos (no.imp_right fun denied => by rw [denied]; rfl)]

/-- The slot of a core's level in the IDIST's port: FAST or EXT. -/
def claimSlot (s : State) (p : Nat) (l : Lvl) (fast : Bool) : Option Delivery :=
  s.idist.slots.find? (fun d => d.pcn == p && d.lvl == l && d.fast == fast)

/-- A full slot is claimed, the FAST one first: its priority is active and the slot is free. -/
theorem claimValue_slot {d : Delivery} (full : claimSlot s p l true = some d ∨ (claimSlot s p l true = none ∧ claimSlot s p l false = some d)) :
    claimValue p l s =
      let u : State := { s with idist := { s.idist with slots := s.idist.slots.erase d } }
      (d.src + d.pri <<< 16 + (b2n d.fast) <<< 20 + 1 <<< 21,
        setBusy d.hart l d.fast false (putCpri p l (setFld ((u.core p).csr' (csrBase l + 0xD)) (7 + d.pri) (7 + d.pri) 1) u)) := by
  unfold claimSlot at full
  obtain fast | ⟨empty, ext⟩ := full
  · simp only [claimValue, fast]
  · simp only [claimValue, empty, ext]

theorem claimValue_empty (fast : claimSlot s p l true = none) (ext : claimSlot s p l false = none) (other : l ≠ .h) :
    claimValue p l s = (0, s) := by
  unfold claimSlot at fast ext
  simp only [claimValue, fast, ext, if_neg other]

/-- At H, with both slots empty, a doorbell is claimed. -/
theorem claimValue_doorbell {d : Nat × Nat} (fast : claimSlot s p .h true = none) (ext : claimSlot s p .h false = none)
    (rung : s.idist.doorbells.find? (fun d => d.1 == p) = some d)
    (hart : mapHart { s with idist := { s.idist with doorbells := s.idist.doorbells.erase d } } p = some h) :
    claimValue p .h s = (d.2 + 2 <<< 21,
      bellTaken d.2 (drainOwed h { s with idist := { s.idist with doorbells := s.idist.doorbells.erase d } })) := by
  unfold claimSlot at fast ext
  simp only [claimValue, fast, ext, if_true, rung, hart]

/-- An EOI ends a source that is active and was delivered to its sender; a level source that is still asserted is pending again. -/
theorem endSource_matching {id lid : Nat} (matching : eoiMatches s h l id lid = true) :
    endSource h l id lid s =
      let x := setSrcF id 33 33 0 s
      let y : State := { x with idist := { x.idist with actLvl := smDel x.idist.actLvl id } }
      if isLevelSrc y id then setSrcF id 32 32 (srcF y id 34 34) y else y := by
  unfold endSource
  rw [if_neg (by rw [matching]; decide)]

/-- Any other EOI is counted. -/
theorem endSource_bad {id lid : Nat} (bad : eoiMatches s h l id lid = false) : endSource h l id lid s = s.incSat .idist Off.EOI_BAD 31 0 := by
  unfold endSource
  rw [if_pos (by rw [bad]; rfl)]

/-- An EOI at K clears its priority's ACTIVE bit and reaches the IDIST from the core's hart. -/
theorem eoiWrite_at_k {u : State}
    (cleared : putCpri p l (if fld v 19 16 = 0 then (s.core p).csr' (csrBase l + 0xD)
      else setFld ((s.core p).csr' (csrBase l + 0xD)) (7 + fld v 19 16) (7 + fld v 19 16) 0) s = u)
    (hart : mapHart u p = some h) (k : (u.core p).lvl = .k) :
    eoiWrite p l v s = endSource h l (fld v 12 0) ((u.core p).csrF HLID 8 0) u := by
  simp only [eoiWrite, cleared, hart, k, if_true]

variable {c : Cmd}

/-- IO.IRQ_SRC_SET writes a source that exists with fields that R400 lets stand. -/
theorem ioIrqSrcSet_eq : ioIrqSrcSet c s =
    let v := BitVec.ofNat 64 (bytesAt c.body 7 4)
    if bytesAt c.body 1 0 ≤ 8191 ∧ srcLegal s (bytesAt c.body 1 0) v = (true, true, true) then
      .done stOk [] (srcWrite (bytesAt c.body 1 0) v s)
    else .fail stBadField s := by
  unfold ioIrqSrcSet
  dsimp only
  by_cases beyond : 8191 < bytesAt c.body 1 0
  · rw [if_pos beyond, if_neg (fun legal => absurd legal.1 (Nat.not_le.mpr beyond))]
  · rw [if_neg beyond]
    obtain ⟨virt, level, trig⟩ := srcLegal s (bytesAt c.body 1 0) (BitVec.ofNat 64 (bytesAt c.body 7 4))
    have inside : bytesAt c.body 1 0 ≤ 8191 := Nat.not_lt.mp beyond
    simp only [inside, true_and]
    cases virt <;> cases level <;> cases trig <;> rfl

end

/-- Settles O43: CLAIM by what the core's slots hold, CPRI_WRITE and EOI as serialising writes, the IO.IRQ commands by their bodies. -/
theorem claimsAndInterruptCommands : Obligations.ClaimsAndInterruptCommands := by
  refine ⟨?claim, ?claimed, ?writes, ?eoi, ?srcSet, ?srcGet, ?tset, ?group⟩
  case claim =>
    exact fun s i l rd head => ⟨fun level may => finish_of_eq (runClaim_permitted head level may),
      fun no => finish_of_eq (runClaim_forbidden head no)⟩
  case claimed =>
    intro s p l slot
    refine ⟨fun d full => claimValue_slot full, fun fast ext other => claimValue_empty fast ext other, ?_⟩
    rintro d h fast ext rfl rung u hart
    exact claimValue_doorbell fast ext rung hart
  case writes =>
    intro s i l v old
    exact ⟨fun level may => finish_of_eq (csrRow_acts old level may), fun level may => finish_of_eq (csrRow_acts old level may),
      fun low => ⟨finish_of_eq (csrRow_illegal old low), finish_of_eq (csrRow_illegal old low)⟩⟩
  case eoi =>
    intro s p h l v pri id w u lid hart k
    have sent := eoiWrite_at_k (s := s) rfl hart k
    exact ⟨fun matching => sent.trans (endSource_matching matching), fun bad => sent.trans (endSource_bad bad)⟩
  case srcSet =>
    intro s ch tag c ready id v legal
    refine ⟨fun ok => belet_answers (body := ioIrqSrcSet) ready ?_, fun no => belet_answers (body := ioIrqSrcSet) ready ?_⟩
    · rw [ioIrqSrcSet_eq]; exact congrArg (finishCmd c) (if_pos ok)
    · rw [ioIrqSrcSet_eq]; exact congrArg (finishCmd c) (if_neg no)
  case srcGet =>
    intro s ch tag c ready
    refine belet_answers (body := ioIrqSrcGet) ready ?_
    unfold ioIrqSrcGet
    exact apply_ite (finishCmd c) _ _ _
  case tset =>
    intro s ch tag c ready n mask u
    refine belet_answers (body := ioIrqTset) ready ?_
    unfold ioIrqTset leasedInst
    dsimp only
    by_cases write : bytesAt c.body 1 1 = 1
    · simp only [write, true_and, if_true, apply_ite (finishCmd c)]; rfl
    · simp only [write, false_and, if_false, apply_ite (finishCmd c)]; rfl
  case group =>
    intro s ch tag c ready g u
    refine belet_answers (body := ioIrqGroup) ready ?_
    unfold ioIrqGroup leasedInst
    dsimp only
    by_cases write : bytesAt c.body 1 1 = 1
    · simp only [write, true_and, if_true, apply_ite (finishCmd c)]; rfl
    · simp only [write, false_and, if_false, apply_ite (finishCmd c)]; rfl

end Sys2Proof.Machine

/-! ## Snoops, replies, atomics and broadcasts at their targets (family 05_memory_ordering_and_atomics) -/
namespace Sys2Proof.Machine

/-! ### Messages that reach a core or a port -/

section
variable {s : State} {m : Msg} {op n : Nat}

/-- A message still under way does not act. -/
theorem arrive_underWay (k : State → State) (way : inTransit s op m = true) : arrive op m k s = s := if_pos way

theorem isPortAgent_of_core {a : Nat} (core : a < 272) : isPortAgent a = false := by
  unfold isPortAgent
  rw [decide_eq_false (by omega), Bool.false_and]

theorem isPortAgent_port (port : n < 9) : isPortAgent (480 + n) = true := by
  unfold isPortAgent
  rw [decide_eq_true (by omega), decide_eq_true (by omega)]; rfl

theorem isCoreAgent_of_core {a : Nat} (core : a < 272) : isCoreAgent a = true := decide_eq_true core

end

/-! ### Snoops (R160, R212, R276, R281, R285, R287, R291) -/

section
variable {s : State} {m : Msg} {op n : Nat}

/-- Every snoop row is the arrival of its operation code. -/
theorem exec_snoopRow {e : Nat × (Msg → Instr)} (row : e ∈ snoopRows) (m : Msg) (s : State) :
    exec (e.2 m) s = finish s (snoopArr e.1 m s) := by
  simp only [snoopRows, List.mem_cons, List.not_mem_nil, or_false] at row
  rcases row with rfl | rfl | rfl | rfl | rfl | rfl <;> rfl

section
variable (here : inTransit s op m = false)
include here

theorem snoopArr_deadCore (core : m.agent < 272) (dead : (s.core m.agent).dead = true) :
    snoopArr op m s = snpReply m false false false false true 0 false (takeNet op m s) := by
  unfold snoopArr
  simp only [arrive_here _ here, isPortAgent_of_core core, isCoreAgent_of_core core, takeNet_core, dead, Bool.not_true,
    Bool.false_eq_true, if_false, if_true]

theorem snoopArr_liveCore (core : m.agent < 272) (alive : (s.core m.agent).dead = false) :
    snoopArr op m s = coreSnoop op m (takeNet op m s) := by
  unfold snoopArr
  simp only [arrive_here _ here, isPortAgent_of_core core, isCoreAgent_of_core core, takeNet_core, alive, Bool.not_true,
    Bool.false_eq_true, if_false]

theorem snoopArr_port (port : n < 9) (agent : m.agent = 480 + n) : snoopArr op m s = portSnoop n m (takeNet op m s) := by
  unfold snoopArr
  simp only [arrive_here _ here, agent, isPortAgent_port port, if_true, Nat.add_sub_cancel_left]

end

/-! What a live core answers: `c` is the core as the snoop finds it. -/

section
variable {c : Core} (found : (snoopAt m.agent m.line s).core m.agent = c)
include found

/-- A snoop of the reserved line waits for the end of the LR window. -/
theorem coreSnoop_deferred (window : c.lrOpen = true) (reserved : c.resv = some m.line) :
    coreSnoop op m s = (snoopAt m.agent m.line s).setCore m.agent { c with deferred := c.deferred ++ [(op, m)] } := by
  subst found
  exact if_pos ⟨window, reserved⟩

variable (answers : ¬(c.lrOpen = true ∧ c.resv = some m.line))
include answers

theorem coreSnoop_l2 {x y : PLine} (held : smFind c.l2 m.line = some x)
    (checked : smFind ((l2Check m.agent m.line (l1dCheck m.agent m.line (snoopAt m.agent m.line s))).core m.agent).l2 m.line = some y) :
    coreSnoop op m s = snpReply m true (snoopSends op y) (snoopSends op y && decide (y.st = .m)) false false y.cur y.poison
      (afterSnoop op m.agent m.line y (sentSnoop m.agent (snoopSends op y)
        (l2Check m.agent m.line (l1dCheck m.agent m.line (snoopAt m.agent m.line s))))) := by
  subst found
  unfold coreSnoop
  simp only [if_neg answers, held, checked]

variable (absent : smFind c.l2 m.line = none)
include absent

theorem coreSnoop_side {x : SideEnt} (held : c.sideAt m.line = some x) :
    coreSnoop op m s = snpReply m true false false false false 0 false
      (if snoopTakes op then dropSide m.agent m.line (snoopAt m.agent m.line s)
       else if op = 0x40 then (snoopAt m.agent m.line s).setCore m.agent
         { c with side := c.side.map (fun z => if z.line = m.line then { z with ex := false } else z) }
       else snoopAt m.agent m.line s) := by
  subst found
  unfold coreSnoop
  simp only [if_neg answers, absent, held]

variable (noSide : c.sideAt m.line = none)
include noSide

theorem coreSnoop_wbb {w : WbEnt} (held : c.wbb.find? (fun z => z.line == m.line) = some w) :
    coreSnoop op m s =
      (let data := w.dirty && decide (op ≠ 0x43)
       let v := sentSnoop m.agent data (snoopAt m.agent m.line s)
       snpReply m true data data true false w.data w.poison (if op = 0x44 ∨ op = 0x45 then v else cleanWbb m.agent m.line v)) := by
  subst found
  have sends : (w.dirty && op != 0x43) = (w.dirty && decide (op ≠ 0x43)) := by rw [decide_not]; rfl
  have dirty : (w.dirty && decide (op ≠ 0x43) && w.dirty) = (w.dirty && decide (op ≠ 0x43)) := by
    cases w.dirty
    · rfl
    · rw [Bool.and_true]
  unfold coreSnoop
  simp only [if_neg answers, absent, noSide, held, sends, dirty]

theorem coreSnoop_absent (noWbb : c.wbb.find? (fun z => z.line == m.line) = none) :
    coreSnoop op m s = snpReply m false false false false false 0 false (snoopAt m.agent m.line s) := by
  subst found
  unfold coreSnoop
  simp only [if_neg answers, absent, noSide, noWbb]

end

/-! What a port answers. -/

theorem portSnoop_dead (dead : (s.port n).dead = true) : portSnoop n m s = snpReply m false false false false true 0 false s := if_pos dead

theorem portSnoop_owned {x : Piece} (alive : (s.port n).dead = false) (owned : x.st = .owned)
    (held : (s.port n).pieces.find? (fun x => x.line == m.line && (x.st == .owned || x.st == .committing)) = some x) :
    portSnoop n m s = portGo n (snpReply m true false false false false 0 false (setPiece n x.id (fun y => { y with st := .givenUp }) s)) := by
  unfold portSnoop
  simp only [alive, held, owned, Bool.false_eq_true, if_false, if_true]

theorem portSnoop_absent (alive : (s.port n).dead = false)
    (absent : (s.port n).pieces.find? (fun x => x.line == m.line && (x.st == .owned || x.st == .committing)) = none) :
    portSnoop n m s = snpReply m false false false false false 0 false s := by
  unfold portSnoop
  simp only [alive, absent, Bool.false_eq_true, if_false]

end

/-- Settles O30: the arrival by what stands at the agent's stop, and the answer of a live core by where it holds the line. -/
theorem snoopsAreAnswered : Obligations.SnoopsAreAnswered := by
  refine ⟨?underWay, ?deadCore, ?core, ?port⟩
  case underWay => exact fun s m e row way => (exec_snoopRow row m s).trans (finish_of_eq (arrive_underWay _ way))
  case deadCore =>
    exact fun s m e row here core dead => (exec_snoopRow row m s).trans (finish_of_eq (snoopArr_deadCore here core dead))
  case core =>
    intro s m c e row here core alive u found
    have arrives := (exec_snoopRow row m s).trans (finish_of_eq (snoopArr_liveCore here core alive))
    refine ⟨fun window reserved => arrives.trans ?_, fun answers => ⟨fun x y held checked => arrives.trans ?_,
      fun x absent held => arrives.trans ?_, fun w absent noSide held => arrives.trans ?_,
      fun absent noSide noWbb => arrives.trans ?_⟩⟩
    · rw [coreSnoop_deferred found window reserved]
    · rw [coreSnoop_l2 found answers held checked]
    · rw [coreSnoop_side found answers absent held]
    · rw [coreSnoop_wbb found answers absent noSide held]
    · rw [coreSnoop_absent found answers absent noSide noWbb]
  case port =>
    intro s m n e row here port agent
    have arrives := (exec_snoopRow row m s).trans (finish_of_eq (snoopArr_port here port agent))
    have same := takeNet_port e.1 m s n
    refine ⟨fun dead => arrives.trans ?_, fun alive => ⟨fun x held owned => arrives.trans ?_, fun absent => arrives.trans ?_⟩⟩
    · rw [portSnoop_dead (same.symm ▸ dead)]
    · rw [portSnoop_owned (same.symm ▸ alive) owned (same.symm ▸ held)]
    · rw [portSnoop_absent (same.symm ▸ alive) (same.symm ▸ absent)]

/-! ### Replies (R150, R153, R213, R214, R240, R275, R280, R282, R283) -/

section
variable {s : State} {m : Msg} {r : MReq} {op n : Nat} {uses : List MUse} {k : MReq → State → State} {port : Nat → State → State}

theorem replyArr_underWay (way : inTransit s op m = true) : replyArr op m uses k port s = s := arrive_underWay _ way

section
variable (here : inTransit s op m = false)
include here

/-- At a live core a reply acts on the miss register that it matches, or takes the coherent domain down. -/
theorem replyArr_liveCore (core : m.agent < 272) (alive : (s.core m.agent).dead = false) :
    replyArr op m uses k port s =
      (mrFor s m uses).elim (driveDown (takeNet op m s)) (fun r => k r (takeNet op m s)) := by
  unfold replyArr coreReply
  simp only [arrive_here _ here, isPortAgent_of_core core, isCoreAgent_of_core core, takeNet_core, takeNet_mrFor, alive,
    Bool.false_eq_true, if_false, if_true]
  cases mrFor s m uses <;> rfl

theorem replyArr_matched (core : m.agent < 272) (alive : (s.core m.agent).dead = false) (found : mrFor s m uses = some r) :
    replyArr op m uses k port s = k r (takeNet op m s) := by
  rw [replyArr_liveCore here core alive, found]; rfl

theorem replyArr_stray (core : m.agent < 272) (alive : (s.core m.agent).dead = false) (none_ : mrFor s m uses = none) :
    replyArr op m uses k port s = driveDown (takeNet op m s) := by
  rw [replyArr_liveCore here core alive, none_]; rfl

theorem replyArr_port (isPort : n < 9) (agent : m.agent = 480 + n) (alive : (s.port n).dead = false) (awaits : portAwaits s n m = true) :
    replyArr op m uses k port s = port n (takeNet op m s) := by
  have awaited := (takeNet_portAwaits op m s n).trans awaits
  unfold replyArr
  simp only [arrive_here _ here, agent, isPortAgent_port isPort, Nat.add_sub_cancel_left, takeNet_port, alive, awaited,
    Bool.false_eq_true, if_false, if_true]

end

/-! DATA with STATE 0 is a header error; every other DATA is a reply. -/

theorem dataArr_legal (legal : m.arg % 4 ≠ 0) :
    dataArr m s = replyArr 0xC0 m fillUses (fun r s => takeFill m r (m.arg % 4) m.data m.poison (ackGrant m s))
      (fun n s => portGrant n m true s) s := if_neg legal

theorem dataArr_underWay (way : inTransit s 0xC0 m = true) : dataArr m s = s := by
  by_cases illegal : m.arg % 4 = 0
  · exact (if_pos illegal).trans (arrive_underWay _ way)
  · rw [dataArr_legal illegal, replyArr_underWay way]

theorem dataArr_stray (here : inTransit s 0xC0 m = false) (core : m.agent < 272) (alive : (s.core m.agent).dead = false)
    (none_ : mrFor s m fillUses = none) : dataArr m s = driveDown (takeNet 0xC0 m s) := by
  by_cases illegal : m.arg % 4 = 0
  · exact (if_pos illegal).trans (arrive_here _ here)
  · rw [dataArr_legal illegal, replyArr_stray here core alive none_]

/-! CMP by what its miss register was used for. -/

theorem cmpCore_wc (use : r.use = .wc) : cmpCore m r s = dropMr m.agent r.txn s := by simp only [cmpCore, use]

theorem cmpCore_spoor (use : r.use = .spoor) : cmpCore m r s = spoorDone m.agent (dropMr m.agent r.txn s) := by simp only [cmpCore, use]

theorem cmpCore_cbo {i : Ins} (use : r.use = .cbo) (stalled : ((dropMr m.agent r.txn s).core m.agent).stall = some i)
    (waits : i.seq ∈ r.waits) :
    cmpCore m r s = complete i 0 ((dropMr m.agent r.txn s).modCore m.agent (fun c => { c with stall := none })) := by
  simp only [cmpCore, use, stalled, List.contains_iff_mem.mpr waits, if_true]

theorem cmpCore_ucWrite {d : DevAcc} (use : r.use = .ucWrite) (access : ((dropMr m.agent r.txn s).core m.agent).dev = some d)
    (write : d.write = true) (waits : r.waits = [d.seq]) :
    cmpCore m r s = if moreUc m.agent r (dropMr m.agent r.txn s) then dropMr m.agent r.txn s
      else devAck m.agent (dropMr m.agent r.txn s) := by
  simp only [cmpCore, use, access, write, waits, true_and]
  cases moreUc m.agent r (dropMr m.agent r.txn s) <;> rfl

/-! EV_ACK at a live core. -/

theorem evAck_awaited (here : inTransit s 0x85 m = false) (core : m.agent < 272) (alive : (s.core m.agent).dead = false)
    (buffered : (s.core m.agent).wbb.any (fun w => w.line == m.line) = true) :
    evAck m s = serveWaiting m.agent (resendMr m.agent m.line ((takeNet 0x85 m s).modCore m.agent
      (fun c => { c with wbb := delFirst (fun w => w.line == m.line) c.wbb }))) := by
  unfold evAck
  simp only [arrive_here _ here, isCoreAgent_of_core core, takeNet_core, alive, buffered, Bool.not_true, Bool.false_eq_true, or_self, if_false]

theorem evAck_stray (here : inTransit s 0x85 m = false) (core : m.agent < 272) (alive : (s.core m.agent).dead = false)
    (absent : (s.core m.agent).wbb.any (fun w => w.line == m.line) = false) : evAck m s = driveDown (takeNet 0x85 m s) := by
  unfold evAck
  simp only [arrive_here _ here, isCoreAgent_of_core core, takeNet_core, alive, absent, Bool.not_true, Bool.not_false, Bool.false_eq_true,
    or_self, if_false, if_true]

end

/-- Settles O31: at a live core by the register that the reply matches and what that was used for, at a port by its entry. -/
theorem repliesReachTheRequester : Obligations.RepliesReachTheRequester := by
  refine ⟨?matched, ?evAck, ?stray, ?port, ?underWay⟩
  case matched =>
    intro s m r core alive
    refine ⟨?data, ?gntX, fun here found => finish_of_eq (congrArg lodgeGo (replyArr_matched here core alive found)), ?cmp, ?farAmo,
      fun here found use => finish_of_eq ((replyArr_matched here core alive found).trans (if_pos use)), ?ucData⟩
    case data =>
      intro here found legal
      refine finish_of_eq ?_
      rw [dataArr_legal legal, replyArr_matched here core alive found]
    case gntX =>
      intro here found
      refine finish_of_eq (congrArg lodgeGo ((replyArr_matched here core alive found).trans ?_))
      cases held : smFind (s.core m.agent).l2 m.line <;> simp only [takeNet_core, held]
    case cmp =>
      intro here found u
      have acts : exec (.cmp m) s = .next (settle s (lodgeGo (cmpCore m r (takeNet 0x84 m s)))) :=
        finish_of_eq (congrArg lodgeGo (replyArr_matched here core alive found))
      refine ⟨fun use => acts.trans ?_, fun use => acts.trans ?_, fun i use stalled waits => acts.trans ?_,
        fun d use access write waits => acts.trans ?_⟩
      · rw [cmpCore_wc use]
      · rw [cmpCore_spoor use]
      · rw [cmpCore_cbo use stalled waits]
      · rw [cmpCore_ucWrite use access write waits]
    case farAmo =>
      intro i rd n here found use u sent v
      have far : ¬r.use = .ad := by rw [use]; decide
      refine finish_of_eq ((replyArr_matched here core alive found).trans ((if_neg far).trans ?_))
      dsimp only [u] at sent
      dsimp only
      rw [sent]
    case ucData =>
      intro here found
      refine ⟨fun q l waits => finish_of_eq (congrArg lodgeGo ((replyArr_matched here core alive found).trans ?_)),
        fun flushed => finish_of_eq (congrArg lodgeGo ((replyArr_matched here core alive found).trans ?_))⟩
      · dsimp only
        rw [waits]
      · dsimp only
        rw [flushed]
  case evAck =>
    exact fun s m here core alive => ⟨fun buffered => finish_of_eq (evAck_awaited here core alive buffered),
      fun absent => finish_of_eq (evAck_stray here core alive absent)⟩
  case stray =>
    intro s m core alive none_
    have domain : ∀ {op uses k port}, inTransit s op m = false → replyArr op m uses k port s = driveDown (takeNet op m s) :=
      fun here => replyArr_stray here core alive (none_ _)
    exact ⟨fun here => finish_of_eq (congrArg lodgeGo (dataArr_stray here core alive (none_ _))),
      fun here => finish_of_eq (congrArg lodgeGo (domain here)), fun here => finish_of_eq (congrArg lodgeGo (domain here)),
      fun here => finish_of_eq (congrArg lodgeGo (domain here)), fun here => finish_of_eq (domain here),
      fun here => finish_of_eq (congrArg lodgeGo (domain here))⟩
  case port =>
    intro s m n isPort agent alive awaits
    refine ⟨fun here legal => finish_of_eq ?_,
      fun here => finish_of_eq (congrArg lodgeGo (replyArr_port here isPort agent alive awaits)),
      fun here => finish_of_eq (congrArg lodgeGo (replyArr_port here isPort agent alive awaits)),
      fun here => finish_of_eq (congrArg lodgeGo (replyArr_port here isPort agent alive awaits))⟩
    rw [dataArr_legal legal, replyArr_port here isPort agent alive awaits]
  case underWay =>
    exact fun s m => ⟨fun way => finish_of_eq (congrArg lodgeGo (dataArr_underWay way)),
      fun way => finish_of_eq (congrArg lodgeGo (replyArr_underWay way)), fun way => finish_of_eq (congrArg lodgeGo (replyArr_underWay way)),
      fun way => finish_of_eq (congrArg lodgeGo (replyArr_underWay way)), fun way => finish_of_eq (replyArr_underWay way),
      fun way => finish_of_eq (congrArg lodgeGo (replyArr_underWay way)), fun way => finish_of_eq (arrive_underWay _ way)⟩

/-! ### Atomics and their windows (R145, R151 to R153, R156, R158 to R161, R212) -/

section
variable {s s' : State} {i : Ins} {m : Mapped} {va src : Word} {n op rd : Nat} {w : Bool} {a : Acc'} {wr : Nat → Bool}
  {k : Mapped → State → State}

/-- An atomic at a misaligned address that translates fails. -/
theorem mapAccess_misaligned {p pa : Nat} {ty : MTy} {sl : Option Nat} {quiet : Bool} (misaligned : va.toNat % n ≠ 0)
    (maps : translate p a va quiet s = (.ok pa ty sl, s')) :
    mapAccess p a va n quiet true wr s = (.fail va false (.trap a.access va none) none, s') := by
  unfold mapAccess
  simp only [maps, bne_iff_ne.mpr misaligned, Bool.true_or, Bool.true_and, Bool.or_true, if_true]

section
variable (old : Oldest s i)
include old

theorem atomicHead_misaligned {pa : Nat} {ty : MTy} {sl : Option Nat} (misaligned : va.toNat % n ≠ 0)
    (maps : translate i.pcn a va false s = (.ok pa ty sl, s')) :
    atomicHead i a va n wr k s = takeTrap i.pcn a.access va none i.pc s' := by
  have faults : failOrWait i a (.fail va false (.trap a.access va none) none) s s' = takeTrap i.pcn a.access va none i.pc s' :=
    (failOrWait_fail old.1 (by nofun) (by nofun)).trans (faultAt_single (by nofun))
  unfold atomicHead
  rw [if_neg old.acts, mapAccess_misaligned misaligned maps]
  exact faults

/-- The oldest atomic, its access mapped and its line not write-combined, acts. -/
theorem atomicHead_acts (reaches : Reaches s i a va n false true wr m s')
    (drained : wcHolds ((drainLines i.pcn [m.pa / 64] s').core i.pcn) [m.pa / 64] = false) :
    atomicHead i a va n wr k s = k m (drainLines i.pcn [m.pa / 64] s') := by
  unfold atomicHead
  rw [if_neg old.acts, reaches.maps]
  exact if_neg (by rw [drained]; decide)

theorem runAmo_acts (reaches : Reaches s i accAmo va (if w then 8 else 4) false true (fun _ => true) m s')
    (drained : wcHolds ((drainLines i.pcn [m.pa / 64] s').core i.pcn) [m.pa / 64] = false) :
    runAmo i va op w src rd s =
      let x := amoPlan i m (drainLines i.pcn [m.pa / 64] s')
      if x.1.1 then
        (if ownedL1d (x.2.core i.pcn) (m.pa / 64) then amoNear i m op (if w then 8 else 4) src rd x.1.2 x.2
         else askOwn i.pcn (m.pa / 64) false x.2)
      else if l2Free (x.2.core i.pcn) false then amoFar i m op w src rd x.2
      else x.2 := by
  unfold runAmo
  rw [atomicHead_acts old reaches drained]

theorem runAmo_misaligned {pa : Nat} {ty : MTy} {sl : Option Nat} (misaligned : va.toNat % (if w then 8 else 4) ≠ 0)
    (maps : translate i.pcn accAmo va false s = (.ok pa ty sl, s')) :
    runAmo i va op w src rd s = takeTrap i.pcn accAmo.access va none i.pc s' := by
  unfold runAmo
  exact atomicHead_misaligned old misaligned maps

end

/-- A near AMO on a line without poison writes its result. -/
theorem amoNear_sound {e : PLine} {probe : Bool} (held : smFind ((l1dCheck i.pcn (m.pa / 64) s).core i.pcn).l2 (m.pa / 64) = some e)
    (sound : e.poison = false) :
    amoNear i m op n src rd probe s = amoFinish i m n (lineNat e.cur (m.pa % 64) n) rd probe
      (writeL1d i.pcn (m.pa / 64) (m.pa % 64) (leBytes n (amoOp op n (lineNat e.cur (m.pa % 64) n) src.toNat))
        (l1dCheck i.pcn (m.pa / 64) s)) := by
  simp only [amoNear, held, sound, Bool.false_eq_true, if_false]

/-! LR without deferred snoops. -/

section
variable (old : Oldest s i) (quiet : (s.core i.pcn).deferred = [])
  (reaches : Reaches s i accLr va (if w then 8 else 4) false true (fun _ => false) m s')
  (drained : wcHolds ((drainLines i.pcn [m.pa / 64] s').core i.pcn) [m.pa / 64] = false)
include old quiet reaches drained

theorem runLr_uncacheable (type : m.ty ≠ .wb) :
    runLr i va w rd s = takeTrap i.pcn 0x07 va none i.pc (drainLines i.pcn [m.pa / 64] s') := by
  unfold runLr
  rw [if_neg (by rw [quiet]; decide), atomicHead_acts old reaches drained]
  exact if_pos type

theorem runLr_asks (type : m.ty = .wb) (missing : ownedL1d ((drainLines i.pcn [m.pa / 64] s').core i.pcn) (m.pa / 64) = false) :
    runLr i va w rd s = askOwn i.pcn (m.pa / 64) false (drainLines i.pcn [m.pa / 64] s') := by
  unfold runLr
  rw [if_neg (by rw [quiet]; decide), atomicHead_acts old reaches drained]
  simp only [type, missing, ne_eq, not_true_eq_false, Bool.not_false, if_false, if_true]

theorem runLr_reserves {e : PLine} (type : m.ty = .wb)
    (owned : ownedL1d ((drainLines i.pcn [m.pa / 64] s').core i.pcn) (m.pa / 64) = true)
    (held : smFind ((l1dCheck i.pcn (m.pa / 64) (drainLines i.pcn [m.pa / 64] s')).core i.pcn).l2 (m.pa / 64) = some e)
    (sound : e.poison = false) :
    runLr i va w rd s =
      completeX i rd (sext (if w then 8 else 4) (lineNat e.cur (m.pa % 64) (if w then 8 else 4))) 0
        (reserve i.pcn (m.pa / 64) (issue i.pcn 8 (l1dCheck i.pcn (m.pa / 64) (drainLines i.pcn [m.pa / 64] s')))) := by
  unfold runLr
  rw [if_neg (by rw [quiet]; decide), atomicHead_acts old reaches drained]
  simp only [type, owned, held, sound, ne_eq, not_true_eq_false, Bool.not_true, Bool.false_eq_true, if_false]

end

theorem scHolds_iff (c : Core) (ln : Nat) : scHolds c ln = true ↔ c.resv = some ln ∧ ownedL1d c ln = true := by
  unfold scHolds
  rw [Bool.and_eq_true, beq_iff_eq]

/-- SC of a WB line clears the reservation, whether it wrote or not. -/
theorem runSc_acts (old : Oldest s i)
    (reaches : Reaches s i accStore va (if w then 8 else 4) false true (fun pa => scHolds (s.core i.pcn) (pa / 64)) m s') (type : m.ty = .wb)
    (drained : wcHolds ((drainLines i.pcn [m.pa / 64] s').core i.pcn) [m.pa / 64] = false) :
    runSc i va w src rd s =
      let p := i.pcn
      let u := drainLines p [m.pa / 64] s'
      clearResv p
        (if (u.core p).resv = some (m.pa / 64) ∧ ownedL1d (u.core p) (m.pa / 64) = true then
          completeX i rd 0 0 (issue p 8 (writeL1d p (m.pa / 64) (m.pa % 64) (leBytes (if w then 8 else 4) src.toNat) u))
        else completeX i rd 1 0 (issue p 8 (bump p 10 1 (pNow u p) u))) := by
  unfold runSc
  rw [atomicHead_acts old reaches drained]
  simp only [type, ne_eq, not_true_eq_false, if_false, scHolds_iff, apply_ite (clearResv i.pcn)]

end

/-- Settles O19: the atomics by where their line stands once they may act, the windows by the entry that closes. -/
theorem atomicsAndTheirWindows : Obligations.AtomicsAndTheirWindows := by
  refine ⟨?amo, ?misaligned, ?lr, ?sc, ?training, ?lrEnd, ?wc, ?side⟩
  case amo =>
    intro s s' i va src op rd w m old reaches n p u x drained
    have acts := runAmo_acts (op := op) (src := src) (rd := rd) old reaches drained
    refine ⟨fun near owned => ?_, fun near missing => finish_of_eq (acts.trans ?_), fun far room => finish_of_eq (acts.trans ?_)⟩
    · have performs := acts.trans ((if_pos near).trans (if_pos owned))
      exact ⟨finish_of_eq performs, fun e held sound => finish_of_eq (performs.trans (amoNear_sound held sound))⟩
    · exact (if_pos near).trans (if_neg (Bool.eq_false_iff.mp missing))
    · exact (if_neg (Bool.eq_false_iff.mp far)).trans (if_pos room)
  case misaligned =>
    exact fun s s' i va src op rd pa w ty sl old misaligned maps => finish_of_eq (runAmo_misaligned old misaligned maps)
  case lr =>
    intro s s' i va rd w m old quiet reaches p u drained
    exact ⟨fun type => finish_of_eq (runLr_uncacheable old quiet reaches drained type),
      fun type missing => finish_of_eq (runLr_asks old quiet reaches drained type missing),
      fun type owned e held sound => finish_of_eq (runLr_reserves old quiet reaches drained type owned held sound)⟩
  case sc =>
    exact fun s s' i va src rd w m old reaches type drained => finish_of_eq (runSc_acts old reaches type drained)
  case training =>
    intro s p ln t tracked
    refine finish_of_eq ?_
    rw [tracked]
  case lrEnd => exact fun s p window => finish_of_eq (if_pos window)
  case wc =>
    intro s p ln w combined
    refine finish_of_eq ?_
    rw [combined]
  case side =>
    intro s p ln e held
    refine finish_of_eq ?_
    rw [held]

/-! ### Broadcasts at their targets (R164, R190, R191, R193) and MEM.COH_CFG (R299) -/

/-- The state once broadcast `b` acts at core `a`, at first or again (R190). -/
def bcastActed (a : Nat) (b : Bcast) (s : State) : State :=
  if b.acting.contains a then drainGone a s else setBcast { b with acting := insNat a b.acting } (coreBcast a b s)

section
variable {s : State} {a n id : Nat} {b : Bcast}

section
variable (core : a < 272) (waits : s.fab.hub.bcasts.find? (fun b => b.id == id && b.admitted && b.waits.contains a) = some b)
include core waits

theorem bcastReceive_deadCore (dead : ((deliverCopy (agentStop a) id s).core a).dead = true) :
    bcastReceive a id s = countAck id a true (deliverCopy (agentStop a) id s) := by
  unfold bcastReceive
  simp only [waits, isPortAgent_of_core core, isCoreAgent_of_core core, dead, Bool.not_true, Bool.false_eq_true, if_false, if_true]

variable (alive : ((deliverCopy (agentStop a) id s).core a).dead = false)
include alive

/-- A core that is off or deeply asleep is acknowledged for at once. -/
theorem bcastReceive_deaf (deaf : hearsBcast ((deliverCopy (agentStop a) id s).core a) = false) :
    bcastReceive a id s = sendAck id a (deliverCopy (agentStop a) id s) := by
  unfold bcastReceive
  simp only [waits, isPortAgent_of_core core, isCoreAgent_of_core core, alive, deaf, Bool.not_true, Bool.not_false, Bool.false_eq_true,
    if_false, if_true]

/-- At a core that hears it a broadcast acts, unless it has not yet and an operation is out that cannot be flushed (log entry 18). -/
theorem bcastReceive_heard (hears : hearsBcast ((deliverCopy (agentStop a) id s).core a) = true) :
    bcastReceive a id s =
      let u := deliverCopy (agentStop a) id s
      if (!b.acting.contains a) = true ∧ (nonRevocable (u.core a) = true ∨ (u.core a).mrs.any (fun r => r.use == .cbo) = true) then u
      else
        let v := bcastActed a b u
        if bcastHeld (v.core a) then v
        else sendAck id a (bump a 73 1 (pNow v a) (v.modCore a (fun c => { c with invSeq := (c.invSeq + 1) % 65536 }))) := by
  unfold bcastReceive
  simp only [waits, isPortAgent_of_core core, isCoreAgent_of_core core, alive, hears, Bool.not_true, Bool.false_eq_true, if_false]
  rfl

end

theorem bcastReceive_port (port : n < 9)
    (waits : s.fab.hub.bcasts.find? (fun b => b.id == id && b.admitted && b.waits.contains (480 + n)) = some b) :
    bcastReceive (480 + n) id s =
      let u := deliverCopy (agentStop (480 + n)) id s
      if (u.port n).dead then countAck id (480 + n) true u else portBcast n b u := by
  unfold bcastReceive
  simp only [waits, isPortAgent_port port, Nat.add_sub_cancel_left, if_true]

end

/-- MEM.COH_CFG with its test on SNP_TMO_LOG2 as R299 gives it. -/
theorem memCohCfg_eq (c : Cmd) (s : State) : memCohCfg c s =
    let v := bytesAt c.body 0 0
    if v < 14 ∨ 26 < v ∨ snpTmoOk s v = false then .fail stBadField s
    else if s.leased Blk.bchub.inst = true ∨ (List.range 136).any (fun h => s.leased (Blk.warren h).inst) = true then .fail stLeaseHeld s
    else .done stOk (leBytes 1 v)
      ((allSlices (fun h s => s.wf (.warren h) Off.WARREN_COH_CFG 4 0 v) s).wf .bchub Off.BCHUB_COH_CFG 4 0 v) := by
  simp only [memCohCfg, Bool.not_eq_true']

/-- Settles O33: a broadcast by whether its target hears it and may act, the commands by their bodies. -/
theorem broadcastTargetsAndCoherenceCommands : Obligations.BroadcastTargetsAndCoherenceCommands := by
  refine ⟨?core, ?port, ?cohCfg, fun s ch tag c ready => belet_answers (body := memCohStatus) ready rfl⟩
  case core =>
    intro s a id b core waits u busy v
    refine ⟨fun dead => finish_of_eq (bcastReceive_deadCore core waits dead),
      fun alive deaf => finish_of_eq (bcastReceive_deaf core waits alive deaf), fun alive hears first out => ?_,
      fun alive hears goes => ?_⟩
    · refine finish_of_eq ((bcastReceive_heard core waits alive hears).trans (if_pos ⟨?_, out⟩))
      rw [first]; rfl
    · have free : ¬((!b.acting.contains a) = true ∧ busy) := by
        rintro ⟨first, out⟩
        rcases goes with acting | idle
        · rw [acting] at first; cases first
        · exact idle out
      have acts := (bcastReceive_heard core waits alive hears).trans (if_neg free)
      exact ⟨fun held => finish_of_eq (acts.trans (if_pos held)),
        fun done => finish_of_eq (acts.trans (if_neg (Bool.eq_false_iff.mp done)))⟩
  case port =>
    intro s n id b port waits u
    have arrives := bcastReceive_port port waits
    exact ⟨fun dead => finish_of_eq (arrives.trans (if_pos dead)),
      fun alive => finish_of_eq (arrives.trans (if_neg (Bool.eq_false_iff.mp alive)))⟩
  case cohCfg =>
    intro s ch tag c ready v taken
    have legal (least : 14 ≤ v) (most : v ≤ 26) (window : snpTmoOk s v = true) : ¬(v < 14 ∨ 26 < v ∨ snpTmoOk s v = false) := by
      simp only [window, Bool.true_eq_false, or_false]; omega
    refine ⟨fun illegal => belet_answers (body := memCohCfg) ready ?_, fun least most window held => belet_answers (body := memCohCfg) ready ?_,
      fun least most window free => belet_answers (body := memCohCfg) ready ?_⟩ <;> rw [memCohCfg_eq]
    · exact congrArg (finishCmd c) (if_pos illegal)
    · exact congrArg (finishCmd c) ((if_neg (legal least most window)).trans (if_pos held))
    · exact congrArg (finishCmd c) ((if_neg (legal least most window)).trans (if_neg free))

end Sys2Proof.Machine

/-! ## Dead agents and mesh links (family 08_mesh) -/
namespace Sys2Proof.Machine

/-! ### Agents that do not answer (R240, R289, R298) -/

/-- The home's transaction `t` still awaits agent `a`: a snoop response, its data, or the requester's part. -/
abbrev Txn.awaits (t : Txn) (a : Nat) : Prop := a ∈ t.snoops ∨ a ∈ t.wbs ∨ (t.req.agent = a ∧ (t.ack.isSome = true ∨ t.wrData = true))

section
variable {s : State} {ln a n txn : Nat} {t : Txn}

/-- A wait that stands ends at its closing tick: on this line alone if the slice knows the agent is dead, else by declaring it. -/
theorem snoopTimeout_awaited (opened : openAt s ln = some t) (waits : t.awaits a) :
    snoopTimeout ln a s =
      let u := s.toTick (t.since + meshTicks s (2 ^ t.tmo))
      if s.deadAtSlice (homeOf ln) a = true then endWait a ln u
      else post 0xE0 { agent := a, line := homeOf ln } (sliceDead (homeOf ln) a u) := by
  unfold snoopTimeout
  simp only [opened, List.contains_iff_mem, decide_eq_true waits, Bool.not_true, Bool.false_eq_true, if_false]
  rfl

theorem snoopTimeout_over (opened : openAt s ln = some t) (ended : ¬t.awaits a) : snoopTimeout ln a s = s := by
  unfold snoopTimeout
  simp only [opened, List.contains_iff_mem, decide_eq_false ended, Bool.not_false, if_true]

/-- Only a port's request is timed at its port. -/
theorem exec_requesterTimeout_elsewhere (other : isPortAgent a = false) :
    exec (.requesterTimeout a txn) s = .next (settle s (requesterTimeout a txn s)) :=
  finish_of_eq (if_neg (Bool.eq_false_iff.mp other))

theorem isPortAgent_of_controller (controller : 512 ≤ a) : isPortAgent a = false := by
  unfold isPortAgent
  rw [decide_eq_false (p := a ≤ 488) (by omega), Bool.and_false]

theorem requesterTimeout_core {r : MReq} (core : a < 272)
    (unanswered : (s.core a).mrs.find? (fun r => r.txn == txn && r.op != 0) = some r) :
    requesterTimeout a txn s = driveDown (s.toTick (r.sent + meshTicks s (2 ^ (r.tmo + 7)))) := by
  have noController : ¬512 ≤ a := by omega
  unfold requesterTimeout
  simp only [if_neg noController, unanswered]

theorem requesterTimeout_controller (controller : 512 ≤ a) (opened : s.txnAt ln = some t) (owes : t.reading = true ∨ 0 < t.writes) :
    requesterTimeout a ln s = driveDown (s.toTick (t.since + meshTicks s (2 ^ t.tmo))) := by
  unfold requesterTimeout
  simp only [if_pos controller, opened, if_pos owes]

theorem portTimeout_waiting {k w : Nat} (waits : portWait (s.port n) txn = some (w, k)) :
    portTimeout n txn s = driveDown (s.toTick (w + meshTicks s (2 ^ (k + 7)))) := by
  unfold portTimeout
  simp only [waits]

theorem exec_requesterTimeout_port (port : n < 9) :
    exec (.requesterTimeout (480 + n) txn) s = .next (settle s (portTimeout n txn s)) := by
  refine finish_of_eq ((if_pos (isPortAgent_port port)).trans ?_)
  rw [Nat.add_sub_cancel_left]

end

/-! ### The declaration and its copies at the stops (R290, R291, R509) -/

section
variable {s : State} {st a : Nat}

/-- DEAD reaches a stop that it is still under way to: what follows the fence depends on what sits there. -/
theorem deadAt_carried (carried : s.fab.hub.deads.any (fun d => d.1 == a && d.2.contains st) = true) :
    deadAt st a s =
      let u := fenceAt st a (deadTaken st a s)
      let v := if isTileStop st = true then startReclaim (st - 17) a (sliceDead (st - 17) a u) else u
      let w := if st = 8 ∧ isCoreAgent a = true then idistDead a v else v
      if st = 160 ∧ isCoreAgent a = true then coreLost a 1 w else w := by
  unfold deadAt
  simp only [carried, Bool.not_true, Bool.false_eq_true, if_false]

theorem isTileStop_iff : isTileStop st = true ↔ 17 ≤ st ∧ st ≤ 152 := by
  simp only [isTileStop, Bool.and_eq_true, decide_eq_true_eq]; omega

section
variable (carried : s.fab.hub.deads.any (fun d => d.1 == a && d.2.contains st) = true)
include carried

theorem deadAt_slice (least : 17 ≤ st) (most : st ≤ 152) :
    deadAt st a s = startReclaim (st - 17) a (sliceDead (st - 17) a (fenceAt st a (deadTaken st a s))) := by
  have tile := isTileStop_iff.mpr ⟨least, most⟩
  have noIdist : st ≠ 8 := by omega
  have noSett : st ≠ 160 := by omega
  simp only [deadAt_carried carried, tile, noIdist, noSett, if_true, false_and, if_false]

theorem deadAt_idist (idist : st = 8) (core : a < 272) : deadAt st a s = idistDead a (fenceAt st a (deadTaken st a s)) := by
  have noTile : ¬isTileStop st = true := by rw [isTileStop_iff]; omega
  have noSett : st ≠ 160 := by omega
  simp only [deadAt_carried carried, if_neg noTile, noSett, false_and, if_false, if_pos (And.intro idist (isCoreAgent_of_core core))]

theorem deadAt_sett (sett : st = 160) (core : a < 272) : deadAt st a s = coreLost a 1 (fenceAt st a (deadTaken st a s)) := by
  have noTile : ¬isTileStop st = true := by rw [isTileStop_iff]; omega
  have noIdist : st ≠ 8 := by omega
  simp only [deadAt_carried carried, if_neg noTile, noIdist, false_and, if_false, if_pos (And.intro sett (isCoreAgent_of_core core))]

theorem deadAt_elsewhere (edge : st < 17 ∨ 152 < st) (noIdist : st ≠ 8) (noSett : st ≠ 160) :
    deadAt st a s = fenceAt st a (deadTaken st a s) := by
  have noTile : ¬isTileStop st = true := by rw [isTileStop_iff]; omega
  simp only [deadAt_carried carried, if_neg noTile, noIdist, noSett, false_and, if_false]

end

end

/-! ### Sweeps (R290, R293 to R295) -/

section
variable {s : State} {h a : Nat}

theorem reclaimEnd_of_sweep {r : Reclaim} (sweeps : s.fab.reclaims.find? (fun r => r.slice == h) = some r) :
    reclaimEnd h s =
      let u := (reclaimVisit h r.agent s).2
      let n := min 0xFFFF (r.poisoned + (reclaimVisit h r.agent s).1)
      if reclaimLeft h r.agent u = true then
        { u with fab := { u.fab with reclaims := u.fab.reclaims.map (fun x => if x.slice = h then { x with poisoned := n } else x) } }
      else
        let cyc := min 0xFFFFFFFF ((u.tick - r.start) * meshPerTick u)
        let v := u.wr (.warren h) Off.RECLAIM (BitVec.ofNat 64 (2 * r.agent + n <<< 16 + cyc <<< 32))
        nextReclaim h (post 0xE2 { agent := r.agent, line := h }
          { v with fab := { v.fab with reclaims := v.fab.reclaims.filter (fun x => x.slice != h) } }) := by
  unfold reclaimEnd
  simp only [sweeps]

/-- The last slice of the only sweep awaited: RECOVERY is over. -/
theorem sweepDone_last (here : inTransit s 0xE2 { agent := a, line := h } = false) (last : s.fab.hub.sweeps = [(a, [h])]) :
    sweepDone h a s =
      let u := takeNet 0xE2 { agent := a, line := h } s
      setMode 6 false ((({ u with fab := { u.fab with hub := { u.fab.hub with sweeps := [] } } } : State).wf .bchub Off.RECOVERY 17 10 0).wf
        .bchub Off.RECOVERY 0 0 0) := by
  have awaited : (takeNet 0xE2 { agent := a, line := h } s).fab.hub.sweeps = [(a, [h])] := by rw [takeNet_hub, last]
  have mine : [h].contains h = true := List.contains_iff_mem.mpr (List.mem_singleton_self h)
  have noneLeft : [h].erase h = [] := List.erase_cons_head h []
  unfold sweepDone
  simp only [arrive_here _ here, awaited, mine, noneLeft, List.any_cons, List.map_cons, List.map_nil, List.filter_cons, List.filter_nil,
    beq_self_eq_true, Bool.and_self, Bool.true_or, Bool.not_true, Bool.false_eq_true, if_false, if_true, List.isEmpty_nil]

end

/-- Settles O32: a timeout by who is awaited and whether the slice knows it is dead, DEAD by what sits at the stop, a sweep by what
is left. -/
theorem deadAgentsAreDeclaredAndSwept : Obligations.DeadAgentsAreDeclaredAndSwept := by
  refine ⟨?snoop, ?core, ?port, ?controller, ?known, ?declared, ?dead, ?sweep, ?done⟩
  case snoop =>
    intro s ln a t opened
    refine ⟨fun waits => ⟨fun unknown => ?_, fun known => ?_⟩, fun ended => finish_of_eq (snoopTimeout_over opened ended)⟩
    · exact finish_of_eq ((snoopTimeout_awaited opened waits).trans (if_neg (Bool.eq_false_iff.mp unknown)))
    · exact finish_of_eq ((snoopTimeout_awaited opened waits).trans (if_pos known))
  case core =>
    intro s a txn r core unanswered
    rw [exec_requesterTimeout_elsewhere (isPortAgent_of_core core), requesterTimeout_core core unanswered]
  case port =>
    intro s n txn t k port waits
    rw [exec_requesterTimeout_port port, portTimeout_waiting waits]
  case controller =>
    intro s a ln t controller opened owes
    rw [exec_requesterTimeout_elsewhere (isPortAgent_of_controller controller), requesterTimeout_controller controller opened owes]
  case known => exact fun s h a here dead => finish_of_eq ((arrive_here _ here).trans (if_pos ((takeNet_hubDead ..).trans dead)))
  case declared =>
    intro s h a here alive
    have unknown := Bool.eq_false_iff.mp ((takeNet_hubDead 0xE0 { agent := a, line := h } s a).trans alive)
    exact finish_of_eq ((arrive_here _ here).trans (if_neg unknown))
  case dead =>
    intro s st a carried
    exact ⟨fun least most => finish_of_eq (congrArg lodgeGo (deadAt_slice carried least most)),
      fun idist core => finish_of_eq (congrArg lodgeGo (deadAt_idist carried idist core)),
      fun sett core => finish_of_eq (congrArg lodgeGo (deadAt_sett carried sett core)),
      fun edge noIdist noSett => finish_of_eq (congrArg lodgeGo (deadAt_elsewhere carried edge noIdist noSett))⟩
  case sweep =>
    intro s h r sweeps
    exact ⟨fun left => finish_of_eq ((reclaimEnd_of_sweep sweeps).trans (if_pos left)),
      fun empty => finish_of_eq ((reclaimEnd_of_sweep sweeps).trans (if_neg (Bool.eq_false_iff.mp empty)))⟩
  case done => exact fun s h a here last => finish_of_eq (sweepDone_last here last)

/-! ### One cycle of a link direction (R227, R228, R237, R238, R240) -/

section
variable {s : State} {st p fs fp : Nat} {f : SentFlit × Bool} {r : Lanes}

theorem noisy_zero (l : Lanes) : l.noisy 0 = l := by
  simp only [Lanes.noisy, BitVec.ofNat_eq_ofNat, BitVec.setWidth_zero, BitVec.zero_ushiftRight, BitVec.xor_zero]

/-- The check bits that an output sends are those of its lanes. -/
theorem lanesOf_good (f : Option SentFlit) (side : BitVec 24) : (lanesOf f side).good = true := beq_self_eq_true _

/-- A cycle of a link that carries flits: the far output sends, and what arrives is discarded whole or acts. -/
theorem runLinkCycle_live (present : linkPresent st p = true) (far : farEnd st p = (fs, fp)) (live : linkLive s st p = true)
    (farLive : linkLive s fs fp = true) (err : BitVec 680) :
    runLinkCycle st p err s =
      let a := sendFlit fs fp s
      let b := sendSide fs fp (a.1.map (·.1)) a.2
      let r := (lanesOf (a.1.map (·.1)) b.1).noisy err
      if r.good = true then a.1.elim (takeSide st p r.side b.2) (fun f => takeFlit st p f r (takeSide st p r.side b.2))
      else badCycle st p b.2 := by
  unfold runLinkCycle
  simp only [present, far, live, farLive, Bool.not_true, Bool.or_self, Bool.false_eq_true, if_false, Bool.not_eq_true', ← Bool.not_eq_true,
    ite_not]
  cases (sendFlit fs fp s).1 <;> rfl

theorem runLinkCycle_idle (err : BitVec 680)
    (idle : linkPresent st p = false ∨ linkLive s st p = false ∨ linkLive s (farEnd st p).1 (farEnd st p).2 = false) :
    runLinkCycle st p err s = s := by
  unfold runLinkCycle
  rcases idle with absent | dark | dark
  · simp only [absent, Bool.not_false, if_true]
  · simp only [dark, Bool.not_false, Bool.true_or, if_true, ite_self]
  · simp only [dark, Bool.not_false, Bool.or_true, if_true, ite_self]

/-- The flit of a good cycle is the next in sequence, and a resent one if a failure went before it (R238). -/
abbrev FlitIsNext (l : LinkSt) (f : SentFlit × Bool) (side : BitVec 24) : Prop :=
  sideFld side 21 21 = 1 ∧ sideFld side 20 16 = (l.rxSeq + 1) % 32 ∧ (l.skipping = false ∨ f.2 = true)

theorem takeFlit_eq : takeFlit st p f r s =
    if FlitIsNext (s.link st p) f r.side then
      receiveFlit st p f.1 r.flit (s.setLink st p { s.link st p with rxSeq := sideFld r.side 20 16, skipping := false })
    else s := by
  simp only [takeFlit, Bool.not_eq_true']

theorem receiveFlit_asSent {m : SentFlit} {bits : BitVec 640} (good : hdrGood bits = true) (same : bits = flitOf m.op m.msg) :
    receiveFlit st p m bits s = bufferFlit st p m.op m.msg s := by
  unfold receiveFlit
  simp only [good, Bool.not_true, Bool.false_eq_true, if_false, if_pos same]

theorem receiveFlit_reserved {m : SentFlit} {bits : BitVec 640} (bad : hdrGood bits = false) :
    receiveFlit st p m bits s = driveDown (report st 6 3 17 0 p 0x1FF 0 s) := by
  unfold receiveFlit
  simp only [bad, Bool.not_false, if_true]

end

/-! ### NAK, lane repair and lost credits (R232, R238, R239) -/

section
variable {s : State} {st p fs fp ack c : Nat}

section
variable (present : linkPresent st p = true) (far : farEnd st p = (fs, fp))
include present far

theorem runNak_live (live : linkLive s st p = true) :
    runNak st p ack s = takeNak st p ack (s.setLink fs fp { s.link fs fp with nak := false }) := by
  unfold runNak
  simp only [present, live, far, Bool.not_true, Bool.or_self, Bool.false_eq_true, if_false]

/-- A repair of both ends: the link is UP again, or FAILED and reported, and both directions replay. -/
theorem runLaneRepairEnd_repairing {bad back : List Nat} (repairing : linkState s st p = 2) :
    runLaneRepairEnd st p bad back s =
      let u := repairEnd st p bad s
      let v := repairEnd fs fp back u.1
      let up := decide (u.2 = true ∧ v.2 = true)
      let w := setLinkState fs fp (if up then 1 else 3) (setLinkState st p (if up then 1 else 3) v.1)
      startReplay fs fp (startReplay st p (if up then w else report st 5 1 23 0 p 0x1FF 0 w)) := by
  unfold runLaneRepairEnd repairLink
  simp only [present, repairing, far, Bool.not_true, Bool.false_eq_true, ne_eq, not_true_eq_false, or_self, if_false, decide_eq_true_eq]

end

/-- A NAK with no replay unacknowledged starts one. -/
theorem takeNak_first (acked : ((linkAck st p ack s).link st p).replaying = none) :
    takeNak st p ack s = startReplay st p (linkAck st p ack s) := by
  unfold takeNak
  simp only [acked, Option.isSome_none, Bool.not_false, if_true]

/-- A NAK of an unacknowledged replay counts it as failed: the sixteenth takes the domain down, the one at the threshold starts a
repair. -/
theorem takeNak_failed (far : farEnd st p = (fs, fp)) (unacked : ((linkAck st p ack s).link st p).replaying ≠ none) :
    takeNak st p ack s =
      let v := startReplay st p (linkAck st p ack s)
      let n := min 16 (v.rf (.mesh st) (Off.LINK_STATE + 0x40 * p) 8 4 + 1)
      let w := v.wf (.mesh st) (Off.LINK_STATE + 0x40 * p) 8 4 n
      if n = 16 then driveDown (report st 5 3 18 0 p 0x1FF 0 w)
      else if n = w.rf (.mesh st) Off.MESH_CTL 11 8 ∧ w.rf (.mesh st) Off.MESH_CTL 12 12 = 1 ∧ linkState w st p = 1 then
        setLinkState fs fp 2 (setLinkState st p 2 w)
      else w := by
  unfold takeNak
  simp only [far, Option.isSome_iff_ne_none.mpr unacked, Bool.not_true, Bool.false_eq_true, if_false]

/-- Credits of a class that a flit waits for stayed away for the whole window: they are lost. -/
theorem runCreditTimeout_lost {t : Nat} (present : linkPresent st p = true) (live : linkLive s st p = true) (cls : c < 5)
    (empty : credits s st p c = 0) (waits : waitsFor s st p c = true) (since : smFind (s.link st p).zeroSince c = some t) :
    runCreditTimeout st p c s = driveDown (s.toTick (t + meshTicks s (2 ^ s.rf (.mesh st) Off.MESH_CTL 4 0))) := by
  unfold runCreditTimeout
  simp only [present, live, Nat.not_le.mpr cls, empty, waits, since, Bool.not_true, Bool.false_eq_true, ne_eq, not_true_eq_false, or_self,
    if_false]

theorem runCreditTimeout_over (ended : credits s st p c ≠ 0 ∨ waitsFor s st p c = false) : runCreditTimeout st p c s = s := by
  unfold runCreditTimeout
  have lost : credits s st p c ≠ 0 ∨ (!waitsFor s st p c) = true := ended.imp_right (Bool.not_eq_true' _).mpr
  exact if_pos (.inr (.inr (.inr lost)))

end

/-- Settles O34: a cycle by its check and by the flit it carries, a NAK by whether a replay was unacknowledged and by its count. -/
theorem meshLinksReplayRepairAndFail : Obligations.MeshLinksReplayRepairAndFail := by
  refine ⟨?cycle, ?idle, ?nak, ?repair, ?credit⟩
  case cycle =>
    intro s st p fs fp eFlit eCrc eSeq eFv eAck eNak eCrd eRsv present far live farLive a b r
    have runs := runLinkCycle_live present far live farLive (laneErr eFlit eCrc eSeq eFv eAck eNak eCrd eRsv)
    refine ⟨fun clean => ?_, fun bad => finish_of_eq (runs.trans (if_neg (Bool.eq_false_iff.mp bad))), fun good => ?_⟩
    · show ((lanesOf (a.1.map (·.1)) b.1).noisy (laneErr eFlit eCrc eSeq eFv eAck eNak eCrd eRsv)).good = true
      rw [clean, noisy_zero]
      exact lanesOf_good _ _
    · intro q u v
      have acts : runLinkCycle st p (laneErr eFlit eCrc eSeq eFv eAck eNak eCrd eRsv) s = a.1.elim v (fun f => takeFlit st p f r v) :=
        runs.trans (if_pos good)
      refine ⟨fun empty => finish_of_eq ?_, fun f sent => ?_⟩
      · rw [acts, empty, Option.elim_none]
      · rw [sent, Option.elim_some] at acts
        have takes := acts.trans takeFlit_eq
        exact ⟨fun next hdr same => finish_of_eq ((takes.trans (if_pos next)).trans (receiveFlit_asSent hdr same)),
          fun next hdr => finish_of_eq ((takes.trans (if_pos next)).trans (receiveFlit_reserved hdr)),
          fun drops => finish_of_eq (takes.trans (if_neg drops))⟩
  case idle => exact fun s st p eFlit eCrc eSeq eFv eAck eNak eCrd eRsv idle => finish_of_eq (runLinkCycle_idle _ idle)
  case nak =>
    intro s st p ack fs fp present far live u v n w
    have runs := runNak_live (ack := ack) present far live
    refine ⟨fun acked => finish_of_eq (runs.trans (takeNak_first acked)), fun unacked => ?_⟩
    have counts := runs.trans (takeNak_failed far unacked)
    exact ⟨fun last => finish_of_eq (counts.trans (if_pos last)), fun more =>
      ⟨fun repairs => finish_of_eq ((counts.trans (if_neg more)).trans (if_pos repairs)),
        fun replays => finish_of_eq ((counts.trans (if_neg more)).trans (if_neg replays))⟩⟩
  case repair =>
    exact fun s st p fs fp bad present far repairing => finish_of_eq (runLaneRepairEnd_repairing present far repairing)
  case credit =>
    exact fun s st p c t present live cls =>
      ⟨fun empty waits since => finish_of_eq (runCreditTimeout_lost present live cls empty waits since),
        fun ended => finish_of_eq (runCreditTimeout_over ended)⟩

end Sys2Proof.Machine

/-! ## The home: requests, admission, answers, worn ways and the LLC commands (family 09_llc_and_warren) -/
namespace Sys2Proof.Machine

/-! ### A request at the ejection port of its home (R257, R260, R261, R274, R279, R290) -/

section
variable {s : State} {m : Msg} {op : Nat}

/-- Every home row is a request of its operation code. -/
theorem exec_homeRow {e : Nat × (Msg → Instr)} (row : e ∈ homeRows) (m : Msg) (s : State) :
    exec (e.2 m) s = finish s (homeReq e.1 m s) := by
  simp only [homeRows, List.mem_cons, List.not_mem_nil, or_false] at row
  rcases row with rfl | rfl | rfl | rfl | rfl | rfl | rfl | rfl | rfl | rfl | rfl | rfl | rfl | rfl | rfl | rfl | rfl | rfl <;> rfl

theorem homeReq_notYet (waits : inTransit s op m = true ∨ overtakes s op m = true) : homeReq op m s = s :=
  if_pos ((Bool.or_eq_true ..).mpr waits)

/-- A reserved OP, or a size that crosses its line (R279). -/
abbrev BadEncoding (op : Nat) (m : Msg) : Prop :=
  (op = 0x15 ∧ 64 < m.arg % 64 + 2 ^ (m.arg / 64 % 4)) ∨ (op = 0x10 ∧ 9 < m.arg % 16)

section
variable (here : inTransit s op m = false) (inOrder : overtakes s op m = false)
include here inOrder

theorem homeReq_badEncoding (bad : BadEncoding op m) : homeReq op m s = driveDown (takeNet op m s) := by
  unfold homeReq
  simp only [here, inOrder, Bool.or_self, Bool.false_eq_true, if_false, if_pos bad]

variable (sound : ¬BadEncoding op m)
include sound

theorem homeReq_deadAgent (dead : s.deadAtSlice (homeOf m.line) m.agent = true) :
    homeReq op m s = discardDead (homeOf m.line) (takeNet op m s) := by
  unfold homeReq
  simp only [here, inOrder, Bool.or_self, Bool.false_eq_true, if_false, if_neg sound, dead, if_true]

theorem homeReq_noTurn (live : s.deadAtSlice (homeOf m.line) m.agent = false)
    (stays : aheadOf s (homeOf m.line) 4 = true ∨ 64 ≤ (s.fab.queue.filter (fun q => q.slice == homeOf m.line)).length) :
    homeReq op m s = s := by
  unfold homeReq
  simp only [here, inOrder, Bool.or_self, Bool.false_eq_true, if_false, if_neg sound, live, if_pos stays]

end

/-- A request that its home takes joins the queue or is admitted. -/
theorem homeReq_taken (arrives : Arrives s op m) :
    homeReq op m s =
      if blocked (takeNet op m s) op m.line (setAhead s m) = true then
        let u := unc (.llc (homeOf m.line)) 9 1 (takeNet op m s)
        occ (homeOf m.line) { u with fab := { u.fab with queue := u.fab.queue ++ [⟨op, m, homeOf m.line, u.tick⟩] } }
      else takeReq op m (takeNet op m s) := by
  obtain ⟨here, inOrder, sound, live, turn, room⟩ := arrives
  unfold homeReq setAhead
  simp only [here, inOrder, Bool.or_self, Bool.false_eq_true, if_false, if_neg sound, live, turn, false_or, if_neg (Nat.not_le.mpr room),
    takeNet_queue]

end

section
variable {s : State} {h : Nat}

theorem retryAdmit_ready {q : Queued} (turn : aheadOf s h 3 = false) (ready : readyQueued s h s.fab.queue [] = some q) :
    retryAdmit h s =
      let u : State := { s with fab := { s.fab with queue := s.fab.queue.erase q } }
      let wait := (s.tick - q.tick) * meshPerTick s
      takeReq q.op q.msg (occ h (if u.rf (.warren h) Off.RQ_MAXWAIT 31 0 < wait then
        u.wf (.warren h) Off.RQ_MAXWAIT 31 0 (min 0xFFFFFFFF wait) else u)) := by
  unfold retryAdmit
  simp only [turn, Bool.false_eq_true, if_false, ready]

theorem retryAdmit_idle (idle : aheadOf s h 3 = true ∨ readyQueued s h s.fab.queue [] = none) : retryAdmit h s = s := by
  unfold retryAdmit
  rcases idle with ahead | empty
  · rw [if_pos ahead]
  · rw [empty, ite_self]

end

/-- Settles O27: a request by the first of its home's tests that holds, a retry by whether one is ready. -/
theorem homeRequestsAreAdmittedOrQueued : Obligations.HomeRequestsAreAdmittedOrQueued := by
  refine ⟨?notYet, ?badEncoding, ?notTaken, ?taken, ?retry, ?noRetry⟩
  case notYet => exact fun s m e row waits => (exec_homeRow row m s).trans (finish_of_eq (homeReq_notYet waits))
  case badEncoding =>
    exact fun s m e row here inOrder bad => (exec_homeRow row m s).trans (finish_of_eq (homeReq_badEncoding here inOrder bad))
  case notTaken =>
    exact fun s m e row here inOrder sound =>
      ⟨fun dead => (exec_homeRow row m s).trans (finish_of_eq (homeReq_deadAgent here inOrder sound dead)),
        fun live stays => (exec_homeRow row m s).trans (finish_of_eq (homeReq_noTurn here inOrder sound live stays))⟩
  case taken =>
    intro s m e row arrives
    have takes := homeReq_taken arrives
    exact ⟨fun waits => (exec_homeRow row m s).trans (finish_of_eq (takes.trans (if_pos waits))),
      fun free => (exec_homeRow row m s).trans (finish_of_eq (takes.trans (if_neg (Bool.eq_false_iff.mp free))))⟩
  case retry => exact fun s h q turn ready => finish_of_eq (retryAdmit_ready turn ready)
  case noRetry => exact fun s h idle => finish_of_eq (retryAdmit_idle idle)

/-! ### Admission (R256, R257, R280, R281, R282, R283, R285) -/

section
variable {s : State} {m : Msg} {op : Nat} {e : WEnt}

/-- Evictions and a port's commit resolve at once. -/
theorem takeReq_resolves (resolves : op = 0x08 ∨ op = 0x09 ∨ op = 0x1C) : takeReq op m s = admitEvict op m (counted op m s) :=
  if_pos resolves

/-- From the EX holder: its data is kept as its operation asks, and the entry frees. -/
theorem admitEvict_holder (found : (renewed m.line s).warAt m.line = some e) (ex : e.ex = true) (sole : e.who = [m.agent]) :
    admitEvict op m s =
      let u := renewed m.line s
      reply (if op = 0x1C then 0x84 else 0x85) (newTxn s op m) id (delWar m.line
        (if op = 0x09 then putDirty m.line m.fclass m.qport m.data m.poison (fillVictim u (homeOf m.line) m.fclass) u
         else if op = 0x1C then putDirty m.line m.fclass m.qport m.data m.poison false u else u)) := by
  unfold admitEvict
  simp only [found, ex, sole, and_self, if_true]

/-- A clean eviction by one of the recorded sharers: its pointer goes, and the entry with the last. -/
theorem admitEvict_sharer (found : (renewed m.line s).warAt m.line = some e) (shared : e.ex = false) (pointers : e.coarse = false)
    (named : m.agent ∈ e.who) :
    admitEvict 0x08 m s = reply 0x85 (newTxn s 0x08 m) id
      (if e.who.length ≤ 1 then delWar m.line (renewed m.line s)
       else setWar m.line { e with who := e.who.filter (· != m.agent) } (renewed m.line s)) := by
  have clean : ¬(0x08 : Nat) = 0x1C := by decide
  unfold admitEvict
  simp only [found, shared, pointers, List.contains_iff_mem.mpr named, Bool.false_eq_true, false_and, Bool.not_false, and_self, if_true,
    if_neg clean, if_false]

/-- The entry, if there is one, does not record the agent as its holder, nor for EV_C by a pointer. -/
def Unrecorded (op a : Nat) (e : Option WEnt) : Prop :=
  ∀ x, e = some x → a ∉ x.who ∨ (x.ex = false ∧ (op ≠ 0x08 ∨ x.coarse = true))

theorem admitEvict_unrecorded (unrecorded : Unrecorded op m.agent ((renewed m.line s).warAt m.line)) :
    admitEvict op m s = reply (if op = 0x1C then 0x84 else 0x85) (newTxn s op m) id (renewed m.line s) := by
  unfold admitEvict
  cases found : (renewed m.line s).warAt m.line with
  | none => simp only [found]
  | some x =>
    have notHolder : ¬(x.ex = true ∧ x.who = [m.agent]) := by
      rintro ⟨ex, sole⟩
      rcases unrecorded x found with absent | ⟨shared, -⟩
      · exact absent (sole ▸ List.mem_singleton_self _)
      · rw [ex] at shared; cases shared
    have notSharer : ¬(op = 0x08 ∧ (!x.ex) = true ∧ (!x.coarse) = true ∧ x.who.contains m.agent = true) := by
      rintro ⟨clean, -, pointers, named⟩
      rcases unrecorded x found with absent | ⟨-, dirty | coarse⟩
      · exact absent (List.contains_iff_mem.mp named)
      · exact dirty clean
      · rw [coarse] at pointers; cases pointers
    simp only [found, if_neg notHolder, if_neg notSharer]

theorem opened_snoops (e : Option WEnt) : (opened op m e s).snoops = (snoopPlan op m.agent e).2 := rfl

theorem opened_wrData_false (e : Option WEnt) : (opened op m e s).wrData = false ↔ op ≠ 0x16 := beq_eq_false_iff_ne

/-- Any other request opens its transaction. -/
theorem takeReq_opens (clean : op ≠ 0x08) (dirty : op ≠ 0x09) (commit : op ≠ 0x1C) :
    takeReq op m s =
      (let u := counted op m s
       let e := u.warAt m.line
       let v := entryFor op m.line u
       let t := opened op m e v
       let w := setTxn m.line t (sendSnoops (snoopPlan op m.agent e).1 m.line (snoopPlan op m.agent e).2 v)
       let x := if op = 0x16 then reply 0x83 t id w else w
       proceed m.line (if t.owner = none ∧ needsData x t = true ∧ op ≠ 0x16 then seekData m.line t x else x)) := by
  have opens : ¬(op = 0x08 ∨ op = 0x09 ∨ op = 0x1C) := fun h => h.elim clean (fun h => h.elim dirty commit)
  unfold takeReq
  simp only [if_neg opens, opened_snoops, opened_wrData_false, Option.isNone_iff_eq_none, Bool.not_eq_true']

end

/-- Settles O28: an eviction by how the entry records its agent; any other request opens its transaction. -/
theorem admissionResolvesOrOpens : Obligations.AdmissionResolvesOrOpens := by
  refine ⟨?recorded, ?unrecorded, fun s m op clean dirty commit => takeReq_opens clean dirty commit⟩
  case recorded =>
    intro s m op e u t found
    refine ⟨?dirty, ?commit, ?clean, ?sharer⟩
    case dirty | commit | clean =>
      rintro rfl ex sole
      exact (takeReq_resolves (by decide)).trans (admitEvict_holder found ex sole)
    case sharer =>
      rintro rfl shared pointers named
      exact (takeReq_resolves (by decide)).trans (admitEvict_sharer found shared pointers named)
  case unrecorded =>
    intro s m op row u unrecorded
    have resolves : op = 0x08 ∨ op = 0x09 ∨ op = 0x1C := by simpa only [List.mem_cons, List.not_mem_nil, or_false] using row
    exact (takeReq_resolves resolves).trans (admitEvict_unrecorded unrecorded)

/-! ### Answers at the home (R259, R275, R280, R281, R284, R290, R304, R305) -/

section
variable {s : State} {m : Msg} {t : Txn} {ln : Nat}

theorem stray_eq (op : Nat) : stray m (takeNet op m s) =
    if s.deadAtSlice (homeOf m.line) m.agent = true then discardDead (homeOf m.line) (takeNet op m s) else takeNet op m s := by
  simp only [stray, takeNet_deadAtSlice]

theorem txnAt_none_of_openAt (nothing : openAt s ln = none) : s.txnAt ln = none := by
  unfold openAt at nothing
  split at nothing
  · cases nothing
  · assumption

/-- The model's test and the statement's on an old holder that keeps no copy: it held nothing, answered from its writeback
buffer, or is a port (R256, R285). -/
theorem keep_unless_givenUp (keep : Bool) (own : Prop) [Decidable own] (n a : Nat) :
    (keep && !(decide own && (!decide (n % 2 = 1) || decide (n / 8 % 2 = 1) || decide (272 ≤ a)))) =
      (keep && !decide (own ∧ (n % 2 = 0 ∨ n / 8 % 2 = 1 ∨ 272 ≤ a))) := by
  have notHeld : ¬n % 2 = 1 ↔ n % 2 = 0 := by omega
  simp only [Bool.decide_and, Bool.decide_or, ← decide_not, notHeld, Bool.or_assoc]

section
variable (here : inTransit s 0x80 m = false)
include here

theorem snpRsp_awaited (opened : openAt s m.line = some t) (awaited : m.agent ∈ t.snoops)
    (live : s.deadAtSlice (homeOf m.line) m.agent = false) :
    snpRsp m s = proceed m.line
      (let u := takeNet 0x80 m s
       let lost := m.arg / 16 % 2 = 1 ∧ t.owner = some m.agent
       let v := if lost then poisonLine m.line u else u
       modOpen m.line (fun x => { x with
         snoops := x.snoops.erase m.agent
         wbs := if m.arg / 2 % 2 = 1 ∧ m.agent ∉ x.early then x.wbs ++ [m.agent] else x.wbs
         early := x.early.erase m.agent
         keep := x.keep && !decide (t.owner = some m.agent ∧ (m.arg % 2 = 0 ∨ m.arg / 8 % 2 = 1 ∨ 272 ≤ m.agent))
         data := if lost then some (homeLine v m.line, true) else x.data }) v) := by
  unfold snpRsp
  simp only [arrive_here _ here, takeNet_openAt, takeNet_deadAtSlice, opened, awaited, live, not_true_eq_false,
    Bool.false_eq_true, false_and, or_self, if_false, keep_unless_givenUp, Bool.and_eq_true, decide_eq_true_eq, Bool.not_eq_true',
    List.contains_eq_mem, decide_eq_false_iff_not]

theorem snpRsp_stray (nothing : openAt s m.line = none) : snpRsp m s = stray m (takeNet 0x80 m s) := by
  unfold snpRsp
  simp only [arrive_here _ here, takeNet_openAt, nothing]

end

section
variable (here : inTransit s 0xC2 m = false)
include here

theorem wbData_awaited (opened : openAt s m.line = some t) (awaited : m.agent ∈ t.snoops ∨ m.agent ∈ t.wbs)
    (live : s.deadAtSlice (homeOf m.line) m.agent = false) :
    wbData m s = proceed m.line (modOpen m.line (fun t => { t with
      wbs := t.wbs.erase m.agent
      early := if m.agent ∈ t.wbs then t.early else t.early ++ [m.agent]
      data := some (m.data, m.poison)
      peer := true
      dirty := t.dirty || (m.arg % 2 == 1) }) (takeNet 0xC2 m s)) := by
  have known : ¬(m.agent ∉ t.snoops ∧ m.agent ∉ t.wbs) :=
    Classical.not_and_iff_not_or_not.mpr (awaited.imp not_not_intro not_not_intro)
  unfold wbData
  simp only [arrive_here _ here, takeNet_openAt, takeNet_deadAtSlice, opened, live, Bool.false_eq_true, false_or, Bool.not_eq_true',
    List.contains_eq_mem, decide_eq_false_iff_not, if_neg known, decide_eq_true_eq]

theorem wbData_stray (nothing : openAt s m.line = none) : wbData m s = stray m (takeNet 0xC2 m s) := by
  unfold wbData
  simp only [arrive_here _ here, takeNet_openAt, nothing]

end

section
variable (here : inTransit s 0x81 m = false)
include here

theorem cmpAck_awaited (opened : s.txnAt m.line = some t) (granted : t.ack.isSome = true) (requester : t.req.agent = m.agent)
    (live : s.deadAtSlice (homeOf m.line) m.agent = false) : cmpAck m s = closeTxn m.line (takeNet 0x81 m s) := by
  unfold cmpAck
  simp only [arrive_here _ here, takeNet_txnAt, takeNet_deadAtSlice, opened, granted, requester, live, Bool.not_false, and_self, if_true]

theorem cmpAck_stray (nothing : openAt s m.line = none) : cmpAck m s = stray m (takeNet 0x81 m s) := by
  unfold cmpAck
  simp only [arrive_here _ here, takeNet_txnAt, txnAt_none_of_openAt nothing]

end

section
variable (here : inTransit s 0xC3 m = false)
include here

theorem wrDataArr_awaited (opened : s.txnAt m.line = some t) (awaited : t.wrData = true) (requester : t.req.agent = m.agent)
    (live : s.deadAtSlice (homeOf m.line) m.agent = false) :
    wrDataArr m s = proceed m.line
      (setTxn m.line { t with wrData := false, req := { t.req with data := m.data, poison := m.poison } } (takeNet 0xC3 m s)) := by
  unfold wrDataArr
  simp only [arrive_here _ here, takeNet_txnAt, takeNet_deadAtSlice, opened, awaited, requester, live, Bool.not_false, and_self, if_true]

theorem wrDataArr_stray (nothing : openAt s m.line = none) : wrDataArr m s = stray m (takeNet 0xC3 m s) := by
  unfold wrDataArr
  simp only [arrive_here _ here, takeNet_txnAt, txnAt_none_of_openAt nothing]

end

theorem mdata_awaited (here : inTransit s 0xC8 m = false) (opened : s.txnAt m.line = some t) (reading : t.reading = true) :
    mdata m s = proceed m.line
      (let u := setTxn m.line { t with reading := false, data := some (m.data, m.poison) } (takeNet 0xC8 m s)
       if t.op = 0x10 ∨ ((t.op = 1 ∨ t.op = 2 ∨ t.op = 3 ∨ t.op = 0x1B) ∧ fillDram s (homeOf m.line) t.req.fclass = true) then
         unc (.llc (homeOf m.line)) 4 1 (llcFill m.line t.req.fclass t.req.qport m.data false m.poison u)
       else u) := by
  unfold mdata
  simp only [arrive_here _ here, takeNet_txnAt, takeNet_fillDram, opened, reading, Bool.not_true, Bool.false_eq_true, if_false]

theorem mcmp_awaited (here : inTransit s 0x88 m = false) (opened : s.txnAt m.line = some t) :
    mcmp m s = proceed m.line (setTxn m.line { t with writes := t.writes - 1 } (takeNet 0x88 m s)) := by
  unfold mcmp
  simp only [arrive_here _ here, takeNet_txnAt, opened]

section
variable (tracked : s.trkAt ln = some t)
include tracked

/-- With every response in and data there, a tracker writes dirty data and frees. -/
theorem trackerComplete_frees {d : Line} {po : Bool} (noSnoops : t.snoops = []) (noWbs : t.wbs = [])
    (turn : aheadOf s (homeOf ln) 2 = false) (given : t.data = some (d, po)) :
    trackerComplete ln s = occ (homeOf ln) (delTrk ln (if t.dirty then putDirty ln 0 0 d po false s else s)) := by
  unfold trackerComplete
  simp only [tracked, noSnoops, noWbs, turn, given, List.isEmpty_nil, Bool.not_true, Bool.false_eq_true, or_self, if_false]

theorem trackerComplete_waits (waits : t.snoops ≠ [] ∨ t.wbs ≠ [] ∨ aheadOf s (homeOf ln) 2 = true) : trackerComplete ln s = s := by
  unfold trackerComplete
  simp only [tracked, Bool.not_eq_true', List.isEmpty_eq_false_iff, if_pos waits]

end

end

/-- Settles O29: each message by what its line's transaction or tracker waits for. -/
theorem answersReachTheHome : Obligations.AnswersReachTheHome := by
  refine ⟨?snpRsp, ?wbData, ?cmpAck, ?wrData, ?mdata, ?mcmp, ?tracker, ?stray, ?underWay⟩
  case snpRsp => exact fun s m t opened awaited live here => finish_of_eq (snpRsp_awaited here opened awaited live)
  case wbData => exact fun s m t opened awaited live here => finish_of_eq (wbData_awaited here opened awaited live)
  case cmpAck =>
    exact fun s m t opened granted requester live here => finish_of_eq (cmpAck_awaited here opened granted requester live)
  case wrData =>
    exact fun s m t opened awaited requester live here => finish_of_eq (wrDataArr_awaited here opened awaited requester live)
  case mdata => exact fun s m t opened reading here => finish_of_eq (mdata_awaited here opened reading)
  case mcmp => exact fun s m t opened here => finish_of_eq (mcmp_awaited here opened)
  case tracker =>
    exact fun s ln t tracked =>
      ⟨fun noSnoops noWbs turn d po given => finish_of_eq (trackerComplete_frees tracked noSnoops noWbs turn given),
        fun waits => finish_of_eq (trackerComplete_waits tracked waits)⟩
  case stray =>
    exact fun s m nothing => ⟨fun here => finish_of_eq ((snpRsp_stray here nothing).trans (stray_eq 0x80)),
      fun here => finish_of_eq ((wbData_stray here nothing).trans (stray_eq 0xC2)),
      fun here => finish_of_eq ((cmpAck_stray here nothing).trans (stray_eq 0x81)),
      fun here => finish_of_eq ((wrDataArr_stray here nothing).trans (stray_eq 0xC3))⟩
  case underWay =>
    exact fun s m => ⟨fun way => finish_of_eq (arrive_underWay _ way), fun way => finish_of_eq (arrive_underWay _ way),
      fun way => finish_of_eq (arrive_underWay _ way), fun way => finish_of_eq (arrive_underWay _ way),
      fun way => finish_of_eq (arrive_underWay _ way), fun way => finish_of_eq (arrive_underWay _ way)⟩

/-! ### Worn ways (R263, R265, R266) -/

section
variable {s : State} {h me : Nat} {other : Bool}

theorem background_refused (act : State → State) (held : bgHeld s h me other = true) : background h me other act s = bgRefuse h s :=
  if_pos held

theorem background_turn (act : State → State) (turn : bgHeld s h me other = false) :
    background h me other act s = act (bgTake h me s) := if_neg (Bool.eq_false_iff.mp turn)

theorem bgTake_llcSweep : (bgTake h me s).fab.llcSweep = s.fab.llcSweep := rfl

theorem bgTake_warrenSweep : (bgTake h me s).fab.warrenSweep = s.fab.warrenSweep := rfl

theorem endLlcSweep_of_sweep {p : Nat} {steps : Bool} (sweeps : smFind s.fab.llcSweep h = some (p, steps)) :
    endLlcSweep h s =
      let u := llcEmptyWay h p s
      llcNextSweep h (llcSwept h (if steps then llcFailWay h p u else u)) := by
  unfold endLlcSweep
  simp only [sweeps]

theorem endWarSweep_of_sweep {w : Nat} {steps : Bool} (sweeps : smFind s.fab.warrenSweep h = some (w, steps)) :
    endWarSweep h s =
      let u := warEmptyWay h w s
      if warWayHeld h w u = true then u else warNextSweep h (warSwept h (if steps then warFailWay h w u else u)) := by
  unfold endWarSweep
  simp only [sweeps]

end

/-! ### The LLC commands (R251, R253, R271, R272) -/

section
variable {c : Cmd} {s : State}

/-- The value that MEM.FCLASS_SET asks for: two way masks and the fill bits. -/
def fclassAsked (c : Cmd) : Word :=
  BitVec.ofNat 64 (bytesAt c.body 3 2 + (bytesAt c.body 5 4 <<< 16) + (bytesAt c.body 6 6 <<< 32))

/-- MEM.FCLASS_SET names a class and two way masks, and R251 allows the value in every slice. -/
def FclassSetOk (c : Cmd) (s : State) : Prop :=
  bytesAt c.body 0 0 < 32 ∧ bytesAt c.body 3 2 < 4096 ∧ bytesAt c.body 5 4 < 4096 ∧
    ∀ h, h < 136 → fclassOk s h (bytesAt c.body 0 0) (fclassAsked c) = true

/-- The model's test is the negation of that. -/
theorem fclassSet_refuses_iff :
    (32 ≤ bytesAt c.body 0 0 ∨ 4096 ≤ bytesAt c.body 3 2 ∨ 4096 ≤ bytesAt c.body 5 4 ∨
      (!((List.range 136).all (fun h => fclassOk s h (bytesAt c.body 0 0) (fclassAsked c)))) = true) ↔ ¬FclassSetOk c s := by
  simp only [FclassSetOk, Classical.not_and_iff_not_or_not, Nat.not_lt, Bool.not_eq_true', ← Bool.not_eq_true,
    List.all_eq_true, List.mem_range]

theorem memFclassSet_writes (ok : FclassSetOk c s) (free : anyLlcLeased s = false) :
    memFclassSet c s =
      .done stOk [] (allSlices (fun h s => s.wr (.llc h) (Off.FCLASS + 8 * bytesAt c.body 0 0) (fclassAsked c)) s) :=
  (if_neg (mt fclassSet_refuses_iff.mp (not_not_intro ok))).trans (if_neg (Bool.eq_false_iff.mp free))

theorem memFclassSet_leased (ok : FclassSetOk c s) (leased : anyLlcLeased s = true) : memFclassSet c s = .fail stLeaseHeld s :=
  (if_neg (mt fclassSet_refuses_iff.mp (not_not_intro ok))).trans (if_pos leased)

theorem memFclassSet_badField (bad : ¬FclassSetOk c s) : memFclassSet c s = .fail stBadField s :=
  if_pos (fclassSet_refuses_iff.mpr bad)

/-- A field of MEM.LLC_RANGE is not legal. -/
abbrev RangeBad (c : Cmd) (s : State) : Prop :=
  bytesAt c.body 7 0 % 64 ≠ 0 ∨ bytesAt c.body 15 8 = 0 ∨ bytesAt c.body 15 8 % 64 ≠ 0 ∨ 2 ^ 43 < bytesAt c.body 15 8 ∨
    2 < bytesAt c.body 16 16 ∨ s.inBuffer (bytesAt c.body 7 0) (bytesAt c.body 15 8) = false

theorem memLlcRange_eq (c : Cmd) (s : State) : memLlcRange c s =
    let r := rangeOp (bytesAt c.body 16 16) (bytesAt c.body 7 0 / 64) ((bytesAt c.body 7 0 + bytesAt c.body 15 8) / 64) s
    if RangeBad c s then .fail stBadField s
    else if anyLlcLeased s = true then .fail stLeaseHeld s
    else .done stOk (leBytes 8 r.1 ++ leBytes 8 r.2.1) r.2.2 := by
  simp only [memLlcRange, Bool.not_eq_true']

/-- A cached line of MEM.LLC_RANGE's range is moving. -/
abbrev rangeMoving (c : Cmd) (s : State) : Bool :=
  (cachedLines s (bytesAt c.body 7 0 / 64) ((bytesAt c.body 7 0 + bytesAt c.body 15 8) / 64)).any (fun ln => lineMoving s ln)

theorem exec_memLlcRange {ch tag : Nat} (found : findCmd s ch tag 0x0342 = some c) :
    exec (.memLlcRange ch tag) s = finish s (if rangeMoving c s = true then s else runBelet 0x0342 ch tag memLlcRange s) := by
  show finish s _ = _
  rw [found]

/-- MEM.LLC_RANGE acts once no cached line of its range is moving. -/
theorem exec_memLlcRange_answers {ch tag : Nat} {t : State} (ready : Ready s ch tag 0x0342 c) (still : rangeMoving c s = false)
    (answer : finishCmd c (memLlcRange c s) = t) : exec (.memLlcRange ch tag) s = .next (settle s t) := by
  rw [exec_memLlcRange ready.found, if_neg (Bool.eq_false_iff.mp still)]
  exact belet_answers ready answer

end

/-- Settles O35: a sweep by whether it has its turn, a command by what its body answers. -/
theorem waysAndLlcCommands : Obligations.WaysAndLlcCommands := by
  refine ⟨?refused, ?llcSweep, ?warrenSweep, ?fclassSet, ?fclassGet, ?range⟩
  case refused =>
    exact fun s h => ⟨fun held => finish_of_eq (background_refused _ held), fun held => finish_of_eq (background_refused _ held)⟩
  case llcSweep =>
    exact fun s h p steps turn sweeps =>
      finish_of_eq ((background_turn _ turn).trans (endLlcSweep_of_sweep (bgTake_llcSweep.symm ▸ sweeps)))
  case warrenSweep =>
    intro s h w steps turn sweeps u
    have ends := (background_turn _ turn).trans (endWarSweep_of_sweep (s := bgTake h 2 s) (bgTake_warrenSweep.symm ▸ sweeps))
    exact ⟨fun held => finish_of_eq (ends.trans (if_pos held)),
      fun empty => finish_of_eq (ends.trans (if_neg (Bool.eq_false_iff.mp empty)))⟩
  case fclassSet =>
    intro s ch tag c ready b v ok
    exact ⟨fun allowed free => belet_answers (body := memFclassSet) ready (congrArg (finishCmd c) (memFclassSet_writes allowed free)),
      fun allowed leased => belet_answers (body := memFclassSet) ready (congrArg (finishCmd c) (memFclassSet_leased allowed leased)),
      fun bad => belet_answers (body := memFclassSet) ready (congrArg (finishCmd c) (memFclassSet_badField bad))⟩
  case fclassGet =>
    intro s ch tag c ready v
    exact ⟨fun named => belet_answers (body := memFclassGet) ready (congrArg (finishCmd c) (if_neg (Nat.not_le.mpr named))),
      fun reserved => belet_answers (body := memFclassGet) ready (congrArg (finishCmd c) (if_pos reserved))⟩
  case range =>
    intro s ch tag c ready a n op moving bad
    have body := congrArg (finishCmd c) (memLlcRange_eq c s)
    refine ⟨fun moves => ?_, fun still illegal => exec_memLlcRange_answers ready still ?_,
      fun still legal leased => exec_memLlcRange_answers ready still ?_, fun still legal free => exec_memLlcRange_answers ready still ?_⟩
    · rw [exec_memLlcRange ready.found, if_pos moves, finish_eq]
    · exact body.trans (congrArg (finishCmd c) (if_pos illegal))
    · exact body.trans (congrArg (finishCmd c) ((if_neg legal).trans (if_pos leased)))
    · exact body.trans (congrArg (finishCmd c) ((if_neg legal).trans (if_neg (Bool.eq_false_iff.mp free))))

end Sys2Proof.Machine

/-! ## The memory controllers: requests, DRAM commands, RETUNE, training, and the MEM commands for channels (family 11_dram_controller) -/
namespace Sys2Proof.Machine

/-! ### A memory request at its stop (R304 to R306, R308, R317, R450, R452, R454) -/

section
variable {s : State} {m : Msg} {n op : Nat}

theorem memRequest_behind (behind : headOfStop s op m = false) : memRequest op m s = s := by
  unfold memRequest
  rw [behind]
  exact if_pos rfl

theorem memRequest_controller (head : headOfStop s op m = true) (stop : m.agent ∈ mcStops) :
    memRequest op m s =
      if op = 0x20 then mcRead (mcStops.idxOf m.agent) m s else mcWrite (mcStops.idxOf m.agent) m s := by
  unfold memRequest
  rw [head, if_neg (by decide), if_pos (List.contains_iff_mem.mpr stop)]

theorem memRequest_hoard (head : headOfStop s op m = true) (stop : m.agent ∈ hoardStops) (other : m.agent ∉ mcStops) :
    memRequest op m s =
      if op = 0x20 then hoardRead (hoardStops.idxOf m.agent) m s else hoardWrite (hoardStops.idxOf m.agent) m s := by
  unfold memRequest
  rw [head, if_neg (by decide), if_neg (mt List.contains_iff_mem.mp other), if_pos (List.contains_iff_mem.mpr stop)]

theorem exec_mrd_controller (head : headOfStop s 0x20 m = true) (stop : m.agent ∈ mcStops) :
    exec (.mrd m) s = .next (settle s (mcRead (mcStops.idxOf m.agent) m s)) :=
  finish_of_eq ((memRequest_controller head stop).trans (if_pos rfl))

theorem exec_mwr_controller (head : headOfStop s 0x21 m = true) (stop : m.agent ∈ mcStops) :
    exec (.mwr m) s = .next (settle s (mcWrite (mcStops.idxOf m.agent) m s)) :=
  finish_of_eq ((memRequest_controller head stop).trans (if_neg (by decide)))

theorem exec_mrd_hoard (head : headOfStop s 0x20 m = true) (stop : m.agent ∈ hoardStops) (other : m.agent ∉ mcStops) :
    exec (.mrd m) s = .next (settle s (hoardRead (hoardStops.idxOf m.agent) m s)) :=
  finish_of_eq ((memRequest_hoard head stop other).trans (if_pos rfl))

theorem exec_mwr_hoard (head : headOfStop s 0x21 m = true) (stop : m.agent ∈ hoardStops) (other : m.agent ∉ mcStops) :
    exec (.mwr m) s = .next (settle s (hoardWrite (hoardStops.idxOf m.agent) m s)) :=
  finish_of_eq ((memRequest_hoard head stop other).trans (if_neg (by decide)))

/-! At a controller that takes flits. -/

theorem mcRead_queuedWrite (takes : mcTakes s n = true) (queued : m.line ∈ (s.mcs' n).wq) :
    mcRead n m s =
      let r := queuedLine n m.line (mcArrive n (takeNet 0x20 m s))
      sendMData (.mc n) m.line m.qport r.1.1 r.1.2 r.2 := by
  unfold mcRead
  simp only [takes, Bool.not_true, Bool.false_eq_true, if_false, if_pos (List.contains_iff_mem.mpr queued)]

/-- A read that no queued write serves joins its subchannel's queue, or stays where that is full. -/
theorem mcRead_unqueued (takes : mcTakes s n = true) (unqueued : m.line ∉ (s.mcs' n).wq) :
    mcRead n m s =
      if 128 ≤ ((s.mcs' n).rq.filter (fun e => e.line % 2 == m.line % 2)).length then s
      else
        let u := mcArrive n (takeNet 0x20 m s)
        mcOcc n (u.modMc n (fun x => { x with rq := x.rq ++ [(⟨m.line, m.qport, u.tick, targetCycles u n m.qport⟩ : MRead)] })) := by
  unfold mcRead
  simp only [takes, Bool.not_true, Bool.false_eq_true, if_false, if_neg (mt List.contains_iff_mem.mp unqueued)]

theorem mcWrite_room (takes : mcTakes s n = true) (room : wqRoom (s.mcs' n) m.line = true) :
    mcWrite n m s =
      let u := bwAdd (.mc n) (2 * m.qport + 1) 64 (wqPut n m.line m.data m.poison (mcArrive n (takeNet 0x21 m s)))
      if m.arg % 2 = 1 then post 0x88 { agent := m.agent, line := m.line } u else u := by
  simp only [mcWrite, takes, room, Bool.not_true, Bool.false_eq_true, if_false]

theorem mcWrite_noRoom (takes : mcTakes s n = true) (full : wqRoom (s.mcs' n) m.line = false) :
    mcWrite n m s = s.modMc n (fun x => { x with drain := insNat (m.line % 2) x.drain }) := by
  simp only [mcWrite, takes, full, Bool.not_true, Bool.not_false, Bool.false_eq_true, if_false, if_true]

/-! At a Hoard stop. -/

theorem hoardRead_clearing (clearing : bankSt s (hbankOf m.line) = 2) : hoardRead n m s = s := if_pos clearing

theorem hoardWrite_clearing (clearing : bankSt s (hbankOf m.line) = 2) : hoardWrite n m s = s := if_pos clearing

/-- A read of a bank that is not being cleared is counted; what it gets is for the bank's state to say. -/
theorem hoardRead_counted (ready : bankSt s (hbankOf m.line) ≠ 2) :
    hoardRead n m s =
      let u := unc (.hoard n) 1 1 (takeNet 0x20 m s)
      if bankServes u (hbankOf m.line) = true then
        sendMData (.hoard n) m.line m.qport (hoardLine m.line u).1.1 (hoardLine m.line u).1.2 (hoardLine m.line u).2
      else sendMData (.hoard n) m.line m.qport (freshLine (closedAccess n u)).1 true (freshLine (closedAccess n u)).2 :=
  if_neg ready

theorem hoardWrite_counted (ready : bankSt s (hbankOf m.line) ≠ 2) :
    hoardWrite n m s =
      let u := unc (.hoard n) 2 1 (takeNet 0x21 m s)
      let w := if bankServes u (hbankOf m.line) then
          setMemLine m.line m.data m.poison (eccWrite (bankBlk (hbankOf m.line)).stop 4 2 m.line u)
        else closedAccess n u
      if m.arg % 2 = 1 then post 0x88 { agent := m.agent, line := m.line } w else w :=
  if_neg ready

end

/-- Settles O36: a request by whether its turn has come, by its stop, and by the queues or the bank there. -/
theorem memoryRequestsAreTaken : Obligations.MemoryRequestsAreTaken := by
  refine ⟨?controller, ?hoard, fun s m => ⟨fun behind => finish_of_eq (memRequest_behind behind),
    fun behind => finish_of_eq (memRequest_behind behind)⟩⟩
  case controller =>
    rintro s m n stop rfl takes
    refine ⟨fun head queued => ?served, fun head unqueued => ⟨fun room => ?joins, fun full => ?stays⟩, fun head room => ?written,
      fun head full => ?drains⟩
    case served => rw [exec_mrd_controller head stop, mcRead_queuedWrite takes queued]
    case joins => rw [exec_mrd_controller head stop, mcRead_unqueued takes unqueued, if_neg (Nat.not_le.mpr room)]
    case stays => rw [exec_mrd_controller head stop, mcRead_unqueued takes unqueued, if_pos full]
    case written => rw [exec_mwr_controller head stop, mcWrite_room takes room]
    case drains => rw [exec_mwr_controller head stop, mcWrite_noRoom takes full]
  case hoard =>
    rintro s m n stop other rfl
    refine ⟨fun head ready => ⟨fun serves => ?read, fun closed => ?poison⟩, fun head ready => ?write, fun head clearing => ?readStays,
      fun head clearing => ?writeStays⟩
    case read => rw [exec_mrd_hoard head stop other, hoardRead_counted ready, if_pos serves]
    case poison => rw [exec_mrd_hoard head stop other, hoardRead_counted ready, if_neg (Bool.eq_false_iff.mp closed)]
    case write => rw [exec_mwr_hoard head stop other, hoardWrite_counted ready]
    case readStays => rw [exec_mrd_hoard head stop other, hoardRead_clearing clearing]
    case writeStays => rw [exec_mwr_hoard head stop other, hoardWrite_clearing clearing]

/-! ### DRAM commands and timers (R308 to R311, R314, R316 to R319, R343) -/

section
variable {s : State} {n sc : Nat} {busy bad : List Nat}

/-! What each command does. -/

theorem runCmd_refresh (rk : Nat) (ba : Option Nat) : runCmd n sc bad (.refresh rk ba) s =
    paidRefresh n (rankKey sc rk) ba (raaLess n (reaches sc rk ba) (unc (.mc n) 6 1 s)) := by
  rw [runCmd]

theorem runCmd_rfm (rk : Nat) (ba : Option Nat) : runCmd n sc bad (.rfm rk ba) s =
    raaLess n (reaches sc rk ba) (unc (.mc n) 7 1 s) := by
  rw [runCmd]

theorem runCmd_zq (rk : Nat) : runCmd n sc bad (.zq rk) s =
    s.modMc n (fun x => { x with zq := smSet (fun _ => 0) x.zq (rankKey sc rk) (smGet (fun _ => 0) x.zq (rankKey sc rk) - 1) }) := by
  rw [runCmd]

theorem runCmd_pre (b : Nat) : runCmd n sc bad (.pre b) s =
    let conflict : Bool := match openRow (s.mcs' n) b with | some r => bankMisses s n (s.mcs' n) b r | none => false
    (if conflict then unc (.mc n) 5 1 s else s).modMc n (fun x => { x with rows := smDel x.rows b, hits := smDel x.hits b }) := by
  unfold runCmd
  rfl

theorem runCmd_act (b row : Nat) (ten : Bool) : runCmd n sc bad (.act b row ten) s =
    (unc (.mc n) 4 1 s).modMc n (fun x => { x with
      rows := smPut x.rows b (row + 1)
      hits := smDel x.hits b
      raa := smPut x.raa b (raaOf x b + 1)
      tens := if ten then smPut x.tens b (tenActs s n (s.mcs' n) b + 1) else x.tens
      tenWin := if ten then smPut x.tenWin b ((unc (.mc n) 4 1 s).tick / refTicks (unc (.mc n) 4 1 s) n) else x.tenWin }) := by
  rw [runCmd]

theorem runCmd_read (r : MRead) : runCmd n sc bad (.read r) s =
    let c := cellAt s n r.line
    let u := (countHit n c (unc (.mc n) 1 1 s)).modMc n (fun x => { x with
      rq := x.rq.erase r
      lastReq := (countHit n c (unc (.mc n) 1 1 s)).tick
      bankPtr := if qosTen s n r.qport then smPut x.bankPtr sc ((c.bank + 1) % 4096) else x.bankPtr
      scrub := x.scrub.map (fun b => { b with demand := smPut b.demand sc (smGet (fun _ => 0) b.demand sc + 1) }) })
    let q := readBurst n r.line bad 0 u
    sendMData (.mc n) r.line r.qport q.2.1.1 q.2.1.2 q.2.2 := by
  rw [runCmd]

theorem runCmd_write (ln : Nat) : runCmd n sc bad (.write ln) s =
    let q := (queuedLine n ln (countHit n (cellAt s n ln) (unc (.mc n) 2 1 s))).2
    let u := q.modMc n (fun x => { x with wq := x.wq.erase ln, lastReq := q.tick })
    if ((u.mcs' n).wq.filter (fun l => l % 2 == sc)).length ≤ u.rf (.mc n) Off.SCHED 25 20 then
      u.modMc n (fun x => { x with drain := x.drain.filter (· != sc) }) else u := by
  rw [runCmd]

theorem runCmd_scrub : runCmd n sc bad .scrub s = scrubRead n sc bad s := by
  rw [runCmd]

/-- A subchannel of an active, powered controller issues what the order chooses, or nothing. -/
theorem dramIssue_active (mc : n < 16) (sub : sc < 2) (active : mcState s n = 2) (powered : s.pwr.memOn = true) :
    dramIssue n sc busy bad s = ((chooseCmd s n sc busy).map (fun c => mcOcc n (runCmd n sc bad c s))).getD s := by
  have issues : ¬(16 ≤ n ∨ 2 ≤ sc ∨ mcState s n ≠ 2 ∨ (!s.pwr.memOn) = true) := by
    simp only [active, powered, Bool.not_true, Bool.false_eq_true, ne_eq, not_true_eq_false, or_false]
    omega
  unfold dramIssue
  rw [if_neg issues]
  cases chooseCmd s n sc busy <;> rfl

theorem exec_dramCommandIssue_chosen {c : DCmd} {t : State} (mc : n < 16) (sub : sc < 2) (active : mcState s n = 2)
    (powered : s.pwr.memOn = true) (chosen : chooseCmd s n sc busy = some c) (effect : runCmd n sc bad c s = t) :
    exec (.dramCommandIssue n sc busy bad) s = .next (settle s (mcOcc n t)) :=
  finish_of_eq ((dramIssue_active mc sub active powered).trans (by rw [chosen, ← effect]; rfl))

theorem exec_dramCommandIssue_idle (mc : n < 16) (sub : sc < 2) (active : mcState s n = 2) (powered : s.pwr.memOn = true)
    (nothing : chooseCmd s n sc busy = none) : exec (.dramCommandIssue n sc busy bad) s = .next (settle s s) :=
  finish_of_eq ((dramIssue_active mc sub active powered).trans (by rw [nothing]; rfl))

end

section
variable {s : State} {n rk : Nat}

/-- A timer of a rank acts while its channel is active and the rank is there. -/
theorem rankTimer_acts (mc : n < 16) (active : mcState s n = 2) (rank : rk ∈ ranksOf (s.geom n)) :
    ¬(16 ≤ n ∨ mcState s n ≠ 2 ∨ (!(ranksOf (s.geom n)).contains rk) = true) := by
  simp only [active, List.contains_iff_mem.mpr rank, Bool.not_true, Bool.false_eq_true, ne_eq, not_true_eq_false, or_false, Nat.not_le, mc]

/-- An idle channel with SR_EN enters self-refresh. -/
theorem selfRefresh_idle (mc : n < 16) (active : mcState s n = 2) (enabled : s.rf (.mc n) Off.MC_CTL 3 3 = 1)
    (noReads : (s.mcs' n).rq = []) (noWrites : (s.mcs' n).wq = []) (noScrub : (s.mcs' n).scrub = none) :
    selfRefresh n s = setMcState n 3 (mcOcc n
      ((s.toTick ((s.mcs' n).lastReq + s.rf (.mc n) Off.MC_CTL 17 4 * us)).modMc n
        (fun x => { x with rows := [], hits := [], debt := [], ahead := [] }))) := by
  have enters : ¬(16 ≤ n ∨ mcState s n ≠ 2 ∨ s.rf (.mc n) Off.MC_CTL 3 3 = 0 ∨ (!(s.mcs' n).rq.isEmpty) = true ∨
      (!(s.mcs' n).wq.isEmpty) = true ∨ (s.mcs' n).scrub.isSome = true) := by
    rw [active, enabled, noReads, noWrites, noScrub]
    simpa using mc
  exact if_neg enters

/-- A queued read moves to its next window boundary; at its target it is counted. -/
theorem urgencyRise_crosses {ln e : Nat} {r : MRead} (queued : (s.mcs' n).rq.find? (fun r => r.line == ln) = some r)
    (next : (urgencyEdges r.tc).find? (fun e => decide ((s.tick - r.tick) * mcPerTick s n < e)) = some e) :
    urgencyRise n ln s =
      let u := s.toTick (r.tick + (e + mcPerTick s n - 1) / mcPerTick s n)
      if urgency u n r = 3 then unc (.mc n) 10 1 u else u := by
  simp only [urgencyRise, queued, next]

/-- ALERT_n of a channel that runs: it is counted, and the fourth in its window is reported. -/
theorem alertN_acts (mc : n < 16) (runs : mcState s n = 2 ∨ mcState s n = 3 ∨ mcState s n = 4) :
    alertN n s =
      let u := mcCause n 2 (s.incSat (.mc n) Off.MC_STATUS 47 40)
      let w := alertCount (u.mcs' n) u.tick
      let v := u.modMc n (fun y => { y with rows := [], hits := [], alertFrom := w.1, alertN := w.2 })
      if w.2 = 4 then
        emit [0, 1] 0x0381 0 0 (leBytes 1 n ++ leBytes 1 (v.rf (.mc n) Off.MC_STATUS 47 40))
          (report (Blk.mc n).inst 13 1 24 0 n 0x1FF 0 v)
      else v := by
  have there : [2, 3, 4].contains (mcState s n) = true := by simpa using runs
  have acts : ¬(16 ≤ n ∨ (!([2, 3, 4].contains (mcState s n))) = true) := by
    rw [there]
    simpa using mc
  exact if_neg acts

end

/-- Settles O37: a command by what the order chooses, the timers and ALERT_n by their rules. -/
theorem dramCommandsAndTimers : Obligations.DramCommandsAndTimers := by
  refine ⟨?issue, ?timers, ?selfRefresh, fun s n ln e r queued next => finish_of_eq (urgencyRise_crosses queued next),
    fun s n mc runs => finish_of_eq (alertN_acts mc runs)⟩
  case issue =>
    intro s n sc busy bad mc sub active powered go x
    refine ⟨fun rk ba refresh => ?refresh, fun rk ba rfm => ?rfm, fun rk zq => ?zq, fun b precharge => ?precharge,
      fun b row ten activate => ?activate, fun r read => ?read, fun ln write => ?write, fun scrub => ?scrub,
      fun nothing => exec_dramCommandIssue_idle mc sub active powered nothing⟩
    case refresh => exact exec_dramCommandIssue_chosen mc sub active powered refresh (runCmd_refresh rk ba)
    case rfm => exact exec_dramCommandIssue_chosen mc sub active powered rfm (runCmd_rfm rk ba)
    case zq => exact exec_dramCommandIssue_chosen mc sub active powered zq (runCmd_zq rk)
    case precharge => exact exec_dramCommandIssue_chosen mc sub active powered precharge (runCmd_pre b)
    case activate => exact exec_dramCommandIssue_chosen mc sub active powered activate (runCmd_act b row ten)
    case read => exact exec_dramCommandIssue_chosen mc sub active powered read (runCmd_read r)
    case write => exact exec_dramCommandIssue_chosen mc sub active powered write (runCmd_write ln)
    case scrub => exact exec_dramCommandIssue_chosen mc sub active powered scrub runCmd_scrub
  case timers =>
    intro s n rk mc active rank
    exact ⟨finish_of_eq (if_neg (rankTimer_acts mc active rank)), finish_of_eq (if_neg (rankTimer_acts mc active rank))⟩
  case selfRefresh =>
    exact fun s n mc active enabled noReads noWrites noScrub =>
      finish_of_eq (selfRefresh_idle mc active enabled noReads noWrites noScrub)

/-! ### RETUNE, training and retraining (R320 to R323, R329) -/

section
variable {s : State} {n p q : Nat}

/-- What the end of a phase before the last does, ahead of the next phase. -/
def phaseEffect (n p : Nat) (s : State) : State :=
  if p = 1 then s.modMc n (fun x => { x with rows := [], hits := [] })
  else if p = 2 then mcOcc n (s.modMc n (fun x => { x with debt := [], ahead := [] }))
  else if p = 3 then mcFreq n (s.wf (.mc n) Off.MC_STATUS 3 3 (1 - mcSet s n))
  else s

theorem phaseEnd_running (mc : n < 16) (phase : mcPhase s n = p) (started : p ≠ 0) (notLast : p ≠ 7)
    (next : ((List.range 7).map (· + 1)).find? (fun q => decide (p < q) && phaseApplies (phaseEffect n p s) n q) = some q) :
    phaseEnd n s = setMcPhase n q (phaseEffect n p s) := by
  subst phase
  have acts : ¬(16 ≤ n ∨ mcPhase s n = 0 ∨ mcPhase s n = 7) := by omega
  unfold phaseEnd
  unfold phaseEffect at next ⊢
  simp only [if_neg acts, next]

theorem phaseEnd_none (still : mcPhase s n = 0 ∨ mcPhase s n = 7) : phaseEnd n s = s := if_pos (.inr still)

theorem exec_retuneLockTimeout (mc : n < 16) (locking : mcPhase s n = 3) (differ : ratesDiffer s n = true) :
    exec (.retuneLockTimeout n) s = .next (settle s (setMcPhase n 4 (report (Blk.mc n).inst 13 1 24 0 n 0x1FF 0
      ((s.modMc n (fun x => { x with fellBack := true })).wf (.mc n) Off.RETUNE 7 7 1)))) := by
  have acts : ¬(16 ≤ n ∨ mcPhase s n ≠ 3 ∨ (!ratesDiffer s n) = true) := by
    rw [locking, differ]
    simpa using mc
  exact finish_of_eq (if_neg acts)

/-- A channel at the end of its RETUNE: active again, out of its phases, and the flag with the last of them. -/
def retuneEnded (n : Nat) (s : State) : State :=
  let u := setMcPhase n 0 (setMcState n 2 (mcCause n 0 ((s.wf (.mc n) Off.RETUNE 0 0 0).incWrap (.mc n) Off.RETUNE 15 8)))
  if anyRetune u then u else setMode 7 false u

/-- The event of a RETUNE's end. -/
def retuneEvent (n k : Nat) (s : State) : State :=
  emit [0, 1] 0x0380 0 0 (leBytes 1 n ++ leBytes 1 (mcRate s n) ++ leBytes 1 k) s

/-- What follows is for the job that the window was part of. -/
theorem retuneEnd_last (mc : n < 16) (last : mcPhase s n = 7) :
    retuneEnd n s =
      let fell := (s.mcs' n).fellBack
      let v := retuneEnded n s
      match (s.mcs' n).job with
      | .measure => v.modMc n (fun x => { x with job := .ready (v.tick + ms) })
      | .final =>
        let w := v.wf (.mc n) Off.MC_TEMP 15 8 (v.rf (.mc n) Off.MC_TEMP 7 0)
        retuneNext n fell (retuneEvent n 2 (w.modMc n (fun x => { x with job := .idle, trainedAt := w.tick })))
      | .rate => retuneNext n fell (retuneEvent n (b2n fell) (v.modMc n (fun x => { x with job := .idle })))
      | _ => retuneEvent n (b2n fell) v := by
  have acts : ¬(16 ≤ n ∨ mcPhase s n ≠ 7) := by omega
  unfold retuneEnd
  rw [if_neg acts]
  rfl

/-- A training operation that runs completes. -/
theorem trainDone_running {mis mrr : Nat} (mc : n < 16) (runs : s.rf (.mc n) Off.TRAIN_CTL 7 7 = 1) :
    trainDone n mis mrr s =
      let w := s.rd (.mc n) Off.TRAIN_CTL
      let op := fld w 2 0
      let pat := (List.range 8).flatMap (fun i => leBytes 8 (s.rd (.mc n) (Off.TRAIN_PAT + 8 * i)).toNat)
      let u := if op = 0 then
          (trainLines s n w (s.rd (.mc n) Off.TRAIN_ADDR)).foldl (fun s ln => setMemLine ln (lineOfBytes pat) false s) s
        else s
      mcCause n 3 ((u.wr (.mc n) Off.TRAIN_RESULT (BitVec.ofNat 64
        ((if op ≤ 1 then mis % 2 ^ 40 else 0) + 2 ^ 40 + (if op = 3 then mrr % 256 * 2 ^ 48 else 0)))).wf (.mc n) Off.TRAIN_CTL 7 7 0) := by
  have acts : ¬(16 ≤ n ∨ s.rf (.mc n) Off.TRAIN_CTL 7 7 = 0) := by omega
  exact if_neg acts

theorem trainDone_none {mis mrr : Nat} (still : s.rf (.mc n) Off.TRAIN_CTL 7 7 = 0) : trainDone n mis mrr s = s := if_pos (.inr still)

/-! The Sett's own windows. -/

/-- The Sett may open a window on the channel. -/
structure RetrainAllowed (n : Nat) (s : State) : Prop where
  mc : n < 16
  noRetune : anyRetune s = false
  free : s.leased (mcInst n) = false
  serves : s.serving = true
  noHandover : s.modeFlag 9 = false

theorem RetrainAllowed.not_held (may : RetrainAllowed n s) :
    ¬(16 ≤ n ∨ anyRetune s = true ∨ s.leased (mcInst n) = true ∨ (!s.serving) = true ∨ s.modeFlag 9 = true) := by
  obtain ⟨mc, noRetune, free, serves, noHandover⟩ := may
  rw [noRetune, free, serves, noHandover]
  simpa using mc

/-- How far the channel's temperature lies from that of its last training. -/
abbrev retrainDrift (n : Nat) (s : State) : Nat :=
  (degrees (s.rf (.mc n) Off.MC_TEMP 7 0) - degrees (s.rf (.mc n) Off.MC_TEMP 15 8)).natAbs

/-- The channel has drifted, or its interval has passed. -/
abbrev RetrainNeeded (n : Nat) (s : State) : Prop :=
  retrainDrift n s > (retrainCfg s).1 ∨
    ((retrainCfg s).2 ≠ 0 ∧ (s.mcs' n).trainedAt + (retrainCfg s).2 * 1000 * ms ≤ s.tick)

variable {ds : List (Nat × Nat)}

/-- With no job under way a channel that needs it, and is active or in self-refresh, starts a measuring window. -/
theorem retrainDue_needed (may : RetrainAllowed n s) (idle : (s.mcs' n).job = .idle) (runs : mcState s n = 2 ∨ mcState s n = 3)
    (needed : RetrainNeeded n s) : retrainDue n ds s = startChannel n 0 s := by
  have serving : ¬(mcState s n ≠ 2 ∧ mcState s n ≠ 3) := by omega
  simp only [retrainDue, if_neg may.not_held, idle, if_neg serving, decide_eq_true_eq]
  by_cases drifted : retrainDrift n s > (retrainCfg s).1
  · exact if_pos drifted
  · have passed : ¬((retrainCfg s).2 = 0 ∨ s.tick < (s.mcs' n).trainedAt + (retrainCfg s).2 * 1000 * ms) := by
      obtain ⟨timed, late⟩ := needed.resolve_left drifted
      exact not_or.mpr ⟨timed, Nat.not_lt.mpr late⟩
    rw [if_neg drifted, if_neg passed]

theorem retrainDue_notNeeded (may : RetrainAllowed n s) (idle : (s.mcs' n).job = .idle) (near : retrainDrift n s ≤ (retrainCfg s).1)
    (recent : (retrainCfg s).2 = 0 ∨ s.tick < (s.mcs' n).trainedAt + (retrainCfg s).2 * 1000 * ms) : retrainDue n ds s = s := by
  simp only [retrainDue, if_neg may.not_held, idle, decide_eq_true_eq, if_neg (Nat.not_lt.mpr near), if_pos recent, ite_self]

theorem retrainDue_ready {due : Nat} (may : RetrainAllowed n s) (measured : (s.mcs' n).job = .ready due) :
    retrainDue n ds s =
      let u := ds.foldl (fun s d =>
        if d.1 < 512 then s.wr (.mc n) (setOff (Off.DELAY_A + 4 * d.1) (1 - mcSet s n)) (BitVec.ofNat 64 (d.2 % 2 ^ 31)) else s) (s.toTick due)
      settRetune n true 0 (u.modMc n (fun x => { x with job := .final })) := by
  simp only [retrainDue, if_neg may.not_held, measured]

end

/-- Settles O38: a phase and the end by where the channel stands, the end by its job, a retraining by what the job and the drift are. -/
theorem retuneTrainingAndRetraining : Obligations.RetuneTrainingAndRetraining := by
  refine ⟨?phaseEnd, fun s n still => finish_of_eq (phaseEnd_none still), fun s n mc locking differ => exec_retuneLockTimeout mc locking differ,
    ?ends, fun s n mis mrr mc runs => finish_of_eq (trainDone_running mc runs),
    fun s n mc still mis mrr => finish_of_eq (trainDone_none still), ?retrain⟩
  case phaseEnd =>
    intro s n p q mc phase started notLast u next
    exact finish_of_eq (phaseEnd_running mc phase started notLast next)
  case ends =>
    intro s n mc last u v fell event
    have ends := retuneEnd_last mc last
    refine ⟨fun idle => finish_of_eq (ends.trans ?_), fun measured => finish_of_eq (ends.trans ?_), fun rate => finish_of_eq (ends.trans ?_),
      fun final => finish_of_eq (ends.trans ?_)⟩
    · rw [idle]; rfl
    · rw [measured]; rfl
    · rw [rate]; rfl
    · rw [final]; rfl
  case retrain =>
    intro s n ds mc noRetune free serves noHandover drift
    have may : RetrainAllowed n s := ⟨mc, noRetune, free, serves, noHandover⟩
    exact ⟨fun idle runs needed => finish_of_eq (retrainDue_needed may idle runs needed),
      fun idle near recent => finish_of_eq (retrainDue_notNeeded may idle near recent),
      fun due measured => finish_of_eq (retrainDue_ready may measured)⟩

/-! ### The MEM commands for channels (R64, R331, R332) -/

section
variable {c : Cmd} {s : State}

/-- A field of MEM.QOS_SET is not legal. -/
abbrev QosBad (c : Cmd) : Prop := 64 ≤ bytesAt c.body 0 0 ∨ bytesAt c.body 3 2 < 16 ∨ 1 < bytesAt c.body 4 4

/-- The channels that MEM.RETUNE names. -/
abbrev retuneChans (c : Cmd) : List Nat := (List.range 16).filter (fun k => (bytesAt c.body 1 0).testBit k)

/-- MEM.RETUNE names no channel, no rate, or a channel not trained at that rate. -/
abbrev RetuneBad (c : Cmd) (s : State) : Prop :=
  bytesAt c.body 1 0 = 0 ∨ 9 < bytesAt c.body 2 2 ∨
    (bytesAt c.body 2 2 ≠ 0 ∧ (retuneChans c).any (fun k => (trainingOf s k (bytesAt c.body 2 2)).isNone) = true)

/-- Some channel is in a RETUNE, or a named one is between two windows of one. -/
abbrev RetuneBusy (c : Cmd) (s : State) : Prop := anyRetune s = true ∨ (retuneChans c).any (fun k => (s.mcs' k).job != .idle) = true

/-- MEM.RETUNE answers the first of its tests that fails, or starts the lowest channel. -/
theorem exec_memRetune {ch tag : Nat} (ready : Ready s ch tag 0x0304 c) :
    exec (.memRetune ch tag) s = .next (settle s
      (if RetuneBad c s then respond c stBadField [] s
       else if (retuneChans c).any (fun k => s.leased (mcInst k)) = true then respond c stLeaseHeld [] s
       else if RetuneBusy c s then respond c stBusy [] s
       else setPhase c.ord .running [bytesAt c.body 1 0, 0, 0, bytesAt c.body 2 2]
         (startChannel ((lowBit (bytesAt c.body 1 0)).getD 0) (bytesAt c.body 2 2) s))) := by
  refine belet_answers (body := memRetune) ready ?_
  simp only [memRetune, apply_ite (finishCmd c), finishCmd_fail, finishCmd_run]

/-- A command that writes all channels fails on its fields, then on a lease, and else writes. -/
theorem writesAll_answers {ch tag op : Nat} {body : Cmd → State → CmdRes} {bad : Prop} [Decidable bad] {f : Nat → State → State}
    (ready : Ready s ch tag op c)
    (acts : body c s =
      if bad then .fail stBadField s else if anyMcLeased s = true then .fail stLeaseHeld s else .done stOk [] (allMcs f s)) :
    (bad → finish s (runBelet op ch tag body s) = .next (settle s (respond c stBadField [] s))) ∧
    (¬bad → anyMcLeased s = true → finish s (runBelet op ch tag body s) = .next (settle s (respond c stLeaseHeld [] s))) ∧
    (¬bad → anyMcLeased s = false → finish s (runBelet op ch tag body s) = .next (settle s (respond c stOk [] (allMcs f s)))) := by
  refine ⟨fun illegal => belet_answers ready ?_, fun legal leased => belet_answers ready ?_, fun legal free => belet_answers ready ?_⟩
  · rw [acts, if_pos illegal, finishCmd_fail]
  · rw [acts, if_neg legal, if_pos leased, finishCmd_fail]
  · rw [acts, if_neg legal, if_neg (Bool.eq_false_iff.mp free), finishCmd_done]

/-- R330's and R5's tests of a SCHED value, and its reserved bits. -/
abbrev SchedBad (w : Word) : Prop := schedOk w = false ∨ fld w 13 13 ≠ 0 ∨ fld w 63 43 ≠ 0

theorem memSchedSet_eq (c : Cmd) (s : State) : memSchedSet c s =
    if SchedBad (BitVec.ofNat 64 (bytesAt c.body 7 0)) then .fail stBadField s
    else if anyMcLeased s = true then .fail stLeaseHeld s
    else .done stOk [] (allMcs (fun n s => s.wr (.mc n) Off.SCHED (BitVec.ofNat 64 (bytesAt c.body 7 0))) s) := by
  simp only [memSchedSet, Bool.not_eq_true']

end

/-- Settles O39: each row answers what its command's body answers in that case. -/
theorem channelCommands : Obligations.ChannelCommands := by
  refine ⟨?info, ?qosSet, ?qosGet, ?retune, ?retrainCfg, fun s ch tag c ready => writesAll_answers (body := memSrCfg) ready rfl,
    fun s ch tag c ready => writesAll_answers (body := memSchedSet) ready (memSchedSet_eq c s)⟩
  case info =>
    intro s ch tag c ready n
    exact ⟨fun named => belet_answers (body := memChanInfo) ready (congrArg (finishCmd c) (if_neg (Nat.not_le.mpr named))),
      fun reserved => belet_answers (body := memChanInfo) ready (congrArg (finishCmd c) (if_pos reserved))⟩
  case qosSet =>
    intro s ch tag c ready q ns k
    have legal (port : q < 64) (target : 16 ≤ ns) (kind : k ≤ 1) : ¬QosBad c := by omega
    obtain ⟨badField, leaseHeld, writes⟩ := writesAll_answers (bad := QosBad c) (body := memQosSet) ready rfl
    exact ⟨badField, fun port target kind => leaseHeld (legal port target kind), fun port target kind => writes (legal port target kind)⟩
  case qosGet =>
    intro s ch tag c ready q v
    exact ⟨fun named => belet_answers (body := memQosGet) ready (congrArg (finishCmd c) (if_neg (Nat.not_le.mpr named))),
      fun reserved => belet_answers (body := memQosGet) ready (congrArg (finishCmd c) (if_pos reserved))⟩
  case retune =>
    intro s ch tag c ready mask rate chs bad
    refine ⟨fun illegal => ?badField, fun legal leased => ?leaseHeld, fun legal free => ⟨fun works => ?busy, fun idle => ?starts⟩⟩
    case badField => rw [exec_memRetune ready, if_pos illegal]
    case leaseHeld => rw [exec_memRetune ready, if_neg legal, if_pos leased]
    case busy => rw [exec_memRetune ready, if_neg legal, if_neg (Bool.eq_false_iff.mp free), if_pos works]
    case starts => rw [exec_memRetune ready, if_neg legal, if_neg (Bool.eq_false_iff.mp free), if_neg idle]
  case retrainCfg =>
    intro s ch tag c ready d iv bad
    refine ⟨fun illegal => belet_answers (body := memRetrainCfg) ready ?_, fun legal room => belet_answers (body := memRetrainCfg) ready ?_⟩
    · exact congrArg (finishCmd c) (if_pos illegal)
    · exact (congrArg (finishCmd c) (if_neg legal)).trans (finishCmd_commit_one room)

/-! ### Writes of a controller's registers that break their limits (R303, R330) -/

section
variable {who : Agent} {d : RegDef} {x : Word} {s : State} {n : Nat}

theorem regPut_geom_refused (w : Word) (merged : mergeReg true d (s.rd (.mc n) Off.GEOM) x = w)
    (refused : s.rf (.mc n) Off.MC_CTL 0 0 = 1 ∨ 19 < (geomOf w).rank + (geomOf w).cid + (geomOf w).row) :
    regPut who (.mc n) d Off.GEOM x s = s := by
  have beyond : s.rf (.mc n) Off.MC_CTL 0 0 = 1 ∨ (!geomOk (geomOf w)) = true := by
    simpa only [geomOk, Bool.not_eq_true', decide_eq_false_iff_not, Nat.not_le] using refused
  rw [regPut_mc (by decide), merged]
  exact if_pos beyond

/-- R330's limits of SCHED are among those that a write keeps. -/
theorem schedOk_limits {w : Word} (ok : schedOk w = true) : fld w 25 20 + 8 ≤ fld w 19 14 ∧ fld w 34 27 ≤ fld w 42 35 := by
  simp only [schedOk, Bool.and_eq_true, decide_eq_true_eq] at ok
  obtain ⟨⟨-, drain⟩, activates⟩ := ok
  exact ⟨drain, activates⟩

theorem mcPut_sched {w : Word} : mcPut n Off.SCHED x w s = if schedOk w then s.wr (.mc n) Off.SCHED w else s := by
  have geom : Off.SCHED ≠ Off.GEOM := by decide
  unfold mcPut
  rw [if_neg geom, if_pos rfl]

theorem regPut_sched_refused (w : Word) (merged : mergeReg true d (s.rd (.mc n) Off.SCHED) x = w)
    (refused : fld w 19 14 < fld w 25 20 + 8 ∨ fld w 42 35 < fld w 34 27) : regPut who (.mc n) d Off.SCHED x s = s := by
  have broken : ¬schedOk w = true := fun ok => by
    obtain ⟨drain, activates⟩ := schedOk_limits ok
    omega
  rw [regPut_mc (by decide), merged, mcPut_sched, if_neg broken]

theorem mcPut_retune {w : Word} : mcPut n Off.RETUNE x w s = retuneWrite n x s := by
  have geom : Off.RETUNE ≠ Off.GEOM := by decide
  have sched : Off.RETUNE ≠ Off.SCHED := by decide
  unfold mcPut
  rw [if_neg geom, if_neg sched, if_pos rfl]

theorem regPut_retune_running (runs : s.rf (.mc n) Off.RETUNE 0 0 = 1) : regPut who (.mc n) d Off.RETUNE x s = s := by
  rw [regPut_mc (by decide), mcPut_retune, retuneWrite, if_pos runs]

theorem regPut_trainCtl_running (runs : s.rf (.mc n) Off.TRAIN_CTL 7 7 = 1) : regPut who (.mc n) d Off.TRAIN_CTL x s = s := by
  rw [regPut_trainCtl, trainWrite, if_pos runs]

end

/-- The general row of a whole write that leaves the register as it was. -/
theorem exec_regWrite_unchanged {s : State} {who : Agent} {b : Blk} {o size : Nat} {v : Word} {d : RegDef} (open_ : OpenWrite s who b o size d)
    (refused : regPut who b d o (asked d (s.rd b o) v size) s = s) :
    exec (.regWrite who (.ocr (regOff b o) size) v) s = .next (settle s (ackWrite who (regOff b o) s)) :=
  finish_of_eq ((regWrite_open v open_).trans (by rw [refused]))

/-- Settles O60: each write is acknowledged, and the effect of its register is none. -/
theorem refusedControllerWritesChangeNothing : Obligations.RefusedControllerWritesChangeNothing := by
  intro s who n v d b w same
  exact ⟨fun open_ refused => exec_regWrite_unchanged open_ (regPut_geom_refused _ rfl refused),
    fun open_ refused => exec_regWrite_unchanged open_ (regPut_sched_refused _ rfl refused),
    fun open_ runs => regRow_effect open_ (regPut_retune_running runs),
    fun open_ runs => regRow_effect open_ (regPut_trainCtl_running runs)⟩

end Sys2Proof.Machine

/-! ## Memory integrity: scrubs, the error log, the address maps, retirement, row repair, erasure (family 12_memory_integrity) -/
namespace Sys2Proof.Machine

/-! ### Scrubs (R343, R344) -/

section
variable {s : State} {n : Nat} {b : ScrubSt}

theorem exec_scrubEnd (scrubs : (s.mcs' n).scrub = some b) :
    exec (.scrubEnd n) s = .next (settle s (if b.left = 0 then scrubStop n false s else s)) := by
  show finish s _ = _
  rw [scrubs, finish_eq]

end

section
variable {c : Cmd} {s : State} {ch tag : Nat}

/-- MEM.SCRUB does not start: a channel scrubs, and no lease makes the command fail. -/
abbrev ScrubWaits (s : State) : Prop := anyMcLeased s = false ∧ (List.range 16).any (fun k => (s.mcs' k).scrub.isSome) = true

theorem exec_memScrub (ch tag : Nat) (s : State) :
    exec (.memScrub ch tag) s = finish s (if ScrubWaits s then s else runBelet 0x0360 ch tag memScrub s) := by
  show finish s _ = _
  simp only [Bool.not_eq_true']

theorem exec_memScrub_waits (waits : ScrubWaits s) : exec (.memScrub ch tag) s = .next (settle s s) := by
  rw [exec_memScrub, if_pos waits, finish_eq]

theorem exec_memScrub_answers {t : State} (ready : Ready s ch tag 0x0360 c) (turn : ¬ScrubWaits s)
    (answer : finishCmd c (memScrub c s) = t) : exec (.memScrub ch tag) s = .next (settle s t) := by
  rw [exec_memScrub, if_neg turn]
  exact belet_answers ready answer

/-- MEM.SCRUB tests its range, then the leases, and starts all channels. -/
theorem memScrub_answer (c : Cmd) (s : State) :
    finishCmd c (memScrub c s) =
      if dramRange s (bytesAt c.body 7 0) (bytesAt c.body 15 8) = false ∨ 2 ^ 34 < bytesAt c.body 15 8 then respond c stBadField [] s
      else if anyMcLeased s = true then respond c stLeaseHeld [] s
      else setPhase c.ord .running [s.tick] (scrubAll (bytesAt c.body 7 0) (bytesAt c.body 15 8) s) := by
  simp only [memScrub, apply_ite (finishCmd c), Bool.not_eq_true', finishCmd_fail, finishCmd_run]

end

/-! ### Commands that show a record or a map in the client's buffer (R49, R345 to R348) -/

section
variable (c : Cmd) (s : State)

/-- The records that MEM.ERRLOG_READ puts into its buffer. -/
abbrev errlogShown : List ErrRec :=
  (s.elog.recs.filter (fun e => decide (bytesAt c.body 23 16 ≤ e.seq))).take (bufLen c / 64)

/-- The log's count of lost records is read after the buffer is written, which leaves it. -/
theorem memErrlogRead_answer :
    finishCmd c (memErrlogRead c s) =
      if bufOk s c = false then respond c stBadBuffer [] s
      else respond c stOk (leBytes 2 (errlogShown c s).length ++ leBytes 8 (((errlogShown c s).head?.map (·.seq)).getD 0) ++
        leBytes 8 (((errlogShown c s).getLast?.map (·.seq)).getD 0) ++ leBytes 4 s.elog.lost)
        (settWr (bufPa c) ((errlogShown c s).flatMap (fun (e : ErrRec) => e.bytes)) s) := by
  simp only [memErrlogRead, apply_ite (finishCmd c), Bool.not_eq_true', finishCmd_fail, finishCmd_done, settWr_elog]

theorem memMapPa_answer :
    finishCmd c (memMapPa c s) =
      if s.org.installed ≤ bytesAt c.body 7 0 then respond c stBadField [] s
      else respond c stOk (cellBytes s (bytesAt c.body 7 0)) s := by
  simp only [memMapPa, apply_ite (finishCmd c), finishCmd_fail, finishCmd_done]

/-- The row number by which MEM.MAP_BANK names every row of the bank. -/
abbrev everyRow : Nat := 0xFFFFFFFF

/-- MEM.MAP_BANK names a channel, a bank or a row that is not there. -/
abbrev MapBankBad : Prop :=
  16 ≤ bytesAt c.body 16 16 ∨ placeOk (s.geom (bytesAt c.body 16 16)) (bytesAt c.body 17 17) (bytesAt c.body 18 18) = false ∨
    (bytesAt c.body 23 20 ≠ everyRow ∧ 2 ^ (s.geom (bytesAt c.body 16 16)).row ≤ bytesAt c.body 23 20)

/-- The rows that MEM.MAP_BANK asks about. -/
abbrev mappedRows : List Nat :=
  if bytesAt c.body 23 20 = everyRow then List.range (2 ^ (s.geom (bytesAt c.body 16 16)).row) else [bytesAt c.body 23 20]

/-- The address ranges that MEM.MAP_BANK puts into its buffer. -/
abbrev bankRanges : List (Nat × Nat) :=
  (((mappedRows c s).foldl (fun acc r => mergeBlocks acc (rowBlock (s.geom (bytesAt c.body 16 16))
    (placeOf (bytesAt c.body 17 17) (bytesAt c.body 18 18) r))) []).reverse).take (bufLen c / 16)

theorem memMapBank_answer :
    finishCmd c (memMapBank c s) =
      if MapBankBad c s then respond c stBadField [] s
      else if bufOk s c = false then respond c stBadBuffer [] s
      else respond c stOk (leBytes 4 (bankRanges c s).length)
        (settWr (bufPa c) ((bankRanges c s).flatMap (fun (e : Nat × Nat) => leBytes 8 e.1 ++ leBytes 8 e.2)) s) := by
  simp only [memMapBank, apply_ite (finishCmd c), Bool.not_eq_true', beq_iff_eq, beq_eq_false_iff_ne, finishCmd_fail, finishCmd_done]

theorem memRetireList_answer :
    finishCmd c (memRetireList c s) =
      let rs := s.flash.jst.retired.take (bufLen c / 16)
      if bufOk s c = false then respond c stBadBuffer [] s
      else respond c stOk (leBytes 2 rs.length)
        (settWr (bufPa c) (rs.flatMap (fun (e : Nat × Nat) => leBytes 8 e.1 ++ leBytes 8 e.2)) s) := by
  simp only [memRetireList, apply_ite (finishCmd c), Bool.not_eq_true', finishCmd_fail, finishCmd_done]

end

/-! ### Commands that journal a change (R338, R348 to R351) -/

section
variable {c : Cmd} {s : State}

theorem memRetire_answer (room : jrnHasRoom s = true) :
    finishCmd c (memRetire c s) =
      if dramRange s (bytesAt c.body 7 0) (bytesAt c.body 15 8) = false then respond c stBadField [] s
      else if 1024 ≤ s.flash.jst.retired.length then respond c stNoResource [] s
      else enqueueRec (some c.ord) false (.memRetire (bytesAt c.body 7 0) (bytesAt c.body 15 8)) (setPhase c.ord .committing [] s) := by
  simp only [memRetire, apply_ite (finishCmd c), Bool.not_eq_true', finishCmd_fail, finishCmd_commit_one room]

theorem memErase_answer (room : jrnHasRoom s = true) :
    finishCmd c (memErase c s) =
      let f := fun k => bytesAt c.body k k
      if 16 ≤ f 0 ∨ 4 ≤ f 1 ∨ 2 ≤ f 2 ∨ (10 ≤ f 3 ∧ f 3 ≠ 15) then respond c stBadField [] s
      else if s.leased (mcInst (f 0)) = true then respond c stLeaseHeld [] s
      else enqueueRec (some c.ord) false (.dramErase (f 0) (f 1) (f 2) (f 3)) (setPhase c.ord .committing [] s) := by
  simp only [memErase, apply_ite (finishCmd c), finishCmd_fail, finishCmd_commit_one room]

/-- A legal repair is done at once where it is soft and the mode allows it, and journalled otherwise; DIAGNOSTIC restores the row
in both cases. -/
theorem memRowRepair_answer (room : jrnHasRoom (restoreRow c s) = true) :
    finishCmd c (memRowRepair c s) =
      let r := repairOf c (repairNow s)
      if repairBad s c = true then respond c stBadField [] s
      else if spareRowUsed s r = true then respond c stNoResource [] s
      else if repairNow s = true ∧ r.hard = false then respond c stOk (leBytes 1 0) (restoreRow c s)
      else enqueueRec (some c.ord) false (.rowRepair r) (setPhase c.ord .committing [] (restoreRow c s)) := by
  simp only [memRowRepair, apply_ite (finishCmd c), Bool.not_eq_true', finishCmd_fail, finishCmd_done, finishCmd_commit_one room]

/-- A legal repair that does not complete is journalled as the DIMM shows it, reported, and fails TIMEOUT. -/
theorem repairTimeout_legal {consumed : Bool} (legal : repairBad s c = false) (spare : spareRowUsed s (repairOf c false) = false) :
    repairTimeout consumed c s =
      let applied := consumed && (repairOf c false).hard
      .done stTimeout (leBytes 1 (b2n !applied)) (report (mcInst (bytesAt c.body 0 0)) 13 1 24 0 0 0x1FF 0
        (journal (.rowRepair (repairOf c applied)) (restoreRow c { s with tick := s.tick + 2000 * ms }))) := by
  unfold repairTimeout
  rw [if_neg (Bool.eq_false_iff.mp legal), if_neg (Bool.eq_false_iff.mp spare)]

/-- In BRINGUP and DIAGNOSTIC the timeout ends the channel's oldest repair. -/
theorem exec_rowRepairTimeout {mc : Nat} (consumed : Bool) (repairs : repairNow s = true)
    (oldest : s.sett.cmds.find? (fun c => c.opcode == 0x0366 && c.phase == .accepted && bytesAt c.body 0 0 == mc) = some c) :
    exec (.rowRepairTimeout mc consumed) s = finish s (runBelet 0x0366 c.ch c.tag (repairTimeout consumed) s) := by
  show finish s _ = _
  rw [oldest, repairs]
  rfl

end

/-- Settles O40: SCRUB_END by the lines left, MEM.SCRUB by whether it waits, and each other row by what its command's body answers. -/
theorem integrityCommands : Obligations.IntegrityCommands := by
  refine ⟨?scrubEnd, ?scrub, fun s ch tag c ready => belet_answers (body := memErrlogRead) ready (memErrlogRead_answer c s),
    fun s ch tag c ready => belet_answers (body := memMapPa) ready (memMapPa_answer c s),
    fun s ch tag c ready => belet_answers (body := memMapBank) ready (memMapBank_answer c s),
    fun s ch tag c ready room => belet_answers (body := memRetire) ready (memRetire_answer room),
    fun s ch tag c ready => belet_answers (body := memRetireList) ready (memRetireList_answer c s),
    fun s ch tag c ready room => belet_answers (body := memRowRepair) ready (memRowRepair_answer room), ?repairTimeout,
    fun s ch tag c ready room => belet_answers (body := memErase) ready (memErase_answer room)⟩
  case scrubEnd =>
    intro s n b scrubs
    exact ⟨fun done => by rw [exec_scrubEnd scrubs, if_pos done], fun left => by rw [exec_scrubEnd scrubs, if_neg left]⟩
  case scrub =>
    intro s ch tag c ready a n
    by_cases waits : ScrubWaits s
    · rw [exec_memScrub_waits waits, if_pos waits]
    · rw [exec_memScrub_answers ready waits (memScrub_answer c s), if_neg waits]
  case repairTimeout =>
    intro s mc consumed c repairs oldest ready legal spare applied
    rw [exec_rowRepairTimeout consumed repairs oldest]
    exact belet_answers ready (congrArg (finishCmd c) (repairTimeout_legal legal spare))

end Sys2Proof.Machine

/-! ## Lodges, and the traffic of the root complexes (family 13_lodges) -/
namespace Sys2Proof.Machine

/-! ### CREATE, SAVE, RESTORE, RESUME, INFO, EXT_SET and POOLS (R357, R358, R361, R374 to R376) -/

section
variable {c : Cmd} {s : State}

/-- The shares that a LODGE.CREATE asks for. -/
abbrev createReq (c : Cmd) : LodgeReq :=
  let f := fun hi lo => bytesAt c.body hi lo
  ⟨f 1 0, f 2 2, f 3 3, f 4 4, f 5 5, f 7 6, f 8 8, f 9 9⟩

theorem lodgeCreate_refused {st : Nat} (plan : planLodge (createReq c) s = .error st) : lodgeCreate c s = .fail st s := by
  simp only [lodgeCreate, plan]

theorem lodgeCreate_planned {lid : Nat} {l : LodgeSt} (plan : planLodge (createReq c) s = .ok (lid, l)) :
    finishCmd c (lodgeCreate c s) =
      if lodgeLeased s true l.banks = true then respond c stLeaseHeld [] s
      else respond c stOk (createRsp (takeLodge lid l false s) lid) (takeLodge lid l false s) := by
  simp only [lodgeCreate, plan, apply_ite (finishCmd c), finishCmd_fail, finishCmd_done]

theorem lodgeSave_answer (c : Cmd) (s : State) :
    finishCmd c (lodgeSave c s) =
      let lid := c.lid % 512
      if (s.lodgeSt lid).state ≠ .frozen then respond c stBusy [] s
      else if bufOk s c = false ∨ bufLen c < (lodgeBlob s lid).length then respond c stBadBuffer [] s
      else respond c stOk (leBytes 4 (lodgeBlob s lid).length) (settWr (bufPa c) (lodgeBlob s lid) s) := by
  simp only [lodgeSave, apply_ite (finishCmd c), Bool.not_eq_true', finishCmd_fail, finishCmd_done]

/-- The bytes that LODGE.RESTORE reads. -/
abbrev restoreBytes (c : Cmd) (s : State) : List Byte := settRd s (bufPa c) (min (bufLen c) 8320)

/-- The state after LODGE.RESTORE has read them. -/
abbrev restoreLook (c : Cmd) (s : State) : State := cohLook (bufPa c) (min (bufLen c) 8320) s

/-- The shares that a LODGE.RESTORE asks for, in its fields and its blob. -/
abbrev restoreReq (c : Cmd) (s : State) : LodgeReq :=
  let f := fun hi lo => bytesAt c.body hi lo
  let g := fun hi lo => bytesAt (restoreBytes c s) hi lo
  ⟨f 17 16, f 18 18, f 19 19, f 20 20, g 32 32, g 34 33, g 36 36, g 35 35⟩

theorem lodgeRestore_badBuffer (bad : bufOk s c = false) : lodgeRestore c s = .fail stBadBuffer s := by
  simp only [lodgeRestore, bad, Bool.not_false, if_true]

section
variable (buf : bufOk s c = true) (clean : bufPoisoned s (bufPa c) (bufLen c) = none)
include buf clean

theorem lodgeRestore_badBlob (bad : blobOk (restoreBytes c s) = false) :
    lodgeRestore c s = .fail stBadField (restoreLook c s) := by
  simp only [lodgeRestore, buf, clean, bad, Bool.not_true, Bool.not_false, Bool.false_eq_true, if_false, if_true]

theorem lodgeRestore_refused {st : Nat} (blob : blobOk (restoreBytes c s) = true)
    (plan : planLodge (restoreReq c s) (restoreLook c s) = .error st) : lodgeRestore c s = .fail st (restoreLook c s) := by
  simp only [lodgeRestore, buf, clean, blob, plan, Bool.not_true, Bool.false_eq_true, if_false]

theorem lodgeRestore_planned {lid : Nat} {l : LodgeSt} (blob : blobOk (restoreBytes c s) = true)
    (plan : planLodge (restoreReq c s) (restoreLook c s) = .ok (lid, l)) :
    finishCmd c (lodgeRestore c s) =
      let t := restoreAs c (restoreBytes c s) lid l (restoreLook c s)
      if lodgeLeased (restoreLook c s) true l.banks = true then respond c stLeaseHeld [] (restoreLook c s)
      else respond c stOk (createRsp t lid) t := by
  simp only [lodgeRestore, buf, clean, blob, plan, Bool.not_true, Bool.false_eq_true, if_false, apply_ite (finishCmd c),
    finishCmd_fail, finishCmd_done]

end

theorem lodgeResume_answer (c : Cmd) (s : State) :
    finishCmd c (lodgeResume c s) =
      let lid := c.lid % 512
      let l := s.lodgeSt lid
      if l.state ≠ .frozen ∨ l.timedOut = true then respond c stBusy [] s
      else if lodgeLeased s false [] = true then respond c stLeaseHeld [] s
      else respond c stOk [] (twinAct c lid (holdLodge lid false (s.setLodge lid { l with state := .running }))) := by
  simp only [lodgeResume, apply_ite (finishCmd c), finishCmd_fail, finishCmd_done]

theorem lodgeExtSet_answer (c : Cmd) (s : State) :
    finishCmd c (lodgeExtSet c s) =
      let lid := c.lid % 512
      let u := s.setLodge lid { s.lodgeSt lid with count := bytesAt c.body 1 0 }
      let v := hextOf u (u.lodgeSt lid)
      if 4096 < bytesAt c.body 1 0 then respond c stBadField [] s
      else if lodgeLeased s false [] = true then respond c stLeaseHeld [] s
      else respond c stOk (leBytes 8 v) (putExt lid v u) := by
  simp only [lodgeExtSet, apply_ite (finishCmd c), finishCmd_fail, finishCmd_done]

/-- The values that LODGE.POOLS would journal break their limits (R357, R377). -/
abbrev PoolsBad (c : Cmd) (s : State) : Prop :=
  let f := fun hi lo => bytesAt c.body hi lo
  f 15 8 % 0x10000 ≠ 0 ∨ f 17 16 < 1 ∨ 511 < f 17 16 ∨ s.org.mapped < f 15 8 + f 17 16 * 0x10000 ∨ f 19 18 % 1024 ≠ 0 ∨
    f 19 18 < 1024 ∨ f 21 20 % 1024 ≠ 0 ∨ 8192 < f 19 18 + f 21 20 ∨ (f 29 22).testBit 32 = true

theorem lodgePools_answer (room : jrnHasRoom s = true) :
    finishCmd c (lodgePools c s) =
      let f := fun hi lo => bytesAt c.body hi lo
      if 1 < f 0 0 then respond c stBadField [] s
      else if f 0 0 = 0 then respond c stOk (poolsRsp s) s
      else if PoolsBad c s then respond c stBadField [] s
      else if (liveLodges s).isEmpty = false then respond c stBusy [] s
      else enqueueRec (some c.ord) false (.lodgePools (f 15 8) (f 17 16) (f 19 18) (f 21 20) (f 29 22))
        (setPhase c.ord .committing [] s) := by
  simp only [lodgePools, apply_ite (finishCmd c), Bool.not_eq_true', finishCmd_fail, finishCmd_done, finishCmd_commit_one room]

/-! ### RESET and FREEZE, and the ends of their steps (R364, R366, R368, R369, R371, R372) -/

/-- After the effect of a row that a lodge's work may wait for, that work goes on. -/
theorem lodgesGoOn {t u : State} (effect : t = u) : finish s (lodgeGo t) = .next (settle s (lodgeGo u)) :=
  finish_of_eq (congrArg lodgeGo effect)

/-- A ready RESET or FREEZE starts its work, which goes on as far as it can. -/
theorem belet_goesOn {t : State} {ch tag op : Nat} {body : Cmd → State → CmdRes} (ready : Ready s ch tag op c)
    (answer : finishCmd c (body c s) = t) : finish s (lodgeGo (runBelet op ch tag body s)) = .next (settle s (lodgeGo t)) :=
  lodgesGoOn ((runBelet_ready body ready).trans answer)

theorem lodgeReset_answer (c : Cmd) (s : State) :
    finishCmd c (lodgeReset c s) =
      let lid := c.lid % 512
      let vfs := (s.lodgeSt lid).vfs
      let u := vfs.foldl (fun s v => startFlr v s) (raiseGen lid (holdLodge lid true s))
      if oldOut s lid = true then respond c stBusy [] s
      else if lodgeLeased s true (s.lodgeSt lid).banks = true then respond c stLeaseHeld [] s
      else setPhase c.ord .running [bytesAt c.body 0 0] { u with
        lodgeWork := (u.lodgeWork.filter (fun w => w.lid != lid)) ++ [⟨lid, c.ord, 4, u.tick + 200 * us * vfs.length⟩] } := by
  simp only [lodgeReset, apply_ite (finishCmd c), finishCmd_fail, finishCmd_run]

theorem lodgeFreeze_answer (c : Cmd) (s : State) :
    finishCmd c (lodgeFreeze c s) =
      let lid := c.lid % 512
      let d := bytesAt c.body 3 0
      let u := holdLodge lid true s
      if d < 1 ∨ 10000 < d then respond c stBadField [] s
      else if (s.lodgeSt lid).state ≠ .running then respond c stBusy [] s
      else if lodgeLeased s false [] = true then respond c stLeaseHeld [] s
      else setPhase c.ord .running [d] { u with lodgeWork := u.lodgeWork ++ [⟨lid, c.ord, 0, u.tick + d * ms⟩] } := by
  simp only [lodgeFreeze, apply_ite (finishCmd c), finishCmd_fail, finishCmd_run]

/-- A reset that waits at step 2, of a lodge without older work, ends TIMEOUT after twice the step's bound. -/
theorem lodgeReset2_answer (c : Cmd) (s : State) :
    finishCmd c (lodgeReset2 c s) =
      let lid := c.lid % 512
      let u := resetTimeout ⟨lid, 2 ^ 64, 2, s.tick⟩ 2 { s with tick := s.tick + 20 * us }
      if oldOut s lid = true then respond c stBusy [] s else respond c stTimeout (leBytes 1 (u.lodgeSt lid).gen) u := by
  simp only [lodgeReset2, apply_ite (finishCmd c), finishCmd_fail, finishCmd_done]

/-- The timeout of step 2 is of the oldest reset of the lodge that has not started. -/
theorem lodgeTimeout_step2 {lid : Nat}
    (oldest : s.sett.cmds.find? (fun c => c.opcode == 0x0202 && c.phase == .accepted && c.lid % 512 == lid) = some c) :
    lodgeTimeout lid 2 s = runBelet 0x0202 c.ch c.tag lodgeReset2 s := by
  simp only [lodgeTimeout, if_true, oldest]

section
variable {lid : Nat} {w : LodgeWork} (work : findWork s lid = some w)
include work

/-- A later step's timeout ends the lodge's reset if that is the step it waits in. -/
theorem lodgeTimeout_of_work {step : Nat} (later : step ≠ 2) :
    lodgeTimeout lid step s =
      if w.step = 4 ∧ step = 4 then resetTimeout w 4 (s.toTick w.due)
      else if w.step = 4 ∧ step = 5 then
        let u := (s.lodgeSt lid).vfs.foldl (fun s v => flrComplete v s) s
        resetTimeout w 5 { u with tick := u.tick + 40 * us }
      else if w.step = 6 ∧ step = 6 then resetTimeout w 6 (s.toTick w.due)
      else s := by
  simp only [lodgeTimeout, if_neg later, work]

theorem exec_lodgeDrainTimeout (freezes : w.step = 0) :
    exec (.lodgeDrainTimeout lid) s = .next (settle s
      (let u := s.toTick w.due
       let out := vfOut u (u.lodgeSt lid)
       freezeDone w out.length (vfCut lid out u))) := by
  show finish s _ = _
  rw [work]
  exact finish_of_eq (if_neg (not_not_intro freezes))

end

end

/-- Settles O41: a command by what its body answers, a timeout by the step that the lodge's work waits in. -/
theorem lodgeCommands : Obligations.LodgeCommands := by
  refine ⟨?create, fun s ch tag c ready => belet_goesOn ready (lodgeReset_answer c s), ?timeouts, ?timeout2,
    fun s ch tag c ready => belet_goesOn ready (lodgeFreeze_answer c s),
    fun s ch tag c ready => belet_answers (body := lodgeSave) ready (lodgeSave_answer c s), ?restore,
    fun s ch tag c ready => belet_answers (body := lodgeResume) ready (lodgeResume_answer c s),
    fun s ch tag c ready => belet_answers (body := lodgeInfo) ready rfl,
    fun s ch tag c ready => belet_answers (body := lodgeExtSet) ready (lodgeExtSet_answer c s),
    fun s ch tag c ready room => belet_answers (body := lodgePools) ready (lodgePools_answer room)⟩
  case create =>
    intro s ch tag c ready f r
    exact ⟨fun st plan => belet_answers (body := lodgeCreate) ready (congrArg (finishCmd c) (lodgeCreate_refused plan)),
      fun lid l plan => belet_answers (body := lodgeCreate) ready (lodgeCreate_planned plan)⟩
  case timeouts =>
    intro s lid w work
    refine ⟨fun flrs => finish_of_eq ?step4, fun flrs => finish_of_eq ?step5, fun broadcast => finish_of_eq ?step6,
      fun freezes => exec_lodgeDrainTimeout work freezes⟩
    case step4 => rw [lodgeTimeout_of_work work (by decide), if_pos ⟨flrs, rfl⟩]
    case step5 => rw [lodgeTimeout_of_work work (by decide), if_neg (by simp), if_pos ⟨flrs, rfl⟩]
    case step6 => rw [lodgeTimeout_of_work work (by decide), if_neg (by simp), if_neg (by simp), if_pos ⟨broadcast, rfl⟩]
  case timeout2 =>
    intro s lid c oldest ready l
    show finish s (lodgeTimeout lid 2 s) = _
    rw [lodgeTimeout_step2 oldest]
    exact belet_answers ready (lodgeReset2_answer c s)
  case restore =>
    intro s ch tag c ready f b u g r
    refine ⟨fun bad => belet_answers (body := lodgeRestore) ready (congrArg (finishCmd c) (lodgeRestore_badBuffer bad)),
      fun buf clean => ⟨fun bad => ?badBlob, fun st blob plan => ?refused, fun lid l blob plan => ?planned⟩⟩
    case badBlob => exact belet_answers (body := lodgeRestore) ready (congrArg (finishCmd c) (lodgeRestore_badBlob buf clean bad))
    case refused => exact belet_answers (body := lodgeRestore) ready (congrArg (finishCmd c) (lodgeRestore_refused buf clean blob plan))
    case planned => exact belet_answers (body := lodgeRestore) ready (lodgeRestore_planned buf clean blob plan)

/-! ### Outbound accesses (R405, R411) -/

section
variable {s : State} {pcn n : Nat} {d : DevAcc}

/-- The access `d` of core `pcn` is for root complex `n`, and is not there yet. -/
structure Outgoing (s : State) (pcn n : Nat) (d : DevAcc) : Prop where
  dev : (s.core pcn).dev = some d
  port : outPort s d.pa = n
  root : isRc s n = true
  fresh : outBusy s n pcn = false

theorem Outgoing.taken (h : Outgoing s pcn n d) : ¬((!isRc s n) = true ∨ outBusy s n pcn = true) := by
  simp only [h.root, h.fresh, Bool.not_true, Bool.false_eq_true, or_self, not_false_eq_true]

theorem outbound_dead (h : Outgoing s pcn n d) (dead : (s.port n).dead = true) :
    outbound pcn s = endDev pcn d.write (ones d.size) (deadAccess (portStop n) (portAgent n) (d.pa / 64) s) := by
  simp only [outbound, h.dev, h.port, if_neg h.taken, if_pos dead]

section
variable (h : Outgoing s pcn n d) (alive : (s.port n).dead = false)
include h alive

theorem outbound_own {p o : Nat} (route : outRoute s n d.pa = .own p o) :
    outbound pcn s =
      if d.write then devAck pcn (cfgWrite n p o d.size d.data s) else devData pcn (BitVec.ofNat 64 (cfgRead s n p o d.size)) s := by
  simp only [outbound, h.dev, h.port, if_neg h.taken, alive, route, Bool.false_eq_true, if_false]

theorem outbound_absent (route : outRoute s n d.pa = .absent) : outbound pcn s = endDev pcn d.write (ones d.size) s := by
  simp only [outbound, h.dev, h.port, if_neg h.taken, alive, route, Bool.false_eq_true, if_false]

theorem outbound_unclaimed (route : outRoute s n d.pa = .ur) :
    outbound pcn s = endDev pcn d.write (ones d.size) (aerUnc n 0 20 (d.pa % 2 ^ 32) s) := by
  simp only [outbound, h.dev, h.port, if_neg h.taken, alive, route, Bool.false_eq_true, if_false]

theorem outbound_rootPort {p a : Nat} {cfg : Bool} (route : outRoute s n d.pa = .port p a cfg) :
    outbound pcn s =
      let u := s.modPort n (fun x => { x with wait := x.wait ++ [outWait p pcn a cfg d] })
      if linkOf s n p ≠ 1 then endDev pcn d.write (ones d.size) (aerUnc n p 20 (a % 2 ^ 32) s)
      else drainWait n (u.port n).wait.length u := by
  simp only [outbound, h.dev, h.port, if_neg h.taken, alive, route, Bool.false_eq_true, if_false]

end

end

/-! ### Completions, their timeout and quarantine (R366, R406, R413) -/

section
variable {s : State} {n tag status low : Nat} {l : List Byte} {ep : Bool} {q : OutReq}

/-- While its tag is in quarantine, a completion is unexpected, and frees the tag. -/
theorem pcieCompletion_quarantined (found : (s.port n).reqs.find? (fun q => q.tag == tag) = some q)
    (late : (s.port n).reqs.find? (fun q => q.tag == tag && q.quar) = some q)
    (live : (s.port n).reqs.find? (fun q => q.tag == tag && !q.quar) = none)
    (quar : q.quar = true) (inTime : s.tick < q.sent + 2 * q.wait) :
    pcieCompletion n tag status low l ep s =
      let t := lateGen n q s
      tagFree n tag (unexpected n q.rp tag (t.incSat (portBlk t n) Off.RC_UNEXP_CPL 31 0)) := by
  simp only [pcieCompletion, live, late, found, if_neg (Nat.not_le.mpr inTime), if_pos quar]

/-- The request `q` holds its tag alone, outside quarantine, and has not timed out. -/
structure Awaited (s : State) (n tag : Nat) (q : OutReq) : Prop where
  found : (s.port n).reqs.find? (fun q => q.tag == tag) = some q
  live : (s.port n).reqs.find? (fun q => q.tag == tag && !q.quar) = some q
  notLate : (s.port n).reqs.find? (fun q => q.tag == tag && q.quar) = none
  inTime : s.tick < q.sent + q.wait
  runs : q.quar = false

/-- A successful completion of a read differs from it in length or in the address's low bits. -/
abbrev Misfits (q : OutReq) (status low : Nat) (l : List Byte) : Prop :=
  status = 0 ∧ q.write = false ∧ (l.length ≠ q.size ∨ low % 128 ≠ q.addr % 128)

/-- A completion in time is judged by its request. -/
theorem pcieCompletion_awaited (h : Awaited s n tag q) :
    pcieCompletion n tag status low l ep s =
      let t := lateGen n q s
      if Misfits q status low l then unexpected n q.rp tag t
      else if staleReq t n q = true then tagFree n tag t
      else cplTaken n q status l ep t := by
  simp only [pcieCompletion, h.live, if_neg (Nat.not_le.mpr h.inTime), h.notLate, h.found, h.runs, Bool.false_eq_true, if_false,
    Bool.not_eq_true']

/-- A tag without a request has none of any kind. -/
theorem find_tag_and_none {reqs : List OutReq} (unmatched : reqs.find? (fun q => q.tag == tag) = none) (p : OutReq → Bool) :
    reqs.find? (fun q => q.tag == tag && p q) = none := by
  rw [List.find?_eq_none] at unmatched ⊢
  intro q hq both
  rw [Bool.and_eq_true] at both
  exact unmatched q hq both.1

theorem pcieCompletion_unmatched (unmatched : (s.port n).reqs.find? (fun q => q.tag == tag) = none) :
    pcieCompletion n tag status low l ep s = unexpected n 0 tag s := by
  simp only [pcieCompletion, find_tag_and_none unmatched (fun q => !q.quar), find_tag_and_none unmatched (fun q => q.quar),
    unmatched]

/-- A request whose lodge's generation is current counts no late completion. -/
theorem lateGen_current (current : staleReq s n q = false) : lateGen n q s = s := by
  unfold lateGen; exact if_neg (Bool.eq_false_iff.mp current)

/-- A completion in time, for a current generation, that fits its request is taken (a retried configuration read goes again). -/
theorem pcieCompletion_taken (h : Awaited s n tag q) (fits : ¬Misfits q status low l) (current : staleReq s n q = false) :
    pcieCompletion n tag status low l ep s = cplTaken n q status l ep s := by
  rw [pcieCompletion_awaited h, if_neg fits, lateGen_current current, if_neg (Bool.eq_false_iff.mp current)]

theorem cplTaken_retried (retry : retried s n q status = true) :
    cplTaken n q status l ep s = sendTlp n (.cfgRd q.rp q.tag q.addr q.size) s := by
  unfold cplTaken; exact if_pos retry

section
variable (once : retried s n q status = false)
include once

theorem cplTaken_ring {v r i : Nat} (owner : q.owner = .ring v r i) :
    cplTaken n q status l ep s = ringData v r i q.addr status l ep (tagFree n q.tag s) := by
  simp only [cplTaken, once, owner, Bool.false_eq_true, if_false]

/-- A core's load takes the data of a successful completion. -/
theorem cplTaken_load {p : Nat} (owner : q.owner = .core p) (load : q.write = false) (success : status = 0) (good : ep = false) :
    cplTaken n q status l ep s =
      let u := tagFree n q.tag s
      devData p (BitVec.ofNat 64 (leNat l)) (bwAdd (portBlk u n) (4 * q.rp + 2) q.size u) := by
  have ecrc : ¬status = 3 := by omega
  have retry : ¬(status = 2 ∧ q.cfg = true) := by omega
  simp only [cplTaken, once, owner, load, good, if_neg ecrc, if_neg retry, if_neg (not_not_intro success), Bool.false_eq_true, if_false]

end

theorem cplTimeout_live (live : (s.port n).reqs.find? (fun q => q.tag == tag && !q.quar) = some q) :
    cplTimeout n tag s =
      let u := quarReq n tag (unc (portBlk s n) 7 1 (s.toTick (q.sent + q.wait)))
      failReq q 5 (if isRc u n then aerUnc n q.rp 14 0 u else epUnc q.rp 14 0 u) := by
  simp only [cplTimeout, live]

theorem tagQuarantineEnd_late (late : (s.port n).reqs.find? (fun q => q.tag == tag && q.quar) = some q) :
    tagQuarantineEnd n tag s = tagFree n tag (s.toTick (q.sent + 2 * q.wait)) := by
  simp only [tagQuarantineEnd, late]

end

/-! ### Inbound DMA and messages (R362, R407 to R411) -/

section
variable {s t : State} {n p rid tag addr atype i lid : Nat} {pasid write : Bool}

/-- A request without an address type and without a PASID. -/
theorem untyped_of_plain (plain : atype = 0) (noPasid : pasid = false) : ¬(atype ≠ 0 ∨ pasid = true) := by
  simp only [plain, noPasid, ne_eq, not_true_eq_false, Bool.false_eq_true, or_self, not_false_eq_true]

theorem dmaStream_unmatched (unmatched : streamOf s n p rid = none) :
    dmaStream n p rid addr tag atype pasid write s = .error (dmaFault n p 0 addr 256 tag write s) := by
  simp only [dmaStream, unmatched]

section
variable (stream : streamOf s n p rid = some (i, lid))
include stream

theorem dmaStream_forbidden (typed : atype ≠ 0 ∨ pasid = true) :
    dmaStream n p rid addr tag atype pasid write s = .error (dmaFault n p 0 addr i tag write s) := by
  simp only [dmaStream, stream, if_pos typed]

theorem dmaStream_absentLodge (untyped : ¬(atype ≠ 0 ∨ pasid = true)) (invalid : attrValid (portAttr s n lid) = false) :
    dmaStream n p rid addr tag atype pasid write s = .error (dmaStale n p tag write s) := by
  simp only [dmaStream, stream, if_neg untyped, invalid, Bool.not_false, if_true]

theorem dmaStream_passes (untyped : ¬(atype ≠ 0 ∨ pasid = true)) (valid : attrValid (portAttr s n lid) = true) :
    dmaStream n p rid addr tag atype pasid write s = .ok (i, lid) := by
  simp only [dmaStream, stream, if_neg untyped, valid, Bool.not_true, Bool.false_eq_true, if_false]

end

section
variable {len : Nat} (live : portLive s n p = true) (asks : 0 < len)
include live asks

theorem readTaken_of_live : ¬((!portLive s n p) = true ∨ len = 0) := by
  simp only [live, Nat.ne_of_gt asks, Bool.not_true, Bool.false_eq_true, or_self, not_false_eq_true]

theorem inboundRead_refused (checked : dmaStream n p rid addr tag atype pasid false s = .error t) :
    inboundRead n p rid tag addr len atype pasid s = t := by
  simp only [inboundRead, if_neg (readTaken_of_live live asks), checked]

variable (checked : dmaStream n p rid addr tag atype pasid false s = .ok (i, lid))
include checked

theorem inboundRead_held (held : attrHold (portAttr s n lid) = true) :
    inboundRead n p rid tag addr len atype pasid s = dmaFault n p 3 addr i tag false s := by
  simp only [inboundRead, if_neg (readTaken_of_live live asks), checked, if_pos held]

variable (free : attrHold (portAttr s n lid) = false)
include free

theorem inboundRead_untranslated {k : Nat} (fails : portXlate n lid addr len false s = (.error k, t)) :
    inboundRead n p rid tag addr len atype pasid s = dmaFault n p k addr i tag false t := by
  simp only [inboundRead, if_neg (readTaken_of_live live asks), checked, free, fails, Bool.false_eq_true, if_false]

theorem inboundRead_translated {pa : Nat} (maps : portXlate n lid addr len false s = (.ok pa, t)) :
    inboundRead n p rid tag addr len atype pasid s =
      portGo n (queueRead n ⟨p * 65536 + rid, p, lid, none, false⟩ tag addr pa len false t) := by
  simp only [inboundRead, if_neg (readTaken_of_live live asks), checked, free, maps, Bool.false_eq_true, if_false]

end

theorem inboundMsi_passes {dat : Nat} (live : portLive s n p = true)
    (checked : dmaStream n p rid (s.rd (.rc n) Off.MSI_ADDR).toNat 0 atype pasid true s = .ok (i, lid)) :
    inboundMsi n p rid dat atype pasid s =
      portGo n (queuePiece n ⟨p * 65536 + rid, p, lid, none, false⟩ (.msi dat) id s).2 := by
  simp only [inboundMsi, live, checked, Bool.not_true, Bool.false_eq_true, if_false]

section
variable {ep : Bool} {l : List Byte} (live : portLive s n p = true) (nonempty : l ≠ [])
  (apart : (s.rd (.rc n) Off.MSI_ADDR).toNat + 4 ≤ addr ∨ addr + l.length ≤ (s.rd (.rc n) Off.MSI_ADDR).toNat)

include apart in
/-- A write apart from the word at MSI_ADDR is not an MSI message. -/
theorem notMsi_of_apart : ¬(addr = (s.rd (.rc n) Off.MSI_ADDR).toNat ∧ l.length = 4) := by omega

include apart in
theorem notTouching_of_apart :
    ¬(addr < (s.rd (.rc n) Off.MSI_ADDR).toNat + 4 ∧ (s.rd (.rc n) Off.MSI_ADDR).toNat < addr + l.length) := by omega

include live nonempty in
theorem writeTaken_of_live : ¬((!portLive s n p) = true ∨ l.isEmpty = true) := by
  simp only [live, List.isEmpty_iff, nonempty, Bool.not_true, Bool.false_eq_true, or_self, not_false_eq_true]

include live nonempty apart

theorem inboundWrite_refused (checked : dmaStream n p rid addr 0 atype pasid true s = .error t) :
    inboundWrite n p rid addr atype pasid ep l s = t := by
  simp only [inboundWrite, if_neg (writeTaken_of_live live nonempty), if_neg (notMsi_of_apart apart), checked]

variable (checked : dmaStream n p rid addr 0 atype pasid true s = .ok (i, lid))
include checked

theorem inboundWrite_held (held : attrHold (portAttr s n lid) = true) :
    inboundWrite n p rid addr atype pasid ep l s = dmaFault n p 3 addr i 0 true s := by
  simp only [inboundWrite, if_neg (writeTaken_of_live live nonempty), if_neg (notMsi_of_apart apart), checked, held, if_true]

variable (free : attrHold (portAttr s n lid) = false)
include free

theorem inboundWrite_untranslated {k : Nat} (fails : portXlate n lid addr l.length true s = (.error k, t)) :
    inboundWrite n p rid addr atype pasid ep l s = dmaFault n p k addr i 0 true t := by
  simp only [inboundWrite, if_neg (writeTaken_of_live live nonempty), if_neg (notMsi_of_apart apart), checked, free,
    if_neg (notTouching_of_apart apart), fails, Bool.false_eq_true, if_false]

theorem inboundWrite_translated {pa : Nat} (maps : portXlate n lid addr l.length true s = (.ok pa, t)) :
    inboundWrite n p rid addr atype pasid ep l s =
      let w := bwAdd (.rc n) (4 * p + 1) l.length (unc (.rc n) 2 1 t)
      portGo n (queueWrite n ⟨p * 65536 + rid, p, lid, none, ep⟩ pa l (if ep then aerUnc n p 12 (addr % 2 ^ 32) w else w)).2 := by
  simp only [inboundWrite, if_neg (writeTaken_of_live live nonempty), if_neg (notMsi_of_apart apart), checked, free,
    if_neg (notTouching_of_apart apart), maps, Bool.false_eq_true, if_false]

end

section
variable {bit hdr : Nat} (root : isRc s n = true) (named : p < 4) (lanes : portLanes s n p ≠ 0) (inRange : bit < 32)
include root named lanes inRange

/-- A root port that exists takes an error with a bit of its status registers. -/
theorem errorTaken : ¬((!isRc s n) = true ∨ 4 ≤ p ∨ portLanes s n p = 0 ∨ 32 ≤ bit) := by
  rw [root]
  simp only [Bool.not_true, Bool.false_eq_true, false_or, lanes]
  omega

theorem errorMessage_uncorrectable : errorMessage n p 3 bit rid hdr s = aerUnc n p bit hdr s :=
  (if_neg (errorTaken root named lanes inRange)).trans (if_pos rfl)

theorem errorMessage_correctable : errorMessage n p 4 bit rid hdr s = aerCor n p bit s :=
  (if_neg (errorTaken root named lanes inRange)).trans ((if_neg (by decide)).trans (if_pos rfl))

end

end

/-- Settles O44: an outbound access by its route, a completion by the request of its tag, an inbound request by its checks in their
order. -/
theorem rootComplexTraffic : Obligations.RootComplexTraffic := by
  refine ⟨?outbound, ?completion, ?timeout, ?inbound, ?error⟩
  case outbound =>
    intro s pcn n d dev port root fresh
    have out : Outgoing s pcn n d := ⟨dev, port, root, fresh⟩
    refine ⟨fun dead => finish_of_eq (outbound_dead out dead), fun alive => ⟨fun p o route => finish_of_eq ?own,
      fun route => finish_of_eq ?absent, fun route => finish_of_eq ?unclaimed,
      fun p a cfg route => ⟨fun up => finish_of_eq ?up, fun down => finish_of_eq ?down⟩⟩⟩
    case own => exact outbound_own out alive route
    case absent => exact outbound_absent out alive route
    case unclaimed => exact outbound_unclaimed out alive route
    case up => exact (outbound_rootPort out alive route).trans (if_neg (not_not_intro up))
    case down => exact (outbound_rootPort out alive route).trans (if_pos down)
  case completion =>
    intro s n tag status low l ep all live late e
    refine ⟨fun q found isLate notLive quar inTime => lodgesGoOn (pcieCompletion_quarantined found isLate notLive quar inTime),
      fun q found isLive notLate inTime runs => ?awaited, fun unmatched => lodgesGoOn (pcieCompletion_unmatched unmatched)⟩
    case awaited =>
      have h : Awaited s n tag q := ⟨found, isLive, notLate, inTime, runs⟩
      refine ⟨fun misfits => lodgesGoOn ((pcieCompletion_awaited h).trans (if_pos misfits)),
        fun fits stale => lodgesGoOn ((pcieCompletion_awaited h).trans ((if_neg fits).trans (if_pos stale))), fun fits current => ?taken⟩
      have taken : pcieCompletion n tag status low l ep s = cplTaken n q status l ep s := pcieCompletion_taken h fits current
      exact ⟨fun retry => lodgesGoOn (taken.trans (cplTaken_retried retry)),
        fun p once owner load success good => lodgesGoOn (taken.trans (cplTaken_load once owner load success good)),
        fun v r i once owner => lodgesGoOn (taken.trans (cplTaken_ring once owner))⟩
  case timeout =>
    exact fun s n tag q => ⟨fun live => lodgesGoOn (cplTimeout_live live), fun late => lodgesGoOn (tagQuarantineEnd_late late)⟩
  case inbound =>
    intro s n p rid tag addr len atype pasid ep l v live apart asks nonempty rd wr msi
    refine ⟨fun unmatched => ⟨finish_of_eq ?readUnmatched, finish_of_eq ?writeUnmatched⟩, fun i lid stream =>
      ⟨fun typed => ⟨finish_of_eq ?readForbidden, finish_of_eq ?writeForbidden⟩,
        fun plain noPasid invalid => ?stale, fun valid => finish_of_eq ?message, fun plain noPasid valid => ?checked⟩⟩
    case readUnmatched => exact inboundRead_refused live asks (dmaStream_unmatched unmatched)
    case writeUnmatched => exact inboundWrite_refused live nonempty apart (dmaStream_unmatched unmatched)
    case readForbidden => exact inboundRead_refused live asks (dmaStream_forbidden stream typed)
    case writeForbidden => exact inboundWrite_refused live nonempty apart (dmaStream_forbidden stream typed)
    case stale =>
      have discarded {a t : Nat} {w : Bool} : dmaStream n p rid a t atype pasid w s = .error (dmaStale n p t w s) :=
        dmaStream_absentLodge stream (untyped_of_plain plain noPasid) invalid
      exact ⟨finish_of_eq (inboundRead_refused live asks discarded), finish_of_eq (inboundWrite_refused live nonempty apart discarded)⟩
    case message => exact inboundMsi_passes live (dmaStream_passes stream (untyped_of_plain rfl rfl) valid)
    case checked =>
      have passes {a t : Nat} {w : Bool} : dmaStream n p rid a t atype pasid w s = .ok (i, lid) :=
        dmaStream_passes stream (untyped_of_plain plain noPasid) valid
      exact ⟨fun held => ⟨finish_of_eq (inboundRead_held live asks passes held),
          finish_of_eq (inboundWrite_held live nonempty apart passes held)⟩,
        fun free => ⟨fun k u fails => finish_of_eq (inboundRead_untranslated live asks passes free fails),
          fun pa u maps => finish_of_eq (inboundRead_translated live asks passes free maps),
          fun k u fails => finish_of_eq (inboundWrite_untranslated live nonempty apart passes free fails),
          fun pa u maps => finish_of_eq (inboundWrite_translated live nonempty apart passes free maps)⟩⟩
  case error =>
    exact fun s n p bit rid hdr root named lanes inRange =>
      ⟨finish_of_eq (errorMessage_uncorrectable root named lanes inRange),
        finish_of_eq (errorMessage_correctable root named lanes inRange)⟩

end Sys2Proof.Machine

/-! ## What no command does, and the interrupt distributor (family 14_interrupts and later) -/
namespace Sys2Proof.Machine

/-! ### What no command does -/

/-- Settles O2: a fault, an event of a COLD and a settled state, in turn. -/
theorem commandsKeepTheQueue : Obligations.CommandsKeepTheQueue := by
  intro c s
  rcases exec_cases c s with ⟨f, answer, stress⟩ | ⟨u, answer, -⟩ | ⟨u, answer⟩ <;> rw [answer]
  · exact ⟨fun r => nofun, fun f' _ => stress, fun t => nofun⟩
  · exact ⟨fun r => nofun, fun f => nofun, fun t next => by injection next with h; rw [← h]⟩
  · exact ⟨fun r => nofun, fun f => nofun, fun t next => by injection next with h; rw [← h, settle_pending]⟩

/-- A command that is not an event of a COLD answers through `settle`. -/
theorem exec_next_settles {c : Instr} {s t : State} (notCold : isCold c = false) (next : exec c s = .next t) :
    ∃ u, t = settle s u := by
  rcases exec_cases c s with ⟨f, answer, -⟩ | ⟨u, -, cold⟩ | ⟨u, answer⟩
  · rw [answer] at next; nomatch next
  · rw [notCold] at cold; nomatch cold
  · rw [answer] at next; injection next with h; exact ⟨u, h.symm⟩

/-- Settles O3: a tick leaves the mode registers, and `settle` keeps SAFE. -/
theorem onlyColdLeavesSafe : Obligations.OnlyColdLeavesSafe := by
  intro s t safe notCold steps
  unfold step at steps
  cases queue : s.pending with
  | nil =>
    rw [queue] at steps
    injection steps with ticks
    rw [← ticks]
    exact safe
  | cons c rest =>
    rw [queue] at steps
    obtain ⟨u, rfl⟩ := exec_next_settles (notCold c rest queue) steps
    exact settle_inSafe _ u safe

/-- Settles O5: whatever the effect, settling it on an inert chip leaves the clock and the board's pins of it. -/
theorem offOrHeldChipStaysStill : Obligations.OffOrHeldChipStaysStill := by
  intro c s t inert notCold next
  obtain ⟨u, rfl⟩ := exec_next_settles notCold next
  exact ⟨u.tick, u.pwr.extIrq, u.pwr.twinPerst, settle_inert s u inert⟩

/-! ### Inputs and deliveries of the interrupt distributor (R380 to R387, R393 to R395) -/

section
variable {s : State} {d : Delivery} {id p v : Nat}

theorem fireMessage_eq (lid gen dat : Nat) (s : State) :
    fireMessage lid gen dat s =
      let w := idistAttr s lid
      let l := s.lodgeSt lid
      let id := if lid = 0 then dat else l.srcBase + dat
      if attrValid w = false ∨ attrGen w ≠ gen then s.incSat .idist Off.IDIST_LATE_DISCARD 31 0
      else if id < 1024 ∨ 8191 < id ∨ (lid ≠ 0 ∧ 2 ^ l.log2Src ≤ dat) then s.incSat .idist Off.MSI_REJECT 31 0
      else s.wf .idist (Off.SRC + 8 * id) 32 32 1 := by
  simp only [fireMessage, fireEdge, Bool.not_eq_true']

theorem deliveryCommit_hart {h : Nat} {l : Lvl} (runs : idistRuns s = true) (best : bestSrc s = some (id, .hart h l)) :
    deliveryCommit s = commitTo id h l (commitMoves id s) := by
  simp only [deliveryCommit, runs, best, Bool.not_true, Bool.false_eq_true, if_false]

theorem deliveryCommit_post (runs : idistRuns s = true) (best : bestSrc s = some (id, .post)) :
    deliveryCommit s = postSource id (commitMoves id s) := by
  simp only [deliveryCommit, runs, best, Bool.not_true, Bool.false_eq_true, if_false]

theorem deliveryCommit_idle (idle : idistRuns s = false ∨ bestSrc s = none) : deliveryCommit s = s := by
  unfold deliveryCommit
  rcases idle with asleep | none
  · rw [asleep]; rfl
  · rw [none]; exact ite_self _

/-- The state without the delivery that reaches its core. -/
abbrev landed (d : Delivery) (s : State) : State := { s with idist := { s.idist with inFlight := s.idist.inFlight.erase d } }

theorem deliver_accepted (oldest : s.idist.inFlight.find? (fun d => d.pcn == p) = some d) (takes : refusal (landed d s) d = none) :
    deliver p s = { landed d s with idist := { (landed d s).idist with slots := s.idist.slots ++ [d] } } := by
  simp only [deliver, oldest, takes]

theorem deliver_refused {r : Nat} (oldest : s.idist.inFlight.find? (fun d => d.pcn == p) = some d)
    (refuses : refusal (landed d s) d = some r) :
    deliver p s = { landed d s with idist := { (landed d s).idist with refused := s.idist.refused ++ [(d, r)] } } := by
  simp only [deliver, oldest, refuses]

theorem postedDoorbell_found {q : Posting} (oldest : s.idist.postings.find? (fun q => q.slot == v) = some q) :
    postedDoorbell v s =
      let u : State := { s with idist := { s.idist with postings := s.idist.postings.erase q } }
      idistOld q.lid (if q.oldOn = some 0 then ringFor q u else u) := by
  simp only [postedDoorbell, oldest]

section
variable {h lid : Nat} (recalling : s.idist.recalls.find? (fun r => r.1 == v) = some (v, h, lid)) (mapped : mapPcn s h = some p)
include recalling mapped

/-- A recall waits behind every delivery that was committed before it. -/
theorem doRecall_waits (moving : s.idist.inFlight.any (fun d => d.pcn == p && d.lid == lid) = true ∨
    s.idist.refused.any (fun d => d.1.pcn == p) = true) : doRecall v s = s := by
  simp only [doRecall, recalling, mapped, if_pos moving]

theorem doRecall_arrives (still : ¬(s.idist.inFlight.any (fun d => d.pcn == p && d.lid == lid) = true ∨
    s.idist.refused.any (fun d => d.1.pcn == p) = true)) :
    doRecall v s =
      let back := s.idist.slots.filter (fun d => d.pcn == p && d.lvl == .k && d.virt && d.lid == lid)
      let u : State := { s with idist := { s.idist with slots := s.idist.slots.filter (fun d => !back.contains d) } }
      let w := back.foldl (fun s d => takeRefused d 3 s) u
      ({ w with idist := { w.idist with recalls := w.idist.recalls.filter (fun r => r.1 != v) } } : State).wf
        .idist (Off.VSLOT_CFG + 16 * v) 18 18 0 := by
  simp only [doRecall, recalling, mapped, if_neg still]

end

end

/-- Settles O42: each input, commit, delivery, posting and recall by the branch of its row. -/
theorem idistInputsAndDeliveries : Obligations.IdistInputsAndDeliveries := by
  refine ⟨?message, ?pin, fun s src b => finish_eq _ _, ?commit, ?holdoff, ?deliver, ?refused, ?doorbell, ?recalled⟩
  case message =>
    intro s m u w l dat id here
    exact finish_of_eq ((arrive_here _ here).trans (fireMessage_eq _ _ _ _))
  case pin => exact fun s pin high => finish_eq _ _
  case commit =>
    exact fun s => ⟨fun id h l runs best => finish_of_eq (deliveryCommit_hart runs best),
      fun id runs best => finish_of_eq (deliveryCommit_post runs best), fun idle => finish_of_eq (deliveryCommit_idle idle)⟩
  case holdoff =>
    intro s g t window
    show finish s _ = _
    rw [window, finish_eq]
  case deliver =>
    intro s p d oldest u
    exact ⟨fun takes => finish_of_eq (deliver_accepted oldest takes),
      fun r refuses => finish_of_eq (deliver_refused oldest refuses)⟩
  case refused =>
    intro s d r l oldest u v lid w
    show finish s _ = _
    rw [oldest]
    exact finish_of_eq rfl
  case doorbell =>
    intro s v p oldest u
    exact finish_of_eq (postedDoorbell_found oldest)
  case recalled =>
    intro s v h lid p recalling mapped back u w moving
    exact ⟨fun waits => finish_of_eq (doRecall_waits recalling mapped waits),
      fun still => finish_of_eq (doRecall_arrives recalling mapped still)⟩

end Sys2Proof.Machine

/-! ## Root-port links and the IO commands of a root complex (family 15_root_complexes) -/
namespace Sys2Proof.Machine

/-! ### Links (R404, R414, R416) -/

section
variable {s : State} {n p speed width : Nat}

/-- A link of a legal speed and width may come up at a root port that exists and is out of reset. -/
theorem linkUp_taken (root : isRc s n = true) (named : p < 4) (released : perstOf s n p = false) (there : linkOf s n p ≠ 3)
    (slowest : 1 ≤ speed) (fastest : speed ≤ 6) (legal : width ∈ [1, 2, 4, 8, 16]) (fits : width ≤ portLanes s n p) :
    ¬((!isRc s n) = true ∨ 4 ≤ p ∨ portLanes s n p = 0 ∨ perstOf s n p = true ∨ linkOf s n p = 3 ∨ speed = 0 ∨ 6 < speed ∨
      (!([1, 2, 4, 8, 16].contains width)) = true ∨ portLanes s n p < width) := by
  have positive : 0 < width := by
    simp only [List.mem_cons, List.not_mem_nil, or_false] at legal
    omega
  rw [root, released, List.contains_iff_mem.mpr legal]
  simp only [Bool.not_true, Bool.false_eq_true, false_or, there]
  omega

theorem portLinkDown_live (live : portLive s n p = true) :
    portLinkDown n p s = slotEvent n p false (endPort n p (aerUnc n p 5 0 (s.wr (.rc n) (Off.PORT_STATE + 8 * p) 0))) := by
  simp only [portLinkDown, live, Bool.not_true, Bool.false_eq_true, if_false]

theorem portLinkDown_dead (dead : portLive s n p = false) : portLinkDown n p s = s := by
  unfold portLinkDown; rw [dead]; rfl

/-- The commands that wait for the reset of this root port. -/
abbrev portResetCmds (n p : Nat) (s : State) : List Cmd :=
  s.sett.cmds.filter (fun c => c.opcode == 0x0504 && c.phase == .running && c.aux == [4 * n + p])

/-- PERST# of an existing root port is released at its tick, and every command that waits for it is answered. -/
theorem perstRelease_due {t : Nat} (due : smFind (s.port n).perstDue p = some t) (there : portLanes s n p ≠ 0) :
    perstRelease n p s =
      let u := ((s.toTick t).modPort n (fun x => { x with perstDue := smDel x.perstDue p })).wr (.rc n) (Off.PORT_STATE + 8 * p) 2
      (portResetCmds n p u).foldl (fun s c => respond c stOk [] s) u := by
  simp only [perstRelease, due, if_neg there]

end

/-! ### IO commands (R403, R408, R416, R419, R420) -/

section
variable {c : Cmd} {s : State}

theorem rcNum_root (root : isRc s (bytesAt c.body 0 0) = true) : rcNum s c.body = some (bytesAt c.body 0 0) := if_pos root

theorem rcNum_none (none : isRc s (bytesAt c.body 0 0) = false) : rcNum s c.body = Option.none := if_neg (Bool.eq_false_iff.mp none)

section
variable (root : isRc s (bytesAt c.body 0 0) = true)
include root

theorem ioRcCfg_answer (room : jrnHasRoom s = true) :
    finishCmd c (ioRcCfg c s) =
      let n := bytesAt c.body 0 0
      let f := fun k => bytesAt c.body k k
      if f 1 = 0 then respond c stOk (rcCfgRsp s n) s
      else if 1 < f 1 ∨ 4 < f 2 ∨ 1 < f 3 ∨ (n = 8 ∧ f 2 ≠ 0) then respond c stBadField [] s
      else if leasedInst s (.rc n) = true then respond c stLeaseHeld [] s
      else if f 2 ≠ rcBifurc s n ∧ rcQuiet s n = false then respond c stBusy [] s
      else enqueueRec (some c.ord) false (.rcBifurc n (BitVec.ofNat 64 (f 2 + 256 * f 3))) (setPhase c.ord .committing [] s) := by
  simp only [ioRcCfg, rcNum_root root, apply_ite (finishCmd c), Bool.not_eq_true', finishCmd_fail, finishCmd_done,
    finishCmd_commit_one room]

theorem ioStreamSet_answer :
    finishCmd c (ioStreamSet c s) =
      let n := bytesAt c.body 0 0
      let v := BitVec.ofNat 64 (bytesAt c.body 15 8)
      let lid := fld v 43 35
      if 2 ^ 44 ≤ bytesAt c.body 15 8 then respond c stBadField [] s
      else if lid ≠ 0 ∧ ((s.lodgeSt lid).state = .free ∨ (s.lodgeSt lid).ownedBy c.ch = false) then respond c stBadLid [] s
      else if leasedInst s (.rc n) = true then respond c stLeaseHeld [] s
      else respond c stOk [] (s.wr (.rc n) (Off.STREAM + 8 * bytesAt c.body 1 1) v) := by
  simp only [ioStreamSet, rcNum_root root, apply_ite (finishCmd c), Bool.not_eq_true', finishCmd_fail, finishCmd_done]

theorem ioStreamGet_answer :
    finishCmd c (ioStreamGet c s) =
      let n := bytesAt c.body 0 0
      let i := bytesAt c.body 1 1
      respond c stOk (leBytes 8 (streamReg s n i).toNat ++ leBytes 4 (s.rf (.rc n) (Off.SFAULT_CNT + 4 * i) 31 0)) s := by
  simp only [ioStreamGet, rcNum_root root, finishCmd_done]

theorem ioDmaFaults_answer :
    finishCmd c (ioDmaFaults c s) =
      let n := bytesAt c.body 0 0
      let r := takeFaults n 12 s
      respond c stOk (leBytes 8 r.1.length ++ ((r.1.flatMap (fun w => leBytes 8 w.toNat)) ++ leBytes 96 0).take 96 ++
        leBytes 4 (r.2.rf (.rc n) Off.RC_FAULT_LOST 31 0)) r.2 := by
  simp only [ioDmaFaults, rcNum_root root, finishCmd_done]

end

theorem ioPortReset_answer (c : Cmd) (s : State) :
    finishCmd c (ioPortReset c s) =
      let g := bytesAt c.body 0 0
      let hold := bytesAt c.body 3 2
      if 32 ≤ g ∨ hold < 100 ∨ 1000 < hold then respond c stBadField [] s
      else if portLanes s (g / 4) (g % 4) = 0 then respond c stBusy [] s
      else if s.leased (portBlk s (g / 4)).inst = true then respond c stLeaseHeld [] s
      else setPhase c.ord .running [g] (portReset (g / 4) (g % 4) (hold * ms) s) := by
  simp only [ioPortReset, apply_ite (finishCmd c), finishCmd_fail, finishCmd_run]

end

/-- Settles O45: a link by whether its event is taken, a command by what its body answers. -/
theorem rootPortLinksAndCommands : Obligations.RootPortLinksAndCommands := by
  refine ⟨?up, fun s n p => ⟨fun live => finish_of_eq (portLinkDown_live live), fun dead => finish_of_eq (portLinkDown_dead dead)⟩,
    ?release, ?rcCfg, ?streamSet, ?streamGet, fun s ch tag c ready => belet_answers (body := ioPortReset) ready (ioPortReset_answer c s),
    ?dmaFaults, ?noRoot⟩
  case up =>
    intro s n p speed width root named released there slowest fastest legal fits u
    exact finish_of_eq (if_neg (linkUp_taken root named released there slowest fastest legal fits))
  case release =>
    intro s n p t due there u
    have effect := perstRelease_due due there
    exact ⟨fun c l waiting => finish_of_eq (effect.trans (congrArg (List.foldl _ u) waiting)),
      fun none => finish_of_eq (effect.trans (congrArg (List.foldl _ u) none))⟩
  case rcCfg =>
    rintro s ch tag _ c ready room rfl root f
    exact belet_answers (body := ioRcCfg) ready (ioRcCfg_answer root room)
  case streamSet =>
    rintro s ch tag _ c ready rfl root v lid
    exact belet_answers (body := ioStreamSet) ready (ioStreamSet_answer root)
  case streamGet =>
    rintro s ch tag _ c ready rfl root i
    exact belet_answers (body := ioStreamGet) ready (ioStreamGet_answer root)
  case dmaFaults =>
    rintro s ch tag _ c ready rfl root r
    exact belet_answers (body := ioDmaFaults) ready (ioDmaFaults_answer root)
  case noRoot =>
    intro s ch tag op c ready none
    refine ⟨?_, ?_, ?_, ?_⟩ <;> rintro rfl
    · exact belet_answers (body := ioRcCfg) ready (by simp only [ioRcCfg, rcNum_none none, finishCmd_fail])
    · exact belet_answers (body := ioStreamSet) ready (by simp only [ioStreamSet, rcNum_none none, finishCmd_fail])
    · exact belet_answers (body := ioStreamGet) ready (by simp only [ioStreamGet, rcNum_none none, finishCmd_fail])
    · exact belet_answers (body := ioDmaFaults) ready (by simp only [ioDmaFaults, rcNum_none none, finishCmd_fail])

end Sys2Proof.Machine

/-! ## The partner's requests, the rings, and the twin link (family 16_twin_port) -/
namespace Sys2Proof.Machine

/-! ### PF0's mailbox (R424) -/

section
variable {s : State} {wr : Bool} {off len tag : Nat} {l : List Byte}

/-- The bytes that a partner's request moves. -/
abbrev reqBytes (wr : Bool) (len : Nat) (l : List Byte) : Nat := if wr then l.length else len

/-- A request that PF0 does not take: it sleeps, or the range is not 1 to 64 bytes of the mailbox. -/
abbrev Pf0Unsupported (s : State) (off n : Nat) : Prop := s.pf0.d3 = true ∨ n = 0 ∨ 64 < n ∨ 0x2000 < off + n

theorem pf0Supported {n : Nat} (awake : s.pf0.d3 = false) (some : 0 < n) (most : n ≤ 64) (inside : off + n ≤ 0x2000) :
    ¬Pf0Unsupported s off n := by
  simp only [Pf0Unsupported, awake, Bool.false_eq_true, false_or]
  omega

section
variable (up : twinUp s = true)
include up

theorem pf0Mailbox_unsupported (bad : Pf0Unsupported s off (reqBytes wr len l)) :
    pf0Mailbox wr off len tag l s =
      let u := epUnc 0 20 (off % 2 ^ 32) s
      if wr then u else sendTlp 8 (.cpl 0 tag 1 [] false) u := by
  simp only [pf0Mailbox, up, if_pos bad, Bool.not_true, Bool.false_eq_true, if_false]

variable (fits : ¬Pf0Unsupported s off (reqBytes wr len l))
include fits

theorem pf0Mailbox_taken :
    pf0Mailbox wr off len tag l s =
      let n := reqBytes wr len l
      let u := bwAdd .tp 0 n s
      if wr then unc .tp 2 1 (settWr (mboxBase 3 + off) l u)
      else unc .tp 1 1 (sendTlp 8 (.cpl 0 tag 0 (settRd u (mboxBase 3 + off) n) (cohPoison u (mboxBase 3 + off) n)) u) := by
  simp only [pf0Mailbox, up, if_neg fits, Bool.not_true, Bool.false_eq_true, if_false]

end

end

/-! ### Windows and VF.RAISE (R426, R427, R444) -/

section
variable {s : State} {v off len tag lid : Nat} {wr ep : Bool} {l : List Byte}

/-- The partner reaches function `v`, which exists, is enabled and awake. -/
structure FnReached (s : State) (v : Nat) : Prop where
  isVf : isVf v = true
  up : twinUp s = true
  enabled : vfEnabled s v = true
  awake : (s.vf v).d3 = false

/-- A request of `n` bytes inside BAR2 is looked at. -/
theorem FnReached.taken (h : FnReached s v) {n : Nat} (inBar : off < 2 ^ 36) (asks : 0 < n) :
    ¬(Machine.isVf v = false ∨ twinUp s = false ∨ n = 0 ∨ 2 ^ 36 ≤ off) := by
  simp only [h.isVf, h.up, Nat.ne_of_gt asks, Nat.not_le.mpr inBar, Bool.true_eq_false, or_self, not_false_eq_true]

/-- The function itself serves it. -/
theorem FnReached.serves (h : FnReached s v) : ¬(vfEnabled s v = false ∨ (s.vf v).d3 = true) := by
  simp only [h.enabled, h.awake, Bool.true_eq_false, Bool.false_eq_true, or_self, not_false_eq_true]

theorem FnReached.raises (h : FnReached s v) :
    ¬((!Machine.isVf v) = true ∨ (!twinUp s) = true ∨ (!vfEnabled s v) = true ∨ (s.vf v).d3 = true) := by
  simp only [h.isVf, h.up, h.enabled, h.awake, Bool.not_true, Bool.false_eq_true, or_self, not_false_eq_true]

theorem vfRaise_posts {index : Nat} (h : FnReached s v) (bound : vfLid s v = some lid) :
    exec (.vfRaise v index) s =
      .next (settle s (portGo 8 (queuePiece 8 ⟨v, v, lid, none, false⟩ (.raise (index % 1024)) id s).2)) := by
  show finish s _ = _
  rw [if_neg h.raises, bound, finish_eq]

section
variable (h : FnReached s v) (inBar : off < 2 ^ 36) (asks : 0 < reqBytes wr len l)
include h inBar asks

theorem vfWindow_unbound (unbound : vfLid s v = none) : vfWindow v off len tag wr ep l s = winFault 0 v off tag wr s := by
  simp only [vfWindow, Bool.not_eq_true', if_neg (h.taken inBar asks), if_neg h.serves, unbound]

variable (bound : vfLid s v = some lid)
include bound

/-- The window of the request is not live, or too small for it. -/
abbrev NoWindow (s : State) (v off n : Nat) : Prop :=
  bitOf (winLive s v (off / 2 ^ 34)) 0 = false ∨ 2 ^ fld (winLive s v (off / 2 ^ 34)) 6 1 < off % 2 ^ 34 + n

theorem vfWindow_noWindow (missing : NoWindow s v off (reqBytes wr len l)) :
    vfWindow v off len tag wr ep l s = winFault 4 v off tag wr s := by
  simp only [vfWindow, Bool.not_eq_true', if_neg (h.taken inBar asks), if_neg h.serves, bound, if_pos missing]

variable (live : ¬NoWindow s v off (reqBytes wr len l)) (valid : attrValid (portAttr s 8 lid) = true)
include live valid

theorem vfWindow_held (held : attrHold (portAttr s 8 lid) = true) :
    vfWindow v off len tag wr ep l s = winFault 3 v off tag wr s := by
  simp only [vfWindow, Bool.not_eq_true', if_neg (h.taken inBar asks), if_neg h.serves, bound, if_neg live, valid, held, Bool.true_eq_false,
    if_false, if_true]

variable (free : attrHold (portAttr s 8 lid) = false)
include free

/-- The guest address that the live window gives the request. -/
abbrev winGpa (s : State) (v off : Nat) : Nat :=
  let live := winLive s v (off / 2 ^ 34)
  fld live 47 12 * 4096 / 2 ^ fld live 6 1 * 2 ^ fld live 6 1 + off % 2 ^ 34

theorem vfWindow_untranslated {k : Nat} {u : State}
    (fails : portXlate 8 lid (winGpa s v off) (reqBytes wr len l) wr s = (.error k, u)) :
    vfWindow v off len tag wr ep l s = winFault k v off tag wr u := by
  simp only [vfWindow, Bool.not_eq_true', if_neg (h.taken inBar asks), if_neg h.serves, bound, if_neg live, valid, free, fails,
    Bool.true_eq_false, Bool.false_eq_true, if_false]

theorem vfWindow_translated {pa : Nat} {u : State}
    (maps : portXlate 8 lid (winGpa s v off) (reqBytes wr len l) wr s = (.ok pa, u)) :
    vfWindow v off len tag wr ep l s =
      let q : Inbound := ⟨v, v, lid, some (v, off / 2 ^ 34, winGen u v (off / 2 ^ 34)), ep⟩
      let x := bwAdd .tp (2 * v) (reqBytes wr len l) (unc .tp 2 1 u)
      if wr then portGo 8 (queueWrite 8 q pa l (if ep then epUnc v 12 (off % 2 ^ 32) x else x)).2
      else portGo 8 (queueRead 8 q tag off pa (reqBytes wr len l) true u) := by
  simp only [vfWindow, Bool.not_eq_true', if_neg (h.taken inBar asks), if_neg h.serves, bound, if_neg live, valid, free, maps,
    Bool.true_eq_false, Bool.false_eq_true, if_false]

end

theorem winCommitDrain_drained (isVf : isVf v = true) (busy : s.rf (.vf v) Off.WIN_COMMIT 4 4 ≠ 0)
    (drained : oldWindow s v (s.vf v).commit = false) :
    exec (.winCommitDrain v) s = .next (settle s ((s.wf (.vf v) Off.WIN_COMMIT 4 4 0).modVf v (fun x => { x with commit := 0 }))) := by
  refine finish_of_eq (if_neg ?_)
  simp only [isVf, busy, drained, Bool.not_true, Bool.false_eq_true, or_self, not_false_eq_true]

end

/-! ### Descriptors (R429 to R434) -/

section
variable {s : State} {v r lid : Nat}

/-- The descriptors of a ring that have not completed. -/
abbrev openDescs (s : State) (v r : Nat) : List Desc := ((s.vf v).prog r).filter (fun d => !d.complete)

/-- A bound ring that runs unheld, with a descriptor pending, fewer than 8 in progress and no FENCE among them. -/
structure RingReady (s : State) (v r lid : Nat) : Prop where
  isVf : isVf v = true
  ring : r < 2
  endpoint : twinEp s = true
  bound : vfLid s v = some lid
  runs : ringState s v r = 1
  free : ringHeld s v = false
  pending : (s.vf v).next r ≠ ringTail s v r
  room : (openDescs s v r).length < 8
  noFence : (openDescs s v r).any (fun d => d.op == 4) = false

theorem RingReady.taken (h : RingReady s v r lid) : ¬((!Machine.isVf v) = true ∨ 2 ≤ r ∨ (!twinEp s) = true) := by
  simp only [h.isVf, Nat.not_le.mpr h.ring, h.endpoint, Bool.not_true, Bool.false_eq_true, or_self, not_false_eq_true]

theorem RingReady.mayFetch (h : RingReady s v r lid) : Machine.mayFetch s v r = true := by
  simp only [Machine.mayFetch, h.bound, h.runs, h.free, bne_iff_ne.mpr h.pending, decide_eq_true h.room, h.noFence, Option.isSome_some,
    beq_self_eq_true, Bool.not_false, Bool.and_self]

section
variable (h : RingReady s v r lid)
include h

theorem descStart_waits (turn : fetchTurn s v r = false) : descStart v r s = s := by
  simp only [descStart, if_neg h.taken, h.bound, turn, Bool.not_false, or_true, if_true]

/-- The state in which the engine fetches: the ring has taken its slot. -/
abbrev fetching (v r : Nat) (s : State) : State := slotTaken 8 (some (pairOf v r)) s

/-- Guest address of the descriptor that the ring starts next. -/
abbrev nextDescGpa (s : State) (v r : Nat) : Nat :=
  (fetching v r s).rf (.vf v) (Off.RING_BASE + 0x20 * r) 47 5 * 32 + 32 * ((s.vf v).next r % ringN (fetching v r s) v r)

variable (turn : fetchTurn s v r = true)
include turn

theorem descStart_unread {c : Nat} {u : State} (fails : localRead lid 2 (nextDescGpa s v r) 32 (fetching v r s) = (.error c, u)) :
    descStart v r s = haltRing v r c u := by
  simp only [descStart, if_neg h.taken, h.bound, h.mayFetch, turn, fails, Bool.not_true, Bool.false_eq_true, or_self, if_false]

theorem descStart_fetched {b : List Byte} {u : State} (fetched : localRead lid 2 (nextDescGpa s v r) 32 (fetching v r s) = (.ok b, u)) :
    descStart v r s = if descBad b = true then haltRing v r 1 u else issueDesc v r lid ((s.vf v).next r) b u := by
  simp only [descStart, if_neg h.taken, h.bound, h.mayFetch, turn, fetched, Bool.not_true, Bool.false_eq_true, or_self, if_false]

end

/-- FENCE and NOTIFY move no bytes: issuing one only puts it among those in progress. -/
theorem issueDesc_ordering {i : Nat} {b : List Byte} (ordering : 3 < bytesAt b 0 0 % 8) :
    issueDesc v r lid i b s = s.modVf v (fun x =>
      (x.setProg r (x.prog r ++ [⟨i, bytesAt b 0 0 % 8, bytesAt b 1 1, bytesAt b 3 2, 0, bytesAt b 15 8, bytesAt b 23 16, 0, 0, [], false⟩])).setNext r
        ((i + 1) % (2 * ringN s v r))) := by
  have not1 : bytesAt b 0 0 % 8 ≠ 1 := by omega
  have not2 : bytesAt b 0 0 % 8 ≠ 2 := by omega
  have not3 : bytesAt b 0 0 % 8 ≠ 3 := by omega
  simp only [issueDesc, if_neg not1, if_neg not2, if_neg not3, if_neg (Nat.not_le.mpr ordering)]

section
variable {i : Nat} {d : Desc} (isVf : isVf v = true) (ring : r < 2)
  (found : ((s.vf v).prog r).find? (fun d => d.idx == i && !d.complete) = some d)
include isVf ring

theorem completionTaken : ¬(Machine.isVf v = false ∨ 2 ≤ r) := by
  simp only [isVf, Nat.not_le.mpr ring, Bool.true_eq_false, or_self, not_false_eq_true]

/-- Every descriptor before `i` in the ring has completed. -/
abbrev allEarlierDone (s : State) (v r i : Nat) : Bool := (((s.vf v).prog r).takeWhile (fun x => x.idx != i)).all (·.complete)

include found

theorem descComplete_open
    (stays : descWorkDone s d = false ∨ ((d.op = 4 ∨ d.op = 5 ∨ d.flags / 4 % 2 = 1) ∧ allEarlierDone s v r i = false)) :
    descComplete v r i s = s := by
  simp only [descComplete, Bool.not_eq_true', if_neg (completionTaken isVf ring), found]
  exact if_pos (stays.imp_right Or.inl)

theorem descComplete_done (done : descWorkDone s d = true) (earlier : allEarlierDone s v r i = true) (free : ringHeld s v = false) :
    descComplete v r i s =
      let lid := (vfLid s v).getD 0
      let s1 := unc .tp 13 1 s
      let s2 := if d.flags / 2 % 2 = 1 then
          portPost 8 0xE4 { agent := portAgent 8, line := 0, lid := lid, gen := attrGen (portAttr s1 8 lid), arg := d.src % 8192 } s1
        else s1
      let s3 := if d.flags / 4 % 2 = 1 then vfVector v (d.flags / 8 % 4) s2 else s2
      advanceHead v r (setDesc v r i (fun d => { d with complete := true }) s3) := by
  simp only [descComplete, Bool.not_eq_true', if_neg (completionTaken isVf ring), found, done, earlier, free, Bool.true_eq_false,
    Bool.false_eq_true, and_false, or_self, if_false]

end

end

/-- Settles O46: a request by the first check that it fails, a descriptor by whether it may start, and whether its work is done. -/
theorem partnerRequestsAndRingDescriptors : Obligations.PartnerRequestsAndRingDescriptors := by
  refine ⟨?mailbox, ?window, ?drain, ?raises, ?start, ?complete⟩
  case mailbox =>
    intro s wr off len tag l up n
    refine ⟨?taken, fun bad => finish_of_eq (pf0Mailbox_unsupported up bad)⟩
    case taken =>
      intro awake some most inside u
      have fits : ¬Pf0Unsupported s off (reqBytes wr len l) := pf0Supported awake some most inside
      exact ⟨fun writes => finish_of_eq ((pf0Mailbox_taken up fits).trans (if_pos writes)),
        fun reads => finish_of_eq ((pf0Mailbox_taken up fits).trans (if_neg (Bool.eq_false_iff.mp reads)))⟩
  case window =>
    intro s v off len tag wr ep l isVf up enabled awake inBar n w o live sz e asks
    have h : FnReached s v := ⟨isVf, up, enabled, awake⟩
    refine ⟨fun unbound => finish_of_eq (vfWindow_unbound h inBar asks unbound), fun lid bound =>
      ⟨fun missing => finish_of_eq (vfWindow_noWindow h inBar asks bound missing), fun isLive inside valid => ?_⟩⟩
    have found : ¬NoWindow s v off (reqBytes wr len l) := by
      rintro (dead | small)
      · rw [isLive] at dead; nomatch dead
      · exact Nat.not_lt.mpr inside small
    refine ⟨fun held => finish_of_eq (vfWindow_held h inBar asks bound found valid held), ?_⟩
    intro free g
    refine ⟨fun k u fails => finish_of_eq (vfWindow_untranslated h inBar asks bound found valid free fails), ?_⟩
    intro pa u maps q
    have moves := vfWindow_translated (tag := tag) (ep := ep) h inBar asks bound found valid free maps
    exact ⟨fun writes => finish_of_eq (moves.trans (if_pos writes)),
      fun reads => finish_of_eq (moves.trans (if_neg (Bool.eq_false_iff.mp reads)))⟩
  case drain =>
    exact fun s v => ⟨fun isVf busy drained => winCommitDrain_drained isVf busy drained,
      fun old => finish_of_eq (if_pos (.inr (.inr old)))⟩
  case raises => exact fun s v index lid isVf up enabled awake bound => vfRaise_posts ⟨isVf, up, enabled, awake⟩ bound
  case start =>
    intro s v r lid isVf ring endpoint bound runs free pending room noFence
    have h : RingReady s v r lid := ⟨isVf, ring, endpoint, bound, runs, free, pending, room, noFence⟩
    refine ⟨fun turn => finish_of_eq (descStart_waits h turn), ?_⟩
    intro turn i w g
    refine ⟨fun c u fails => finish_of_eq (descStart_unread h turn fails), fun b u fetched => ⟨fun bad => ?_, fun good => ?_⟩,
      fun b u fetched good ordering => ?_⟩
    · exact finish_of_eq ((descStart_fetched h turn fetched).trans (if_pos bad))
    · exact finish_of_eq ((descStart_fetched h turn fetched).trans (if_neg (Bool.eq_false_iff.mp good)))
    · exact finish_of_eq ((descStart_fetched h turn fetched).trans ((if_neg (Bool.eq_false_iff.mp good)).trans (issueDesc_ordering ordering)))
  case complete =>
    intro s v r i d isVf ring found earlier lid
    exact ⟨fun stays => lodgesGoOn (descComplete_open isVf ring found stays),
      fun done all free => lodgesGoOn (descComplete_done isVf ring found done all free)⟩

/-! ### The link and PF0's clock (R438, R439, R441) -/

section
variable {s : State}

theorem twinUp_of_link (endpoint : twinEp s = true) (link : s.rf .tp Off.TP_LINK 1 0 = 1) : twinUp s = true := by
  simp only [twinUp, endpoint, link, beq_self_eq_true, Bool.and_self]

theorem not_twinUp_of_link (link : s.rf .tp Off.TP_LINK 1 0 ≠ 1) : twinUp s = false := by
  simp only [twinUp, beq_eq_false_iff_ne.mpr link, Bool.and_false]

/-- A link of a legal speed and width may come up in a mode that allows it, with channel 3 open and PERST# released. -/
theorem twinLinkUp_taken {speed width : Nat} (endpoint : twinEp s = true) (isOpen : s.chState 3 ≠ 0) (released : s.pwr.twinPerst = false)
    (mode : twinMode s = true) (down : s.rf .tp Off.TP_LINK 1 0 ≠ 1) (slowest : 1 ≤ speed) (fastest : speed ≤ 6)
    (legal : width ∈ [1, 2, 4, 8, 16]) :
    ¬((!twinEp s) = true ∨ s.chState 3 = 0 ∨ s.pwr.twinPerst = true ∨ (!twinMode s) = true ∨ s.rf .tp Off.TP_LINK 1 0 = 1 ∨ speed = 0 ∨
      6 < speed ∨ (!([1, 2, 4, 8, 16].contains width)) = true) := by
  simp only [endpoint, isOpen, released, mode, down, List.contains_iff_mem.mpr legal, Bool.not_true, Bool.false_eq_true, false_or, or_false]
  omega

/-- The Sett runs, its time moves, and the port is an endpoint. -/
theorem heartbeat_taken (moves : s.sett.timeStill = false) (serves : s.rf .sett Off.SETT_STATE 1 0 = 1) (endpoint : twinEp s = true) :
    ¬(s.sett.timeStill = true ∨ s.rf .sett Off.SETT_STATE 1 0 ≠ 1 ∨ (!twinEp s) = true) := by
  simp only [moves, serves, endpoint, Bool.not_true, Bool.false_eq_true, ne_eq, not_true_eq_false, or_self, not_false_eq_true]

end

/-! ### The partner's configuration writes (R435) -/

section
variable {s : State} {v n : Nat} (up : twinUp s = true)
include up

theorem configReaches {fn : Nat} (named : fn < 64) : ¬((!twinUp s) = true ∨ 64 ≤ fn) := by
  simp only [up, Nat.not_le.mpr named, Bool.not_true, Bool.false_eq_true, or_self, not_false_eq_true]

end

theorem vf_lt (isVf : isVf v = true) : v < 64 := by
  simp only [Machine.isVf, Bool.and_eq_true, decide_eq_true_eq] at isVf
  omega

theorem vf_ne_zero (isVf : isVf v = true) : v ≠ 0 := by
  rintro rfl
  nomatch isVf

/-! ### Resets, and the IO commands of the twin port (R436, R437, R445, R446) -/

section
variable {s : State} {c : Cmd} {v : Nat}

/-- The commands that wait for the reset of this function. -/
abbrev vfResetCmds (v : Nat) (s : State) : List Cmd :=
  s.sett.cmds.filter (fun c => c.opcode == 0x0541 && c.phase == .running && c.aux == [v])

/-- A running FLR ends, and every command that waits for it is answered. -/
theorem flrComplete_running {t : Nat} (runs : (s.vf v).flr = some t) :
    flrComplete v s =
      let u := (s.modVf v (fun x => { x with flr := none })).wf (.vf v) Off.VF_CTL 2 2 0
      (vfResetCmds v u).foldl (fun s c => respond c stOk [] s) u := by
  simp only [flrComplete, runs, Option.isNone_some, Bool.false_eq_true, if_false]

/-- The function that IO.TWIN_VF_RESET names. -/
abbrev resetVf (c : Cmd) : Nat := bytesAt c.body 0 0

theorem ioTwinVfReset_root (root : s.pwr.tpRoot = true) : ioTwinVfReset c s = .fail stNoTarget s := by
  simp only [ioTwinVfReset, root, if_true]

section
variable (endpoint : s.pwr.tpRoot = false)
include endpoint

theorem ioTwinVfReset_unbound (unbound : isVf (resetVf c) = false ∨ vfLid s (resetVf c) = none) :
    ioTwinVfReset c s = .fail stBadField s := by
  by_cases named : isVf (resetVf c) = true
  · rcases unbound with unnamed | unbound
    · exact absurd named (Bool.eq_false_iff.mp unnamed)
    · simp only [ioTwinVfReset, endpoint, named, unbound, Bool.not_true, Bool.false_eq_true, if_false]
  · simp only [ioTwinVfReset, endpoint, Bool.eq_false_iff.mpr named, Bool.not_false, Bool.false_eq_true, if_false, if_true]

theorem ioTwinVfReset_bound {l : Nat} (named : isVf (resetVf c) = true) (bound : vfLid s (resetVf c) = some l) :
    finishCmd c (ioTwinVfReset c s) =
      if (s.lodgeSt l).ownedBy c.ch = false then respond c stDenied [] s
      else if s.leased Blk.tp.inst = true then respond c stLeaseHeld [] s
      else setPhase c.ord .running [resetVf c] (startFlr (resetVf c) s) := by
  simp only [ioTwinVfReset, endpoint, named, bound, Bool.not_true, Bool.not_eq_true', Bool.false_eq_true, if_false,
    apply_ite (finishCmd c), finishCmd_fail, finishCmd_run]

end

end

/-- Settles O47: an event of the link or a write of the partner by whether it is taken, a command by what its body answers. -/
theorem twinLinkFunctionsAndHeartbeat : Obligations.TwinLinkFunctionsAndHeartbeat := by
  refine ⟨?up, ?pins, ?pf0, ?function, ?flr, ?flrEnds, ?heartbeat, ?commands⟩
  case up =>
    exact fun s speed width endpoint isOpen released mode down slowest fastest legal =>
      finish_of_eq (if_neg (twinLinkUp_taken endpoint isOpen released mode down slowest fastest legal))
  case pins =>
    intro s endpoint u
    have taken : ¬(!twinEp s) = true := by rw [endpoint]; decide
    exact ⟨finish_of_eq (if_neg taken), finish_of_eq (if_neg taken),
      fun c link cause => finish_of_eq (if_pos ⟨twinUp_of_link endpoint link, cause⟩),
      fun c down => finish_of_eq (if_neg fun both => Bool.eq_false_iff.mp (not_twinUp_of_link down) both.1)⟩
  case pf0 =>
    intro s b n up pf0 put
    have reaches := configReaches up (show 0 < 64 by decide)
    refine ⟨finish_of_eq ((if_neg reaches).trans (if_pos rfl)), finish_of_eq ((if_neg reaches).trans (if_pos rfl)),
      finish_of_eq ((if_neg reaches).trans (if_pos rfl)), finish_of_eq ((if_neg reaches).trans ((if_pos rfl).trans (if_pos rfl))),
      fun on => ?clears, fun off few => ?numVfs, fun on => ?locked, fun legal => ?mps, fun legal => ?mrrs, fun legal => ?cto⟩
    case clears => exact finish_of_eq ((if_neg reaches).trans ((if_pos rfl).trans ((if_neg (by decide)).trans (if_pos on))))
    case numVfs => exact finish_of_eq ((if_neg reaches).trans ((if_pos rfl).trans (if_neg (not_or.mpr ⟨off, Nat.not_lt.mpr few⟩))))
    case locked => exact finish_of_eq ((if_neg reaches).trans ((if_pos rfl).trans (if_pos (.inl on))))
    all_goals exact finish_of_eq ((if_neg reaches).trans ((if_pos rfl).trans (if_pos (List.contains_iff_mem.mpr legal))))
  case function =>
    intro s v m b up isVf enabled vf
    have reaches := configReaches up (vf_lt isVf)
    have taken : ¬(!vfEnabled s v) = true := by rw [enabled]; decide
    refine ⟨?_, ?_, ?_, ?_, ?_⟩ <;> exact finish_of_eq ((if_neg reaches).trans ((if_neg (vf_ne_zero isVf)).trans (if_neg taken)))
  case flr =>
    intro s v up
    have reaches : ¬(!twinUp s) = true := by rw [up]; decide
    exact ⟨finish_of_eq ((if_neg reaches).trans (if_pos rfl)),
      fun isVf => finish_of_eq ((if_neg reaches).trans ((if_neg (vf_ne_zero isVf)).trans (if_pos isVf)))⟩
  case flrEnds =>
    intro s v t runs u
    have effect := flrComplete_running runs
    exact ⟨fun c l waiting => lodgesGoOn (effect.trans (congrArg (List.foldl _ u) waiting)),
      fun none => lodgesGoOn (effect.trans (congrArg (List.foldl _ u) none))⟩
  case heartbeat =>
    intro s moves serves endpoint u
    exact finish_of_eq (if_neg (heartbeat_taken moves serves endpoint))
  case commands =>
    intro s ch tag op v c ready
    refine ⟨?info, ?reset⟩
    case info =>
      rintro rfl
      exact belet_answers (body := ioTwinInfo) ready rfl
    case reset =>
      rintro rfl rfl
      exact ⟨fun root => belet_answers (body := ioTwinVfReset) ready (congrArg (finishCmd c) (ioTwinVfReset_root root)),
        fun endpoint unbound => belet_answers (body := ioTwinVfReset) ready
          (congrArg (finishCmd c) (ioTwinVfReset_unbound endpoint unbound)),
        fun l endpoint named bound => belet_answers (body := ioTwinVfReset) ready (ioTwinVfReset_bound endpoint named bound)⟩

end Sys2Proof.Machine

/-! ## Hoard banks: clears, marches, the spare, and owners (family 17_hoard) -/
namespace Sys2Proof.Machine

/-! ### Ends of a clear, of a march and of the copy to the spare (R454, R456, R458) -/

section
variable {s : State} {n b t : Nat}

/-- The state in which a bank's clear has ended: all zero, and open or closed by its owner. -/
abbrev clearedBank (b : Nat) (s : State) : State :=
  settleBank b (setBankSt b 1 (zeroBank b (s.modHoard (b / 16) (fun h => { h with clears := h.clears.filter (· != b) }))))

section
variable {u : State} (clearing : (s.hoard (b / 16)).clears.contains b = true) (cleared : clearedBank b s = u)
include clearing cleared

theorem clearEnd_answers {c : Cmd}
    (waits : u.sett.cmds.find? (fun c => c.opcode == 0x0370 && c.phase == .running && c.aux == [b]) = some c) :
    clearEnd b s = respond c stOk (leBytes 4 (ownerReg u b).toNat ++ leBytes 1 (bankSt u b)) u := by
  simp only [clearEnd, clearing, cleared, waits, Bool.not_true, Bool.false_eq_true, if_false]

theorem clearEnd_unawaited
    (none : u.sett.cmds.find? (fun c => c.opcode == 0x0370 && c.phase == .running && c.aux == [b]) = none) :
    clearEnd b s = u := by
  simp only [clearEnd, clearing, cleared, none, Bool.not_true, Bool.false_eq_true, if_false]

end

/-- The march of stop `n` is transparent. -/
abbrev Transparent (s : State) (n : Nat) : Prop := s.rf (.hoard n) Off.MARCH_CTL 4 4 = 1

/-- The engine has left the bank: zeroed unless the march was transparent, and open or closed by its owner. -/
abbrev marchedBank (n b : Nat) (s : State) : State :=
  settleBank b (setBankSt b 1 (if Transparent s n then s.modHoard n (fun h => { h with march := none })
    else zeroBank b (s.modHoard n (fun h => { h with march := none }))))

/-- The first failing line and the failing sub-arrays stand in MARCH_RESULT. -/
abbrev failedMarch (n b ln subs : Nat) (s : State) : State :=
  (((marchedBank n b s).wf (.hoard n) Off.MARCH_RESULT 1 1 1).wf (.hoard n) Off.MARCH_RESULT 21 8 ln).wf (.hoard n) Off.MARCH_RESULT 29 22 subs

/-- The spare of stop `n` is neither in use nor failed. -/
abbrev SpareFree (s : State) (n : Nat) : Prop := s.rf (.hoard n) Off.SPARE 4 4 = 0 ∧ s.rf (.hoard n) Off.SPARE 24 24 = 0

section
variable (marching : (s.hoard n).march = some (b, t))
include marching

theorem marchEnd_passed : marchEnd n none s = marchOver n (marchedBank n b s) := by
  simp only [marchEnd, marching]

theorem marchEnd_failed (ln subs : Nat) :
    marchEnd n (some (ln, subs)) s =
      let v := failedMarch n b ln subs s
      if SpareFree v n then
        (if Transparent s n then v.modHoard n (fun h => { h with copy := some b }) else marchOver n (sparing n b true v))
      else marchOver n (sparing n b false v) := by
  simp only [marchEnd, marching]

end

theorem spareCopyEnd_copying (copying : (s.hoard n).copy = some b) :
    spareCopyEnd n s =
      let u := s.modHoard n (fun h => { h with copy := none })
      let ls := (u.flips.filter (fun f => f.checker == 2 && f.inst == (Blk.hoard n).stop + 4 * 256 && hbankOf f.key == b)).map (·.key)
      marchOver n (sparing n b true (ls.foldl (fun s ln => (hoardLine ln s).2) u)) := by
  simp only [spareCopyEnd, copying]

end

/-! ### MEM.HOARD_OWNER and MEM.HOARD_MARCH (R459 to R461) -/

section
variable {s t : State} {c : Cmd}

theorem memHoardOwner_answer (c : Cmd) (s : State) :
    finishCmd c (memHoardOwner c s) =
      let b := bytesAt c.body 0 0
      let kind := bytesAt c.body 2 2
      let id := bytesAt c.body 4 3
      let done := fun (t : State) => respond c stOk (leBytes 4 (ownerReg t b).toNat ++ leBytes 1 (bankSt t b)) t
      let u := setOwner b (BitVec.ofNat 64 (kind + id * 8 + (bytesAt c.body 5 5 % 2) * 4096)) s
      if 64 ≤ b ∨ 1 < bytesAt c.body 1 1 then respond c stBadField [] s
      else if bytesAt c.body 1 1 = 0 then done s
      else if 4 < kind ∨ (kind = 3 ∧ 512 ≤ id) ∨ (kind = 4 ∧ 8 < id) ∨ (kind < 3 ∧ id ≠ 0) then respond c stBadField [] s
      else if kind = 1 ∨ b = 32 ∨ (c.ch = 1 ∧ ch1MayOwn s b = false) then respond c stDenied [] s
      else if (kind = 3) ≠ (ownerKind s b = 3) ∨ (kind = 3 ∧ id ≠ ownerId s b) then respond c stDenied [] s
      else if s.leased (bankBlk b).inst = true then respond c stLeaseHeld [] s
      else if bytesAt c.body 5 5 / 2 % 2 = 1 then setPhase c.ord .running [b] (startClear b u)
      else done u := by
  simp only [memHoardOwner, apply_ite (finishCmd c), Bool.not_eq_true', finishCmd_fail, finishCmd_done, finishCmd_run]

/-- MEM.HOARD_OWNER acts unless it asks for a clear of a bank that the engine is at work on. -/
theorem exec_memHoardOwner_answers {ch tag : Nat} (ready : Ready s ch tag 0x0370 c)
    (idle : bytesAt c.body 1 1 ≠ 1 ∨ bytesAt c.body 5 5 / 2 % 2 ≠ 1 ∨ bankSt s (bytesAt c.body 0 0) < 2)
    (answer : finishCmd c (memHoardOwner c s) = t) : exec (.memHoardOwner ch tag) s = .next (settle s t) := by
  have starts : ¬(bytesAt c.body 1 1 = 1 ∧ bytesAt c.body 5 5 / 2 % 2 = 1 ∧ 2 ≤ bankSt s (bytesAt c.body 0 0)) := by omega
  show finish s _ = _
  rw [ready.found]
  exact (congrArg (finish s) (if_neg starts)).trans (belet_answers ready answer)

theorem memHoardMarch_answer (c : Cmd) (s : State) :
    finishCmd c (memHoardMarch c s) =
      let b := bytesAt c.body 0 0
      let algo := bytesAt c.body 1 1
      if 64 ≤ b ∨ 1 < algo then respond c stBadField [] s
      else if s.leased (bankBlk b).inst = true then respond c stLeaseHeld [] s
      else if (s.hoard (b / 16)).march.isSome = true ∨ (s.hoard (b / 16)).copy.isSome = true then respond c stBusy [] s
      else if marchRefused s b algo = true then respond c stDenied [] s
      else setPhase c.ord .running [b, s.tick] (startMarch (b / 16) (b % 16) algo s) := by
  simp only [memHoardMarch, apply_ite (finishCmd c), finishCmd_fail, finishCmd_run]

end

/-- Settles O48: the end of the engine's work by its result, a command by what its body answers. -/
theorem hoardBanksOwnersClearsAndMarches : Obligations.HoardBanksOwnersClearsAndMarches := by
  refine ⟨?clear, ?march, ?copy, ?owner, ?startMarch⟩
  case clear =>
    intro s b clearing u
    have cleared : clearedBank b s = u := rfl
    exact ⟨fun c waits => lodgesGoOn (clearEnd_answers clearing cleared waits),
      fun none => lodgesGoOn (clearEnd_unawaited clearing cleared none)⟩
  case march =>
    intro s n b t bad marching trans u
    refine ⟨?passed, ?failed⟩
    case passed =>
      rintro rfl
      exact finish_of_eq (marchEnd_passed marching)
    case failed =>
      rintro ln subs rfl v spare
      have failed := marchEnd_failed marching ln subs
      exact ⟨fun free transparent => finish_of_eq (failed.trans ((if_pos free).trans (if_pos transparent))),
        fun free destructive => finish_of_eq (failed.trans ((if_pos free).trans (if_neg destructive))),
        fun noSpare => finish_of_eq (failed.trans (if_neg noSpare))⟩
  case copy =>
    intro s n b copying u ls
    exact finish_of_eq (spareCopyEnd_copying copying)
  case owner =>
    rintro s ch tag _ _ _ c ready rfl rfl rfl idle done u
    exact exec_memHoardOwner_answers ready idle (memHoardOwner_answer c s)
  case startMarch =>
    rintro s ch tag _ _ c ready rfl rfl
    exact belet_answers (body := memHoardMarch) ready (memHoardMarch_answer c s)

end Sys2Proof.Machine

/-! ## Fault reports, the dedicated wires, and the FAULT commands (family 19_owl) -/
namespace Sys2Proof.Machine

/-! ### Reports and wires (R485 to R492) -/

section
variable {s : State} (notOff : s.modeFlag 0 = false) (notHeld : s.pwr.coldHeld = false)

/-- The flit in flight that tells what `r` tells. -/
abbrev sameFlit (r x : Report) : Bool := { x with how := 0 } == { r with how := 0 }

theorem faultReport_illegal {r : Report} (bad : classOk r.cls = false ∨ 3 < r.sev) : faultReport r s = s := by
  have refused : s.modeFlag 0 = true ∨ s.pwr.coldHeld = true ∨ (!classOk r.cls) = true ∨ 3 < r.sev ∨
      ((s.owl.flits.find? (sameFlit r)).isNone = true ∧ (!unitOn s r.inst) = true) := by
    rcases bad with noClass | noSeverity
    · exact .inr (.inr (.inl (by rw [noClass]; rfl)))
    · exact .inr (.inr (.inr (.inl noSeverity)))
  exact if_pos refused

include notOff notHeld

/-- A legal report of a unit that is on is counted, captured, latched and reacted to. -/
theorem faultReport_legal {r0 : Report} (legal : classOk r0.cls = true) (severity : r0.sev ≤ 3) (on : unitOn s r0.inst = true) :
    faultReport r0 s =
      let r := (s.owl.flits.find? (sameFlit r0)).getD r0
      let x := capture r { s with owl := { s.owl with flits := delFirst (sameFlit r0) s.owl.flits } }
      let l := latchReport r x.2
      takeActions r x.1 l.1 (if l.2.serving then mapReport r l.2 else l.2) := by
  have taken : ¬(s.modeFlag 0 = true ∨ s.pwr.coldHeld = true ∨ (!classOk r0.cls) = true ∨ 3 < r0.sev ∨
      ((s.owl.flits.find? (sameFlit r0)).isNone = true ∧ (!unitOn s r0.inst) = true)) := by
    simp only [notOff, notHeld, legal, on, Nat.not_lt.mpr severity, Bool.not_true, Bool.false_eq_true, and_false, or_self, not_false_eq_true]
  exact if_neg taken

theorem exec_domainDownLine_driven (driven : s.owl.domainDown = true) :
    exec .domainDownLine s = .next (settle s (wireReport 0 1 { s with owl := { s.owl with domainDown := false } })) := by
  refine finish_of_eq (if_pos ?_)
  simp only [driven, notOff, notHeld, Bool.not_false, and_self]

theorem exec_owlSelf : exec .owlSelf s = .next (settle s (wireReport 1 2 s)) := by
  refine finish_of_eq (if_neg ?_)
  simp only [notOff, notHeld, Bool.false_eq_true, or_self, not_false_eq_true]

end

theorem exec_domainDownLine_idle {s : State} (idle : s.owl.domainDown = false) : exec .domainDownLine s = .next (settle s s) := by
  refine finish_of_eq (if_neg ?_)
  simp only [idle, Bool.false_eq_true, false_and, not_false_eq_true]

/-! ### FAULT commands (R485, R488, R494, R496, R497) -/

section
variable (c : Cmd) (s : State)

theorem faultClear_answer :
    finishCmd c (faultClear c s) =
      let u := clearClasses (bytesAt c.body 7 0) s
      if owlLeased s = true then respond c stLeaseHeld [] s
      else respond c stOk (leBytes 8 (u.rd .owl Off.OWL_STATUS).toNat) u := by
  simp only [faultClear, apply_ite (finishCmd c), finishCmd_fail, finishCmd_done]

theorem faultReact_answer :
    finishCmd c (faultReact c s) =
      let k := bytesAt c.body 0 0
      let v := bytesAt c.body 7 4
      let o := Off.REACT + 8 * k
      let u := s.wr .owl o (BitVec.ofNat 64 v)
      if 63 < k ∨ 1 < bytesAt c.body 1 1 then respond c stBadField [] s
      else if bytesAt c.body 1 1 = 0 then respond c stOk (leBytes 4 (s.rd .owl o).toNat) s
      else if classOk k = false ∨ (List.range 4).any (fun i => !reactByteOk k (v / 256 ^ i % 256)) = true then respond c stBadField [] s
      else if owlLeased s = true then respond c stLeaseHeld [] s
      else respond c stOk (leBytes 4 (u.rd .owl o).toNat) u := by
  simp only [faultReact, apply_ite (finishCmd c), Bool.not_eq_true', finishCmd_fail, finishCmd_done]

theorem faultDetail_answer :
    finishCmd c (faultDetail c s) =
      let i := bytesAt c.body 1 0
      let rd := fun (o : Nat) => leBytes 8 (if errPart (i % 256) (i / 256) then s.rd (detailBlk i) o else 0).toNat
      let rsp := rd Off.ERR_STATUS ++ rd Off.ERR_ADDR ++ rd Off.ERR_INFO ++ rd Off.ERR_CNT
      if noUnit i = true then respond c stBadField [] s
      else if bytesAt c.body 2 2 = 0 then respond c stOk rsp s
      else if s.leased (detailBlk i).inst = true then respond c stLeaseHeld [] s
      else respond c stOk rsp (clearCapture i s) := by
  simp only [faultDetail, apply_ite (finishCmd c), finishCmd_fail, finishCmd_done]

theorem faultInject_answer :
    finishCmd c (faultInject c s) =
      let i := bytesAt c.body 1 0
      let v := injectBits (bytesAt c.body 7 4)
      let k := v % 32
      if noUnit i = true ∨ errPart (i % 256) (i / 256) = false ∨ (injectable i).contains k = false ∨
          (parityChk k = true ∧ v / 512 % 128 ≠ 0) then respond c stBadField [] s
      else if injectMode s k = false then respond c stWrongMode [] s
      else if s.leased (detailBlk i).inst = true then respond c stLeaseHeld [] s
      else respond c stOk (leBytes 4 v) (s.wr (detailBlk i) Off.INJECT (BitVec.ofNat 64 v)) := by
  simp only [faultInject, apply_ite (finishCmd c), Bool.not_eq_true', finishCmd_fail, finishCmd_done]

theorem faultCtl_answer :
    finishCmd c (faultCtl c s) =
      let m := bytesAt c.body 1 1
      let rsp := fun (t : State) => leBytes 1 (t.rf .owl Off.OWL_CTL 3 0) ++ leBytes 1 (t.rf .owl Off.OWL_CTL 7 4)
      let u := s.wf .owl Off.OWL_CTL 3 0 m
      if 1 < bytesAt c.body 0 0 then respond c stBadField [] s
      else if bytesAt c.body 0 0 = 0 then respond c stOk (rsp s) s
      else if m = 0 ∨ 15 < m then respond c stBadField [] s
      else if owlLeased s = true then respond c stLeaseHeld [] s
      else respond c stOk (rsp u) u := by
  simp only [faultCtl, apply_ite (finishCmd c), finishCmd_fail, finishCmd_done]

end

/-- Settles O49: a report or a wire by whether it is taken, a command by what its body answers. -/
theorem reportsReactionsAndFaultCommands : Obligations.ReportsReactionsAndFaultCommands := by
  refine ⟨?report, ?wires, ?window, ?commands⟩
  case report =>
    intro s inst cls sev checker line index agent synd notOff notHeld r0 same e
    refine ⟨?legal, fun bad => finish_of_eq (faultReport_illegal bad)⟩
    case legal =>
      intro legal severity on r u x l
      exact finish_of_eq (faultReport_legal notOff notHeld legal severity on)
  case wires =>
    exact fun s notOff notHeld => ⟨fun driven => exec_domainDownLine_driven notOff notHeld driven,
      fun idle => exec_domainDownLine_idle idle, exec_owlSelf notOff notHeld⟩
  case window =>
    intro s w
    refine ⟨fun open_ moves => ?closes, fun closed => ?stays⟩
    case closes =>
      show finish s _ = _
      rw [open_]
      exact finish_of_eq (if_neg (Bool.eq_false_iff.mp moves))
    case stays =>
      show finish s _ = _
      rw [closed, finish_eq]
  case commands =>
    intro s ch tag op c ready f
    refine ⟨?status, ?clear, ?react, ?detail, ?inject, ?ctl⟩ <;> rintro rfl
    case status => exact belet_answers (body := faultStatus) ready rfl
    case clear => exact belet_answers (body := faultClear) ready (faultClear_answer c s)
    case react => exact belet_answers (body := faultReact) ready (faultReact_answer c s)
    case detail => exact belet_answers (body := faultDetail) ready (faultDetail_answer c s)
    case inject => exact belet_answers (body := faultInject) ready (faultInject_answer c s)
    case ctl => exact belet_answers (body := faultCtl) ready (faultCtl_answer c s)

end Sys2Proof.Machine

/-! ## Wear thresholds and the CORE commands (family 20_spare_capacity) -/
namespace Sys2Proof.Machine

/-! ### CORE.INFO, CORE.SPARE_STATUS and CORE.WEAR_CFG (R503, R511, R512) -/

section
variable (c : Cmd) (s : State)

/-- What CORE.INFO answers of a hart and of the PCN where it stands, if it has one. -/
abbrev infoRsp (s : State) (hart : Nat) (pcn : Option Nat) : List Byte :=
  leBytes 1 hart ++ leBytes 2 (pcn.getD 0x1FF) ++
    leBytes 1 (match pcn with | some p => pcnCode (s.pcnSt p) | none => 0) ++
    leBytes 1 (match pcn with | some p => waysOf (withMap s) (.core p) Off.L2_WAYCFG 17 | none => 0) ++
    leBytes 1 (match pcn with | some p => s.rf (.core p) Off.WAKE_SRC 7 6 | none => 0) ++
    leBytes 2 (min 0xFFFF (match pcn with | some p => wearCount s 5 p | none => 0))

/-- The hart that CORE.INFO names: the one on the core that serves it, or the vacant one itself. -/
abbrev infoHart (s : State) (v : Nat) : Nat := match s.pcnOf v with | some p => hartByte s p | none => v

theorem coreInfo_answer :
    finishCmd c (coreInfo c s) =
      let v := bytesAt c.body 1 0
      if 0x8000 ≤ v then
        (if 272 ≤ v - 0x8000 then respond c stBadField [] s
         else respond c stOk (infoRsp s (hartByte s (v - 0x8000)) (some (v - 0x8000))) s)
      else if 256 ≤ v then respond c stBadField [] s
      else respond c stOk (infoRsp s (infoHart s v) (s.pcnOf v)) s := by
  by_cases byPcn : 0x8000 ≤ bytesAt c.body 1 0
  · simp only [coreInfo, byPcn, decide_true, Bool.not_true, Bool.false_eq_true, true_and, false_and, or_false, if_true,
      apply_ite (finishCmd c), finishCmd_fail, finishCmd_done]
  · simp only [coreInfo, byPcn, decide_false, Bool.not_false, Bool.false_eq_true, true_and, false_and, false_or, if_false,
      apply_ite (finishCmd c), finishCmd_fail, finishCmd_done] <;> rfl

/-- A CORE.WEAR_CFG write whose threshold is not legal for its kind. -/
theorem wearThreshold_bad_iff (k th : Nat) :
    (if k < 3 then decide (2 ≤ th) && decide (th ≤ 16) else decide (1 ≤ th)) = false ↔
      (k < 3 ∧ (th < 2 ∨ 16 < th)) ∨ (3 ≤ k ∧ th = 0) := by
  by_cases low : k < 3
  · rw [if_pos low, Bool.and_eq_false_iff, decide_eq_false_iff_not, decide_eq_false_iff_not]
    omega
  · rw [if_neg low, decide_eq_false_iff_not]
    omega

theorem coreWearCfg_answer (room : jrnHasRoom s = true) :
    finishCmd c (coreWearCfg c s) =
      let k := bytesAt c.body 0 0
      let w := wearOf c
      if 6 < k ∨ 1 < bytesAt c.body 1 1 then respond c stBadField [] s
      else if bytesAt c.body 1 1 = 0 then respond c stOk (wearRsp (wearCfg s k)) s
      else if 1 < bytesAt c.body 2 2 ∨ (k < 3 ∧ (w.thresh < 2 ∨ 16 < w.thresh)) ∨ (3 ≤ k ∧ w.thresh = 0) ∨ w.windowS = 0 ∨
          1048575 < w.windowS then respond c stBadField [] s
      else if (wearInsts k).any (fun i => s.leased i) = true then respond c stLeaseHeld [] s
      else enqueueRec (some c.ord) false (.wear k w) (setPhase c.ord .committing [] s) := by
  simp only [coreWearCfg, apply_ite (finishCmd c), finishCmd_fail, finishCmd_done, finishCmd_commit_one room, Bool.not_eq_true',
    wearThreshold_bad_iff, or_assoc]

end

/-! ### CORE.RETIRE (R505 to R508) -/

section
variable {c : Cmd} {s : State} {oks : List Bool}

theorem coreRetire_vacant (vacant : s.pcnOf (bytesAt c.body 0 0) = none) : coreRetire oks c s = .fail stBadField s := by
  simp only [coreRetire, vacant]

/-- The old core, or the spare that would come in for it, is leased. -/
abbrev retireLeased (s : State) (old : Nat) : Bool :=
  s.leased (Blk.core old).inst || (match chooseSpare s old with | some p => s.leased (Blk.core p).inst | none => false)

/-- The old core is unmapped and off, keeping the history of its worn ways. -/
abbrev unmapCore (h old : Nat) (s : State) : State :=
  let u := backSlots old (s.wf .idist (Off.HART_MAP + 8 * h) 9 9 0)
  u.setCore old { wayHist := (u.core old).wayHist }

theorem coreRetire_mapped {old : Nat} (mapped : s.pcnOf (bytesAt c.body 0 0) = some old) (room : jrnHasRoom s = true) :
    finishCmd c (coreRetire oks c s) =
      let h := bytesAt c.body 0 0
      let pa := bytesAt c.body 15 8
      let p := prepareSpare h old oks ((unmapCore h old s).setPcn old .retired)
      if pa % 4 ≠ 0 ∨ s.isNormal pa = false then respond c stBadField [] s
      else if mayRetire s old = false then respond c 0x8000 [] s
      else if retireLeased s old = true then respond c stLeaseHeld [] s
      else finishCmd c (.commit [p.1] p.2) := by
  simp only [coreRetire, mapped, room, Bool.not_true, Bool.false_eq_true, if_false, apply_ite (finishCmd c), Bool.not_eq_true',
    finishCmd_fail] <;> rfl

end

/-- Settles O50: the evaluation by whether the Sett serves, a command by what its body answers. -/
theorem wearEvaluationAndCoreCommands : Obligations.WearEvaluationAndCoreCommands := by
  refine ⟨?wear, ?info, fun s ch tag c ready => belet_answers (body := coreSpareStatus) ready rfl, ?wearCfg, ?retire⟩
  case wear =>
    intro s
    refine ⟨?serves, fun idle => finish_of_eq (if_pos (by rw [idle]; rfl))⟩
    case serves =>
      intro serves a b hits new
      exact finish_of_eq (if_neg (by rw [serves]; decide))
  case info =>
    rintro s ch tag _ c ready rfl rsp
    exact belet_answers (body := coreInfo) ready (coreInfo_answer c s)
  case wearCfg =>
    rintro s ch tag _ c ready room rfl w
    exact belet_answers (body := coreWearCfg) ready (coreWearCfg_answer c s room)
  case retire =>
    intro s ch tag oks c ready room h pa
    exact ⟨fun vacant => belet_answers (body := coreRetire oks) ready (congrArg (finishCmd c) (coreRetire_vacant vacant)),
      fun old mapped => belet_answers (body := coreRetire oks) ready (coreRetire_mapped mapped room)⟩

end Sys2Proof.Machine

/-! ## Supplies, temperatures and the clamp (family 21_power_and_modes) -/
namespace Sys2Proof.Machine

/-! ### Power-fail and the feeds (R514, R515, R517, R518, R569) -/

/-- A voltage within the ratings. -/
theorem notOverRated {v : Nat} (rated : v ≤ 7500) : overRated v = false := decide_eq_false (Nat.not_lt.mpr rated)

theorem ratedFeeds {va vb : Nat} (ratedA : va ≤ 7500) (ratedB : vb ≤ 7500) : ¬(overRated va = true ∨ overRated vb = true) := by
  simp only [notOverRated ratedA, notOverRated ratedB, Bool.false_eq_true, or_self, not_false_eq_true]

section
variable {s : State} {va vb f v : Nat}

/-- The warning's pin, and the feeds that no longer stand. -/
abbrev warned (va vb : Nat) (s : State) : State :=
  let a := setFeeds va vb s
  (({ a with pwr := { a.pwr with pwrFailN := false, uncapFrom := none } } : State).wf .pwrc Off.SUPPLY 3 3 1).wf .pwrc Off.SUPPLY 1 0 0

/-- A warning ends a Den entry under way; from the Den it lets time go on. -/
abbrev denGivenUp (s : State) : State := match s.pwr.den with | .armed _ => denAbort 2 s | .phaseB _ => denAbort 2 s | _ => resumeTime s

/-- In SAFE the domains go off and nothing else; otherwise the journal takes its record first and STANDBY follows. -/
theorem domainsOff_bySafe (safe : Bool) (d : State) :
    (if safe then domainsOff (if safe then d else holdUpJournal d) else toStandby (domainsOff (if safe then d else holdUpJournal d))) =
      if safe then domainsOff d else toStandby (domainsOff (holdUpJournal d)) := by
  cases safe <;> simp only [Bool.false_eq_true, if_false, if_true]

theorem powerFail_warned (notOff : s.modeFlag 0 = false) (notHeld : s.pwr.coldHeld = false) (noWarning : s.pwr.pwrFailN = true)
    (low : max va vb < 870) :
    powerFail va vb s =
      let d := denGivenUp (warned va vb s)
      if d.modeFlag 11 then domainsOff d else toStandby (domainsOff (holdUpJournal d)) := by
  have taken : ¬(s.modeFlag 0 = true ∨ s.pwr.coldHeld = true ∨ 870 ≤ max va vb ∨ (!s.pwr.pwrFailN) = true) := by
    simp only [notOff, notHeld, noWarning, Nat.not_le.mpr low, Bool.not_true, Bool.false_eq_true, or_self, not_false_eq_true]
  exact (if_neg taken).trans (domainsOff_bySafe ((denGivenUp (warned va vb s)).modeFlag 11) _)

/-- The pin is released at 8.8 V. -/
abbrev warningEnded (va vb : Nat) (s : State) : State :=
  let a := setFeeds va vb s
  { a with pwr := { a.pwr with pwrFailN := true, offCmd := false } }

/-- After a hold-up the commands that still commit are answered by no one, and the interrupted erase starts again. -/
abbrev holdUpEnded (b : State) : State :=
  let has := fun (c : Cmd) => c.phase == .committing && b.flash.queue.any (fun r => r.owner == some c.ord)
  { b with
    sett := { b.sett with holdUp := false, cmds := (b.sett.cmds.filter has).map (fun c => { c with discard := true }) }
    flash := { b.flash with erase := none } }

theorem powerFailEnd_warned (notOff : s.modeFlag 0 = false) (warning : s.pwr.pwrFailN = false) (high : 880 ≤ max va vb) :
    powerFailEnd va vb s =
      let b := warningEnded va vb s
      if b.sett.holdUp = false then b
      else (List.range 4).foldl (fun s ch => if s.chState ch = 0 then s else resetChan ch none s) (nextErase (holdUpEnded b)) := by
  have taken : ¬(s.modeFlag 0 = true ∨ s.pwr.pwrFailN = true ∨ max va vb < 880) := by
    simp only [notOff, warning, Nat.not_lt.mpr high, Bool.false_eq_true, or_self, not_false_eq_true]
  simp only [powerFailEnd, if_neg taken, Bool.not_eq_true']

/-- A chip that is on takes what happens to one of its two feeds. -/
theorem feedTaken {p : Prop} (feed : f < 2) (notOff : s.modeFlag 0 = false) (notHeld : s.pwr.coldHeld = false) (crosses : ¬p) :
    ¬(2 ≤ f ∨ p ∨ s.modeFlag 0 = true ∨ s.pwr.coldHeld = true) := by
  simp only [notOff, notHeld, crosses, Nat.not_le.mpr feed, Bool.false_eq_true, or_self, not_false_eq_true]

end

/-! ### The measuring window, the clamp, and temperatures (R516, R526 to R529, R577) -/

section
variable {s : State}

/-- The chip is on, out of reset, and its time moves. -/
theorem measures (notOff : s.modeFlag 0 = false) (moves : s.sett.timeStill = false) (notHeld : s.pwr.coldHeld = false) :
    ¬(s.modeFlag 0 = true ∨ s.sett.timeStill = true ∨ s.pwr.coldHeld = true) := by
  simp only [notOff, moves, notHeld, Bool.false_eq_true, or_self, not_false_eq_true]

theorem exec_tempConversion {t : State} {k i : Nat} {v : Int} (most : v ≤ 500) (least : -220 ≤ v) (effect : tempConversion k i v s = t) :
    exec (.tempConversion k i v) s = .next (settle s t) := by
  have rated : ¬(500 < v ∨ v < -220) := by omega
  exact (if_neg rated).trans (finish_of_eq effect)

variable (notOff : s.modeFlag 0 = false) (notHeld : s.pwr.coldHeld = false)
include notOff notHeld

theorem converts : ¬(s.modeFlag 0 = true ∨ s.pwr.coldHeld = true) := by
  simp only [notOff, notHeld, Bool.false_eq_true, or_self, not_false_eq_true]

theorem tempConversion_tile {i : Nat} {v : Int} (tile : i < 136) (on : s.pwr.mainOn = true) (clocked : inRetention s = false) :
    tempConversion 0 i v s = tileTemp i v s := by
  have senses : ¬(136 ≤ i ∨ (!s.pwr.mainOn) = true ∨ inRetention s = true) := by
    simp only [on, clocked, Nat.not_le.mpr tile, Bool.not_true, Bool.false_eq_true, or_self, not_false_eq_true]
  exact (if_neg (converts notOff notHeld)).trans (if_neg senses)

theorem tempConversion_phy {i : Nat} {v : Int} (chan : i < 16) (on : s.pwr.memOn = true) :
    tempConversion 1 i v s = s.wf (.mc i) Off.MC_TEMP 7 0 ((v / 4) % 256).toNat := by
  have senses : ¬(16 ≤ i ∨ (!s.pwr.memOn) = true) := by
    simp only [on, Nat.not_le.mpr chan, Bool.not_true, Bool.false_eq_true, or_self, not_false_eq_true]
  exact (if_neg (converts notOff notHeld)).trans (if_neg senses)

end

/-- Settles O51: an event by whether the chip is on and measures, beyond the ratings a stop. -/
theorem suppliesTemperaturesAndClamps : Obligations.SuppliesTemperaturesAndClamps := by
  refine ⟨?warning, ?ends, ?off, ?feeds, ?window, ?clamp, ?temps, ?beyond, ?ssc⟩
  case warning =>
    intro s va vb notOff notHeld noWarning low a b d
    exact finish_of_eq (powerFail_warned notOff notHeld noWarning low)
  case ends =>
    intro s va vb notOff warning high ratedA ratedB a b has d
    refine (if_neg (ratedFeeds ratedA ratedB)).trans (finish_of_eq ((powerFailEnd_warned notOff warning high).trans ?_))
    cases holds : b.sett.holdUp
    · exact if_pos holds
    · exact if_neg (Bool.ne_false_iff.mpr holds)
  case off =>
    intro s va vb low b d
    show coldFinish s (turnOff va vb s) = _
    rw [turnOff, if_neg (Nat.not_le.mpr low)]
    rfl
  case feeds =>
    intro s f v feed notOff notHeld u
    exact ⟨fun low => finish_of_eq (if_neg (feedTaken feed notOff notHeld (Nat.not_le.mpr low))),
      fun high rated => (if_neg (by rw [notOverRated rated]; decide)).trans
        (finish_of_eq (if_neg (feedTaken feed notOff notHeld (Nat.not_lt.mpr high))))⟩
  case window =>
    intro s va vb iin p notOff moves notHeld ratedA ratedB
    exact ⟨if_neg (ratedFeeds ratedA ratedB), if_neg (measures notOff moves notHeld)⟩
  case clamp =>
    intro s iin notOff moves notHeld u
    exact finish_of_eq (if_neg (measures notOff moves notHeld))
  case temps =>
    intro s i v notOff notHeld most least
    exact ⟨fun tile on clocked => exec_tempConversion most least (tempConversion_tile notOff notHeld tile on clocked),
      fun chan on => exec_tempConversion most least (tempConversion_phy notOff notHeld chan on),
      exec_tempConversion most least (if_neg (converts notOff notHeld))⟩
  case beyond =>
    intro s v beyond f w
    have exceeds : overRated v = true := decide_eq_true beyond
    exact ⟨if_pos exceeds, if_pos (.inl exceeds), if_pos (.inl exceeds)⟩
  case ssc =>
    exact fun s st notSett notFixed => finish_of_eq (if_neg (not_or.mpr ⟨notSett, notFixed⟩))

end Sys2Proof.Machine

/-! ## The PWR commands (family 21_power_and_modes) -/
namespace Sys2Proof.Machine

/-! ### PWR.CONFIG, PWR.DVFS, PWR.SSC and the Den's preparation (R526, R529, R530) -/

section
variable (c : Cmd) (s : State)

theorem pwrConfig_answer (room : jrnHasRoom s = true) :
    finishCmd c (pwrConfig c s) =
      let f := fun hi lo => bytesAt c.body hi lo
      if 1 < f 0 0 ∨ (f 0 0 = 1 ∧ (f 1 1 < 8 ∨ 32 < f 1 1 ∨ 1 < f 2 2)) then respond c stBadField [] s
      else if f 0 0 = 0 then respond c stOk (pwrConfigRsp s) s
      else enqueueRec (some c.ord) false (.pwrConfig (f 1 1) (f 2 2 = 1)) (setPhase c.ord .committing [] s) := by
  simp only [pwrConfig, apply_ite (finishCmd c), finishCmd_fail, finishCmd_done, finishCmd_commit_one room]

/-- The tiles that a PWR.DVFS names. -/
abbrev dvfsTiles (c : Cmd) : List Nat := (List.range (bytesAt c.body 2 2)).map (fun i => bytesAt c.body 1 1 + i)

/-- The grants of these tiles. -/
abbrev dvfsGrants (c : Cmd) (s : State) : List Nat := (dvfsTiles c).map (fun k => s.rf (.isl (tileStop k)) Off.ISL_FREQ 13 8)

/-- What PWR.DVFS answers: the lowest and the highest grant, and FLIM. -/
abbrev dvfsRsp (c : Cmd) (s : State) : List Byte :=
  leBytes 1 ((dvfsGrants c s).foldl (fun a b => min a b) 63) ++ leBytes 1 ((dvfsGrants c s).foldl (fun a b => max a b) 0) ++
    leBytes 1 (flimNow s)

theorem pwrDvfs_answer :
    finishCmd c (pwrDvfs c s) =
      let f := fun hi lo => bytesAt c.body hi lo
      let u := (dvfsTiles c).foldl (fun s t => freqWrite (tileStop t) (f 3 3) s) s
      if 1 < f 0 0 ∨ f 2 2 = 0 ∨ 136 < f 1 1 + f 2 2 ∨ (f 0 0 = 1 ∧ (f 3 3 < 12 ∨ 36 < f 3 3)) then respond c stBadField [] s
      else if f 0 0 = 0 then respond c stOk (dvfsRsp c s) s
      else if (dvfsTiles c).any (fun t => s.leased (islInst (tileStop t))) = true then respond c stLeaseHeld [] s
      else respond c stOk (dvfsRsp c u) u := by
  simp only [pwrDvfs, apply_ite (finishCmd c), finishCmd_fail, finishCmd_done]

/-- The islands that a PWR.SSC names. -/
abbrev sscStops (c : Cmd) : List Nat :=
  if bytesAt c.body 1 0 == 0xFFFF then (List.range 136).map tileStop else (sscStop (bytesAt c.body 1 0)).toList

/-- One island's spread as PWR.SSC writes it; a PHASE of 0xFF keeps the island's own. -/
abbrev sscPut (c : Cmd) (s : State) (k : Nat) : State :=
  sscWrite k (BitVec.ofNat 64 (bytesAt c.body 3 3 + (bytesAt c.body 4 4) <<< 4 +
    (if bytesAt c.body 5 5 = 0xFF then s.rf (.isl k) Off.ISL_SSC 11 8 else bytesAt c.body 5 5) <<< 8)) s

theorem pwrSsc_answer :
    finishCmd c (pwrSsc c s) =
      let f := fun hi lo => bytesAt c.body hi lo
      let st := (sscStops c).headD 0
      let u := (sscStops c).foldl (sscPut c) s
      if (sscStops c).isEmpty = true ∨ 1 < f 2 2 then respond c stBadField [] s
      else if f 2 2 = 0 then respond c stOk (leBytes 4 (s.rd (.isl st) Off.ISL_SSC).toNat) s
      else if (if islKind st = 2 then 5 else 10) < f 3 3 ∨ 3 < f 4 4 ∨ (15 < f 5 5 ∧ f 5 5 ≠ 0xFF) then respond c stBadField [] s
      else if (sscStops c).any (fun k => s.leased (islInst k)) = true then respond c stLeaseHeld [] s
      else respond c stOk (leBytes 4 (u.rd (.isl st) Off.ISL_SSC).toNat) u := by
  simp only [pwrSsc, apply_ite (finishCmd c), finishCmd_fail, finishCmd_done]

theorem pwrDenPrepare_answer :
    finishCmd c (pwrDenPrepare c s) =
      let f := fun hi lo => bytesAt c.body hi lo
      let src := f 1 1 % 16
      let e := s.settTime + f 13 12 * 1000
      let u := s.wr .pwrc Off.DEN_CFG (BitVec.ofNat 64 (f 0 0 + src * 2 + (f 2 2) <<< 8 + (f 5 4) <<< 16 + (f 11 8) <<< 32))
      if 1 < f 0 0 ∨ (src = 0 ∧ f 2 2 = 0) ∨ (src.testBit 2 = true ∧ (f 5 4 < 90 ∨ 600 < f 5 4)) ∨ (src.testBit 3 = true ∧ f 11 8 = 0) ∨
         f 13 12 < 1 ∨ 10000 < f 13 12 then respond c stBadField [] s
      else if s.pwr.den ≠ .awake then respond c stBusy [] s
      else respond c stOk (leBytes 8 e) { u with pwr := { u.pwr with den := .armed e, wake := none } } := by
  simp only [pwrDenPrepare, apply_ite (finishCmd c), finishCmd_fail, finishCmd_done]

theorem pwrDenCancel_awake (awake : s.pwr.den = .awake) : pwrDenCancel c s = .fail stNoTarget s := by
  simp only [pwrDenCancel, awake]

theorem pwrDenCancel_armed {t : Nat} (armed : s.pwr.den = .armed t) : pwrDenCancel c s = .done stOk [] (denAbort 1 s) := by
  simp only [pwrDenCancel, armed]

theorem pwrDenCancel_busy (notAwake : s.pwr.den ≠ .awake) (notArmed : ∀ t, s.pwr.den ≠ .armed t) :
    pwrDenCancel c s = .fail stBusy s := by
  unfold pwrDenCancel
  split
  next t armed => exact absurd armed (notArmed t)
  next awake => exact absurd awake notAwake
  next => rfl

end

/-! ### PWR.POWER (R523, R538) -/

section
variable {c : Cmd} {s : State}

theorem pwrPower_illegal (bad : 2 < bytesAt c.body 0 0) : pwrPower c s = .fail stBadField s := if_pos bad

theorem pwrPower_tripped (least : 1 ≤ bytesAt c.body 0 0) (most : bytesAt c.body 0 0 ≤ 2) (trip : s.rf .pwrc Off.SUPPLY 5 5 = 1) :
    pwrPower c s = .fail 0x8000 s :=
  (if_neg (Nat.not_lt.mpr most)).trans (if_pos ⟨least, trip⟩)

theorem pwrPower_on (op : bytesAt c.body 0 0 = 1) (noTrip : s.rf .pwrc Off.SUPPLY 5 5 ≠ 1) :
    pwrPower c s = .done stOk (modeRsp (enterBringup s)) (enterBringup s) := by
  simp only [pwrPower, op, noTrip, and_false, if_false, if_true, Nat.reduceLT]

/-- On channel 0 OFF and CYCLE answer before the power goes. -/
abbrev answeredFirst (c : Cmd) (s : State) : State := if c.ch = 0 then respond c stOk (leBytes 1 1) s else s

/-- In STANDBY nothing is left to turn off, and AUTO_ON alone is held off. -/
abbrev turnedOff (b : State) : State := if b.modeFlag 1 then { b with pwr := { b.pwr with offCmd := true } } else powerOff b

theorem pwrPower_off (op : bytesAt c.body 0 0 = 0) :
    finishCmd c (pwrPower c s) =
      let u := turnedOff (answeredFirst c s)
      if c.ch = 0 then setPhase c.ord .running [] u else respond c stOk (modeRsp u) u := by
  simp only [pwrPower, op, Nat.not_lt_zero, Nat.reduceLeDiff, Nat.reduceEqDiff, false_and, if_false, apply_ite (finishCmd c),
    finishCmd_run, finishCmd_done]

theorem pwrPower_cycle (op : bytesAt c.body 0 0 = 2) (noTrip : s.rf .pwrc Off.SUPPLY 5 5 ≠ 1) :
    finishCmd c (pwrPower c s) =
      let u := turnedOff (answeredFirst c s)
      setPhase c.ord .running [] { u with pwr := { u.pwr with cycleAt := some (u.tick + 1000 * ms) } } := by
  simp only [pwrPower, op, noTrip, Nat.lt_irrefl, Nat.reduceEqDiff, and_false, if_false, if_true, finishCmd_run]

end

/-! ### PWR.MODE_REQ and the end of a cycle (R522, R538) -/

section
variable {s : State}

/-- A mode that the chip is in already is entered again without an effect. -/
theorem modeReq_already {n : Nat} (inside : (n = 1 ∧ s.pwr.operating = true) ∨ (n = 2 ∧ s.modeFlag 9 = true) ∨ (n = 4 ∧ s.modeFlag 10 = true)) :
    modeReq n s = .done stOk (modeRsp s) s := by
  rcases inside with ⟨rfl, inside⟩ | ⟨rfl, inside⟩ | ⟨rfl, inside⟩ <;> simp only [modeReq, inside, if_true]

theorem modeReq_leave {n f : Nat} (leaves : (n = 3 ∧ f = 9) ∨ (n = 5 ∧ f = 10)) :
    modeReq n s =
      let u := if s.modeFlag f then setMode f false s else s
      .done stOk (modeRsp u) u := by
  rcases leaves with ⟨rfl, rfl⟩ | ⟨rfl, rfl⟩
  · cases inside : s.modeFlag 9 <;> simp only [modeReq, inside, Bool.false_eq_true, if_false, if_true]
  · cases inside : s.modeFlag 10 <;> simp only [modeReq, inside, Bool.false_eq_true, if_false, if_true]

theorem modeReq_operation_entered (before : s.pwr.operating = false) (bringup : s.modeFlag 2 = true) (handedOff : s.pwr.handOff = true) :
    modeReq 1 s =
      let u := setModeFlags (setFld (setFld (s.rd .pwrc Off.MODE_FLAGS) 2 2 0) 3 3 1)
        (setStage 10 { s with pwr := { s.pwr with operating := true } })
      .done stOk (modeRsp u) u := by
  simp only [modeReq, before, Bool.false_eq_true, if_false, if_pos (And.intro bringup handedOff)]

theorem modeReq_operation_refused (before : s.pwr.operating = false) (early : s.modeFlag 2 = false ∨ s.pwr.handOff = false) :
    modeReq 1 s = .fail stWrongMode s := by
  have notYet : ¬(s.modeFlag 2 = true ∧ s.pwr.handOff = true) := by
    rcases early with noBringup | noHandOff
    · simp only [noBringup, Bool.false_eq_true, false_and, not_false_eq_true]
    · simp only [noHandOff, Bool.false_eq_true, and_false, not_false_eq_true]
  simp only [modeReq, before, Bool.false_eq_true, if_false, if_neg notYet]

/-- The Den is being entered or left. -/
theorem entering_iff (s : State) : (s.pwr.den != .awake) = true ↔ s.pwr.den ≠ .awake := bne_iff_ne

theorem modeReq_handover_refused (outside : s.modeFlag 9 = false)
    (bad : s.pwr.operating = false ∨ s.modeFlag 6 = true ∨ s.modeFlag 7 = true ∨ s.modeFlag 10 = true ∨ s.pwr.den ≠ .awake) :
    modeReq 2 s = .fail stWrongMode s := by
  simp only [modeReq, outside, Bool.not_eq_true', entering_iff, if_pos bad, Bool.false_eq_true, if_false]

theorem modeReq_handover_taken (outside : s.modeFlag 9 = false)
    (good : ¬(s.pwr.operating = false ∨ s.modeFlag 6 = true ∨ s.modeFlag 7 = true ∨ s.modeFlag 10 = true ∨ s.pwr.den ≠ .awake)) :
    modeReq 2 s =
      let u := scrubCut (endLeases (fun _ => true) (some 3) (setMode 9 true s))
      if s.chState 3 ≠ 1 then .fail stNoTarget s else .done stOk (modeRsp u) u := by
  simp only [modeReq, outside, Bool.not_eq_true', entering_iff, if_neg good, Bool.false_eq_true, if_false]

/-- DIAGNOSTIC is entered after the hand-off of a bring-up, or from operation with no handover and the Den awake. -/
abbrev MayDiagnose (s : State) : Prop :=
  (s.modeFlag 2 = true ∧ s.pwr.handOff = true) ∨ (s.pwr.operating = true ∧ s.modeFlag 9 = false ∧ s.pwr.den = .awake)

theorem notDiagnose_iff (s : State) :
    (!((s.modeFlag 2 && s.pwr.handOff) || (s.pwr.operating && !s.modeFlag 9 && !(s.pwr.den != .awake)))) = true ↔ ¬MayDiagnose s := by
  simp only [MayDiagnose, Bool.not_eq_true', ← Bool.not_eq_true, Bool.or_eq_true, Bool.and_eq_true, bne_iff_ne, ne_eq, Decidable.not_not,
    and_assoc]

theorem modeReq_diagnostic_refused (outside : s.modeFlag 10 = false) (bad : ¬MayDiagnose s) : modeReq 4 s = .fail stWrongMode s := by
  simp only [modeReq, outside, Bool.false_eq_true, if_false, if_pos ((notDiagnose_iff s).mpr bad)]

theorem modeReq_diagnostic_taken (outside : s.modeFlag 10 = false) (good : MayDiagnose s) :
    modeReq 4 s =
      let u := closeChan 3 (closeChan 1 (twinLoss 4 (setMode 10 true { s with pwr := { s.pwr with diagFromOp := s.pwr.operating } })))
      if anyLodge s then .fail stBusy s else .done stOk (modeRsp u) u := by
  have taken := mt (notDiagnose_iff s).mp (not_not_intro good)
  simp only [modeReq, outside, Bool.false_eq_true, if_false, if_neg taken]

theorem modeReq_illegal {r : Nat} (bad : r = 0 ∨ 5 < r) : modeReq r s = .fail stBadField s := by
  match r, bad with
  | 0, _ => rfl
  | _ + 6, _ => rfl
  | 1, bad | 2, bad | 3, bad | 4, bad | 5, bad => omega

/-- A PWR.POWER CYCLE whose time has come enters BRINGUP in STANDBY; a command that still waits is answered. -/
theorem powerCycleOn_due {t : Nat} {waiting : Option Cmd} (due : s.pwr.cycleAt = some t) (standby : s.modeFlag 1 = true)
    (noTrip : s.rf .pwrc Off.SUPPLY 5 5 ≠ 1) (noWarning : s.pwr.pwrFailN = true)
    (cmd : runningCmd (enterBringup (s.toTick t)) 0x0708 = waiting) :
    powerCycleOn s = waiting.elim (enterBringup (s.toTick t))
      (fun c => respond c stOk (modeRsp (enterBringup (s.toTick t))) (enterBringup (s.toTick t))) := by
  have taken : ¬((!s.modeFlag 1) = true ∨ s.rf .pwrc Off.SUPPLY 5 5 = 1 ∨ (!s.pwr.pwrFailN) = true) := by
    simp only [standby, noTrip, noWarning, Bool.not_true, Bool.false_eq_true, or_self, not_false_eq_true]
  cases waiting with
  | none => simp only [powerCycleOn, due, if_neg taken, cmd, Option.elim_none]
  | some c => simp only [powerCycleOn, due, if_neg taken, cmd, Option.elim_some]

end

section
variable {c : Cmd} {s t : State} {ch tag : Nat} {r : CmdRes}

theorem exec_pwrDenCancel (ready : Ready s ch tag 0x0707 c) (answer : pwrDenCancel c s = r) (effect : finishCmd c r = t) :
    exec (.pwrDenCancel ch tag) s = .next (settle s t) :=
  belet_answers (body := pwrDenCancel) ready ((congrArg (finishCmd c) answer).trans effect)

theorem exec_pwrPower (ready : Ready s ch tag 0x0708 c) (answer : finishCmd c (pwrPower c s) = t) :
    exec (.pwrPower ch tag) s = .next (settle s t) :=
  belet_answers (body := pwrPower) ready answer

/-- A PWR.MODE_REQ answers what its request answers. -/
theorem exec_pwrModeReq {n : Nat} (ready : Ready s ch tag 0x0705 c) (names : bytesAt c.body 0 0 = n) (answer : modeReq n s = r)
    (effect : finishCmd c r = t) : exec (.pwrModeReq ch tag) s = .next (settle s t) :=
  belet_answers (body := pwrModeReq) ready ((congrArg (finishCmd c) ((congrArg (modeReq · s) names).trans answer)).trans effect)

end

/-- Settles O52: a command by what its body answers, MODE_REQ by the mode it asks for. -/
theorem powerCommands : Obligations.PowerCommands := by
  refine ⟨?commands, ?mode, ?cycle⟩
  case commands =>
    intro s ch tag op c ready f
    refine ⟨?status, ?config, ?dvfs, ?ssc, ?prepare, ?cancel, ?power⟩ <;> rintro rfl
    case status => exact belet_answers (body := pwrStatus) ready rfl
    case config => exact fun room => belet_answers (body := pwrConfig) ready (pwrConfig_answer c s room)
    case dvfs => exact belet_answers (body := pwrDvfs) ready (pwrDvfs_answer c s)
    case ssc => exact belet_answers (body := pwrSsc) ready (pwrSsc_answer c s)
    case prepare => exact belet_answers (body := pwrDenPrepare) ready (pwrDenPrepare_answer c s)
    case cancel =>
      exact ⟨fun awake => exec_pwrDenCancel ready (pwrDenCancel_awake c s awake) rfl,
        fun t armed => exec_pwrDenCancel ready (pwrDenCancel_armed c s armed) rfl,
        fun notAwake notArmed => exec_pwrDenCancel ready (pwrDenCancel_busy c s notAwake notArmed) rfl⟩
    case power =>
      exact ⟨fun bad => exec_pwrPower ready (congrArg (finishCmd c) (pwrPower_illegal bad)),
        fun least most trip => exec_pwrPower ready (congrArg (finishCmd c) (pwrPower_tripped least most trip)),
        fun on noTrip => exec_pwrPower ready (congrArg (finishCmd c) (pwrPower_on on noTrip)),
        fun off => exec_pwrPower ready (pwrPower_off off),
        fun cycle noTrip => exec_pwrPower ready (pwrPower_cycle cycle noTrip)⟩
  case mode =>
    intro s ch tag c ready r e ok no opr
    refine ⟨?operating, ?operation, ?early, ?handed, ?handover, ?handBack, ?diagnosing, ?diagnostic, ?leave, ?illegal⟩
    case operating => exact fun names before => exec_pwrModeReq ready names (modeReq_already (.inl ⟨rfl, before⟩)) rfl
    case operation =>
      exact fun names before bringup handedOff => exec_pwrModeReq ready names (modeReq_operation_entered before bringup handedOff) rfl
    case early => exact fun names before early => exec_pwrModeReq ready names (modeReq_operation_refused before early) rfl
    case handed => exact fun names inside => exec_pwrModeReq ready names (modeReq_already (.inr (.inl ⟨rfl, inside⟩))) rfl
    case handover =>
      refine fun names outside => ⟨fun bad => exec_pwrModeReq ready names (modeReq_handover_refused outside bad) rfl, ?_⟩
      intro operating notSix notSeven notDiag awake
      have good : ¬(s.pwr.operating = false ∨ s.modeFlag 6 = true ∨ s.modeFlag 7 = true ∨ s.modeFlag 10 = true ∨ s.pwr.den ≠ .awake) := by
        simp only [show s.pwr.operating = true from operating, notSix, notSeven, notDiag, awake, Bool.true_eq_false, Bool.false_eq_true,
          ne_eq, not_true_eq_false, or_self, not_false_eq_true]
      refine (exec_pwrModeReq ready names (modeReq_handover_taken outside good) rfl).trans ?_
      by_cases closed : s.chState 3 ≠ 1
      · simp only [if_pos closed, finishCmd_fail, no]
      · simp only [if_neg closed, finishCmd_done, ok]
    case handBack => exact fun names => exec_pwrModeReq ready names (modeReq_leave (.inl ⟨rfl, rfl⟩)) rfl
    case diagnosing => exact fun names inside => exec_pwrModeReq ready names (modeReq_already (.inr (.inr ⟨rfl, inside⟩))) rfl
    case diagnostic =>
      refine fun names outside => ⟨fun good => ?_, fun bad => exec_pwrModeReq ready names (modeReq_diagnostic_refused outside bad) rfl⟩
      refine (exec_pwrModeReq ready names (modeReq_diagnostic_taken outside good) rfl).trans ?_
      cases lodge : anyLodge s
      · rfl
      · rfl
    case leave => exact fun names => exec_pwrModeReq ready names (modeReq_leave (.inr ⟨rfl, rfl⟩)) rfl
    case illegal => exact fun bad => exec_pwrModeReq ready rfl (modeReq_illegal bad) rfl
  case cycle =>
    intro s t due standby noTrip noWarning u
    exact ⟨fun c waits => finish_of_eq (powerCycleOn_due due standby noTrip noWarning waits),
      fun none => finish_of_eq (powerCycleOn_due due standby noTrip noWarning none)⟩

end Sys2Proof.Machine

/-! ## COLD, WARM, bring-up and hand-off (family 21_power_and_modes) -/
namespace Sys2Proof.Machine

section
variable {s : State}

/-- Power, or the release of the pin of a chip that is not OFF, at a voltage that suffices. -/
theorem coldReset_taken {cause va vb : Nat} {tp : Bool} (legal : cause < 2) (high : (if cause = 0 then 880 else 850) ≤ max va vb)
    (notOff : cause = 1 → s.modeFlag 0 = false) :
    coldReset cause va vb tp s =
      let held := decide (cause = 0) && s.pwr.coldHeld
      let a := coldBase va vb s
      let b := ({ a with pwr := { a.pwr with tpRoot := tp, coldHeld := held } } : State).wf .pwrc Off.RESET_CAUSE 2 0 cause
      let d := carrying (b.wf .pwrc Off.SUPPLY 1 0 (b2n (decide (880 ≤ va)) + 2 * b2n (decide (880 ≤ vb))))
      if held then d else bootSett d := by
  refine if_neg ?_
  rintro (noCause | low | ⟨pin, off⟩)
  · exact Nat.not_lt.mpr noCause legal
  · exact Nat.not_lt.mpr high low
  · exact Bool.false_ne_true ((notOff pin).symm.trans off)

/-! ### Bring-up by what the probe found (R548, R550) -/

theorem exec_bringupStart {pr : Probe} {t : State} (may : mayBringUp s = true)
    (effect : bringUp pr (if s.modeFlag 1 then enterBringup s else s) = t) : exec (.bringupStart pr) s = .next (settle s t) :=
  finish_of_eq ((if_pos may).trans effect)

section
variable {pr : Probe}

theorem bringUp_domainFail (fails : pr.domainFail = true) : bringUp pr s = stopBringup 5 0xFF (mainUp pr s) := if_pos fails

variable (domains : pr.domainFail = false)
include domains

theorem bringUp_linkFail {st : Nat} (link : failedStop (mainUp pr s) = some st) : bringUp pr s = stopBringup 2 st (mainUp pr s) := by
  simp only [bringUp, domains, link, Bool.false_eq_true, if_false]

variable (links : failedStop (mainUp pr s) = none)
include links

theorem bringUp_dramMissing {n : Nat} (missing : disabledChan pr = some n) :
    bringUp pr s = stopBringup 1 n (dramUp pr (mainUp pr s)) := by
  simp only [bringUp, domains, links, missing, Bool.false_eq_true, if_false]

theorem bringUp_complete (dram : disabledChan pr = none) : bringUp pr s = ioUp (dramUp pr (mainUp pr s)) := by
  simp only [bringUp, domains, links, dram, Bool.false_eq_true, if_false]

end

/-! ### Hand-off and WARM (R543, R547) -/

theorem handOff_taken (last : stageNow s = 8) (ended : s.rf .pwrc Off.BRINGUP 12 12 ≠ 0) (bringup : s.modeFlag 2 = true)
    (notSafe : s.modeFlag 11 = false) (first_ : s.pwr.handOff = false) (noWarning : s.pwr.pwrFailN = true) :
    handOff s =
      let u := setStage 9 ((s.served.mergeSort (fun a b => decide (a.1 ≤ b.1))).foldl
        (fun s (e : Nat × Nat) => releaseCore e.1 e.2 0x100000 s) s)
      openChan 0 { u with pwr := { u.pwr with handOff := true, everHandOff := true, warmRunning := false } } := by
  refine if_neg ?_
  simp only [last, ended, bringup, notSafe, first_, noWarning, ne_eq, not_true_eq_false, Bool.not_true, Bool.false_eq_true, or_self,
    not_false_eq_true]

theorem handOff_early (early : stageNow s ≠ 8 ∨ s.rf .pwrc Off.BRINGUP 12 12 = 0 ∨ s.modeFlag 2 = false) : handOff s = s := by
  refine if_pos ?_
  rcases early with stage | notEnded | noBringup
  · exact .inl stage
  · exact .inr (.inl notEnded)
  · exact .inr (.inr (.inl (by rw [noBringup]; rfl)))

section
variable {cause : Nat} (notOff : s.modeFlag 0 = false) (notHeld : s.pwr.coldHeld = false)
include notOff notHeld

theorem warmReset_ignored (ignored : warmIgnored s = true) : warmReset cause s = s.incSat .pwrc Off.RESET_CAUSE 27 20 :=
  (if_neg (converts notOff notHeld)).trans (if_pos ignored)

variable (heard : warmIgnored s = false)
include heard

theorem warmReset_again (running : s.pwr.warmRunning = true) : warmReset cause s = s.incSat .pwrc Off.RESET_CAUSE 19 12 :=
  (if_neg (converts notOff notHeld)).trans ((if_neg (Bool.eq_false_iff.mp heard)).trans (if_pos running))

theorem warmReset_taken (idle : s.pwr.warmRunning = false) : warmReset cause s = stage8 (warmUp (warmDown cause s)) :=
  (if_neg (converts notOff notHeld)).trans ((if_neg (Bool.eq_false_iff.mp heard)).trans (if_neg (Bool.eq_false_iff.mp idle)))

end

end

/-- Settles O54: a COLD by its guard, bring-up by how far the probe lets it go, a WARM by whether it is heard. -/
theorem resetsBringUpAndHandOff : Obligations.ResetsBringUpAndHandOff := by
  refine ⟨?cold, fun s => rfl, ?bringup, ?handOff, ?warm⟩
  case cold =>
    intro s cause va vb tp legal ratedA ratedB high notOff held a b d
    exact (if_neg (ratedFeeds ratedA ratedB)).trans (congrArg (coldFinish s) (coldReset_taken legal high notOff))
  case bringup =>
    intro s pr
    refine ⟨fun early => finish_of_eq (if_neg (Bool.eq_false_iff.mp early)), ?begins⟩
    intro may a e m
    exact ⟨fun fails => exec_bringupStart may (bringUp_domainFail fails),
      fun st domains link => exec_bringupStart may (bringUp_linkFail domains link),
      fun n domains links missing => exec_bringupStart may (bringUp_dramMissing domains links missing),
      fun domains links dram => exec_bringupStart may (bringUp_complete domains links dram)⟩
  case handOff =>
    intro s
    exact ⟨fun last ended bringup notSafe first_ noWarning =>
      finish_of_eq (handOff_taken last ended bringup notSafe first_ noWarning), fun early => finish_of_eq (handOff_early early)⟩
  case warm =>
    intro s notOff notHeld
    exact ⟨fun ignored => finish_of_eq (warmReset_ignored notOff notHeld ignored),
      fun heard running => finish_of_eq (warmReset_again notOff notHeld heard running),
      fun heard idle => finish_of_eq (warmReset_taken notOff notHeld heard idle)⟩

end Sys2Proof.Machine
